-- ==== Sys2Proof/Word.lean ====
section
/-! DEFINITION. The word types of the machine and the sparse table that holds numbered things (spec/03 R48, spec/00 R9). -/

namespace Sys2Proof

/-- A 64-bit scalar value. -/
abbrev W64 := BitVec 64
/-- A 32-bit slot word or accumulator element. -/
abbrev W32 := BitVec 32
/-- A 1,024-bit vector or special-function register. -/
abbrev W1024 := BitVec 1024
/-- A 128-bit mask. -/
abbrev W128 := BitVec 128
/-- A byte. -/
abbrev Byte := BitVec 8
/-- The 768-byte image of a distribution register (spec/09 R208). -/
abbrev DImage := BitVec 6144

/-- A table of numbered things: pairs with rising keys. A key that is not listed stands for a default value that the reader
names. -/
abbrev Tab (α : Type) := List (Nat × α)

end Sys2Proof
end

