-- ==== Sys2Proof/Syntax.lean ====
section
/-! DEFINITION. The abstract syntax: one constructor for every row of spec/opcode_table.json. Slot words keep their fields as
drawn in spec/03 R46 and in the chapter of each operation; micro-ops keep the fields of spec/07 R149; events carry what the
outside world or the clock chooses. -/

namespace Sys2Proof

/-- S-R format (R46). -/
structure SROp where
  e : BitVec 1
  u : BitVec 4
  g : BitVec 4
  d : BitVec 5
  a : BitVec 5
  b : BitVec 5
  deriving DecidableEq, Repr

/-- S-I format (R46). -/
structure SIOp where
  e : BitVec 1
  u : BitVec 4
  g : BitVec 4
  d : BitVec 5
  a : BitVec 5
  imm : BitVec 7
  deriving DecidableEq, Repr

/-- S-K format (R46). -/
structure SKOp where
  e : BitVec 1
  u : BitVec 4
  g : BitVec 4
  d : BitVec 5
  imm : BitVec 15
  deriving DecidableEq, Repr

/-- V format (R46). -/
structure VOp where
  e : BitVec 1
  u : BitVec 4
  g : BitVec 4
  w : BitVec 2
  d : BitVec 5
  a : BitVec 5
  b : BitVec 5
  deriving DecidableEq, Repr

/-- F format (R46). -/
structure FOp where
  e : BitVec 1
  g : BitVec 4
  d : BitVec 5
  a : BitVec 5
  b : BitVec 5
  deriving DecidableEq, Repr

/-- L format (R46). -/
structure LOp where
  e : BitVec 1
  u : BitVec 4
  g : BitVec 4
  f3 : BitVec 3
  d : BitVec 5
  a : BitVec 5
  m4 : BitVec 4
  deriving DecidableEq, Repr

/-- L-FENCE format (R46, R249). -/
structure FenceOp where
  e : BitVec 1
  u : BitVec 4
  g : BitVec 4
  pred : BitVec 6
  succ : BitVec 6
  scope : BitVec 3
  deriving DecidableEq, Repr

/-- C format (R46). -/
structure COp where
  e : BitVec 1
  u : BitVec 4
  g : BitVec 4
  h : BitVec 3
  tok : BitVec 6
  list : BitVec 5
  aux : BitVec 5
  deriving DecidableEq, Repr

/-- `MCALL` (R141). -/
structure MCallOp where
  e : BitVec 1
  g : BitVec 4
  routine : BitVec 8
  tok : BitVec 6
  list : BitVec 5
  deriving DecidableEq, Repr

/-- `MCLR` (R141). -/
structure MClrOp where
  e : BitVec 1
  g : BitVec 4
  mask : BitVec 8
  tok : BitVec 6
  deriving DecidableEq, Repr

/-- `MSTAT` (R141). -/
structure MStatOp where
  e : BitVec 1
  g : BitVec 4
  tok : BitVec 6
  a : BitVec 5
  deriving DecidableEq, Repr

/-- `MSIG` (R141). -/
structure MSigOp where
  e : BitVec 1
  g : BitVec 4
  tile : BitVec 3
  tok : BitVec 6
  a : BitVec 5
  deriving DecidableEq, Repr

/-- `MABORT` (R141). -/
structure MAbortOp where
  e : BitVec 1
  g : BitVec 4
  deriving DecidableEq, Repr

/-- `MLOAD` (R141). -/
structure MLoadOp where
  e : BitVec 1
  g : BitVec 4
  tok : BitVec 6
  a : BitVec 5
  b : BitVec 5
  deriving DecidableEq, Repr

/-- B-P format (R62): the guard field is the condition. -/
structure PrepOp where
  e : BitVec 1
  g : BitVec 4
  entry : BitVec 2
  dist : BitVec 4
  off : BitVec 15
  deriving DecidableEq, Repr

/-- `BPREPX`, `BCALLX` (R63). -/
structure PrepXOp where
  e : BitVec 1
  g : BitVec 4
  entry : BitVec 2
  dist : BitVec 4
  a : BitVec 5
  deriving DecidableEq, Repr

/-- `RET` (R63). -/
structure RetOp where
  e : BitVec 1
  g : BitVec 4
  entry : BitVec 2
  dist : BitVec 4
  deriving DecidableEq, Repr

/-- `LOOP` (R68). -/
structure LoopOp where
  e : BitVec 1
  g : BitVec 4
  a : BitVec 5
  off : BitVec 11
  deriving DecidableEq, Repr

/-- `LOOPI` (R68). -/
structure LoopIOp where
  e : BitVec 1
  g : BitVec 4
  count : BitVec 8
  off : BitVec 8
  deriving DecidableEq, Repr

/-- `TRAP`, `SYSCALL` (R88). -/
structure CodeOp where
  e : BitVec 1
  g : BitVec 4
  code : BitVec 16
  deriving DecidableEq, Repr

/-- A B-X operation with no operand field. -/
structure PlainOp where
  e : BitVec 1
  g : BitVec 4
  deriving DecidableEq, Repr

/-- `TWAIT` (R274). -/
structure TWaitOp where
  e : BitVec 1
  g : BitVec 4
  tok : BitVec 6
  deriving DecidableEq, Repr

/-- `TPOLL` (R275). -/
structure TPollOp where
  e : BitVec 1
  g : BitVec 4
  tok : BitVec 6
  d : BitVec 5
  m : BitVec 3
  deriving DecidableEq, Repr

/-- `WAITWP` (R289). -/
structure WaitWpOp where
  e : BitVec 1
  g : BitVec 4
  ch : BitVec 1
  a : BitVec 5
  deriving DecidableEq, Repr

/-- A B-X operation with one x register (R82, R331). -/
structure RegOp where
  e : BitVec 1
  g : BitVec 4
  a : BitVec 5
  deriving DecidableEq, Repr

/-- `SETBANK` (R74). -/
structure SetBankOp where
  e : BitVec 1
  g : BitVec 4
  f : BitVec 2
  delta : BitVec 8
  deriving DecidableEq, Repr

/-- `MFS`, `MTS` (R81). -/
structure SysOp where
  e : BitVec 1
  g : BitVec 4
  idx : BitVec 10
  file : BitVec 1
  r : BitVec 5
  deriving DecidableEq, Repr

/-- `OVL` (R78). -/
structure OvlOp where
  e : BitVec 1
  g : BitVec 4
  n : BitVec 8
  deriving DecidableEq, Repr

/-- `LAUNCHG`, `SHAPE` (R331). -/
structure KeyOp where
  e : BitVec 1
  g : BitVec 4
  a : BitVec 5
  key : BitVec 8
  deriving DecidableEq, Repr

/-- `PREDICT` (R331). -/
structure PredictOp where
  e : BitVec 1
  g : BitVec 4
  mode : BitVec 2
  a : BitVec 5
  key : BitVec 8
  deriving DecidableEq, Repr

/-- `ALLOC` (R331). -/
structure AllocOp where
  e : BitVec 1
  g : BitVec 4
  a : BitVec 5
  b : BitVec 5
  deriving DecidableEq, Repr

/-- `EVSET`, `EVWAIT` (R331). -/
structure EventOp where
  e : BitVec 1
  g : BitVec 4
  a : BitVec 5
  deriving DecidableEq, Repr

/-- A matrix micro-op word without its code and its zero bits (R149). -/
structure UOp where
  t : BitVec 3
  gA : BitVec 3
  gB : BitVec 3
  p : BitVec 3
  imm : BitVec 32
  deriving DecidableEq, Repr

/-- What the boot ROMs and the sideband challenges of a start found (R366): bit d of `rom` is set when die d passed its ROM check;
bits 0 to 3 of `bound` are set when the boundaries 0-1, 0-2, 1-3 and 2-3 passed. -/
structure StartView where
  rom : BitVec 4
  bound : BitVec 4
  deriving DecidableEq, Repr

/-- What a start ends with (R391): the stacks that failed training and the host ports (dies 0 and 1) that trained. -/
structure StartEnd where
  absent : BitVec 8
  hostPorts : BitVec 2
  deriving DecidableEq, Repr

/-- The host registers a plain register write may name (R293, R354, R372, R376, R377, R379-R381, R386, R392, R399). -/
inductive HostReg where
  | qbase (q : BitVec 6) | qsize (q : BitVec 6) | qhead (q : BitVec 6) | qctl (q : BitVec 6) | qstat (q : BitVec 6)
  | ctxtab | ctxarg | ctxstat | diestat | devnum
  | rbase | rbaseMirror | rsize | rtail | rhead | rstat | rmsi
  | thresh (a : Nat) | eccsel | ecccnt | mcsel | mccnt
  | avsctl (d : Nat) | dispmask (d : Nat) | iftstat | sealrd | sealword | therm (d : Nat)
  | pstat (p : Nat) | pcnt (p : Nat) | bootstat
  deriving DecidableEq, Repr

/-- Whose waiting PRIORITY_AGING counts (R296). -/
inductive AgingWho where
  | launch (uid : Nat)
  | task (uid : Nat)
  deriving DecidableEq, Repr

/-- What REMOTE_ACCESS_TIMEOUT ends (R78, R266, R279): the n-th outstanding access of the core, its channel's running operation, the
fetch into one of its instruction banks, or the wait for the acknowledgement of the n-th of the writes that the core has sent (R39, R250). -/
inductive TimeoutWho where
  | access (n : Nat)
  | runner (ch : Nat)
  | fetch (bank : Nat)
  | sent (n : Nat)
  deriving DecidableEq, Repr

/-- A fabric packet as it arrives (R382): its link sequence number, whether its CRC is good, and the bytes it writes, at package offsets,
or, for an operation of another device that runs in a context here (spec/16 R362), at that context's virtual addresses. -/
structure Packet where
  seq : BitVec 16
  crcOk : Bool
  writes : List (Nat × BitVec 8)
  ctx : Option Nat := none
  deriving DecidableEq, Repr

/-- Where an uncorrected error arises (R376, R378): a code word of memory, of an L2 slice or of a die's remote-data cache; a held row of
a tile, or the n-th held store of a core's task; a tile register of an engine; the register files of a core; its instruction and
microprogram memory. -/
inductive EccSite where
  | mem (addr : Nat)
  | slice (addr : Nat)
  | cache (die addr : Nat)
  | held (core tile : Nat)
  | store (core n : Nat)
  | tile (core engine t : Nat)
  | file (core : Nat)
  | imem (core : Nat)
  deriving DecidableEq, Repr

/-- The instructions, micro-ops and events of spec/opcode_table.json, one constructor per row. -/
inductive Instr where
  | add (o : SROp)
  | sub (o : SROp)
  | mul (o : SROp)
  | mulh (o : SROp)
  | mulhu (o : SROp)
  | div (o : SROp)
  | divu (o : SROp)
  | rem (o : SROp)
  | remu (o : SROp)
  | and (o : SROp)
  | or (o : SROp)
  | xor (o : SROp)
  | andn (o : SROp)
  | shl (o : SROp)
  | shr (o : SROp)
  | sar (o : SROp)
  | ror (o : SROp)
  | min (o : SROp)
  | max (o : SROp)
  | minu (o : SROp)
  | maxu (o : SROp)
  | clz (o : SROp)
  | ctz (o : SROp)
  | popc (o : SROp)
  | sext (o : SROp)
  | zext (o : SROp)
  | addc (o : SROp)
  | subb (o : SROp)
  | cmpeq (o : SROp)
  | cmplt (o : SROp)
  | cmpltu (o : SROp)
  | cmple (o : SROp)
  | cmpleu (o : SROp)
  | pand (o : SROp)
  | por (o : SROp)
  | pxor (o : SROp)
  | movx (o : SROp)
  | movp (o : SROp)
  | movfp (o : SROp)
  | gset (o : SROp)
  | gget (o : SROp)
  | hset (o : SROp)
  | hget (o : SROp)
  | guard (o : SROp)
  | rdvc (o : SROp)
  | addi (o : SIOp)
  | andi (o : SIOp)
  | ori (o : SIOp)
  | xori (o : SIOp)
  | shli (o : SIOp)
  | shri (o : SIOp)
  | sari (o : SIOp)
  | rori (o : SIOp)
  | muli (o : SIOp)
  | cmpeqi (o : SIOp)
  | cmplti (o : SIOp)
  | cmpltui (o : SIOp)
  | cmplei (o : SIOp)
  | cmpleui (o : SIOp)
  | tokl (o : SIOp)
  | movi (o : SKOp)
  | movsh (o : SKOp)
  | vadd (o : VOp)
  | vsub (o : VOp)
  | vmul (o : VOp)
  | vfma (o : VOp)
  | vfms (o : VOp)
  | vfnma (o : VOp)
  | vmin (o : VOp)
  | vmax (o : VOp)
  | vabs (o : VOp)
  | vneg (o : VOp)
  | vdiv (o : VOp)
  | vsqrt (o : VOp)
  | vand (o : VOp)
  | vor (o : VOp)
  | vxor (o : VOp)
  | vandn (o : VOp)
  | vshl (o : VOp)
  | vshr (o : VOp)
  | vsar (o : VOp)
  | vshli (o : VOp)
  | vshri (o : VOp)
  | vsari (o : VOp)
  | vmulhi (o : VOp)
  | vmulhiu (o : VOp)
  | vadc (o : VOp)
  | vsbc (o : VOp)
  | vmacw (o : VOp)
  | vcmpeq (o : VOp)
  | vcmplt (o : VOp)
  | vcmple (o : VOp)
  | vcmpltu (o : VOp)
  | vcmpleu (o : VOp)
  | vclass (o : VOp)
  | vsel (o : VOp)
  | vmov (o : VOp)
  | vmovx (o : VOp)
  | vbcast (o : VOp)
  | vext (o : VOp)
  | vperm (o : VOp)
  | viota (o : VOp)
  | vredadd (o : VOp)
  | vredmax (o : VOp)
  | vredmin (o : VOp)
  | vcvt (o : VOp)
  | vqnt (o : VOp)
  | vdqnt (o : VOp)
  | vpack (o : VOp)
  | vunpk (o : VOp)
  | vclz (o : VOp)
  | vpopc (o : VOp)
  | vscan (o : VOp)
  | kand (o : VOp)
  | kor (o : VOp)
  | kxor (o : VOp)
  | kmov (o : VOp)
  | kpopc (o : VOp)
  | kfirst (o : VOp)
  | fexp2 (o : FOp)
  | flog2 (o : FOp)
  | frcp (o : FOp)
  | frsq (o : FOp)
  | fsinpi (o : FOp)
  | fcospi (o : FOp)
  | ftanh (o : FOp)
  | fsigm (o : FOp)
  | ferf (o : FOp)
  | frand (o : FOp)
  | fmovx (o : FOp)
  | dpt (o : FOp)
  | dfrom (o : FOp)
  | dadd (o : FOp)
  | dsub (o : FOp)
  | dmul (o : FOp)
  | dmax (o : FOp)
  | dmin (o : FOp)
  | daff (o : FOp)
  | dmap (o : FOp)
  | dtag (o : FOp)
  | dtags (o : FOp)
  | dcanon (o : FOp)
  | dmom (o : FOp)
  | dqnt (o : FOp)
  | dcdf (o : FOp)
  | dmov (o : FOp)
  | dsupp (o : FOp)
  | mcall (o : MCallOp)
  | mclr (o : MClrOp)
  | mstat (o : MStatOp)
  | msig (o : MSigOp)
  | mabort (o : MAbortOp)
  | mload (o : MLoadOp)
  | ldB (o : LOp)
  | ldBz (o : LOp)
  | ldH (o : LOp)
  | ldHz (o : LOp)
  | ldW (o : LOp)
  | ldWz (o : LOp)
  | ldD (o : LOp)
  | ldQ (o : LOp)
  | ldv256 (o : LOp)
  | ldv512 (o : LOp)
  | ldv1024 (o : LOp)
  | ldk (o : LOp)
  | ldd (o : LOp)
  | ldxD (o : LOp)
  | ldxW (o : LOp)
  | stB (o : LOp)
  | stH (o : LOp)
  | stW (o : LOp)
  | stD (o : LOp)
  | stQ (o : LOp)
  | stv256 (o : LOp)
  | stv512 (o : LOp)
  | stv1024 (o : LOp)
  | stk (o : LOp)
  | std (o : LOp)
  | stxD (o : LOp)
  | stxW (o : LOp)
  | vgather (o : LOp)
  | vscatter (o : LOp)
  | ldaW (o : LOp)
  | ldaD (o : LOp)
  | stlW (o : LOp)
  | stlD (o : LOp)
  | fence (o : FenceOp)
  | drain (o : LOp)
  | pref (o : LOp)
  | aaddW (o : LOp)
  | aandW (o : LOp)
  | aorW (o : LOp)
  | axorW (o : LOp)
  | aminW (o : LOp)
  | amaxW (o : LOp)
  | aminuW (o : LOp)
  | amaxuW (o : LOp)
  | aswpW (o : LOp)
  | acasW (o : LOp)
  | afaddW (o : LOp)
  | aaddD (o : LOp)
  | aandD (o : LOp)
  | aorD (o : LOp)
  | axorD (o : LOp)
  | aminD (o : LOp)
  | amaxD (o : LOp)
  | aminuD (o : LOp)
  | amaxuD (o : LOp)
  | aswpD (o : LOp)
  | acasD (o : LOp)
  | oadd (o : LOp)
  | oswp (o : LOp)
  | ocas (o : LOp)
  | copy (o : COp)
  | copy2 (o : COp)
  | send (o : COp)
  | fetch (o : COp)
  | scopy (o : COp)
  | coll (o : COp)
  | czero (o : COp)
  | cflush (o : COp)
  | bprep (o : PrepOp)
  | bcall (o : PrepOp)
  | bprepx (o : PrepXOp)
  | bcallx (o : PrepXOp)
  | ret (o : RetOp)
  | loop (o : LoopOp)
  | loopi (o : LoopIOp)
  | trap (o : CodeOp)
  | syscall (o : CodeOp)
  | eret (o : PlainOp)
  | eretS (o : PlainOp)
  | twait (o : TWaitOp)
  | tpoll (o : TPollOp)
  | waitwp (o : WaitWpOp)
  | setfmt (o : RegOp)
  | setbank (o : SetBankOp)
  | sync (o : PlainOp)
  | mfs (o : SysOp)
  | mts (o : SysOp)
  | ifence (o : PlainOp)
  | ovl (o : OvlOp)
  | launch (o : RegOp)
  | launchg (o : KeyOp)
  | shape (o : KeyOp)
  | predict (o : PredictOp)
  | alloc (o : AllocOp)
  | free (o : RegOp)
  | yield (o : PlainOp)
  | halt (o : PlainOp)
  | evset (o : EventOp)
  | evsetClear (o : EventOp)
  | evwait (o : EventOp)
  | endR (o : UOp)
  | lda (o : UOp)
  | ldb (o : UOp)
  | ldsa (o : UOp)
  | ldsb (o : UOp)
  | mma (o : UOp)
  | zero (o : UOp)
  | tld (o : UOp)
  | epi (o : UOp)
  | stt (o : UOp)
  | sigchk (o : UOp)
  | loopMicroOp (o : UOp)
  | endl (o : UOp)
  | gadv (o : UOp)
  | setp (o : UOp)
  | powerOn (v : StartView)
  | hostReset (v : StartView)
  | startComplete (v : StartEnd)
  | startTimeout (reason : BitVec 8)
  | restartDelay (v : StartView)
  | restart (v : StartView)
  | getVersion
  | getCapabilities
  | negotiateAlgorithms
  | getDigests
  | getCertificate (slot off len : Nat)
  | challenge (slot : Nat) (nonce : BitVec 256)
  | getMeasurements (block : Nat)
  | spdmUnsupportedRequest (code : BitVec 8)
  | thermtrip (die tj thbm : Nat)
  | thermalClockStep (die tj thbm : Nat)
  | registerWrite (r : HostReg) (v : BitVec 64)
  | qtailWrite (q : BitVec 6) (v : BitVec 64)
  | queueEnable (q : BitVec 6) (v : BitVec 64)
  | queueDisable (q : BitVec 6) (v : BitVec 64)
  | gdoorWrite (q : BitVec 6) (v : BitVec 64)
  | gpatchWrite (q : BitVec 6) (v : BitVec 64)
  | create (c : BitVec 6)
  | destroy (c : BitVec 6)
  | invasid (c : BitVec 6)
  | invrange (c : BitVec 6)
  | ctxcmdBadCommand (op : BitVec 3) (c : BitVec 6)
  | dieFence (v : BitVec 64)
  | eccCounterClear
  | matrixCounterClear
  | avsEnable (die : Nat) (v : BitVec 64)
  | avsDisable (die : Nat) (v : BitVec 64)
  | avsRaisePoint (die : Nat)
  | avsResume (die : Nat)
  | avsStep (die : Nat)
  | iftStart (v : BitVec 64)
  | iftComplete (failing : BitVec 7)
  | retrain (p : Nat) (bad : BitVec 17)
  | up (p : Nat)
  | down (p : Nat)
  | atsInvalidateRequest (port page : Nat)
  | stokerFrame (die : Nat) (longRunning : List Nat)
  | priorityAging (who : AgingWho)
  | taskStart (task : Nat)
  | virtualCycleAdvance (task : Nat)
  | resultLanding (core : Nat)
  | fmtWriteEffect (core : Nat)
  | preparedTransferTrigger (core : Nat)
  | loopEndTest (core : Nat)
  | accessComplete (core n : Nat)
  | pageWalkComplete (core : Nat)
  | overlayFetchComplete (core bank : Nat)
  | spillRefillComplete (core : Nat)
  | remoteAccessTimeout (core : Nat) (w : TimeoutWho)
  | preemption (task : Nat)
  | lazyClaim (core : Nat)
  | tokenWaitEnd (core : Nat)
  | writePointerWaitEnd (core : Nat)
  | barrierComplete (task : Nat)
  | eventWaitEnd (core : Nat)
  | greenShareSpaceAvailable (core : Nat)
  | matrixEntryStart (core : Nat)
  | assayComplete (hearth : Nat)
  | runnerOperationStart (core ch : Nat)
  | runnerOperationComplete (core ch : Nat)
  | scopyFarWrite (core ch : Nat) (flip : BitVec 64)
  | collectiveComplete (ctx group : Nat)
  | orderedAtomicRequest (n : Nat)
  | orderedAtomicResend (n : Nat)
  | fabricPacketReceive (p : Nat) (pkt : Packet)
  | fabricAckReceive (p : Nat) (seq : BitVec 16)
  | fabricNakReceive (p : Nat) (seq : BitVec 16)
  | ackIdleTimer (p : Nat)
  | laneFailure (p lane : Nat)
  | retrainComplete (p stall : Nat)
  | partnerTimeout (p : Nat)
  | cxlContainment (p : Nat)
  | hostLinkDown (p : Nat)
  | correctedEccError (cls inst : Nat)
  | uncorrectedEccError (site : EccSite)
  | handlerCountAdvance (core : Nat)
  | powerLoss (standby : Bool)
  | hostWritesToDeviceMemory (addr : Nat) (bytes : List (BitVec 8))
  deriving DecidableEq, Repr

end Sys2Proof
end

