-- ==== Sys2Proof/Machine/State.lean ====
section
/-! DEFINITION. The state of the device as plain data, its reset value, and the reasons a step can stop. Every group names the
rules of spec/ that give it; INVENTORY.md lists them with their reset values. -/

namespace Sys2Proof.Machine

open Sys2Proof

/-! ## Registers of a core (spec/03 R48) -/

/-- A stride set (spec/07 R136). -/
structure Stride where
  base : BitVec 57 := 0
  str0 : BitVec 32 := 0
  str1 : BitVec 32 := 0
  ext0 : BitVec 8 := 0
  ext1 : BitVec 8 := 0
  deriving DecidableEq, Repr

/-- A copy set (spec/08 R174). -/
structure CopySet where
  src : BitVec 57 := 0
  dst : BitVec 57 := 0
  len : BitVec 32 := 0
  sstr : BitVec 32 := 0
  dstr : BitVec 32 := 0
  rows : BitVec 24 := 0
  type : BitVec 8 := 0
  dev : BitVec 9 := 0
  group : BitVec 16 := 0
  deriving DecidableEq, Repr

/-- A token's state (spec/12 R273). -/
inductive Tok where
  | ok
  | pending
  | err (code : BitVec 3)
  deriving DecidableEq, Repr

/-- The register files an instruction reads at issue. A vector register is listed under (file * 64 + physical bank) * 32 + number
(spec/04 R73). -/
structure Regs where
  x : Tab W64 := []
  y : Tab W64 := []
  v : Tab W1024 := []
  w : Tab W1024 := []
  d : Tab DImage := []
  dtag : Tab (BitVec 16) := []
  k : Tab W128 := []
  q : Tab Bool := []
  p : Tab W64 := []
  g : Tab Stride := []
  h : Tab CopySet := []
  deriving DecidableEq, Repr

/-- What a result does when it lands (spec/02 R35): the register, and for partly written registers the bits it writes. -/
inductive Land where
  | x (r : Nat) (v : W64)
  | y (r : Nat) (v : W64)
  | v (slot : Nat) (mask val : W1024)
  | w (r : Nat) (mask val : W1024)
  | k (r : Nat) (mask val : W128)
  | q (r : Nat) (b : Bool)
  | d (r : Nat) (mask val : DImage) (tag : Option (BitVec 16))
  | p (r : Nat) (v : W64)
  | g (r f : Nat) (v : W64)
  | h (r f : Nat) (v : W64)
  | sys (idx : Nat) (v : W64)
  deriving DecidableEq, Repr

/-- Where the bytes of a load go (spec/12 R260, R264, R267). -/
inductive LoadDest where
  | scalar (yFile : Bool) (r size : Nat) (signed : Bool)
  | pair (yFile : Bool) (r : Nat)
  | vec (slot bits : Nat)
  | wreg (r bits : Nat)
  | kreg (r : Nat)
  | dreg (r : Nat)
  | gather (slot size : Nat) (mask : W1024)
  deriving DecidableEq, Repr

/-- The value of a result in flight: known, or a load with pieces still outstanding, the bytes that have arrived and the bits that an
error makes 1. -/
inductive FlightVal where
  | known (lands : List Land)
  | load (id left : Nat) (dest : LoadDest) (buf bad : DImage)
  deriving DecidableEq, Repr

/-- A result in flight: the vc in which its bound ends (spec/02 R35). Later entries of a core's list were issued later. -/
structure Flight where
  due : Nat
  val : FlightVal
  deriving DecidableEq, Repr

/-! ## Outstanding accesses of a core (spec/02 R36, spec/11 R242-R252) -/

/-- The read-modify-write of an atomic (spec/12 R267). -/
inductive AtomOp where
  | add | and | or | xor | min | max | minu | maxu | swap | cas | fadd
  deriving DecidableEq, Repr

/-- What an ordering entry of a core does when it performs: an event set or cleared (spec/15 R341), a launch record read and handed
over (R335), an allocation made and its result word written (R338), an allocation freed (R339), an instruction fence (spec/04 R80),
the order of a gang barrier over the bundles before each core's `SYNC` (spec/11 R257, spec/15 R343). -/
inductive Signal where
  | event (i : Nat) (set : Bool)
  | launch (key : Option (BitVec 8))
  | alloc (size : W64)
  | free (base : W64)
  | ifence
  | barrier (before : List (Nat × Nat))
  deriving DecidableEq, Repr

/-- What an outstanding entry is. -/
inductive AccKind where
  | load
  | store
  | atomic (op : AtomOp) (v new : W64) (ro : Bool) (fmt : W32)
  | ordered (op : AtomOp) (v new : W64) (flow : Nat) (seq : BitVec 16) (sent : Bool)
  | fence (pred succ : BitVec 6) (scope : Nat)
  | drain
  | signal (g : Signal)
  deriving DecidableEq, Repr

/-- A write still to perform at its home (spec/11 R244): the writing core, the entry's id and address. -/
structure Source where
  core : Nat
  id : Nat
  pa : Nat
  deriving DecidableEq, Repr

/-- A part with its place: physical address, memory type and whether it went through the window. -/
structure Placed where
  va : Nat
  off : Nat
  n : Nat
  pa : Nat
  mt : Nat
  win : Bool
  deriving DecidableEq, Repr

/-- One outstanding piece (spec/10 R239) or fence, in program order. `mt` is the memory type of its leaf (spec/16 R357); `no` the
number of its bundle; `task` the task it belongs to, which a pre-emption may have taken off the core; `va` the address it was made with.
`shown` says that a store is visible within its hearth before it performs at its home, since the step `seen` (spec/11 R244); `fenced` is the
bundle of a `FENCE` of core scope that later stores follow and that did not wait for this one (R243, R254); `stamp` is the step of its issue
(spec/10 R237); `held` marks a store that was held for a provisional task (spec/11 R253); `got` a load that has its bytes and waits for the
writes `src` that its hearth saw before them (R256), `joined` one that a gang barrier has let pass since (spec/15 R343). -/
structure Acc where
  id : Nat
  kind : AccKind
  win : Bool := false
  mt : Nat := 0
  pa : Nat := 0
  n : Nat := 0
  off : Nat := 0
  data : List Byte := []
  acq : Option Nat := none
  rel : Option Nat := none
  no : Nat := 0
  task : Option Nat := none
  va : Nat := 0
  shown : Bool := false
  seen : Nat := 0
  fenced : Option Nat := none
  stamp : Nat := 0
  held : Bool := false
  got : Bool := false
  src : List Source := []
  joined : Bool := false
  deriving DecidableEq, Repr

/-! ## Control state of a core (spec/04) -/

/-- A target-buffer entry (spec/04 R62). -/
structure Target where
  armed : Bool := false
  call : Bool := false
  cond : BitVec 4 := 0
  count : BitVec 4 := 0
  target : BitVec 16 := 0
  deriving DecidableEq, Repr

/-- A level of the loop stack (spec/04 R69, R70). -/
structure LoopLvl where
  lc : BitVec 32
  start : Nat
  stop : Nat
  pend : Option (BitVec 32) := none
  deriving DecidableEq, Repr

/-- What a core waits for (spec/02 R32, R37). `shape` is a count that awaits acceptance (spec/15 R336). -/
inductive Wait where
  | none
  | token (n : Nat)
  | pointer (ch target : Nat)
  | sync
  | event (i : Nat)
  | green
  | shape
  deriving DecidableEq, Repr

/-- Why a bundle is held back before it commits, with the gang's VCC paused (spec/02 R36). -/
inductive Hold where
  | none
  | walk (va : Nat) (write : Bool)
  | claimBank (key : Nat)
  | claimBlock (hearth block : Nat)
  | spill (f : Nat)
  | fetch (bank : Nat)
  deriving DecidableEq, Repr

/-- What the last operation executed did besides its effect: nothing, trapped, or kept its bundle from committing. -/
inductive Mark where
  | none
  | trapped (cause : BitVec 8)
  | held
  | blocked
  deriving DecidableEq, Repr

/-- The committed bundle whose trigger and loop test are still to come (spec/04 R65, R70): its address, the bundle that follows,
the choice made so far, the target buffer as its slots found it, the entry it armed itself, the conditions sampled at its issue,
and whether the trigger has been made and a transfer taken. -/
structure Post where
  addr : Nat
  seqNext : Nat
  next : Nat
  old : Tab Target := []
  armed : Option Nat := none
  conds : Tab Bool := []
  triggered : Bool := false
  taken : Bool := false
  deriving DecidableEq, Repr

/-- Program counter, target buffer and loop stack, and their shadows in a handler (spec/04 R62, R69, R84); `armed` is the entry
the executing bundle arms, `skip` where a loop bundle with count 0 goes on. -/
structure Ctl where
  pc : Nat := 0
  tgt : Tab Target := []
  loops : List LoopLvl := []
  shTgt : Tab Target := []
  shLoops : List LoopLvl := []
  hcount : Nat := 0
  armed : Option Nat := none
  skip : Option Nat := none
  post : Option Post := .none
  deriving DecidableEq, Repr

/-- The system registers of a core (spec/04 R83, spec/16 R355) that are not views of other state. -/
structure Sys where
  fmt : W32 := 0
  fmtPend : List (Nat × W32) := []
  lderr : BitVec 16 := 0
  rngKey : W64 := 0
  rngCtr : W64 := 0
  seq : Tab (BitVec 16) := []
  window : Tab (BitVec 16) := []
  bankLo : BitVec 6 := 0
  bankHi : BitVec 6 := 0
  spillBase : BitVec 57 := 0
  spillLim : BitVec 16 := 0
  spilled : Tab (BitVec 16) := []
  trapvec : BitVec 17 := 0
  epc : BitVec 16 := 0
  tcause : BitVec 8 := 0
  tslots : BitVec 21 := 0
  taddr : W64 := 0
  taux : W64 := 0
  estate : BitVec 8 := 0
  efmt : Tab W32 := []
  priv : BitVec 2 := 0
  sealSel : BitVec 12 := 0
  predSel : BitVec 10 := 0
  deriving DecidableEq, Repr

/-- The state of an instruction bank (spec/04 R77, R78); `image` is resident from the program image, `failedImage` one whose refetch
from there failed (R91). -/
inductive IBank where
  | empty
  | image
  | loading (seg : BitVec 8)
  | resident (seg : BitVec 8)
  | failed (seg : BitVec 8) (cls : BitVec 8)
  | failedImage (cls : BitVec 8)
  deriving DecidableEq, Repr

/-- The background fetch of an overlay: where its words come from, its bundle and the step of its issue, and the words as
they stood then when no `IFENCE` was outstanding (spec/04 R78, R80; spec/10 R237). -/
structure Fetch where
  seg : BitVec 8
  src : Nat
  len : Nat
  no : Nat
  snap : Option (List Byte) := none
  stamp : Nat := 0
  deriving DecidableEq, Repr

/-! ## The matrix unit (spec/07) -/

/-- A queued M operation (spec/07 R138, R141). -/
inductive MKind where
  | call (routine : Nat)
  | clr (mask : BitVec 8)
  | stat (addr : Nat)
  | sig (tile addr : Nat)
  | load (addr : Nat) (range : W64)
  deriving DecidableEq, Repr

/-- A queue entry with the snapshot of spec/07 R137; `stamp` is the step of its issue (spec/10 R237). -/
structure MEntry where
  kind : MKind
  tok : Nat
  list : W64
  fmt : W32
  p : Tab W64
  g : Tab Stride
  no : Nat
  priv : BitVec 2
  stamp : Nat := 0
  deriving DecidableEq, Repr

/-- A staged operand or scale tile (spec/07 R152, R153): its elements as bits, the bank groups read, the addresses of its rows and
the block shape. -/
structure Stage where
  elems : List W32
  grp : List Nat
  rows : List Nat
  ext0 : Nat := 1
  ext1 : Nat := 128
  deriving DecidableEq, Repr

/-- A store held in the saggar (spec/06 R119): virtual and physical address of its first byte, its bytes, and whether the array
holds an uncorrected error in it (spec/17 R378); `sup` says that it was stored at supervisor level (spec/16 R358); `off` is its place in the
access that stored it. -/
structure HeldRow where
  va : Nat
  pa : Nat
  mt : Nat
  bytes : List Byte
  bad : Bool := false
  sup : Bool := false
  off : Nat := 0
  deriving DecidableEq, Repr

/-- What an epoch did, so that the assay path can do it again (spec/06 R121). -/
inductive EpochOp where
  | zero (int : Bool)
  | tld (int : Bool) (rows : List Nat)
  | mma (fmt : W32) (a b : List Nat) (sa sb : Option (Nat × Nat × Nat))
  | epi (fmt : W32) (imm : W32) (scale : W32)
  | stt (rows : List (Nat × Nat × Nat))
  deriving DecidableEq, Repr

/-- An open epoch (spec/06 R117-R124): the rows held for the cope engine, the rows the drag engine folded, the footprint as
128-byte row numbers of domain addresses, and its log. -/
structure Epoch where
  held : List HeldRow := []
  drag : List HeldRow := []
  foot : List Nat := []
  log : List EpochOp := []
  checking : Bool := false
  deriving DecidableEq, Repr

/-- The record `MSIG` writes for the last closed epoch (spec/07 R145). -/
structure LastSig where
  cope : W64 := 0
  drag : W64 := 0
  assay : W64 := 0
  outcome : BitVec 8 := 0
  deriving DecidableEq, Repr

/-- The output image of a tile on both engines (spec/07 R156): element size in bytes and elements. -/
structure Image where
  size : Nat
  cope : List W32
  drag : List W32
  deriving DecidableEq, Repr

/-- A tile: both engines' copies (empty list: every element zero), the status bits, image and epoch (spec/07 R134). -/
structure Tile where
  cope : List W32 := []
  drag : List W32 := []
  valid : Bool := false
  dirty : Bool := false
  inflight : Bool := false
  ovf : Bool := false
  accint : Bool := false
  image : Option Image := none
  epoch : Option Epoch := none
  last : LastSig := {}
  bad : BitVec 2 := 0
  deriving DecidableEq, Repr

/-- The running routine (spec/07 R142, R149, R159); `mine` lists the tiles whose epochs it opened or stored from (spec/06 R127). -/
structure MRun where
  entry : MEntry
  upc : Nat
  loops : List (Nat × Nat) := []
  a : Option Stage := none
  b : Option Stage := none
  sa : Option Stage := none
  sb : Option Stage := none
  stop : Bool := false
  mine : List Nat := []
  deriving DecidableEq, Repr

/-- The matrix unit of a core (spec/07 R134, R138, R144, R148). -/
structure MUnit where
  store : Tab W64 := []
  queue : List MEntry := []
  run : Option MRun := none
  tiles : Tab Tile := []
  abandon : BitVec 32 := 0
  dis0 : BitVec 32 := 0
  dis1 : BitVec 32 := 0
  unres : BitVec 32 := 0
  suspended : Bool := false
  deriving DecidableEq, Repr

/-! ## Runner channels (spec/12 R276-R289) -/

/-- The C operations (spec/12 R277). -/
inductive ROp where
  | copy | copy2 | send | fetch | scopy | coll | czero | cflush
  deriving DecidableEq, Repr

/-- A queued runner operation with its snapshots (spec/12 R276); `stamp` is the step of its issue (spec/10 R237). -/
structure REntry where
  op : ROp
  set : CopySet
  tok : Nat
  list : W64
  aux : BitVec 5
  ctx : Nat
  task : Nat
  priv : BitVec 2
  no : Nat
  stamp : Nat := 0
  deriving DecidableEq, Repr

/-- Bytes of a source that a runner has read ahead of the write that takes them (spec/12 R278): where they stand in the operation's
byte order, and their values. -/
abbrev ReadAhead := Nat × Byte

/-- The running operation of a channel: bytes performed so far, and those its write pointer accounts for (spec/12 R288); for `SCOPY` and `COLL` the bytes under way, whether they may be
written, and for `SCOPY` the seal's CRC and the attempts made (spec/12 R282, R285); `ahead` the source bytes already read, in any
order (R278); `port` the fabric port the data leaves through. -/
structure RRun where
  e : REntry
  done : Nat := 0
  counted : Nat := 0
  bytes : List Byte := []
  crc : W64 := 0
  tries : Nat := 0
  ready : Bool := false
  ahead : List ReadAhead := []
  port : Option Nat := none
  deriving DecidableEq, Repr

/-- A runner channel (spec/12 R276, R287). -/
structure Chan where
  queue : List REntry := []
  run : Option RRun := none
  count : BitVec 48 := 0
  err : Bool := false
  deriving DecidableEq, Repr

/-- The run of an ordered flow (spec/12 R270): the home slice of its open run, the requests not yet performed, and whether a
restart is due. -/
structure Flow where
  home : Option Nat := none
  outstanding : Nat := 0
  restart : Bool := true
  deriving DecidableEq, Repr

/-! ## A core -/

/-- A bundle that blocked (spec/02 R433), or whose `SETBANK` waits for a bank (spec/04 R76): what its slots read at its issue, the
registers, FMT, the vc, the tokens, and what its `MFS` read of a system register; what its V slots write, and the banks moved since; where
its accesses go; `spills` the banks that it spilled and where their bytes went, for its own results that follow when it commits. -/
structure Blocked where
  regs : Regs
  fmt : W32
  vc : Nat := 0
  tok : Tab Tok := []
  mfs : Option W64 := none
  lands : List Land := []
  moved : List Nat := []
  places : List (List Placed) := []
  spills : List (Nat × List Placed) := []
  accepted : Bool := false
  refused : Option (BitVec 1) := none
  deriving DecidableEq, Repr

/-- A core (spec/02 R23). `task` is the task that owns it; `handler` says that a trap handler runs on it; `fresh` holds the results
of the bundle being executed, which no slot of it sees (spec/03 R41) and which join `flight` when it commits. `cause` is the last cause
raised on it (spec/04 R90), `hitTile` the tile of the epoch whose footprint raised its last `Trap(0x0A)` (spec/15 R346), `debts` the stores
that a later one went ahead of where only core scope orders them: until those perform the core's units read nothing (spec/11 R254, R256),
`late` the addresses of its stores that a footprint refused after their bundles, with the tile of its epoch (spec/06 R124), `enter` the
banks that no logical bank has been entered in since a spill (spec/04 R76). -/
structure Core where
  task : Option Nat := none
  pos : Nat := 0
  halted : Bool := false
  decided : Bool := false
  regs : Regs := {}
  tok : Tab Tok := []
  flight : List Flight := []
  fresh : List Flight := []
  acc : List Acc := []
  nextId : Nat := 0
  bundleNo : Nat := 0
  ctl : Ctl := {}
  sys : Sys := {}
  wait : Wait := .none
  hold : Hold := .none
  mark : Mark := .none
  blocked : Option Blocked := none
  handler : Bool := false
  trapped : Bool := false
  retPend : Option Nat := none
  walkFault : Option (Nat × Bool × Bool × Bool) := none
  syncs : BitVec 32 := 0
  imem : Tab W32 := []
  ibank : Tab IBank := []
  fetch : Tab Fetch := []
  mu : MUnit := {}
  chan : Tab Chan := []
  flow : Tab Flow := []
  bankOwner : Tab (Option Nat) := []
  fileBad : Bool := false
  cause : BitVec 8 := 0
  hitTile : Nat := 0
  debts : List Source := []
  late : List (W64 × Nat) := []
  enter : List Nat := []
  deriving DecidableEq, Repr

/-! ## Hearths and dies -/

/-- A seal (spec/06 R125). -/
structure Seal where
  addr : BitVec 57 := 0
  len : BitVec 32 := 0
  crc : W64 := 0
  asid : BitVec 6 := 0
  src : BitVec 2 := 0
  valid : Bool := false
  core : BitVec 2 := 0
  time : W64 := 0
  deriving DecidableEq, Repr

/-- A cached translation (spec/16 R360): context, virtual page base and size, the leaf entry. -/
structure Tlb where
  asid : Nat
  base : Nat
  bits : Nat
  leaf : W64
  deriving DecidableEq, Repr

/-- A table entry of a walk cache (spec/16 R360): context, level, the address bits above the level's range, the entry. -/
structure WalkEntry where
  asid : Nat
  level : Nat
  base : Nat
  entry : W64
  deriving DecidableEq, Repr

/-- A hearth (spec/01 R17): seals and how many were recorded, cached translations, owners of scratchpad blocks, disputes before the
assay path (core, tile, task), the time of the last passed in-field test and how many seals had been recorded by then (spec/17 R381). -/
structure Hearth where
  seals : Tab Seal := []
  sealNext : Nat := 0
  tlb : List Tlb := []
  blockOwner : Tab (Option Nat) := []
  assay : List (Nat × Nat × Nat) := []
  lastPass : W64 := 0
  passSeals : Nat := 0
  deriving DecidableEq, Repr

/-- A shape-predictor entry (spec/14 R312). -/
structure Pred where
  mode : BitVec 2 := 0
  nh : BitVec 3 := 0
  hint : BitVec 32 := 1
  h : Tab (BitVec 32) := []
  deriving DecidableEq, Repr

/-- Adaptive undervolting of a die (spec/17 R379). POINT 750 mV at reset: DESIGN CHOICE, log entry 5. `named` is a freeze still to be
reported: the counter that it names, class and instance, and the point (R393). -/
structure Avs where
  en : Bool := false
  frozen : Bool := false
  floor : BitVec 10 := 600
  point : BitVec 10 := 750
  named : Option (Nat × Nat × BitVec 10) := none
  deriving DecidableEq, Repr

/-- A die (spec/01 R15; spec/16 R354; spec/17 R379, R380; spec/18 R399). Its remote-data cache holds 32-byte sectors of lines homed
elsewhere, by the number of the sector in memory: those of other devices with their bytes (`rdc`), those of the package's other dies that it
shares (`clean`) or holds modified (`dirty`), and which of all these hold an uncorrected error (`rdcBad`; spec/10 R236-R238). -/
structure Die where
  state : BitVec 4 := 0
  pred : Tab Pred := []
  port : List (List Byte × Nat × Option (BitVec 8)) := []
  rdc : Tab (List Byte) := []
  rdcBad : List Nat := []
  clean : List Nat := []
  dirty : List Nat := []
  tlb2 : List Tlb := []
  walks : List WalkEntry := []
  dispmask : BitVec 24 := 0xFFFFFF
  avs : Avs := {}
  tj : BitVec 8 := 0
  thbm : BitVec 8 := 0
  clk : BitVec 11 := 1600
  deriving DecidableEq, Repr

/-! ## Contexts, queues, launches and tasks -/

/-- A context (spec/16 R352, R353): the words of the descriptor copied at CREATE, its set events, its live allocations
(base, pages, task that may retract it) and the ranges (base, pages) that a `FREE` has unmapped and that accesses made before may still reach. -/
structure Ctx where
  live : Bool := false
  desc : Tab W64 := []
  events : List Nat := []
  allocs : List (Nat × Nat × Option Nat) := []
  freeing : List (Nat × Nat) := []
  slots : List Nat := []
  deriving DecidableEq, Repr

/-- A launch queue (spec/13 R293); `nodes` are the records of graph snapshots still to be taken (R307), `doors` the replays asked
for, `graphs` the descriptors replayed so far, and `old` what bytes of theirs held before the patches that the stoker has not acknowledged
(R308): where the byte stands, its value, and whether GPATCH has been written since. -/
structure Queue where
  base : BitVec 57 := 0
  size : BitVec 5 := 0
  tail : BitVec 32 := 0
  head : BitVec 32 := 0
  en : Bool := false
  die : BitVec 2 := 0
  ctx : BitVec 6 := 0
  ovf : Bool := false
  cfg : Bool := false
  rerr : Bool := false
  doors : List Nat := []
  patch : BitVec 32 := 0
  ack : BitVec 32 := 0
  patchDue : Bool := false
  graphs : List Nat := []
  old : List (Nat × Byte × Bool) := []
  nodes : List (List Byte) := []
  deriving DecidableEq, Repr

/-- A launch record (spec/15 R332). -/
structure Rec where
  prog : BitVec 64
  plen : BitVec 32
  entry : BitVec 16
  ctx : BitVec 6
  segt : BitVec 64
  rout : BitVec 64
  rfirst : BitVec 12
  rcount : BitVec 13
  grid : BitVec 32
  gang : BitVec 2
  det : Bool
  split : Bool
  level : BitVec 2
  keyv : Bool
  key : BitVec 8
  banks : BitVec 7
  diemask : BitVec 4
  rint : Bool
  scratch : BitVec 25
  waitev : List (BitVec 12)
  setev : BitVec 12
  cea : BitVec 57
  params : List W64
  deriving DecidableEq, Repr

/-- A report (spec/17 R374). -/
structure Report where
  seq : W64
  cls : BitVec 8
  sub : BitVec 8
  kind : BitVec 2
  unit : BitVec 14
  ctx : BitVec 6
  addr : W64
  d0 : W64
  d1 : W64
  d2 : W64
  d3 : W64
  time : W64
  deriving DecidableEq, Repr

/-- The error or dispute a completion entry carries (spec/15 R346, R347). -/
structure ErrInfo where
  cls : BitVec 8
  kind : BitVec 2
  unit : BitVec 14
  addr : W64
  info : BitVec 16
  deriving DecidableEq, Repr

/-- A taken launch (spec/13 R295, R296; spec/14 R313-R322). `eligible` says that its launch events were found set, `victim` the task
asked to make way for it, `updated` that its true count has reached its predictor entry. -/
structure Launch where
  rcd : Rec
  die : Nat
  n : Nat
  splitS : Nat := 1
  refused : Bool := false
  green : Bool := false
  wasGreen : Bool := false
  pr : Nat := 0
  predDie : Nat := 0
  count : Option Nat := none
  shapeFault : Bool := false
  homeLost : Bool := false
  next : Nat := 0
  lastDie : Option Nat := none
  aged : Nat := 0
  err : Option ErrInfo := none
  dispute : Option ErrInfo := none
  fett : Nat := 0
  tailOf : Option Nat := none
  tail : Option Nat := none
  eligible : Bool := false
  victim : Option Nat := none
  updated : Bool := false
  done : Bool := false
  deriving DecidableEq, Repr

/-- A store held for a green task (spec/12 R262, spec/14 R318): an L-slot store with the number of its bundle, or the retained rows of
an epoch. -/
structure HeldStore where
  core : Nat
  tile : Option Nat := none
  rows : List HeldRow
  release : Bool := false
  src : Nat := 0
  no : Nat := 0
  deriving DecidableEq, Repr

/-- A task on its gang (spec/02 R25, R31; spec/13 R298, R303). `st` is the STATE code of spec/02 R32, `start` the count known at its
dispatch (R27, R29). `claimedBlocks`, `claimedBanks` and `claimedTiles` name what of its state newcomers have claimed (spec/13 R304, spec/07
R162); `laterErrs` and `laterReports` what a provisional task reports once it is confirmed (spec/14 R325); `issued` says that a core of its
gang has issued in the vc that the VCC counts (spec/02 R34, R38); `frees` the cores, bundles and
bases of its deferred `FREE`s (R323); `segs` the used entries of its segment table: source, length in words and bank (spec/04 R77); `verdict` a resolution that its die has received, `true` to confirm it, `false` to fettle it (spec/14 R316); `saved` holds the cores of a pre-empted task, and of a
halted one what is left of them while work of its matrix units goes on;
`ended` says that it was fettled. -/
structure Task where
  launch : Nat
  idx : Nat
  ctx : Nat
  hearth : Nat
  size : Nat
  first : Nat
  part : Nat
  qstart : Nat
  banks : Nat
  slot : Nat
  st : BitVec 3 := 0
  green : Bool := false
  gridn : BitVec 32 := 0
  start : BitVec 32 := 0
  vcc : Nat := 0
  segs : Tab (Nat × Nat × Nat) := []
  held : List HeldStore := []
  frees : List (Nat × Nat × Nat) := []
  saved : List Core := []
  aged : Nat := 0
  level : Nat := 0
  lost : Option (BitVec 8 × W64) := none
  claimedBlocks : List Nat := []
  claimedBanks : List (Nat × Nat) := []
  claimedTiles : List (Nat × Nat) := []
  error : Option ErrInfo := none
  laterErrs : List ErrInfo := []
  laterReports : List Report := []
  preempt : Bool := false
  issued : Bool := false
  yielded : Bool := false
  victim : Option Nat := none
  verdict : Option Bool := none
  seqNo : Nat := 0
  ended : Bool := false
  deriving DecidableEq, Repr

/-! ## Home slices, collectives, ports, reports -/

/-- An ordered-atomic request on its way (spec/12 R271): its core, the id of its outstanding entry, how often it was refused, and
whether it waits in the slice's buffer or to be sent again. -/
structure OReq where
  core : Nat
  id : Nat
  flow : Nat
  seq : BitVec 16
  start : Bool
  slice : Nat
  refusals : Nat := 0
  buffered : Bool := false
  backoff : Bool := false
  deriving DecidableEq, Repr

/-- A collective being joined (spec/12 R285): context, group, and the members that have joined (rank, core, channel). `dead` says that it
ended in error while members were still to join (R286, spec/17 R388). -/
structure Coll where
  ctx : Nat
  group : Nat
  joined : List (Nat × Nat × Nat) := []
  dead : Bool := false
  deriving DecidableEq, Repr

/-- What wrote the bytes that a packet carries to another device: a store or an atomic that returns nothing, a channel of a runner, a matrix
unit a row of an image, or a record whose token waits for the acknowledgement (spec/11 R250). -/
inductive SentKind where
  | store
  | runner (ch : Nat)
  | row
  | record (tok : Nat)
  deriving DecidableEq, Repr

/-- The write that a packet carries, while its acknowledgement is out (spec/11 R244, R250; spec/17 R388): the packet's number, the core, its
task, the address, what wrote it, and where a runner's bytes stand in its operation's write order. -/
structure Sent where
  seq : BitVec 16
  core : Nat
  task : Option Nat
  pa : Nat
  kind : SentKind := .store
  pos : Nat := 0
  deriving DecidableEq, Repr

/-- A fabric port (spec/17 R382-R386). `later` are packets that wait for room among the 512 unacknowledged ones, `sent` the writes whose
packets are unacknowledged. `failed` is the sticky FAILED field, `unfit` the lanes that are not healthy now (R384, R385; log entry
23: DESIGN CHOICE, unsafe), `before` lists the lane failures whose retraining has not ended: PSTAT before each and the lane. -/
structure Port where
  state : BitVec 2 := 2
  w8 : Bool := false
  lanes : BitVec 17 := 0xFFFF
  failed : BitVec 17 := 0
  unfit : BitVec 17 := 0
  replays : BitVec 32 := 0
  crcerr : BitVec 32 := 0
  sendNext : BitVec 16 := 0
  replay : List Packet := []
  later : List Packet := []
  sent : List Sent := []
  resend : List Packet := []
  recvLast : BitVec 16 := 0xFFFF
  unacked : Nat := 0
  acksSent : List (Bool × BitVec 16) := []
  training : Bool := false
  before : List (BitVec 64 × Nat) := []
  deriving DecidableEq, Repr

/-- The report ring's registers (spec/17 R372); `mirror` says that the ring was last programmed through die 1's host port (R390). -/
structure Ring where
  base : BitVec 64 := 0
  log2 : BitVec 5 := 0
  tail : BitVec 32 := 0
  head : BitVec 32 := 0
  lost : BitVec 32 := 0
  msi : Bool := false
  mirror : Bool := false
  msiSent : Nat := 0
  deriving DecidableEq, Repr

/-- The context block (spec/16 R354). `waits` names the accesses (core, id) that an invalidation command waits for (R360). -/
structure CtxBlock where
  tab : BitVec 52 := 0
  cmd : BitVec 9 := 0
  npg : BitVec 12 := 0
  vpn : BitVec 45 := 0
  res : BitVec 2 := 0
  donecnt : BitVec 32 := 0
  busy : Bool := false
  waits : List (Nat × Nat) := []
  devnum : BitVec 9 := 0
  deriving DecidableEq, Repr

/-- The rest of the recovery block (spec/17 R376, R377, R381). -/
structure Recovery where
  thresh : Tab (BitVec 32) := []
  eccsel : BitVec 16 := 0
  ecc : Tab (BitVec 32) := []
  eccFired : List Nat := []
  mcsel : BitVec 11 := 0
  iftHearth : Nat := 0
  iftBusy : Bool := false
  iftRes : BitVec 2 := 0
  iftDone : BitVec 32 := 0
  sealRd : BitVec 19 := 0
  deriving DecidableEq, Repr

/-- The phase of the device (spec/17 R391, R392). -/
inductive Phase where
  | starting
  | delay
  | normal
  | bisque
  deriving DecidableEq, Repr

/-- The start sequence (spec/17 R391, R392; spec/16 R366). `begun` says that the boot ROMs have run, `tripped` that THERMTRIP_N is
low (spec/18 R398). -/
structure Boot where
  power : Bool := true
  begun : Bool := false
  tripped : Bool := false
  phase : Phase := .starting
  count : BitVec 2 := 0
  reason0 : BitVec 8 := 0
  reason1 : BitVec 8 := 0
  reason2 : BitVec 8 := 0
  outcome : BitVec 2 := 0
  bisqueDie : BitVec 1 := 0
  lead : Option Nat := none
  absent : BitVec 8 := 0
  rom : BitVec 4 := 0xF
  deriving DecidableEq, Repr

/-- The response of the SPDM responder to the last request (spec/16 R367): the request's name and its payload. -/
inductive Spdm where
  | none
  | version
  | capabilities
  | algorithms
  | digests (d : List Byte)
  | certificate (part : List Byte)
  | challengeAuth (sig : List Byte)
  | measurements (blocks : List (Nat × List Byte))
  | error (code : BitVec 8)
  deriving DecidableEq, Repr

/-- A count published by a core's `SHAPE`, waiting for acceptance; `held` says that it stands in a provisional task and closes no
cycle (spec/14 R327). -/
structure Asked where
  core : Nat
  ctx : Nat
  key : Nat
  count : Nat
  held : Bool := false
  deriving DecidableEq, Repr

/-- The shape home's state (spec/14 R315, R316): unresolved launches (context, key, launch) in registration order, banked counts
(context, key, count), counts waiting for acceptance, and resolved launches whose predictor entries are still to be updated. -/
structure ShapeHome where
  regs : List (Nat × Nat × Nat) := []
  banked : List (Nat × Nat × Nat) := []
  asked : List Asked := []
  resolved : List Nat := []
  deriving DecidableEq, Repr

/-- A fault present in a matrix engine (the model's own field, log entry 11: DESIGN CHOICE, unsafe): core, engine (0 cope, 1 drag, 2 assay), the one tile it
touches or every tile, element, and the bits it flips in every step. -/
structure EngineFault where
  core : Nat
  engine : Nat
  tile : Option Nat
  elem : Nat
  flip : W32
  deriving DecidableEq, Repr

/-! ## Moves and the state of the device -/

/-- Who moves next: a core issues a bundle, a matrix unit runs a micro-op, a runner performs its next bytes or reads source bytes ahead,
a store becomes visible within its hearth, or an event of spec/opcode_table.json happens. The model's own type, log entry 1: DESIGN CHOICE, safe. -/
inductive Move where
  | issue (core : Nat)
  | micro (core : Nat)
  | runner (core ch bytes : Nat)
  | ahead (core ch off n : Nat)
  | show_ (core n : Nat)
  | event (i : Instr)
  deriving DecidableEq, Repr

/-- A code word that holds an uncorrected error (spec/17 R378): its first byte as memory keeps it, its bytes, and the array class and
instance that it is named with (R376). -/
structure BadWord where
  key : Nat
  size : Nat
  cls : Nat
  inst : Nat
  deriving DecidableEq, Repr

/-- The state of the device. `turns` lists the launches (0, number) and pre-empted tasks (1, number) that wait, in the order in which
they entered their levels (spec/13 R297). `agenda`, `cur`, `tick`, `faults` and `unreachable` are the model's own fields (log entries 1, 3, 10
and 11). -/
structure State where
  agenda : List Move := []
  cur : Nat := 0
  tick : Nat := 0
  cores : Tab Core := []
  hearths : Tab Hearth := []
  dies : Tab Die := []
  mem : List Host.Cell := []
  hostMem : List Host.Cell := []
  eccBad : List BadWord := []
  ats : List (Nat × Nat × Nat) := []
  ctxs : Tab Ctx := []
  ctxBlock : CtxBlock := {}
  queues : Tab Queue := []
  launches : Tab Launch := []
  tasks : Tab Task := []
  nextUid : Nat := 0
  turns : List (Nat × Nat) := []
  shape : ShapeHome := {}
  oreqs : List OReq := []
  expect : Tab (BitVec 16) := []
  colls : List Coll := []
  ports : Tab Port := []
  cxlCap : Tab Nat := []
  cxlRemoved : List Nat := []
  hostUp : BitVec 2 := 3
  ring : Ring := {}
  reports : List Report := []
  recovery : Recovery := {}
  boot : Boot := {}
  spdm : Spdm := .none
  unreachable : List Nat := []
  faults : List EngineFault := []
  deriving DecidableEq, Repr

/-! ## Why a step stops -/

/-- Why the machine stops. -/
inductive Fault where
  /-- Raised by `step` when the supply rails are off and the next move is neither POWER_ON nor the loss of VSTBY (spec/18 R395, R398): the device
  does nothing.
  Safe: no run goes on from here. -/
  | poweredOff
  deriving DecidableEq, Repr

/-- Why an instruction has no meaning. -/
inductive Refusal where
  /-- Raised by a dispatch arm whose instruction has no meaning yet. Safe: no run goes on from here. -/
  | notModelled (mnemonic : String)
  deriving DecidableEq, Repr

/-- The outcome of a meaning. -/
abbrev Out := Host.Outcome State Fault Refusal

/-- The device right after reset: powered, its start under way, every register at the value INVENTORY.md names, memory listing
nothing (spec/17 R391; log entries 2 and 5). -/
def State.reset : State := {}

end Sys2Proof.Machine
end

