-- ==== Sys2Proof/Machine/Tab.lean ====
section
/-! DEFINITION. Sparse tables, the byte list of memory, and bit-field helpers. -/

namespace Sys2Proof.Machine

open Sys2Proof

/-- The entry of a key, if the table lists it. -/
def tabFind {α : Type} : Tab α → Nat → Option α
  | [], _ => none
  | (k, v) :: r, i => if k = i then some v else tabFind r i

/-- The entry of a key, or the default. -/
def tabGet {α : Type} (t : Tab α) (i : Nat) (d : α) : α := (tabFind t i).getD d

/-- The table with one entry written, keys rising. -/
def tabSet {α : Type} : Tab α → Nat → α → Tab α
  | [], i, x => [(i, x)]
  | (k, v) :: r, i, x =>
    if i = k then (i, x) :: r
    else if i < k then (i, x) :: (k, v) :: r
    else (k, v) :: tabSet r i x

/-- The table without a key. -/
def tabErase {α : Type} (t : Tab α) (i : Nat) : Tab α := t.filter (fun e => e.1 != i)

/-- The table with every listed entry changed. -/
def tabMap {α : Type} (t : Tab α) (f : Nat → α → α) : Tab α := t.map (fun e => (e.1, f e.1 e.2))

/-- The byte at a key of a memory; an unlisted byte reads 0x00 (log entry 2: DESIGN CHOICE, unsafe). -/
def cellGet : List Host.Cell → Nat → Byte
  | [], _ => 0
  | (k, v) :: r, a => if k = a then v else cellGet r a

/-- The memory with one byte written, in canonical form: keys rising, no byte 0x00 listed. -/
def cellSet : List Host.Cell → Nat → Byte → List Host.Cell
  | [], a, b => if b = 0 then [] else [(a, b)]
  | (k, v) :: r, a, b =>
    if a = k then (if b = 0 then r else (a, b) :: r)
    else if a < k then (if b = 0 then (k, v) :: r else (a, b) :: (k, v) :: r)
    else (k, v) :: cellSet r a b

/-- Bytes of a memory from a key on. -/
def cellsGet (m : List Host.Cell) (a : Nat) : Nat → List Byte
  | 0 => []
  | n + 1 => cellGet m a :: cellsGet m (a + 1) n

/-- The memory with bytes written from a key on. -/
def cellsSet (m : List Host.Cell) (a : Nat) : List Byte → List Host.Cell
  | [] => m
  | b :: r => cellsSet (cellSet m a b) (a + 1) r

/-- The canonical form of a memory: keys strictly rising, no byte listed that an unlisted key would read. -/
def Memory.wf : List Host.Cell → Bool
  | [] => true
  | (k, v) :: r => v != 0 && r.all (fun e => decide (k < e.1)) && Memory.wf r

/-! ## Bits -/

/-- Element `i` of `w` bits of a number. -/
def elemAt (x w i : Nat) : Nat := (x >>> (i * w)) % 2 ^ w

/-- Elements of `w` bits put side by side, the first lowest. -/
def packElems (w : Nat) : List Nat → Nat
  | [] => 0
  | x :: r => x % 2 ^ w + 2 ^ w * packElems w r

/-- `len` ones from bit `off` on. -/
def onesAt (off len : Nat) : Nat := (2 ^ len - 1) <<< off

/-- The mask with `w` ones at every element of the list. -/
def elemMask (w : Nat) : List Nat → Nat
  | [] => 0
  | i :: r => onesAt (i * w) w ||| elemMask w r

/-- `x` with the bits of a mask replaced by those of `v`. -/
def blend {n : Nat} (x mask v : BitVec n) : BitVec n := (x &&& ~~~mask) ||| (v &&& mask)

/-- A number of `w` bits as a two's-complement integer. -/
def toInt (w x : Nat) : Int := if 2 * (x % 2 ^ w) < 2 ^ w then ((x % 2 ^ w : Nat) : Int) else ((x % 2 ^ w : Nat) : Int) - 2 ^ w

/-- An integer wrapped to `w` bits. -/
def ofInt (w : Nat) (x : Int) : Nat := (x % (2 ^ w : Int)).toNat

/-- The `n` bytes of a number, lowest address first (spec/00 R9). -/
def bytesOf (x : Nat) : Nat → List Byte
  | 0 => []
  | n + 1 => BitVec.ofNat 8 x :: bytesOf (x / 256) n

/-- A register field as a number. -/
abbrev n5 (r : BitVec 5) : Nat := r.toNat

/-- The first element of a list that satisfies a test, with its position. -/
def findIdxFrom {α : Type} (p : α → Bool) : List α → Nat → Option (Nat × α)
  | [], _ => none
  | x :: r, i => if p x then some (i, x) else findIdxFrom p r (i + 1)

/-- The list with position `i` changed. -/
def modifyAt {α : Type} (l : List α) (i : Nat) (f : α → α) : List α := l.modify i f

end Sys2Proof.Machine
end

