-- ==== Sys2Proof/Machine/Float.lean ====
section
/-! DEFINITION. Number formats, exact values and the one rounding function (spec/05 R92-R105), and the correctly rounded functions
of spec/08 R203. A value that is not rational is enclosed between two rationals; once both ends round alike, that is the result. -/

namespace Sys2Proof.Machine

open Sys2Proof

/-! ## Formats (R93, R95) -/

/-- A floating-point format: exponent bits, mantissa bits, whether it has infinities (E4M3 has none). -/
structure FFmt where
  e : Nat
  m : Nat
  inf : Bool
  deriving DecidableEq, Repr

/-- FP32. -/
def fp32 : FFmt := ⟨8, 23, true⟩
/-- BF16. -/
def bf16 : FFmt := ⟨8, 7, true⟩
/-- FP16. -/
def fp16 : FFmt := ⟨5, 10, true⟩
/-- E4M3. -/
def e4m3 : FFmt := ⟨4, 3, false⟩
/-- E5M2. -/
def e5m2 : FFmt := ⟨5, 2, true⟩

/-- The exponent bias. -/
def biasOf (f : FFmt) : Nat := 2 ^ (f.e - 1) - 1
/-- Emin(F) = 1 − bias. -/
def eminOf (f : FFmt) : Int := 1 - (biasOf f : Int)
/-- The canonical NaN (R95, R96). -/
def nanOf (f : FFmt) : Nat := if f.inf then (2 ^ f.e - 1) * 2 ^ f.m + 2 ^ (f.m - 1) else 2 ^ (f.e + f.m) - 1
/-- The encoding of the largest finite value. -/
def maxBits (f : FFmt) : Nat := if f.inf then (2 ^ f.e - 1) * 2 ^ f.m - 1 else 2 ^ (f.e + f.m) - 2
/-- The sign bit set when `neg`. -/
def signBit (f : FFmt) (neg : Bool) : Nat := if neg then 2 ^ (f.e + f.m) else 0

/-- An element type (R93): a float format or an integer of a width and signedness. -/
inductive ETy where
  | flt (f : FFmt)
  | int (bits : Nat) (signed : Bool)
  deriving DecidableEq, Repr

/-- The element type of a code; 12 to 15 are reserved. -/
def etyOf (code : Nat) : Option ETy :=
  match code with
  | 0 => some (.flt fp32)
  | 1 => some (.flt bf16)
  | 2 => some (.flt fp16)
  | 3 => some (.int 32 true)
  | 4 => some (.int 32 false)
  | 5 => some (.int 16 true)
  | 6 => some (.int 16 false)
  | 7 => some (.int 8 true)
  | 8 => some (.int 8 false)
  | 9 => some (.flt e4m3)
  | 10 => some (.flt e5m2)
  | 11 => some (.int 64 true)
  | _ => none

/-- Width of an element in bits. -/
def etyBits : ETy → Nat
  | .flt f => 1 + f.e + f.m
  | .int b _ => b

/-! ## Exact values (R100) -/

/-- An exact value: NaN, an infinity, a zero with its sign, or ± n / d × 2^e with n and d positive. -/
inductive Ex where
  | nan
  | inf (neg : Bool)
  | zero (neg : Bool)
  | fin (neg : Bool) (n d : Nat) (e : Int)
  deriving DecidableEq, Repr

/-- A rational as an exact value, zero taking the sign given. -/
def exRat (zneg : Bool) (n : Int) (d : Nat) (e : Int) : Ex := if n = 0 then .zero zneg else .fin (n < 0) n.natAbs d e

/-- An integer. -/
def exInt (n : Int) : Ex := exRat false n 1 0

/-- The value of an encoding. -/
def decodeF (f : FFmt) (bits : Nat) : Ex :=
  let neg := bits / 2 ^ (f.e + f.m) % 2 == 1
  let ex := bits / 2 ^ f.m % 2 ^ f.e
  let mant := bits % 2 ^ f.m
  if f.inf ∧ ex = 2 ^ f.e - 1 then (if mant = 0 then .inf neg else .nan)
  else if f.inf = false ∧ ex = 2 ^ f.e - 1 ∧ mant = 2 ^ f.m - 1 then .nan
  else if ex = 0 then (if mant = 0 then .zero neg else .fin neg mant 1 (eminOf f - f.m))
  else .fin neg (2 ^ f.m + mant) 1 ((ex : Int) - biasOf f - f.m)

/-- The negated value. -/
def exNeg : Ex → Ex
  | .nan => .nan
  | .inf s => .inf (!s)
  | .zero s => .zero (!s)
  | .fin s n d e => .fin (!s) n d e

/-- The exact product (R100, R101). -/
def exMul : Ex → Ex → Ex
  | .nan, _ => .nan
  | _, .nan => .nan
  | .inf _, .zero _ => .nan
  | .zero _, .inf _ => .nan
  | .inf s, .inf t => .inf (s != t)
  | .inf s, .fin t _ _ _ => .inf (s != t)
  | .fin s _ _ _, .inf t => .inf (s != t)
  | .zero s, .zero t => .zero (s != t)
  | .zero s, .fin t _ _ _ => .zero (s != t)
  | .fin s _ _ _, .zero t => .zero (s != t)
  | .fin s n d e, .fin t m c g => .fin (s != t) (n * m) (d * c) (e + g)

/-- The exact quotient (R100). -/
def exDiv : Ex → Ex → Ex
  | .nan, _ => .nan
  | _, .nan => .nan
  | .inf _, .inf _ => .nan
  | .zero _, .zero _ => .nan
  | .inf s, .zero t => .inf (s != t)
  | .inf s, .fin t _ _ _ => .inf (s != t)
  | .zero s, .inf t => .zero (s != t)
  | .zero s, .fin t _ _ _ => .zero (s != t)
  | .fin s _ _ _, .zero t => .inf (s != t)
  | .fin s _ _ _, .inf t => .zero (s != t)
  | .fin s n d e, .fin t m c g => .fin (s != t) (n * c) (d * m) (e - g)

/-- The sum of two finite rationals `n / d × 2^e`. -/
def ratAdd (a b : Int × Nat × Int) : Int × Nat × Int :=
  let e := min a.2.2 b.2.2
  let na := a.1 * (2 ^ (a.2.2 - e).toNat : Nat)
  let nb := b.1 * (2 ^ (b.2.2 - e).toNat : Nat)
  if a.2.1 = b.2.1 then (na + nb, a.2.1, e) else (na * b.2.1 + nb * a.2.1, a.2.1 * b.2.1, e)

/-- What has been met so far in a sum. -/
structure SumAcc where
  nan : Bool := false
  posInf : Bool := false
  negInf : Bool := false
  posZero : Bool := false
  negZero : Bool := false
  any : Bool := false
  r : Int × Nat × Int := (0, 1, 0)
  deriving DecidableEq, Repr

/-- One more term. -/
def sumTerm (a : SumAcc) : Ex → SumAcc
  | .nan => { a with nan := true }
  | .inf true => { a with negInf := true }
  | .inf false => { a with posInf := true }
  | .zero true => { a with negZero := true }
  | .zero false => { a with posZero := true }
  | .fin s n d e =>
    let t : Int × Nat × Int := (if s then -(n : Int) else n, d, e)
    { a with any := true, r := if a.any then ratAdd a.r t else t }

/-- The end of a sum, with the sign of an exact zero by R101; `rdn` says that the rounding mode is RDN. -/
def sumEnd (a : SumAcc) (rdn : Bool) : Ex :=
  if a.nan ∨ (a.posInf ∧ a.negInf) then .nan
  else if a.posInf then .inf false
  else if a.negInf then .inf true
  else if a.any then exRat rdn a.r.1 a.r.2.1 a.r.2.2
  else if a.negZero then (if a.posZero then .zero rdn else .zero true)
  else .zero false

/-- The exact sum of any number of terms (R100, R101). -/
def exSum (l : List Ex) (rm : BitVec 2) : Ex := sumEnd (l.foldl sumTerm {}) (rm == 3)

/-! ## Rounding (R98, R99) -/

/-- floor(log2 (n / d)). -/
def log2Rat (n d : Nat) : Int :=
  let k : Int := (Nat.log2 n : Int) - Nat.log2 d
  if 0 ≤ k then (if d * 2 ^ k.toNat ≤ n then k else k - 1) else (if d ≤ n * 2 ^ (-k).toNat then k else k - 1)

/-- Whether a magnitude with a remainder is rounded up, by mode: 0 RNE, 1 RTZ, 2 RUP, 3 RDN. -/
def roundUp (rm : BitVec 2) (neg : Bool) (m rem d : Nat) : Bool :=
  if rem = 0 then false
  else match rm.toNat with
    | 0 => 2 * rem > d || (2 * rem == d && m % 2 == 1)
    | 1 => false
    | 2 => !neg
    | _ => neg

/-- n / d × 2^k as quotient, remainder and divisor. -/
def scaledQuot (n d : Nat) (k : Int) : Nat × Nat × Nat :=
  if 0 ≤ k then (n * 2 ^ k.toNat / d, n * 2 ^ k.toNat % d, d) else (n / (d * 2 ^ (-k).toNat), n % (d * 2 ^ (-k).toNat), d * 2 ^ (-k).toNat)

/-- The value a rounding overflows to (R99). -/
def overflowBits (f : FFmt) (rm : BitVec 2) (sat neg : Bool) : Nat :=
  if sat then signBit f neg + maxBits f
  else if rm = 0 ∨ (rm = 2 ∧ neg = false) ∨ (rm = 3 ∧ neg = true) then
    (if f.inf then signBit f neg + (2 ^ f.e - 1) * 2 ^ f.m else nanOf f)
  else signBit f neg + maxBits f

/-- `Round(v, F, mode)` (R98). -/
def roundF (f : FFmt) (rm : BitVec 2) (sat : Bool) : Ex → Nat
  | .nan => nanOf f
  | .inf neg =>
    if f.inf then signBit f neg + (2 ^ f.e - 1) * 2 ^ f.m
    else if sat then signBit f neg + maxBits f else nanOf f
  | .zero neg => signBit f neg
  | .fin neg n d e =>
    let q := max (log2Rat n d + e) (eminOf f) - f.m
    let r := scaledQuot n d (e - q)
    let m := if roundUp rm neg r.1 r.2.1 r.2.2 then r.1 + 1 else r.1
    -- the encoding runs on from subnormal to normal and over a carry of the mantissa
    let enc := if m < 2 ^ f.m then m else ((q + f.m - eminOf f).toNat + 1) * 2 ^ f.m + (m - 2 ^ f.m)
    if enc > maxBits f then overflowBits f rm sat neg else signBit f neg + enc

/-- An exact value rounded to an integer; none for NaN and infinities. -/
def roundInt (rm : BitVec 2) : Ex → Option Int
  | .nan => none
  | .inf _ => none
  | .zero _ => some 0
  | .fin neg n d e =>
    let r := scaledQuot n d e
    let m : Nat := if roundUp rm neg r.1 r.2.1 r.2.2 then r.1 + 1 else r.1
    some (if neg then -(m : Int) else m)

/-- The smallest value of an integer type. -/
def intMin (bits : Nat) (signed : Bool) : Int := if signed then -(2 ^ (bits - 1) : Int) else 0
/-- The largest value of an integer type. -/
def intMax (bits : Nat) (signed : Bool) : Int := if signed then 2 ^ (bits - 1) - 1 else 2 ^ bits - 1
/-- A value clamped to an integer type. -/
def clampInt (bits : Nat) (signed : Bool) (x : Int) : Int := max (intMin bits signed) (min x (intMax bits signed))
/-- The value of an element of an integer type. -/
def intVal (bits : Nat) (signed : Bool) (x : Nat) : Int := if signed then toInt bits x else ((x % 2 ^ bits : Nat) : Int)

/-- A conversion between element types (R102). -/
def convert (src dst : ETy) (rm : BitVec 2) (sat : Bool) (x : Nat) : Nat :=
  match src, dst with
  | .flt f, .flt g => roundF g rm sat (decodeF f x)
  | .int b s, .flt g => roundF g rm sat (exInt (intVal b s x))
  | .flt f, .int b s =>
    match decodeF f x with
    | .nan => 0
    | .inf neg => ofInt b (if neg then intMin b s else intMax b s)
    | v => ofInt b (clampInt b s ((roundInt rm v).getD 0))
  | .int b s, .int c t =>
    let v := intVal b s x
    if b < c then ofInt c v else ofInt c (if sat then clampInt c t v else v)

/-! ## Order of encodings -/

/-- Whether an encoding is a NaN. -/
def isNaN (f : FFmt) (x : Nat) : Bool := decodeF f x == .nan
/-- A number that orders encodings by value with −0 below +0 (R183). -/
def orderKey (f : FFmt) (x : Nat) : Int :=
  let mag := x % 2 ^ (f.e + f.m)
  if x / 2 ^ (f.e + f.m) % 2 = 1 then -(mag : Int) - 1 else mag
/-- A number that orders encodings by value, the zeros equal (R190). -/
def valueKey (f : FFmt) (x : Nat) : Int :=
  let mag := x % 2 ^ (f.e + f.m)
  if x / 2 ^ (f.e + f.m) % 2 = 1 then -(mag : Int) else mag

/-! ## Square roots -/

/-- The integer square root, bit by bit. -/
def isqrtGo (x : Nat) : Nat → Nat → Nat
  | 0, r => r
  | n + 1, r => if (r + 2 ^ n) * (r + 2 ^ n) ≤ x then isqrtGo x n (r + 2 ^ n) else isqrtGo x n r

/-- floor(√x). -/
def isqrt (x : Nat) : Nat := isqrtGo x (Nat.log2 x / 2 + 1) 0

/-- √(n / d × 2^e): exact when the root is a binary fraction, else a value strictly between the same two neighbours at far more
bits than any format has. -/
def sqrtRat (n d : Nat) (e : Int) : Ex :=
  let e' := if e % 2 = 0 then e else e - 1
  let n' := if e % 2 = 0 then n else 2 * n
  let k := 100 + Nat.log2 d
  let a := n' * 2 ^ (2 * k) / d
  let f := isqrt a
  if f * f * d = n' * 2 ^ (2 * k) then .fin false f 1 (e' / 2 - k) else .fin false (2 * f + 1) 1 (e' / 2 - k - 1)

/-- The exact square root (R100). -/
def exSqrt : Ex → Ex
  | .nan => .nan
  | .inf true => .nan
  | .inf false => .inf false
  | .zero s => .zero s
  | .fin true _ _ _ => .nan
  | .fin false n d e => sqrtRat n d e

/-! ## Enclosures at p fractional bits

Each function below works on integers scaled by 2^p; the enclosure of its result is widened by more than every division can lose. -/

/-- Σ x^(2i+1) / (2i+1) over odd powers, alternating in sign when `alt`: atan or atanh of `1 / q` scaled by 2^p. -/
def oddSeries (alt : Bool) (q2 : Nat) : Nat → Nat → Nat → Int
  | 0, _, _ => 0
  | n + 1, i, t =>
    let v : Int := (t / (2 * i + 1) : Nat)
    (if alt && i % 2 == 1 then -v else v) + oddSeries alt q2 n (i + 1) (t / q2)

/-- ln 2 × 2^p within p units: 2 atanh(1/3). -/
def ln2Fix (p : Nat) : Int := 2 * oddSeries false 9 p 0 (2 ^ p / 3)

/-- π × 2^p within 40 p units: 16 atan(1/5) − 4 atan(1/239). -/
def piFix (p : Nat) : Int := 16 * oddSeries true 25 p 0 (2 ^ p / 5) - 4 * oddSeries true 57121 p 0 (2 ^ p / 239)

/-- Σ y^i / i! from term `i`, `t` the term scaled by 2^p. -/
def expSeries (p : Nat) (y : Int) : Nat → Nat → Int → Int
  | 0, _, _ => 0
  | n + 1, i, t => t + expSeries p y n (i + 1) (t * y / (2 ^ p * (i + 1) : Nat))

/-- e^y × 2^p for 0 ≤ y < 1, y scaled by 2^p, within 4 p units. -/
def expFix (p : Nat) (y : Int) : Int := expSeries p y p 0 (2 ^ p)

/-- e^y for any y scaled by 2^p (|y| < 2^10): mantissa scaled by 2^p and exponent. The reduction by ln 2 loses |k| p units. -/
def expReduced (p : Nat) (y : Int) : Int × Int :=
  let l := ln2Fix p
  let k := y / l
  (expFix p (y - k * l), k)

/-- Σ (−1)^i y2^i t / ((2i)(2i+1) …): the sine series, `t` the term. -/
def sinSeries (p : Nat) (y2 : Int) : Nat → Nat → Int → Int
  | 0, _, _ => 0
  | n + 1, i, t => t + sinSeries p y2 n (i + 1) (-(t * y2) / (2 ^ p * ((2 * i + 2) * (2 * i + 3)) : Nat))

/-- sin y × 2^p for 0 ≤ y ≤ 2. -/
def sinFix (p : Nat) (y : Int) : Int := sinSeries p (y * y / 2 ^ p) p 0 y

/-- Σ (−1)^i x^(2i+1) / (i! (2i+1)): the error-function series, `t` = (−1)^i x^(2i+1) / i!. -/
def erfSeries (p : Nat) (x2 : Int) : Nat → Nat → Int → Int
  | 0, _, _ => 0
  | n + 1, i, t => t / (2 * i + 1 : Nat) + erfSeries p x2 n (i + 1) (-(t * x2) / (2 ^ p * (i + 1) : Nat))

/-- Σ z^(2i+1) / (2i+1) for z scaled by 2^p. -/
def atanhSeries (p : Nat) (z2 : Int) : Nat → Nat → Int → Int
  | 0, _, _ => 0
  | n + 1, i, t => t / (2 * i + 1 : Nat) + atanhSeries p z2 n (i + 1) (t * z2 / 2 ^ p)

/-- An enclosure: lower and upper end as numerators over 2^s, times 2^e. -/
structure Encl where
  lo : Int
  hi : Int
  s : Nat
  e : Int
  deriving DecidableEq, Repr

/-- The rounding of a value known by ever finer enclosures: the first whose ends round alike decides. -/
def zivGo (f : FFmt) (rm : BitVec 2) (sat : Bool) (enc : Nat → Encl) : Nat → Nat → Nat
  | 0, p => let x := enc p; roundF f rm sat (exRat false x.lo 1 (x.e - x.s))
  | n + 1, p =>
    let x := enc p
    let a := roundF f rm sat (exRat false x.lo 1 (x.e - x.s))
    let b := roundF f rm sat (exRat false x.hi 1 (x.e - x.s))
    if a = b then a else zivGo f rm sat enc n (2 * p)

/-- A finite value scaled by 2^p, rounded down in magnitude: exact when p covers its fraction bits. -/
def scaleBy (n : Nat) (e : Int) (p : Nat) : Int :=
  if 0 ≤ e + p then ((n * 2 ^ (e + p).toNat : Nat) : Int) else ((n / 2 ^ (-(e + p)).toNat : Nat) : Int)

/-- The sign put on a magnitude enclosure's rounding: the mode is mirrored for a negative result. -/
def mirror (rm : BitVec 2) (neg : Bool) : BitVec 2 := if neg then (if rm = 2 then 3 else if rm = 3 then 2 else rm) else rm

/-- A positive result computed under the mirrored mode, with its sign put on. -/
def signed (f : FFmt) (neg : Bool) (x : Nat) : Nat := if x = nanOf f then x else signBit f neg + x

/-! ## The special functions (spec/08 R203) -/

/-- The functions of the F slot. -/
inductive Fn where
  | exp2 | log2 | rcp | rsq | sinpi | cospi | tanh | sigm | erf
  deriving DecidableEq, Repr

/-- A value just above or below `v × 2^k`, closer than a quarter of the last place of any format. -/
def nearly (n : Nat) (e : Int) (up : Bool) : Ex := .fin false (n * 2 ^ 60 + (if up then 1 else 0) - (if up then 0 else 1)) 1 (e - 60)

/-- A value above zero and below half of the smallest subnormal of every format. -/
def tinyEx : Ex := .fin false 1 1 (-400)

/-- 2^x for x = ± n × 2^e, not an integer. -/
def exp2Round (f : FFmt) (rm : BitVec 2) (sat neg : Bool) (n : Nat) (e : Int) : Nat :=
  let lg : Int := Nat.log2 n + e
  if 8 ≤ lg then roundF f rm sat (if neg then tinyEx else .fin false 1 1 400)
  else if lg < -40 then roundF f rm sat (nearly 1 0 (!neg))
  else
    zivGo f rm sat (fun p =>
      let x := scaleBy n e p
      let x := if neg then -x else x
      let k := x / 2 ^ p
      let y := (x - k * 2 ^ p) * ln2Fix p / 2 ^ p
      let v := expFix p y
      ⟨v - 8 * p, v + 8 * p, p, k⟩) 3 160

/-- log2 x for x = n × 2^e above zero, not a power of two. -/
def log2Round (f : FFmt) (rm : BitVec 2) (sat : Bool) (n : Nat) (e : Int) : Nat :=
  let b := Nat.log2 n
  zivGo f rm sat (fun p =>
    let m := scaleBy n (-(b : Int)) p
    let one : Int := 2 ^ p
    let z := (m - one) * one / (m + one)
    let l := 2 * atanhSeries p (z * z / one) p 0 z
    let v := l * one / ln2Fix p + (e + b) * one
    ⟨v - 16 * p, v + 16 * p, p, 0⟩) 3 160

/-- sin(πr) for 0 < r < 1/2, r = n × 2^e. -/
def sinpiRound (f : FFmt) (rm : BitVec 2) (sat : Bool) (n : Nat) (e : Int) : Nat :=
  let extra := (-(Nat.log2 n + e)).toNat
  zivGo f rm sat (fun p0 =>
    let p := p0 + 2 * extra + 64
    let y := scaleBy n e p * piFix p / 2 ^ p
    let v := sinFix p y
    ⟨v - 64 * p, v + 64 * p, p, 0⟩) 3 160

/-- tanh x for x = n × 2^e above zero. -/
def tanhRound (f : FFmt) (rm : BitVec 2) (sat : Bool) (n : Nat) (e : Int) : Nat :=
  let lg : Int := Nat.log2 n + e
  if 5 ≤ lg then roundF f rm sat (nearly 1 0 false)
  else if lg < -40 then roundF f rm sat (nearly n e false)
  else
    zivGo f rm sat (fun p =>
      let (m, k) := expReduced p (-2 * scaleBy n e p)
      -- t = e^(−2x) = m × 2^(k − p), k ≤ 0
      let one : Int := 2 ^ p
      let t := m / 2 ^ (-k).toNat
      let v := (one - t) * one / (one + t)
      ⟨v - 256 * p, v + 256 * p, p, 0⟩) 3 192

/-- 1 / (1 + e^(−x)) for x = ± n × 2^e. -/
def sigmRound (f : FFmt) (rm : BitVec 2) (sat neg : Bool) (n : Nat) (e : Int) : Nat :=
  let lg : Int := Nat.log2 n + e
  if 8 ≤ lg then roundF f rm sat (if neg then tinyEx else nearly 1 0 false)
  else if 6 ≤ lg ∧ neg = false then roundF f rm sat (nearly 1 0 false)
  else if lg < -40 then roundF f rm sat (nearly 1 (-1) (!neg))
  else
    zivGo f rm sat (fun p =>
      let one : Int := 2 ^ p
      let x := scaleBy n e p
      -- with t = e^(−|x|): 1 / (1 + t) above zero, t / (1 + t) below
      let (m, k) := expReduced p (-x)
      let sh := (-k).toNat
      -- t = m × 2^(−p − sh); the quotient keeps the scale of t for x < 0
      if neg then
        let v := m * one * 2 ^ sh / (one * 2 ^ sh + m)
        ⟨v - 1024 * p, v + 1024 * p, p, -(sh : Int)⟩
      else
        let v := one * one * 2 ^ sh / (one * 2 ^ sh + m)
        ⟨v - 1024 * p, v + 1024 * p, p, 0⟩) 3 192

/-- erf x for x = n × 2^e above zero. -/
def erfRound (f : FFmt) (rm : BitVec 2) (sat : Bool) (n : Nat) (e : Int) : Nat :=
  let lg : Int := Nat.log2 n + e
  if 3 ≤ lg ∨ 5 * 2 ^ 60 ≤ scaleBy n e 60 then roundF f rm sat (nearly 1 0 false)
  else
    let extra := if lg < 0 then (-lg).toNat else 0
    zivGo f rm sat (fun p0 =>
      let p := p0 + 2 * extra + 128
      let x := scaleBy n e p
      let sum := erfSeries p (x * x / 2 ^ p) (2 * p) 0 x
      -- 2 / √π = √(4 / π)
      let c : Int := (isqrt ((4 * 2 ^ (3 * p)) / (piFix p).toNat) : Nat)
      let v := sum * c / 2 ^ p
      ⟨v - 2 ^ 60 * p, v + 2 ^ 60 * p, p, 0⟩) 3 192

/-- sin(πx) for x = ± n × 2^e: an integer gives a zero of x's sign, a half-integer ±1 (R203). -/
def sinpiVal (f : FFmt) (rm : BitVec 2) (sat neg : Bool) (n : Nat) (e : Int) : Nat :=
  if 0 ≤ e then signBit f neg
  else
    let k := (-e).toNat
    let one := 2 ^ k
    let r := n % (2 * one)                        -- x mod 2
    let half := r % one
    let sgn := neg != decide (one ≤ r)
    if half = 0 then signBit f neg
    else if 2 * half = one then signBit f sgn + roundF f rm sat (exInt 1)
    else signed f sgn (sinpiRound f (mirror rm sgn) sat (if 2 * half < one then half else one - half) e)

/-- cos(πx) for x = ± n × 2^e: n + ½ gives +0. -/
def cospiVal (f : FFmt) (rm : BitVec 2) (sat : Bool) (n : Nat) (e : Int) : Nat :=
  if 1 ≤ e then roundF f rm sat (exInt 1)
  else
    let k := (-e).toNat
    let one := 2 ^ k
    let r := n % (2 * one)
    -- fold to 0 ≤ r ≤ 1, then to the first quadrant with a sign
    let r := if one < r then 2 * one - r else r
    let sgn := decide (one < 2 * r)
    let r := if sgn then one - r else r
    if 2 * r = one then signBit f false
    else if r = 0 then signBit f sgn + roundF f rm sat (exInt 1)
    else if Nat.log2 r + 40 < k then signed f sgn (roundF f (mirror rm sgn) sat (nearly 1 0 false))
    else signed f sgn (sinpiRound f (mirror rm sgn) sat (one - 2 * r) (e - 1))

/-- f(x) correctly rounded, with the fixed values of R203. -/
def fnRound (fn : Fn) (f : FFmt) (rm : BitVec 2) (sat : Bool) (x : Nat) : Nat :=
  let v := decodeF f x
  let rd := roundF f rm sat
  match v with
  | .nan => nanOf f
  | .inf neg =>
    match fn with
    | .exp2 => if neg then 0 else rd (.inf false)
    | .log2 => if neg then nanOf f else rd (.inf false)
    | .rcp => signBit f neg
    | .rsq => if neg then nanOf f else 0
    | .sinpi => nanOf f
    | .cospi => nanOf f
    | .tanh => rd (exInt (if neg then -1 else 1))
    | .sigm => if neg then 0 else rd (exInt 1)
    | .erf => rd (exInt (if neg then -1 else 1))
  | .zero neg =>
    match fn with
    | .exp2 => rd (exInt 1)
    | .log2 => rd (.inf true)
    | .rcp => rd (.inf neg)
    | .rsq => rd (.inf neg)
    | .sinpi => signBit f neg
    | .cospi => rd (exInt 1)
    | .tanh => signBit f neg
    | .sigm => rd (.fin false 1 1 (-1))
    | .erf => signBit f neg
  | .fin neg n d e =>
    match fn with
    | .exp2 =>
      if 0 ≤ e ∨ n % 2 ^ (-e).toNat = 0 then
        let k : Int := scaleBy n (min e 12) 0
        rd (.fin false 1 1 (if neg then -(min k 1000) else min k 1000))
      else exp2Round f rm sat neg n e
    | .log2 =>
      if neg then nanOf f
      else if n = 2 ^ Nat.log2 n then rd (exInt (e + Nat.log2 n))
      else log2Round f rm sat n e
    | .rcp => rd (exDiv (exInt 1) v)
    | .rsq => if neg then nanOf f else rd (sqrtRat d n (-e))
    | .sinpi => sinpiVal f rm sat neg n e
    | .cospi => cospiVal f rm sat n e
    | .tanh => signed f neg (tanhRound f (mirror rm neg) sat n e)
    | .sigm => sigmRound f rm sat neg n e
    | .erf => signed f neg (erfRound f (mirror rm neg) sat n e)

end Sys2Proof.Machine
end

