-- ==== Sys2Proof/Config.lean ====
section
/-! DEFINITION. The values the manual leaves open, as constants without a value: nothing can be proved of what they are. Each is
applied to the step counter `State.tick` (so two steps may get two values) and to what tells two values of one step apart. Log
entry 3; safe: a claim about them holds for every value. -/

namespace Sys2Proof.Config

/-- Whether a read before the bound of a write sees the new value (spec/02 R35). -/
opaque freeEarly (tick n : Nat) : Bool
/-- What a logical bank holds when first entered, picked out of what the same context wrote there (spec/04 R76, spec/16 R364). -/
opaque freeKeep (tick n : Nat) : Bool
/-- The time of the package counter (spec/17 R374). -/
opaque freeTime (tick : Nat) : BitVec 64
/-- Whether a read of a line of another device is served from a copy fetched earlier, and whether a copy is kept (spec/10 R237). -/
opaque freeCopy (tick n : Nat) : Bool
/-- What a data item that the manual gives no value for holds (spec/00 R7). -/
opaque freeData (tick n : Nat) : BitVec 64
/-- How another device's tables translate an address for a context of this one (spec/16 R362): whether the operation is let in, and
the domain physical address with its rights to read and to write. -/
opaque peerTranslate (tick dev ctx va : Nat) : Option (Nat × Bool × Bool)
/-- The capacity that firmware finds behind a second-tier port of this device at a start or at UP (spec/10 R233). -/
opaque cxlCapacity (tick port : Nat) : Nat
/-- The length of the certificate chain of a die (spec/16 R366, R367). -/
opaque chainLength (die : Nat) : Nat
/-- The capacity of a second-tier port of another device (spec/10 R233). -/
opaque peerCapacity (dev port : Nat) : Nat
/-- The answer of the host's IOMMU to a translation request for a port, a PASID and an I/O page: the host page and the rights to
read and to write (spec/16 R363). -/
opaque hostTranslate (tick port pasid page : Nat) : Option (Nat × Bool × Bool)
/-- Whether a write to another device is left without its acknowledgement for 2 ms (spec/06 R431). -/
opaque freeNoAck (tick n : Nat) : Bool
/-- Whether a write to a scratchpad of another device meets the footprint of an open epoch there (spec/06 R124). -/
opaque peerFoot (tick pa : Nat) : Bool
/-- Whether the host completes a read with an error status (spec/16 R363). -/
opaque hostError (tick addr : Nat) : Bool
/-- Bytes of the identity, certificates, signatures and digests of the dies (spec/16 R366, R367). -/
opaque identityByte (item i : Nat) : BitVec 8
/-- Bytes of an answer of the SPDM responder that a fresh signature or nonce fills (spec/16 R367). -/
opaque freshByte (tick item i : Nat) : BitVec 8

end Sys2Proof.Config
end

