-- ==== Sys2Proof/Machine/Fields.lean ====
section
/-! DEFINITION. The field rules of each slot word: the reserved field values of spec/03 R43, R46, R47, R50 and of each
operation's own entry. They stand apart from WellFormed so that the decoder and the legality check share them. -/

namespace Sys2Proof.Machine

/-- U names S0 or S1 (R42). -/
def unitS (u : BitVec 4) : Bool := u == 0 || u == 1
/-- U names V0, V1 or V2 (R42) and w is no reserved width (R47). -/
def unitV (u : BitVec 4) (w : BitVec 2) : Bool := (u == 2 || u == 3 || u == 4) && w != 3
/-- U names L0 or L1 (R42). -/
def unitL (u : BitVec 4) : Bool := u == 6 || u == 7
/-- U names C0 or C1 (R42). -/
def unitC (u : BitVec 4) : Bool := u == 8 || u == 9
/-- A carry pair is even and at least 2 (R43). -/
def carryPair (g : BitVec 4) : Bool := g.extractLsb' 0 1 == 0 && 2 ≤ g
/-- A compare names its pair by d[2:0], not 0, with d[4:3] zero (R47). -/
def comparePair (d : BitVec 5) : Bool := d != 0 && d < 8
/-- The scope of an atomic is m4[2:0], 0 to 4 (R243, R267). -/
def scopeOk (m4 : BitVec 4) : Bool := m4.extractLsb' 0 3 ≤ 4
/-- A 16-byte access names an even scalar pair or a vector or w register (R260). -/
def quadFile (f3 : BitVec 3) (d : BitVec 5) : Bool := (f3 ≤ 1 && d.extractLsb' 0 1 == 0) || (2 ≤ f3 && f3 ≤ 5)
/-- `DFROM`: samples code 0 to 4, and the group's elements end by element 16 (R216). -/
def dfromField (b : BitVec 5) : Bool :=
  let c := (b.extractLsb' 0 3).toNat
  let e := 32 / 2 ^ (c + 1)
  c ≤ 4 && (b.extractLsb' 3 2).toNat * e + e ≤ 16
/-- `DSUPP`: the windows of each mode (R224). -/
def dsuppField (b : BitVec 5) : Bool :=
  b ≤ 3 || b == 8 || b == 9 || b == 16

/-- No field of the word holds a reserved value, and its unit field names a slot of its format. The arguments of an event lie in
the ranges of the units they name. -/
def fieldsOk : Instr → Bool
  | .add o => unitS o.u
  | .sub o => unitS o.u
  | .mul o => unitS o.u
  | .mulh o => unitS o.u
  | .mulhu o => unitS o.u
  | .div o => unitS o.u
  | .divu o => unitS o.u
  | .rem o => unitS o.u
  | .remu o => unitS o.u
  | .and o => unitS o.u
  | .or o => unitS o.u
  | .xor o => unitS o.u
  | .andn o => unitS o.u
  | .shl o => unitS o.u
  | .shr o => unitS o.u
  | .sar o => unitS o.u
  | .ror o => unitS o.u
  | .min o => unitS o.u
  | .max o => unitS o.u
  | .minu o => unitS o.u
  | .maxu o => unitS o.u
  | .clz o => unitS o.u && o.b == 0
  | .ctz o => unitS o.u && o.b == 0
  | .popc o => unitS o.u && o.b == 0
  | .sext o => unitS o.u && o.b ≤ 2
  | .zext o => unitS o.u && o.b ≤ 2
  | .addc o => unitS o.u && carryPair o.g
  | .subb o => unitS o.u && carryPair o.g
  | .cmpeq o => unitS o.u && comparePair o.d
  | .cmplt o => unitS o.u && comparePair o.d
  | .cmpltu o => unitS o.u && comparePair o.d
  | .cmple o => unitS o.u && comparePair o.d
  | .cmpleu o => unitS o.u && comparePair o.d
  | .pand o => unitS o.u && comparePair o.d && o.a < 16 && o.b < 16
  | .por o => unitS o.u && comparePair o.d && o.a < 16 && o.b < 16
  | .pxor o => unitS o.u && comparePair o.d && o.a < 16 && o.b < 16
  | .movx o => unitS o.u && o.b ≤ 5 && (o.b != o.u.setWidth 5)
  | .movp o => unitS o.u && o.d < 8 && o.b == 0
  | .movfp o => unitS o.u && o.a < 8 && o.b == 0
  | .gset o => unitS o.u && o.d < 8 && o.b ≤ 4
  | .gget o => unitS o.u && o.a < 8 && o.b ≤ 4
  | .hset o => unitS o.u && o.d < 8 && o.b ≤ 8
  | .hget o => unitS o.u && o.a < 8 && o.b ≤ 8
  | .guard o => o.u == 0 && o.d == 0
  | .rdvc o => unitS o.u && o.a == 0 && o.b == 0
  | .addi o => unitS o.u
  | .andi o => unitS o.u
  | .ori o => unitS o.u
  | .xori o => unitS o.u
  | .shli o => unitS o.u && o.imm < 64
  | .shri o => unitS o.u && o.imm < 64
  | .sari o => unitS o.u && o.imm < 64
  | .rori o => unitS o.u && o.imm < 64
  | .muli o => unitS o.u
  | .cmpeqi o => unitS o.u && comparePair o.d
  | .cmplti o => unitS o.u && comparePair o.d
  | .cmpltui o => unitS o.u && comparePair o.d
  | .cmplei o => unitS o.u && comparePair o.d
  | .cmpleui o => unitS o.u && comparePair o.d
  | .tokl o => unitS o.u && o.imm < 64
  | .movi o => unitS o.u
  | .movsh o => unitS o.u
  | .vadd o => unitV o.u o.w
  | .vsub o => unitV o.u o.w
  | .vmul o => unitV o.u o.w
  | .vfma o => unitV o.u o.w
  | .vfms o => unitV o.u o.w
  | .vfnma o => unitV o.u o.w
  | .vmin o => unitV o.u o.w
  | .vmax o => unitV o.u o.w
  | .vabs o => unitV o.u o.w && o.b == 0
  | .vneg o => unitV o.u o.w && o.b == 0
  | .vdiv o => unitV o.u o.w
  | .vsqrt o => unitV o.u o.w && o.b == 0
  | .vand o => unitV o.u o.w
  | .vor o => unitV o.u o.w
  | .vxor o => unitV o.u o.w
  | .vandn o => unitV o.u o.w
  | .vshl o => unitV o.u o.w
  | .vshr o => unitV o.u o.w
  | .vsar o => unitV o.u o.w
  | .vshli o => unitV o.u o.w
  | .vshri o => unitV o.u o.w
  | .vsari o => unitV o.u o.w
  | .vmulhi o => unitV o.u o.w
  | .vmulhiu o => unitV o.u o.w
  | .vadc o => unitV o.u o.w && carryPair o.g
  | .vsbc o => unitV o.u o.w && carryPair o.g
  | .vmacw o => unitV o.u o.w
  | .vcmpeq o => unitV o.u o.w && comparePair o.d
  | .vcmplt o => unitV o.u o.w && comparePair o.d
  | .vcmple o => unitV o.u o.w && comparePair o.d
  | .vcmpltu o => unitV o.u o.w && comparePair o.d
  | .vcmpleu o => unitV o.u o.w && comparePair o.d
  | .vclass o => unitV o.u o.w && o.b == 0
  | .vsel o => unitV o.u o.w
  | .vmov o => unitV o.u o.w && o.b == 0
  | .vmovx o => unitV o.u o.w && 2 ≤ o.b && o.b ≤ 5 && o.b != o.u.setWidth 5
  | .vbcast o => unitV o.u o.w && 2 ≤ o.b && o.b ≤ 5
  | .vext o => unitV o.u o.w && o.w == 0 && o.b ≤ 1
  | .vperm o => unitV o.u o.w
  | .viota o => unitV o.u o.w && o.a == 0 && o.b == 0
  | .vredadd o => unitV o.u o.w && o.b == 0
  | .vredmax o => unitV o.u o.w && o.b == 0
  | .vredmin o => unitV o.u o.w && o.b == 0
  | .vcvt o => unitV o.u o.w && o.b < 12
  | .vqnt o => unitV o.u o.w
  | .vdqnt o => unitV o.u o.w
  | .vpack o => unitV o.u o.w
  | .vunpk o => unitV o.u o.w && o.b ≤ 1
  | .vclz o => unitV o.u o.w && o.b == 0
  | .vpopc o => unitV o.u o.w && o.b == 0
  | .vscan o => unitV o.u o.w && o.b == 0
  | .kand o => unitV o.u o.w && o.d < 16 && o.a < 16 && o.b < 16
  | .kor o => unitV o.u o.w && o.d < 16 && o.a < 16 && o.b < 16
  | .kxor o => unitV o.u o.w && o.d < 16 && o.a < 16 && o.b < 16
  | .kmov o => unitV o.u o.w && o.d < 16 && o.a < 16 && o.b == 0
  | .kpopc o => unitV o.u o.w && o.a < 16 && o.b == 0
  | .kfirst o => unitV o.u o.w && o.a < 16 && o.b == 0
  | .fexp2 o => o.b == 0
  | .flog2 o => o.b == 0
  | .frcp o => o.b == 0
  | .frsq o => o.b == 0
  | .fsinpi o => o.b == 0
  | .fcospi o => o.b == 0
  | .ftanh o => o.b == 0
  | .fsigm o => o.b == 0
  | .ferf o => o.b == 0
  | .frand o => o.a == 0 && o.b == 0
  | .fmovx o => o.b ≤ 4
  | .dpt o => o.d < 16 && o.b == 0
  | .dfrom o => o.d < 16 && dfromField o.b
  | .dadd o => o.d < 16 && o.a < 16 && o.b < 16
  | .dsub o => o.d < 16 && o.a < 16 && o.b < 16
  | .dmul o => o.d < 16 && o.a < 16 && o.b < 16
  | .dmax o => o.d < 16 && o.a < 16 && o.b < 16
  | .dmin o => o.d < 16 && o.a < 16 && o.b < 16
  | .daff o => o.d < 16 && o.a < 16
  | .dmap o => o.d < 16 && o.a < 16 && o.b ≤ 6
  | .dtag o => o.d < 16 && o.a < 16 && o.b < 16
  | .dtags o => o.d < 16 && o.a < 16
  | .dcanon o => o.d < 16 && o.a < 16 && o.b == 0
  | .dmom o => o.a < 16 && o.b < 8
  | .dqnt o => o.a < 16
  | .dcdf o => o.a < 16
  | .dmov o => o.d < 16 && o.a < 16 && o.b == 0
  | .dsupp o => o.a < 16 && dsuppField o.b
  | .mcall _ => true
  | .mclr _ => true
  | .mstat _ => true
  | .msig _ => true
  | .mabort _ => true
  | .mload _ => true
  | .ldB o => unitL o.u && o.f3 ≤ 1
  | .ldBz o => unitL o.u && o.f3 ≤ 1
  | .ldH o => unitL o.u && o.f3 ≤ 1
  | .ldHz o => unitL o.u && o.f3 ≤ 1
  | .ldW o => unitL o.u && o.f3 ≤ 1
  | .ldWz o => unitL o.u && o.f3 ≤ 1
  | .ldD o => unitL o.u && o.f3 ≤ 1
  | .ldQ o => unitL o.u && quadFile o.f3 o.d
  | .ldv256 o => unitL o.u && 2 ≤ o.f3 && o.f3 ≤ 5
  | .ldv512 o => unitL o.u && 2 ≤ o.f3 && o.f3 ≤ 5
  | .ldv1024 o => unitL o.u && 2 ≤ o.f3 && o.f3 ≤ 5
  | .ldk o => unitL o.u && o.f3 == 7 && o.d < 16
  | .ldd o => unitL o.u && o.f3 == 6 && o.d < 16
  | .ldxD o => unitL o.u && o.f3 ≤ 1
  | .ldxW o => unitL o.u && o.f3 ≤ 1
  | .stB o => unitL o.u && o.f3 ≤ 1
  | .stH o => unitL o.u && o.f3 ≤ 1
  | .stW o => unitL o.u && o.f3 ≤ 1
  | .stD o => unitL o.u && o.f3 ≤ 1
  | .stQ o => unitL o.u && quadFile o.f3 o.d
  | .stv256 o => unitL o.u && 2 ≤ o.f3 && o.f3 ≤ 5
  | .stv512 o => unitL o.u && 2 ≤ o.f3 && o.f3 ≤ 5
  | .stv1024 o => unitL o.u && 2 ≤ o.f3 && o.f3 ≤ 5
  | .stk o => unitL o.u && o.f3 == 7 && o.d < 16
  | .std o => unitL o.u && o.f3 == 6 && o.d < 16
  | .stxD o => unitL o.u && o.f3 ≤ 1
  | .stxW o => unitL o.u && o.f3 ≤ 1
  | .vgather o => unitL o.u && 2 ≤ o.f3 && o.f3 ≤ 4 && o.d != 31
  | .vscatter o => unitL o.u && 2 ≤ o.f3 && o.f3 ≤ 4 && o.d != 31
  | .ldaW o => unitL o.u && o.f3 ≤ 1 && o.m4 ≤ 4
  | .ldaD o => unitL o.u && o.f3 ≤ 1 && o.m4 ≤ 4
  | .stlW o => unitL o.u && o.f3 ≤ 1 && o.m4 ≤ 4
  | .stlD o => unitL o.u && o.f3 ≤ 1 && o.m4 ≤ 4
  | .fence o => unitL o.u && o.scope ≤ 4
  | .drain o => unitL o.u && o.f3 == 0 && o.d == 0 && o.a == 0 && o.m4 == 0
  | .pref o => unitL o.u && o.f3 == 0 && o.d == 0
  | .aaddW o => unitL o.u && o.f3 ≤ 1 && scopeOk o.m4
  | .aandW o => unitL o.u && o.f3 ≤ 1 && scopeOk o.m4
  | .aorW o => unitL o.u && o.f3 ≤ 1 && scopeOk o.m4
  | .axorW o => unitL o.u && o.f3 ≤ 1 && scopeOk o.m4
  | .aminW o => unitL o.u && o.f3 ≤ 1 && scopeOk o.m4
  | .amaxW o => unitL o.u && o.f3 ≤ 1 && scopeOk o.m4
  | .aminuW o => unitL o.u && o.f3 ≤ 1 && scopeOk o.m4
  | .amaxuW o => unitL o.u && o.f3 ≤ 1 && scopeOk o.m4
  | .aswpW o => unitL o.u && o.f3 ≤ 1 && scopeOk o.m4
  | .acasW o => unitL o.u && o.f3 ≤ 1 && scopeOk o.m4 && o.d != 31
  | .afaddW o => unitL o.u && o.f3 ≤ 1 && scopeOk o.m4
  | .aaddD o => unitL o.u && o.f3 ≤ 1 && scopeOk o.m4
  | .aandD o => unitL o.u && o.f3 ≤ 1 && scopeOk o.m4
  | .aorD o => unitL o.u && o.f3 ≤ 1 && scopeOk o.m4
  | .axorD o => unitL o.u && o.f3 ≤ 1 && scopeOk o.m4
  | .aminD o => unitL o.u && o.f3 ≤ 1 && scopeOk o.m4
  | .amaxD o => unitL o.u && o.f3 ≤ 1 && scopeOk o.m4
  | .aminuD o => unitL o.u && o.f3 ≤ 1 && scopeOk o.m4
  | .amaxuD o => unitL o.u && o.f3 ≤ 1 && scopeOk o.m4
  | .aswpD o => unitL o.u && o.f3 ≤ 1 && scopeOk o.m4
  | .acasD o => unitL o.u && o.f3 ≤ 1 && scopeOk o.m4 && o.d != 31
  | .oadd o => unitL o.u && o.f3 ≤ 1
  | .oswp o => unitL o.u && o.f3 ≤ 1
  | .ocas o => unitL o.u && o.f3 ≤ 1 && o.d != 31
  | .copy o => unitC o.u && o.aux == 0
  | .copy2 o => unitC o.u && o.aux == 0
  | .send o => unitC o.u && o.aux == 0
  | .fetch o => unitC o.u && o.aux == 0
  | .scopy o => unitC o.u && o.aux ≤ 1
  | .coll o => unitC o.u && o.aux.extractLsb' 2 3 ≤ 3 && o.aux.extractLsb' 0 2 ≤ 2
  | .czero o => unitC o.u && o.aux == 0
  | .cflush o => unitC o.u && o.aux == 0
  | .bprep o => o.dist != 0
  | .bcall o => o.dist != 0
  | .bprepx o => o.dist != 0
  | .bcallx o => o.dist != 0
  | .ret o => o.dist != 0
  | .loop o => o.off != 0
  | .loopi o => o.off != 0
  | .trap _ => true
  | .syscall _ => true
  | .eret _ => true
  | .eretS _ => true
  | .twait _ => true
  | .tpoll o => o.m != 0
  | .waitwp _ => true
  | .setfmt _ => true
  | .setbank o => o.f != 3
  | .sync _ => true
  | .mfs _ => true
  | .mts _ => true
  | .ifence _ => true
  | .ovl _ => true
  | .launch _ => true
  | .launchg _ => true
  | .shape _ => true
  | .predict o => o.mode != 3
  | .alloc _ => true
  | .free _ => true
  | .yield _ => true
  | .halt _ => true
  | .evset _ => true
  | .evsetClear _ => true
  | .evwait _ => true
  | .endR _ => true
  | .lda _ => true
  | .ldb _ => true
  | .ldsa _ => true
  | .ldsb _ => true
  | .mma _ => true
  | .zero _ => true
  | .tld _ => true
  | .epi _ => true
  | .stt _ => true
  | .sigchk _ => true
  | .loopMicroOp _ => true
  | .endl _ => true
  | .gadv _ => true
  | .setp _ => true
  | .powerOn _ => true
  | .hostReset _ => true
  | .startComplete _ => true
  | .startTimeout _ => true
  | .restartDelay _ => true
  | .restart _ => true
  | .getVersion => true
  | .getCapabilities => true
  | .negotiateAlgorithms => true
  | .getDigests => true
  | .getCertificate _ _ _ => true
  | .challenge _ _ => true
  | .getMeasurements _ => true
  | .spdmUnsupportedRequest _ => true
  | .thermtrip die _ _ => die < 4
  | .thermalClockStep die _ _ => die < 4
  | .registerWrite _ _ => true
  | .qtailWrite _ _ => true
  | .queueEnable _ _ => true
  | .queueDisable _ _ => true
  | .gdoorWrite _ _ => true
  | .gpatchWrite _ _ => true
  | .create _ => true
  | .destroy _ => true
  | .invasid _ => true
  | .invrange _ => true
  | .ctxcmdBadCommand _ _ => true
  | .dieFence _ => true
  | .eccCounterClear => true
  | .matrixCounterClear => true
  | .avsEnable die _ => die < 4
  | .avsDisable die _ => die < 4
  | .avsRaisePoint die => die < 4
  | .avsResume die => die < 4
  | .avsStep die => die < 4
  | .iftStart _ => true
  | .iftComplete _ => true
  | .retrain p _ => p < 18
  | .up p => p < 24
  | .down p => p < 18
  | .atsInvalidateRequest port _ => port < 2
  | .stokerFrame die _ => die < 4
  | .priorityAging _ => true
  | .taskStart _ => true
  | .virtualCycleAdvance _ => true
  | .resultLanding core => core < 384
  | .fmtWriteEffect core => core < 384
  | .preparedTransferTrigger core => core < 384
  | .loopEndTest core => core < 384
  | .accessComplete core _ => core < 384
  | .pageWalkComplete core => core < 384
  | .overlayFetchComplete core bank => core < 384 && bank < 8
  | .spillRefillComplete core => core < 384
  | .remoteAccessTimeout core _ => core < 384
  | .preemption _ => true
  | .lazyClaim core => core < 384
  | .tokenWaitEnd core => core < 384
  | .writePointerWaitEnd core => core < 384
  | .barrierComplete _ => true
  | .eventWaitEnd core => core < 384
  | .greenShareSpaceAvailable core => core < 384
  | .matrixEntryStart core => core < 384
  | .assayComplete hearth => hearth < 96
  | .runnerOperationStart core ch => core < 384 && ch < 2
  | .runnerOperationComplete core ch => core < 384 && ch < 2
  | .scopyFarWrite core ch _ => core < 384 && ch < 2
  | .collectiveComplete ctx group => ctx < 64 && group < 65536
  | .orderedAtomicRequest _ => true
  | .orderedAtomicResend _ => true
  | .fabricPacketReceive p _ => p < 18
  | .fabricAckReceive p _ => p < 18
  | .fabricNakReceive p _ => p < 18
  | .ackIdleTimer p => p < 18
  | .laneFailure p lane => p < 18 && lane < 17
  | .retrainComplete p _ => p < 18
  | .partnerTimeout p => p < 18
  | .cxlContainment p => p < 4
  | .hostLinkDown p => p < 2
  | .correctedEccError cls _ => cls < 9
  | .uncorrectedEccError _ => true
  | .handlerCountAdvance core => core < 384
  | .powerLoss _ => true
  | .hostWritesToDeviceMemory addr bytes => addr + bytes.length ≤ 2 ^ 43

end Sys2Proof.Machine
end

