-- ==== Sys2Proof/WellFormed.lean ====
section
/-! DEFINITION. Well-formed instructions: no field holds a reserved value (spec/03 R47, R51) and every event names units that
exist. -/

namespace Sys2Proof

/-- An instruction whose every field is admitted by its encoding, or an event whose every argument names a unit of the device. -/
def Instr.wf (i : Instr) : Bool := Machine.fieldsOk i

/-- The proposition that a term is well formed. -/
abbrev Instr.WF (i : Instr) : Prop := i.wf = true

end Sys2Proof
end

