-- ==== Sys2Proof/Decode.lean ====
section
/-! DEFINITION. Decoding slot words and micro-op words (spec/03 R42, R46, R47, R61; spec/07 R149, R150), total on any bits and
rejecting by name, and the encoder written from the same layouts. What builds a constructor past the 245th is marked
noncomputable: Lean's code generator has no tag for it; the kernel evaluates it all the same. -/

namespace Sys2Proof

/-- Why a word is no instruction: the reason bits 1, 4 and 5 of spec/03 R51. -/
inductive DecodeErr where
  | reservedUnit
  | reservedOpcode
  | reservedField
  deriving DecidableEq, Repr

/-- The four bytes of a word, lowest address first (R9). -/
def bytesOfWord (w : W32) : List Byte :=
  [w.extractLsb' 0 8, w.extractLsb' 8 8, w.extractLsb' 16 8, w.extractLsb' 24 8]

/-- The number a list of bytes spells, lowest address first (R9). -/
def natOfBytes : List Byte → Nat
  | [] => 0
  | b :: r => b.toNat + 256 * natOfBytes r

/-- The fields of a word read as SROp (SR layout). -/
def SROp.ofWord (w : W32) : SROp :=
  ⟨w.extractLsb' 31 1, w.extractLsb' 27 4, w.extractLsb' 23 4, w.extractLsb' 10 5, w.extractLsb' 5 5, w.extractLsb' 0 5⟩

/-- The fields of a word read as SIOp (SI layout). -/
def SIOp.ofWord (w : W32) : SIOp :=
  ⟨w.extractLsb' 31 1, w.extractLsb' 27 4, w.extractLsb' 23 4, w.extractLsb' 12 5, w.extractLsb' 7 5, w.extractLsb' 0 7⟩

/-- The fields of a word read as SKOp (SK layout). -/
def SKOp.ofWord (w : W32) : SKOp :=
  ⟨w.extractLsb' 31 1, w.extractLsb' 27 4, w.extractLsb' 23 4, w.extractLsb' 15 5, w.extractLsb' 0 15⟩

/-- The fields of a word read as VOp (V layout). -/
def VOp.ofWord (w : W32) : VOp :=
  ⟨w.extractLsb' 31 1, w.extractLsb' 27 4, w.extractLsb' 23 4, w.extractLsb' 15 2, w.extractLsb' 10 5, w.extractLsb' 5 5, w.extractLsb' 0 5⟩

/-- The fields of a word read as FOp (F layout). -/
def FOp.ofWord (w : W32) : FOp :=
  ⟨w.extractLsb' 31 1, w.extractLsb' 23 4, w.extractLsb' 10 5, w.extractLsb' 5 5, w.extractLsb' 0 5⟩

/-- The fields of a word read as LOp (L layout). -/
def LOp.ofWord (w : W32) : LOp :=
  ⟨w.extractLsb' 31 1, w.extractLsb' 27 4, w.extractLsb' 23 4, w.extractLsb' 14 3, w.extractLsb' 9 5, w.extractLsb' 4 5, w.extractLsb' 0 4⟩

/-- The fields of a word read as FenceOp (LF layout). -/
def FenceOp.ofWord (w : W32) : FenceOp :=
  ⟨w.extractLsb' 31 1, w.extractLsb' 27 4, w.extractLsb' 23 4, w.extractLsb' 11 6, w.extractLsb' 5 6, w.extractLsb' 2 3⟩

/-- The fields of a word read as COp (C layout). -/
def COp.ofWord (w : W32) : COp :=
  ⟨w.extractLsb' 31 1, w.extractLsb' 27 4, w.extractLsb' 23 4, w.extractLsb' 16 3, w.extractLsb' 10 6, w.extractLsb' 5 5, w.extractLsb' 0 5⟩

/-- The fields of a word read as MCallOp (MC layout). -/
def MCallOp.ofWord (w : W32) : MCallOp :=
  ⟨w.extractLsb' 31 1, w.extractLsb' 23 4, w.extractLsb' 11 8, w.extractLsb' 5 6, w.extractLsb' 0 5⟩

/-- The fields of a word read as MClrOp (MR layout). -/
def MClrOp.ofWord (w : W32) : MClrOp :=
  ⟨w.extractLsb' 31 1, w.extractLsb' 23 4, w.extractLsb' 11 8, w.extractLsb' 5 6⟩

/-- The fields of a word read as MStatOp (MS layout). -/
def MStatOp.ofWord (w : W32) : MStatOp :=
  ⟨w.extractLsb' 31 1, w.extractLsb' 23 4, w.extractLsb' 10 6, w.extractLsb' 5 5⟩

/-- The fields of a word read as MSigOp (MG layout). -/
def MSigOp.ofWord (w : W32) : MSigOp :=
  ⟨w.extractLsb' 31 1, w.extractLsb' 23 4, w.extractLsb' 16 3, w.extractLsb' 10 6, w.extractLsb' 5 5⟩

/-- The fields of a word read as MAbortOp (MA layout). -/
def MAbortOp.ofWord (w : W32) : MAbortOp :=
  ⟨w.extractLsb' 31 1, w.extractLsb' 23 4⟩

/-- The fields of a word read as MLoadOp (ML layout). -/
def MLoadOp.ofWord (w : W32) : MLoadOp :=
  ⟨w.extractLsb' 31 1, w.extractLsb' 23 4, w.extractLsb' 10 6, w.extractLsb' 5 5, w.extractLsb' 0 5⟩

/-- The fields of a word read as PrepOp (BP layout). -/
def PrepOp.ofWord (w : W32) : PrepOp :=
  ⟨w.extractLsb' 31 1, w.extractLsb' 23 4, w.extractLsb' 19 2, w.extractLsb' 15 4, w.extractLsb' 0 15⟩

/-- The fields of a word read as PrepXOp (BPX layout). -/
def PrepXOp.ofWord (w : W32) : PrepXOp :=
  ⟨w.extractLsb' 31 1, w.extractLsb' 23 4, w.extractLsb' 14 2, w.extractLsb' 10 4, w.extractLsb' 5 5⟩

/-- The fields of a word read as RetOp (RET layout). -/
def RetOp.ofWord (w : W32) : RetOp :=
  ⟨w.extractLsb' 31 1, w.extractLsb' 23 4, w.extractLsb' 14 2, w.extractLsb' 10 4⟩

/-- The fields of a word read as LoopOp (LOOP layout). -/
def LoopOp.ofWord (w : W32) : LoopOp :=
  ⟨w.extractLsb' 31 1, w.extractLsb' 23 4, w.extractLsb' 11 5, w.extractLsb' 0 11⟩

/-- The fields of a word read as LoopIOp (LOOPI layout). -/
def LoopIOp.ofWord (w : W32) : LoopIOp :=
  ⟨w.extractLsb' 31 1, w.extractLsb' 23 4, w.extractLsb' 8 8, w.extractLsb' 0 8⟩

/-- The fields of a word read as CodeOp (CODE layout). -/
def CodeOp.ofWord (w : W32) : CodeOp :=
  ⟨w.extractLsb' 31 1, w.extractLsb' 23 4, w.extractLsb' 0 16⟩

/-- The fields of a word read as PlainOp (N layout). -/
def PlainOp.ofWord (w : W32) : PlainOp :=
  ⟨w.extractLsb' 31 1, w.extractLsb' 23 4⟩

/-- The fields of a word read as TWaitOp (TW layout). -/
def TWaitOp.ofWord (w : W32) : TWaitOp :=
  ⟨w.extractLsb' 31 1, w.extractLsb' 23 4, w.extractLsb' 10 6⟩

/-- The fields of a word read as TPollOp (TP layout). -/
def TPollOp.ofWord (w : W32) : TPollOp :=
  ⟨w.extractLsb' 31 1, w.extractLsb' 23 4, w.extractLsb' 10 6, w.extractLsb' 5 5, w.extractLsb' 0 3⟩

/-- The fields of a word read as WaitWpOp (WP layout). -/
def WaitWpOp.ofWord (w : W32) : WaitWpOp :=
  ⟨w.extractLsb' 31 1, w.extractLsb' 23 4, w.extractLsb' 15 1, w.extractLsb' 10 5⟩

/-- The fields of a word read as RegOp (A1 layout). -/
def RegOp.ofWord (w : W32) : RegOp :=
  ⟨w.extractLsb' 31 1, w.extractLsb' 23 4, w.extractLsb' 11 5⟩

/-- The fields of a word read as SetBankOp (SB layout). -/
def SetBankOp.ofWord (w : W32) : SetBankOp :=
  ⟨w.extractLsb' 31 1, w.extractLsb' 23 4, w.extractLsb' 14 2, w.extractLsb' 0 8⟩

/-- The fields of a word read as SysOp (SYS layout). -/
def SysOp.ofWord (w : W32) : SysOp :=
  ⟨w.extractLsb' 31 1, w.extractLsb' 23 4, w.extractLsb' 6 10, w.extractLsb' 5 1, w.extractLsb' 0 5⟩

/-- The fields of a word read as OvlOp (OVL layout). -/
def OvlOp.ofWord (w : W32) : OvlOp :=
  ⟨w.extractLsb' 31 1, w.extractLsb' 23 4, w.extractLsb' 8 8⟩

/-- The fields of a word read as KeyOp (KEY layout). -/
def KeyOp.ofWord (w : W32) : KeyOp :=
  ⟨w.extractLsb' 31 1, w.extractLsb' 23 4, w.extractLsb' 11 5, w.extractLsb' 3 8⟩

/-- The fields of a word read as PredictOp (PR layout). -/
def PredictOp.ofWord (w : W32) : PredictOp :=
  ⟨w.extractLsb' 31 1, w.extractLsb' 23 4, w.extractLsb' 14 2, w.extractLsb' 9 5, w.extractLsb' 1 8⟩

/-- The fields of a word read as AllocOp (AL layout). -/
def AllocOp.ofWord (w : W32) : AllocOp :=
  ⟨w.extractLsb' 31 1, w.extractLsb' 23 4, w.extractLsb' 11 5, w.extractLsb' 6 5⟩

/-- The fields of a word read as EventOp (EV layout). -/
def EventOp.ofWord (w : W32) : EventOp :=
  ⟨w.extractLsb' 31 1, w.extractLsb' 23 4, w.extractLsb' 9 5⟩

/-- The word of an instruction, from its layout: E, U, G, the opcode and the operand fields, high bits first (R46). The reserved
bits of a layout are zero. Micro-ops and events have no slot word. -/
def encodeWord : Instr → Option W32
  | .add o => some (o.e ++ o.u ++ o.g ++ 0#1 ++ 0#7 ++ o.d ++ o.a ++ o.b)
  | .sub o => some (o.e ++ o.u ++ o.g ++ 0#1 ++ 1#7 ++ o.d ++ o.a ++ o.b)
  | .mul o => some (o.e ++ o.u ++ o.g ++ 0#1 ++ 2#7 ++ o.d ++ o.a ++ o.b)
  | .mulh o => some (o.e ++ o.u ++ o.g ++ 0#1 ++ 3#7 ++ o.d ++ o.a ++ o.b)
  | .mulhu o => some (o.e ++ o.u ++ o.g ++ 0#1 ++ 4#7 ++ o.d ++ o.a ++ o.b)
  | .div o => some (o.e ++ o.u ++ o.g ++ 0#1 ++ 5#7 ++ o.d ++ o.a ++ o.b)
  | .divu o => some (o.e ++ o.u ++ o.g ++ 0#1 ++ 6#7 ++ o.d ++ o.a ++ o.b)
  | .rem o => some (o.e ++ o.u ++ o.g ++ 0#1 ++ 7#7 ++ o.d ++ o.a ++ o.b)
  | .remu o => some (o.e ++ o.u ++ o.g ++ 0#1 ++ 8#7 ++ o.d ++ o.a ++ o.b)
  | .and o => some (o.e ++ o.u ++ o.g ++ 0#1 ++ 9#7 ++ o.d ++ o.a ++ o.b)
  | .or o => some (o.e ++ o.u ++ o.g ++ 0#1 ++ 10#7 ++ o.d ++ o.a ++ o.b)
  | .xor o => some (o.e ++ o.u ++ o.g ++ 0#1 ++ 11#7 ++ o.d ++ o.a ++ o.b)
  | .andn o => some (o.e ++ o.u ++ o.g ++ 0#1 ++ 12#7 ++ o.d ++ o.a ++ o.b)
  | .shl o => some (o.e ++ o.u ++ o.g ++ 0#1 ++ 13#7 ++ o.d ++ o.a ++ o.b)
  | .shr o => some (o.e ++ o.u ++ o.g ++ 0#1 ++ 14#7 ++ o.d ++ o.a ++ o.b)
  | .sar o => some (o.e ++ o.u ++ o.g ++ 0#1 ++ 15#7 ++ o.d ++ o.a ++ o.b)
  | .ror o => some (o.e ++ o.u ++ o.g ++ 0#1 ++ 16#7 ++ o.d ++ o.a ++ o.b)
  | .min o => some (o.e ++ o.u ++ o.g ++ 0#1 ++ 17#7 ++ o.d ++ o.a ++ o.b)
  | .max o => some (o.e ++ o.u ++ o.g ++ 0#1 ++ 18#7 ++ o.d ++ o.a ++ o.b)
  | .minu o => some (o.e ++ o.u ++ o.g ++ 0#1 ++ 19#7 ++ o.d ++ o.a ++ o.b)
  | .maxu o => some (o.e ++ o.u ++ o.g ++ 0#1 ++ 20#7 ++ o.d ++ o.a ++ o.b)
  | .clz o => some (o.e ++ o.u ++ o.g ++ 0#1 ++ 21#7 ++ o.d ++ o.a ++ o.b)
  | .ctz o => some (o.e ++ o.u ++ o.g ++ 0#1 ++ 22#7 ++ o.d ++ o.a ++ o.b)
  | .popc o => some (o.e ++ o.u ++ o.g ++ 0#1 ++ 23#7 ++ o.d ++ o.a ++ o.b)
  | .sext o => some (o.e ++ o.u ++ o.g ++ 0#1 ++ 24#7 ++ o.d ++ o.a ++ o.b)
  | .zext o => some (o.e ++ o.u ++ o.g ++ 0#1 ++ 25#7 ++ o.d ++ o.a ++ o.b)
  | .addc o => some (o.e ++ o.u ++ o.g ++ 0#1 ++ 26#7 ++ o.d ++ o.a ++ o.b)
  | .subb o => some (o.e ++ o.u ++ o.g ++ 0#1 ++ 27#7 ++ o.d ++ o.a ++ o.b)
  | .cmpeq o => some (o.e ++ o.u ++ o.g ++ 0#1 ++ 32#7 ++ o.d ++ o.a ++ o.b)
  | .cmplt o => some (o.e ++ o.u ++ o.g ++ 0#1 ++ 33#7 ++ o.d ++ o.a ++ o.b)
  | .cmpltu o => some (o.e ++ o.u ++ o.g ++ 0#1 ++ 34#7 ++ o.d ++ o.a ++ o.b)
  | .cmple o => some (o.e ++ o.u ++ o.g ++ 0#1 ++ 35#7 ++ o.d ++ o.a ++ o.b)
  | .cmpleu o => some (o.e ++ o.u ++ o.g ++ 0#1 ++ 36#7 ++ o.d ++ o.a ++ o.b)
  | .pand o => some (o.e ++ o.u ++ o.g ++ 0#1 ++ 37#7 ++ o.d ++ o.a ++ o.b)
  | .por o => some (o.e ++ o.u ++ o.g ++ 0#1 ++ 38#7 ++ o.d ++ o.a ++ o.b)
  | .pxor o => some (o.e ++ o.u ++ o.g ++ 0#1 ++ 39#7 ++ o.d ++ o.a ++ o.b)
  | .movx o => some (o.e ++ o.u ++ o.g ++ 0#1 ++ 48#7 ++ o.d ++ o.a ++ o.b)
  | .movp o => some (o.e ++ o.u ++ o.g ++ 0#1 ++ 49#7 ++ o.d ++ o.a ++ o.b)
  | .movfp o => some (o.e ++ o.u ++ o.g ++ 0#1 ++ 50#7 ++ o.d ++ o.a ++ o.b)
  | .gset o => some (o.e ++ o.u ++ o.g ++ 0#1 ++ 51#7 ++ o.d ++ o.a ++ o.b)
  | .gget o => some (o.e ++ o.u ++ o.g ++ 0#1 ++ 52#7 ++ o.d ++ o.a ++ o.b)
  | .hset o => some (o.e ++ o.u ++ o.g ++ 0#1 ++ 53#7 ++ o.d ++ o.a ++ o.b)
  | .hget o => some (o.e ++ o.u ++ o.g ++ 0#1 ++ 54#7 ++ o.d ++ o.a ++ o.b)
  | .guard o => some (o.e ++ o.u ++ o.g ++ 0#1 ++ 55#7 ++ o.d ++ o.a ++ o.b)
  | .rdvc o => some (o.e ++ o.u ++ o.g ++ 0#1 ++ 56#7 ++ o.d ++ o.a ++ o.b)
  | .addi o => some (o.e ++ o.u ++ o.g ++ 2#2 ++ 0#4 ++ o.d ++ o.a ++ o.imm)
  | .andi o => some (o.e ++ o.u ++ o.g ++ 2#2 ++ 1#4 ++ o.d ++ o.a ++ o.imm)
  | .ori o => some (o.e ++ o.u ++ o.g ++ 2#2 ++ 2#4 ++ o.d ++ o.a ++ o.imm)
  | .xori o => some (o.e ++ o.u ++ o.g ++ 2#2 ++ 3#4 ++ o.d ++ o.a ++ o.imm)
  | .shli o => some (o.e ++ o.u ++ o.g ++ 2#2 ++ 4#4 ++ o.d ++ o.a ++ o.imm)
  | .shri o => some (o.e ++ o.u ++ o.g ++ 2#2 ++ 5#4 ++ o.d ++ o.a ++ o.imm)
  | .sari o => some (o.e ++ o.u ++ o.g ++ 2#2 ++ 6#4 ++ o.d ++ o.a ++ o.imm)
  | .rori o => some (o.e ++ o.u ++ o.g ++ 2#2 ++ 7#4 ++ o.d ++ o.a ++ o.imm)
  | .muli o => some (o.e ++ o.u ++ o.g ++ 2#2 ++ 8#4 ++ o.d ++ o.a ++ o.imm)
  | .cmpeqi o => some (o.e ++ o.u ++ o.g ++ 2#2 ++ 9#4 ++ o.d ++ o.a ++ o.imm)
  | .cmplti o => some (o.e ++ o.u ++ o.g ++ 2#2 ++ 10#4 ++ o.d ++ o.a ++ o.imm)
  | .cmpltui o => some (o.e ++ o.u ++ o.g ++ 2#2 ++ 11#4 ++ o.d ++ o.a ++ o.imm)
  | .cmplei o => some (o.e ++ o.u ++ o.g ++ 2#2 ++ 12#4 ++ o.d ++ o.a ++ o.imm)
  | .cmpleui o => some (o.e ++ o.u ++ o.g ++ 2#2 ++ 13#4 ++ o.d ++ o.a ++ o.imm)
  | .tokl o => some (o.e ++ o.u ++ o.g ++ 2#2 ++ 14#4 ++ o.d ++ o.a ++ o.imm)
  | .movi o => some (o.e ++ o.u ++ o.g ++ 3#2 ++ 0#1 ++ o.d ++ o.imm)
  | .movsh o => some (o.e ++ o.u ++ o.g ++ 3#2 ++ 1#1 ++ o.d ++ o.imm)
  | .vadd o => some (o.e ++ o.u ++ o.g ++ 0#6 ++ o.w ++ o.d ++ o.a ++ o.b)
  | .vsub o => some (o.e ++ o.u ++ o.g ++ 1#6 ++ o.w ++ o.d ++ o.a ++ o.b)
  | .vmul o => some (o.e ++ o.u ++ o.g ++ 2#6 ++ o.w ++ o.d ++ o.a ++ o.b)
  | .vfma o => some (o.e ++ o.u ++ o.g ++ 3#6 ++ o.w ++ o.d ++ o.a ++ o.b)
  | .vfms o => some (o.e ++ o.u ++ o.g ++ 4#6 ++ o.w ++ o.d ++ o.a ++ o.b)
  | .vfnma o => some (o.e ++ o.u ++ o.g ++ 5#6 ++ o.w ++ o.d ++ o.a ++ o.b)
  | .vmin o => some (o.e ++ o.u ++ o.g ++ 6#6 ++ o.w ++ o.d ++ o.a ++ o.b)
  | .vmax o => some (o.e ++ o.u ++ o.g ++ 7#6 ++ o.w ++ o.d ++ o.a ++ o.b)
  | .vabs o => some (o.e ++ o.u ++ o.g ++ 8#6 ++ o.w ++ o.d ++ o.a ++ o.b)
  | .vneg o => some (o.e ++ o.u ++ o.g ++ 9#6 ++ o.w ++ o.d ++ o.a ++ o.b)
  | .vdiv o => some (o.e ++ o.u ++ o.g ++ 10#6 ++ o.w ++ o.d ++ o.a ++ o.b)
  | .vsqrt o => some (o.e ++ o.u ++ o.g ++ 11#6 ++ o.w ++ o.d ++ o.a ++ o.b)
  | .vand o => some (o.e ++ o.u ++ o.g ++ 12#6 ++ o.w ++ o.d ++ o.a ++ o.b)
  | .vor o => some (o.e ++ o.u ++ o.g ++ 13#6 ++ o.w ++ o.d ++ o.a ++ o.b)
  | .vxor o => some (o.e ++ o.u ++ o.g ++ 14#6 ++ o.w ++ o.d ++ o.a ++ o.b)
  | .vandn o => some (o.e ++ o.u ++ o.g ++ 15#6 ++ o.w ++ o.d ++ o.a ++ o.b)
  | .vshl o => some (o.e ++ o.u ++ o.g ++ 16#6 ++ o.w ++ o.d ++ o.a ++ o.b)
  | .vshr o => some (o.e ++ o.u ++ o.g ++ 17#6 ++ o.w ++ o.d ++ o.a ++ o.b)
  | .vsar o => some (o.e ++ o.u ++ o.g ++ 18#6 ++ o.w ++ o.d ++ o.a ++ o.b)
  | .vshli o => some (o.e ++ o.u ++ o.g ++ 19#6 ++ o.w ++ o.d ++ o.a ++ o.b)
  | .vshri o => some (o.e ++ o.u ++ o.g ++ 20#6 ++ o.w ++ o.d ++ o.a ++ o.b)
  | .vsari o => some (o.e ++ o.u ++ o.g ++ 21#6 ++ o.w ++ o.d ++ o.a ++ o.b)
  | .vmulhi o => some (o.e ++ o.u ++ o.g ++ 22#6 ++ o.w ++ o.d ++ o.a ++ o.b)
  | .vmulhiu o => some (o.e ++ o.u ++ o.g ++ 23#6 ++ o.w ++ o.d ++ o.a ++ o.b)
  | .vadc o => some (o.e ++ o.u ++ o.g ++ 24#6 ++ o.w ++ o.d ++ o.a ++ o.b)
  | .vsbc o => some (o.e ++ o.u ++ o.g ++ 25#6 ++ o.w ++ o.d ++ o.a ++ o.b)
  | .vmacw o => some (o.e ++ o.u ++ o.g ++ 26#6 ++ o.w ++ o.d ++ o.a ++ o.b)
  | .vcmpeq o => some (o.e ++ o.u ++ o.g ++ 32#6 ++ o.w ++ o.d ++ o.a ++ o.b)
  | .vcmplt o => some (o.e ++ o.u ++ o.g ++ 33#6 ++ o.w ++ o.d ++ o.a ++ o.b)
  | .vcmple o => some (o.e ++ o.u ++ o.g ++ 34#6 ++ o.w ++ o.d ++ o.a ++ o.b)
  | .vcmpltu o => some (o.e ++ o.u ++ o.g ++ 35#6 ++ o.w ++ o.d ++ o.a ++ o.b)
  | .vcmpleu o => some (o.e ++ o.u ++ o.g ++ 36#6 ++ o.w ++ o.d ++ o.a ++ o.b)
  | .vclass o => some (o.e ++ o.u ++ o.g ++ 37#6 ++ o.w ++ o.d ++ o.a ++ o.b)
  | .vsel o => some (o.e ++ o.u ++ o.g ++ 38#6 ++ o.w ++ o.d ++ o.a ++ o.b)
  | .vmov o => some (o.e ++ o.u ++ o.g ++ 39#6 ++ o.w ++ o.d ++ o.a ++ o.b)
  | .vmovx o => some (o.e ++ o.u ++ o.g ++ 40#6 ++ o.w ++ o.d ++ o.a ++ o.b)
  | .vbcast o => some (o.e ++ o.u ++ o.g ++ 41#6 ++ o.w ++ o.d ++ o.a ++ o.b)
  | .vext o => some (o.e ++ o.u ++ o.g ++ 42#6 ++ o.w ++ o.d ++ o.a ++ o.b)
  | .vperm o => some (o.e ++ o.u ++ o.g ++ 43#6 ++ o.w ++ o.d ++ o.a ++ o.b)
  | .viota o => some (o.e ++ o.u ++ o.g ++ 44#6 ++ o.w ++ o.d ++ o.a ++ o.b)
  | .vredadd o => some (o.e ++ o.u ++ o.g ++ 45#6 ++ o.w ++ o.d ++ o.a ++ o.b)
  | .vredmax o => some (o.e ++ o.u ++ o.g ++ 46#6 ++ o.w ++ o.d ++ o.a ++ o.b)
  | .vredmin o => some (o.e ++ o.u ++ o.g ++ 47#6 ++ o.w ++ o.d ++ o.a ++ o.b)
  | .vcvt o => some (o.e ++ o.u ++ o.g ++ 48#6 ++ o.w ++ o.d ++ o.a ++ o.b)
  | .vqnt o => some (o.e ++ o.u ++ o.g ++ 49#6 ++ o.w ++ o.d ++ o.a ++ o.b)
  | .vdqnt o => some (o.e ++ o.u ++ o.g ++ 50#6 ++ o.w ++ o.d ++ o.a ++ o.b)
  | .vpack o => some (o.e ++ o.u ++ o.g ++ 51#6 ++ o.w ++ o.d ++ o.a ++ o.b)
  | .vunpk o => some (o.e ++ o.u ++ o.g ++ 52#6 ++ o.w ++ o.d ++ o.a ++ o.b)
  | .vclz o => some (o.e ++ o.u ++ o.g ++ 53#6 ++ o.w ++ o.d ++ o.a ++ o.b)
  | .vpopc o => some (o.e ++ o.u ++ o.g ++ 54#6 ++ o.w ++ o.d ++ o.a ++ o.b)
  | .vscan o => some (o.e ++ o.u ++ o.g ++ 55#6 ++ o.w ++ o.d ++ o.a ++ o.b)
  | .kand o => some (o.e ++ o.u ++ o.g ++ 56#6 ++ o.w ++ o.d ++ o.a ++ o.b)
  | .kor o => some (o.e ++ o.u ++ o.g ++ 57#6 ++ o.w ++ o.d ++ o.a ++ o.b)
  | .kxor o => some (o.e ++ o.u ++ o.g ++ 58#6 ++ o.w ++ o.d ++ o.a ++ o.b)
  | .kmov o => some (o.e ++ o.u ++ o.g ++ 59#6 ++ o.w ++ o.d ++ o.a ++ o.b)
  | .kpopc o => some (o.e ++ o.u ++ o.g ++ 60#6 ++ o.w ++ o.d ++ o.a ++ o.b)
  | .kfirst o => some (o.e ++ o.u ++ o.g ++ 61#6 ++ o.w ++ o.d ++ o.a ++ o.b)
  | .fexp2 o => some (o.e ++ 10#4 ++ o.g ++ 0#8 ++ o.d ++ o.a ++ o.b)
  | .flog2 o => some (o.e ++ 10#4 ++ o.g ++ 1#8 ++ o.d ++ o.a ++ o.b)
  | .frcp o => some (o.e ++ 10#4 ++ o.g ++ 2#8 ++ o.d ++ o.a ++ o.b)
  | .frsq o => some (o.e ++ 10#4 ++ o.g ++ 3#8 ++ o.d ++ o.a ++ o.b)
  | .fsinpi o => some (o.e ++ 10#4 ++ o.g ++ 4#8 ++ o.d ++ o.a ++ o.b)
  | .fcospi o => some (o.e ++ 10#4 ++ o.g ++ 5#8 ++ o.d ++ o.a ++ o.b)
  | .ftanh o => some (o.e ++ 10#4 ++ o.g ++ 6#8 ++ o.d ++ o.a ++ o.b)
  | .fsigm o => some (o.e ++ 10#4 ++ o.g ++ 7#8 ++ o.d ++ o.a ++ o.b)
  | .ferf o => some (o.e ++ 10#4 ++ o.g ++ 8#8 ++ o.d ++ o.a ++ o.b)
  | .frand o => some (o.e ++ 10#4 ++ o.g ++ 9#8 ++ o.d ++ o.a ++ o.b)
  | .fmovx o => some (o.e ++ 10#4 ++ o.g ++ 10#8 ++ o.d ++ o.a ++ o.b)
  | .dpt o => some (o.e ++ 10#4 ++ o.g ++ 64#8 ++ o.d ++ o.a ++ o.b)
  | .dfrom o => some (o.e ++ 10#4 ++ o.g ++ 65#8 ++ o.d ++ o.a ++ o.b)
  | .dadd o => some (o.e ++ 10#4 ++ o.g ++ 66#8 ++ o.d ++ o.a ++ o.b)
  | .dsub o => some (o.e ++ 10#4 ++ o.g ++ 67#8 ++ o.d ++ o.a ++ o.b)
  | .dmul o => some (o.e ++ 10#4 ++ o.g ++ 68#8 ++ o.d ++ o.a ++ o.b)
  | .dmax o => some (o.e ++ 10#4 ++ o.g ++ 69#8 ++ o.d ++ o.a ++ o.b)
  | .dmin o => some (o.e ++ 10#4 ++ o.g ++ 70#8 ++ o.d ++ o.a ++ o.b)
  | .daff o => some (o.e ++ 10#4 ++ o.g ++ 71#8 ++ o.d ++ o.a ++ o.b)
  | .dmap o => some (o.e ++ 10#4 ++ o.g ++ 72#8 ++ o.d ++ o.a ++ o.b)
  | .dtag o => some (o.e ++ 10#4 ++ o.g ++ 74#8 ++ o.d ++ o.a ++ o.b)
  | .dtags o => some (o.e ++ 10#4 ++ o.g ++ 75#8 ++ o.d ++ o.a ++ o.b)
  | .dcanon o => some (o.e ++ 10#4 ++ o.g ++ 76#8 ++ o.d ++ o.a ++ o.b)
  | .dmom o => some (o.e ++ 10#4 ++ o.g ++ 77#8 ++ o.d ++ o.a ++ o.b)
  | .dqnt o => some (o.e ++ 10#4 ++ o.g ++ 78#8 ++ o.d ++ o.a ++ o.b)
  | .dcdf o => some (o.e ++ 10#4 ++ o.g ++ 79#8 ++ o.d ++ o.a ++ o.b)
  | .dmov o => some (o.e ++ 10#4 ++ o.g ++ 80#8 ++ o.d ++ o.a ++ o.b)
  | .dsupp o => some (o.e ++ 10#4 ++ o.g ++ 81#8 ++ o.d ++ o.a ++ o.b)
  | .mcall o => some (o.e ++ 5#4 ++ o.g ++ 0#4 ++ o.routine ++ o.tok ++ o.list)
  | .mclr o => some (o.e ++ 5#4 ++ o.g ++ 1#4 ++ o.mask ++ o.tok ++ 0#5)
  | .mstat o => some (o.e ++ 5#4 ++ o.g ++ 2#4 ++ 0#3 ++ o.tok ++ o.a ++ 0#5)
  | .msig o => some (o.e ++ 5#4 ++ o.g ++ 3#4 ++ o.tile ++ o.tok ++ o.a ++ 0#5)
  | .mabort o => some (o.e ++ 5#4 ++ o.g ++ 4#4 ++ 0#19)
  | .mload o => some (o.e ++ 5#4 ++ o.g ++ 5#4 ++ 0#3 ++ o.tok ++ o.a ++ o.b)
  | .ldB o => some (o.e ++ o.u ++ o.g ++ 0#6 ++ o.f3 ++ o.d ++ o.a ++ o.m4)
  | .ldBz o => some (o.e ++ o.u ++ o.g ++ 1#6 ++ o.f3 ++ o.d ++ o.a ++ o.m4)
  | .ldH o => some (o.e ++ o.u ++ o.g ++ 2#6 ++ o.f3 ++ o.d ++ o.a ++ o.m4)
  | .ldHz o => some (o.e ++ o.u ++ o.g ++ 3#6 ++ o.f3 ++ o.d ++ o.a ++ o.m4)
  | .ldW o => some (o.e ++ o.u ++ o.g ++ 4#6 ++ o.f3 ++ o.d ++ o.a ++ o.m4)
  | .ldWz o => some (o.e ++ o.u ++ o.g ++ 5#6 ++ o.f3 ++ o.d ++ o.a ++ o.m4)
  | .ldD o => some (o.e ++ o.u ++ o.g ++ 6#6 ++ o.f3 ++ o.d ++ o.a ++ o.m4)
  | .ldQ o => some (o.e ++ o.u ++ o.g ++ 7#6 ++ o.f3 ++ o.d ++ o.a ++ o.m4)
  | .ldv256 o => some (o.e ++ o.u ++ o.g ++ 8#6 ++ o.f3 ++ o.d ++ o.a ++ o.m4)
  | .ldv512 o => some (o.e ++ o.u ++ o.g ++ 9#6 ++ o.f3 ++ o.d ++ o.a ++ o.m4)
  | .ldv1024 o => some (o.e ++ o.u ++ o.g ++ 10#6 ++ o.f3 ++ o.d ++ o.a ++ o.m4)
  | .ldk o => some (o.e ++ o.u ++ o.g ++ 11#6 ++ o.f3 ++ o.d ++ o.a ++ o.m4)
  | .ldd o => some (o.e ++ o.u ++ o.g ++ 12#6 ++ o.f3 ++ o.d ++ o.a ++ o.m4)
  | .ldxD o => some (o.e ++ o.u ++ o.g ++ 13#6 ++ o.f3 ++ o.d ++ o.a ++ o.m4)
  | .ldxW o => some (o.e ++ o.u ++ o.g ++ 14#6 ++ o.f3 ++ o.d ++ o.a ++ o.m4)
  | .stB o => some (o.e ++ o.u ++ o.g ++ 16#6 ++ o.f3 ++ o.d ++ o.a ++ o.m4)
  | .stH o => some (o.e ++ o.u ++ o.g ++ 17#6 ++ o.f3 ++ o.d ++ o.a ++ o.m4)
  | .stW o => some (o.e ++ o.u ++ o.g ++ 18#6 ++ o.f3 ++ o.d ++ o.a ++ o.m4)
  | .stD o => some (o.e ++ o.u ++ o.g ++ 19#6 ++ o.f3 ++ o.d ++ o.a ++ o.m4)
  | .stQ o => some (o.e ++ o.u ++ o.g ++ 20#6 ++ o.f3 ++ o.d ++ o.a ++ o.m4)
  | .stv256 o => some (o.e ++ o.u ++ o.g ++ 21#6 ++ o.f3 ++ o.d ++ o.a ++ o.m4)
  | .stv512 o => some (o.e ++ o.u ++ o.g ++ 22#6 ++ o.f3 ++ o.d ++ o.a ++ o.m4)
  | .stv1024 o => some (o.e ++ o.u ++ o.g ++ 23#6 ++ o.f3 ++ o.d ++ o.a ++ o.m4)
  | .stk o => some (o.e ++ o.u ++ o.g ++ 24#6 ++ o.f3 ++ o.d ++ o.a ++ o.m4)
  | .std o => some (o.e ++ o.u ++ o.g ++ 25#6 ++ o.f3 ++ o.d ++ o.a ++ o.m4)
  | .stxD o => some (o.e ++ o.u ++ o.g ++ 26#6 ++ o.f3 ++ o.d ++ o.a ++ o.m4)
  | .stxW o => some (o.e ++ o.u ++ o.g ++ 27#6 ++ o.f3 ++ o.d ++ o.a ++ o.m4)
  | .vgather o => some (o.e ++ o.u ++ o.g ++ 28#6 ++ o.f3 ++ o.d ++ o.a ++ o.m4)
  | .vscatter o => some (o.e ++ o.u ++ o.g ++ 29#6 ++ o.f3 ++ o.d ++ o.a ++ o.m4)
  | .ldaW o => some (o.e ++ o.u ++ o.g ++ 32#6 ++ o.f3 ++ o.d ++ o.a ++ o.m4)
  | .ldaD o => some (o.e ++ o.u ++ o.g ++ 33#6 ++ o.f3 ++ o.d ++ o.a ++ o.m4)
  | .stlW o => some (o.e ++ o.u ++ o.g ++ 34#6 ++ o.f3 ++ o.d ++ o.a ++ o.m4)
  | .stlD o => some (o.e ++ o.u ++ o.g ++ 35#6 ++ o.f3 ++ o.d ++ o.a ++ o.m4)
  | .fence o => some (o.e ++ o.u ++ o.g ++ 36#6 ++ o.pred ++ o.succ ++ o.scope ++ 0#2)
  | .drain o => some (o.e ++ o.u ++ o.g ++ 37#6 ++ o.f3 ++ o.d ++ o.a ++ o.m4)
  | .pref o => some (o.e ++ o.u ++ o.g ++ 38#6 ++ o.f3 ++ o.d ++ o.a ++ o.m4)
  | .aaddW o => some (o.e ++ o.u ++ o.g ++ 40#6 ++ o.f3 ++ o.d ++ o.a ++ o.m4)
  | .aandW o => some (o.e ++ o.u ++ o.g ++ 41#6 ++ o.f3 ++ o.d ++ o.a ++ o.m4)
  | .aorW o => some (o.e ++ o.u ++ o.g ++ 42#6 ++ o.f3 ++ o.d ++ o.a ++ o.m4)
  | .axorW o => some (o.e ++ o.u ++ o.g ++ 43#6 ++ o.f3 ++ o.d ++ o.a ++ o.m4)
  | .aminW o => some (o.e ++ o.u ++ o.g ++ 44#6 ++ o.f3 ++ o.d ++ o.a ++ o.m4)
  | .amaxW o => some (o.e ++ o.u ++ o.g ++ 45#6 ++ o.f3 ++ o.d ++ o.a ++ o.m4)
  | .aminuW o => some (o.e ++ o.u ++ o.g ++ 46#6 ++ o.f3 ++ o.d ++ o.a ++ o.m4)
  | .amaxuW o => some (o.e ++ o.u ++ o.g ++ 47#6 ++ o.f3 ++ o.d ++ o.a ++ o.m4)
  | .aswpW o => some (o.e ++ o.u ++ o.g ++ 48#6 ++ o.f3 ++ o.d ++ o.a ++ o.m4)
  | .acasW o => some (o.e ++ o.u ++ o.g ++ 49#6 ++ o.f3 ++ o.d ++ o.a ++ o.m4)
  | .afaddW o => some (o.e ++ o.u ++ o.g ++ 50#6 ++ o.f3 ++ o.d ++ o.a ++ o.m4)
  | .aaddD o => some (o.e ++ o.u ++ o.g ++ 51#6 ++ o.f3 ++ o.d ++ o.a ++ o.m4)
  | .aandD o => some (o.e ++ o.u ++ o.g ++ 52#6 ++ o.f3 ++ o.d ++ o.a ++ o.m4)
  | .aorD o => some (o.e ++ o.u ++ o.g ++ 53#6 ++ o.f3 ++ o.d ++ o.a ++ o.m4)
  | .axorD o => some (o.e ++ o.u ++ o.g ++ 54#6 ++ o.f3 ++ o.d ++ o.a ++ o.m4)
  | .aminD o => some (o.e ++ o.u ++ o.g ++ 55#6 ++ o.f3 ++ o.d ++ o.a ++ o.m4)
  | .amaxD o => some (o.e ++ o.u ++ o.g ++ 56#6 ++ o.f3 ++ o.d ++ o.a ++ o.m4)
  | .aminuD o => some (o.e ++ o.u ++ o.g ++ 57#6 ++ o.f3 ++ o.d ++ o.a ++ o.m4)
  | .amaxuD o => some (o.e ++ o.u ++ o.g ++ 58#6 ++ o.f3 ++ o.d ++ o.a ++ o.m4)
  | .aswpD o => some (o.e ++ o.u ++ o.g ++ 59#6 ++ o.f3 ++ o.d ++ o.a ++ o.m4)
  | .acasD o => some (o.e ++ o.u ++ o.g ++ 60#6 ++ o.f3 ++ o.d ++ o.a ++ o.m4)
  | .oadd o => some (o.e ++ o.u ++ o.g ++ 61#6 ++ o.f3 ++ o.d ++ o.a ++ o.m4)
  | .oswp o => some (o.e ++ o.u ++ o.g ++ 62#6 ++ o.f3 ++ o.d ++ o.a ++ o.m4)
  | .ocas o => some (o.e ++ o.u ++ o.g ++ 63#6 ++ o.f3 ++ o.d ++ o.a ++ o.m4)
  | .copy o => some (o.e ++ o.u ++ o.g ++ 0#4 ++ o.h ++ o.tok ++ o.list ++ o.aux)
  | .copy2 o => some (o.e ++ o.u ++ o.g ++ 1#4 ++ o.h ++ o.tok ++ o.list ++ o.aux)
  | .send o => some (o.e ++ o.u ++ o.g ++ 2#4 ++ o.h ++ o.tok ++ o.list ++ o.aux)
  | .fetch o => some (o.e ++ o.u ++ o.g ++ 3#4 ++ o.h ++ o.tok ++ o.list ++ o.aux)
  | .scopy o => some (o.e ++ o.u ++ o.g ++ 4#4 ++ o.h ++ o.tok ++ o.list ++ o.aux)
  | .coll o => some (o.e ++ o.u ++ o.g ++ 5#4 ++ o.h ++ o.tok ++ o.list ++ o.aux)
  | .czero o => some (o.e ++ o.u ++ o.g ++ 6#4 ++ o.h ++ o.tok ++ o.list ++ o.aux)
  | .cflush o => some (o.e ++ o.u ++ o.g ++ 7#4 ++ o.h ++ o.tok ++ o.list ++ o.aux)
  | .bprep o => some (o.e ++ 11#4 ++ o.g ++ 0#1 ++ 0#1 ++ o.entry ++ o.dist ++ o.off)
  | .bcall o => some (o.e ++ 11#4 ++ o.g ++ 0#1 ++ 1#1 ++ o.entry ++ o.dist ++ o.off)
  | .bprepx o => some (o.e ++ 11#4 ++ o.g ++ 1#1 ++ 1#6 ++ o.entry ++ o.dist ++ o.a ++ 0#5)
  | .bcallx o => some (o.e ++ 11#4 ++ o.g ++ 1#1 ++ 2#6 ++ o.entry ++ o.dist ++ o.a ++ 0#5)
  | .ret o => some (o.e ++ 11#4 ++ o.g ++ 1#1 ++ 3#6 ++ o.entry ++ o.dist ++ 0#10)
  | .loop o => some (o.e ++ 11#4 ++ o.g ++ 1#1 ++ 4#6 ++ o.a ++ o.off)
  | .loopi o => some (o.e ++ 11#4 ++ o.g ++ 1#1 ++ 5#6 ++ o.count ++ o.off)
  | .trap o => some (o.e ++ 11#4 ++ o.g ++ 1#1 ++ 6#6 ++ o.code)
  | .syscall o => some (o.e ++ 11#4 ++ o.g ++ 1#1 ++ 7#6 ++ o.code)
  | .eret o => some (o.e ++ 11#4 ++ o.g ++ 1#1 ++ 8#6 ++ 0#16)
  | .eretS o => some (o.e ++ 11#4 ++ o.g ++ 1#1 ++ 8#6 ++ 1#16)
  | .twait o => some (o.e ++ 11#4 ++ o.g ++ 1#1 ++ 9#6 ++ o.tok ++ 0#10)
  | .tpoll o => some (o.e ++ 11#4 ++ o.g ++ 1#1 ++ 10#6 ++ o.tok ++ o.d ++ 0#2 ++ o.m)
  | .waitwp o => some (o.e ++ 11#4 ++ o.g ++ 1#1 ++ 11#6 ++ o.ch ++ o.a ++ 0#10)
  | .setfmt o => some (o.e ++ 11#4 ++ o.g ++ 1#1 ++ 12#6 ++ o.a ++ 0#11)
  | .setbank o => some (o.e ++ 11#4 ++ o.g ++ 1#1 ++ 13#6 ++ o.f ++ 0#6 ++ o.delta)
  | .sync o => some (o.e ++ 11#4 ++ o.g ++ 1#1 ++ 14#6 ++ 0#16)
  | .mfs o => some (o.e ++ 11#4 ++ o.g ++ 1#1 ++ 15#6 ++ o.idx ++ o.file ++ o.r)
  | .mts o => some (o.e ++ 11#4 ++ o.g ++ 1#1 ++ 16#6 ++ o.idx ++ o.file ++ o.r)
  | .ifence o => some (o.e ++ 11#4 ++ o.g ++ 1#1 ++ 17#6 ++ 0#16)
  | .ovl o => some (o.e ++ 11#4 ++ o.g ++ 1#1 ++ 18#6 ++ o.n ++ 0#8)
  | .launch o => some (o.e ++ 11#4 ++ o.g ++ 1#1 ++ 19#6 ++ o.a ++ 0#11)
  | .launchg o => some (o.e ++ 11#4 ++ o.g ++ 1#1 ++ 20#6 ++ o.a ++ o.key ++ 0#3)
  | .shape o => some (o.e ++ 11#4 ++ o.g ++ 1#1 ++ 21#6 ++ o.a ++ o.key ++ 0#3)
  | .predict o => some (o.e ++ 11#4 ++ o.g ++ 1#1 ++ 22#6 ++ o.mode ++ o.a ++ o.key ++ 0#1)
  | .alloc o => some (o.e ++ 11#4 ++ o.g ++ 1#1 ++ 23#6 ++ o.a ++ o.b ++ 0#6)
  | .free o => some (o.e ++ 11#4 ++ o.g ++ 1#1 ++ 24#6 ++ o.a ++ 0#11)
  | .yield o => some (o.e ++ 11#4 ++ o.g ++ 1#1 ++ 25#6 ++ 0#16)
  | .halt o => some (o.e ++ 11#4 ++ o.g ++ 1#1 ++ 26#6 ++ 0#16)
  | .evset o => some (o.e ++ 11#4 ++ o.g ++ 1#1 ++ 27#6 ++ 0#2 ++ o.a ++ 0#9)
  | .evsetClear o => some (o.e ++ 11#4 ++ o.g ++ 1#1 ++ 27#6 ++ 1#2 ++ o.a ++ 0#9)
  | .evwait o => some (o.e ++ 11#4 ++ o.g ++ 1#1 ++ 28#6 ++ 0#2 ++ o.a ++ 0#9)
  | .endR _ => none
  | .lda _ => none
  | .ldb _ => none
  | .ldsa _ => none
  | .ldsb _ => none
  | .mma _ => none
  | .zero _ => none
  | .tld _ => none
  | .epi _ => none
  | .stt _ => none
  | .sigchk _ => none
  | .loopMicroOp _ => none
  | .endl _ => none
  | .gadv _ => none
  | .setp _ => none
  | .powerOn _ => none
  | .hostReset _ => none
  | .startComplete _ => none
  | .startTimeout _ => none
  | .restartDelay _ => none
  | .restart _ => none
  | .getVersion => none
  | .getCapabilities => none
  | .negotiateAlgorithms => none
  | .getDigests => none
  | .getCertificate _ _ _ => none
  | .challenge _ _ => none
  | .getMeasurements _ => none
  | .spdmUnsupportedRequest _ => none
  | .thermtrip _ _ _ => none
  | .thermalClockStep _ _ _ => none
  | .registerWrite _ _ => none
  | .qtailWrite _ _ => none
  | .queueEnable _ _ => none
  | .queueDisable _ _ => none
  | .gdoorWrite _ _ => none
  | .gpatchWrite _ _ => none
  | .create _ => none
  | .destroy _ => none
  | .invasid _ => none
  | .invrange _ => none
  | .ctxcmdBadCommand _ _ => none
  | .dieFence _ => none
  | .eccCounterClear => none
  | .matrixCounterClear => none
  | .avsEnable _ _ => none
  | .avsDisable _ _ => none
  | .avsRaisePoint _ => none
  | .avsResume _ => none
  | .avsStep _ => none
  | .iftStart _ => none
  | .iftComplete _ => none
  | .retrain _ _ => none
  | .up _ => none
  | .down _ => none
  | .atsInvalidateRequest _ _ => none
  | .stokerFrame _ _ => none
  | .priorityAging _ => none
  | .taskStart _ => none
  | .virtualCycleAdvance _ => none
  | .resultLanding _ => none
  | .fmtWriteEffect _ => none
  | .preparedTransferTrigger _ => none
  | .loopEndTest _ => none
  | .accessComplete _ _ => none
  | .pageWalkComplete _ => none
  | .overlayFetchComplete _ _ => none
  | .spillRefillComplete _ => none
  | .remoteAccessTimeout _ _ => none
  | .preemption _ => none
  | .lazyClaim _ => none
  | .tokenWaitEnd _ => none
  | .writePointerWaitEnd _ => none
  | .barrierComplete _ => none
  | .eventWaitEnd _ => none
  | .greenShareSpaceAvailable _ => none
  | .matrixEntryStart _ => none
  | .assayComplete _ => none
  | .runnerOperationStart _ _ => none
  | .runnerOperationComplete _ _ => none
  | .scopyFarWrite _ _ _ => none
  | .collectiveComplete _ _ => none
  | .orderedAtomicRequest _ => none
  | .orderedAtomicResend _ => none
  | .fabricPacketReceive _ _ => none
  | .fabricAckReceive _ _ => none
  | .fabricNakReceive _ _ => none
  | .ackIdleTimer _ => none
  | .laneFailure _ _ => none
  | .retrainComplete _ _ => none
  | .partnerTimeout _ => none
  | .cxlContainment _ => none
  | .hostLinkDown _ => none
  | .correctedEccError _ _ => none
  | .uncorrectedEccError _ => none
  | .handlerCountAdvance _ => none
  | .powerLoss _ => none
  | .hostWritesToDeviceMemory _ _ => none

/-- The word of a well-formed slot instruction, zero for what has none. -/
def encode (i : Instr) : W32 := (encodeWord i).getD 0

/-- S-R op7 (R61). -/
def opSR (op : BitVec 7) (o : SROp) : Option Instr :=
  match op.toNat with
  | 0 => some (.add o)
  | 1 => some (.sub o)
  | 2 => some (.mul o)
  | 3 => some (.mulh o)
  | 4 => some (.mulhu o)
  | 5 => some (.div o)
  | 6 => some (.divu o)
  | 7 => some (.rem o)
  | 8 => some (.remu o)
  | 9 => some (.and o)
  | 10 => some (.or o)
  | 11 => some (.xor o)
  | 12 => some (.andn o)
  | 13 => some (.shl o)
  | 14 => some (.shr o)
  | 15 => some (.sar o)
  | 16 => some (.ror o)
  | 17 => some (.min o)
  | 18 => some (.max o)
  | 19 => some (.minu o)
  | 20 => some (.maxu o)
  | 21 => some (.clz o)
  | 22 => some (.ctz o)
  | 23 => some (.popc o)
  | 24 => some (.sext o)
  | 25 => some (.zext o)
  | 26 => some (.addc o)
  | 27 => some (.subb o)
  | 32 => some (.cmpeq o)
  | 33 => some (.cmplt o)
  | 34 => some (.cmpltu o)
  | 35 => some (.cmple o)
  | 36 => some (.cmpleu o)
  | 37 => some (.pand o)
  | 38 => some (.por o)
  | 39 => some (.pxor o)
  | 48 => some (.movx o)
  | 49 => some (.movp o)
  | 50 => some (.movfp o)
  | 51 => some (.gset o)
  | 52 => some (.gget o)
  | 53 => some (.hset o)
  | 54 => some (.hget o)
  | 55 => some (.guard o)
  | 56 => some (.rdvc o)
  | _ => none

/-- S-I op4 (R61). -/
def opSI (op : BitVec 4) (o : SIOp) : Option Instr :=
  match op.toNat with
  | 0 => some (.addi o)
  | 1 => some (.andi o)
  | 2 => some (.ori o)
  | 3 => some (.xori o)
  | 4 => some (.shli o)
  | 5 => some (.shri o)
  | 6 => some (.sari o)
  | 7 => some (.rori o)
  | 8 => some (.muli o)
  | 9 => some (.cmpeqi o)
  | 10 => some (.cmplti o)
  | 11 => some (.cmpltui o)
  | 12 => some (.cmplei o)
  | 13 => some (.cmpleui o)
  | 14 => some (.tokl o)
  | _ => none

/-- S-K op1 (R61). -/
def opSK (op : BitVec 1) (o : SKOp) : Option Instr := if op = 0 then some (.movi o) else some (.movsh o)

/-- V op6 (R61). -/
def opV (op : BitVec 6) (o : VOp) : Option Instr :=
  match op.toNat with
  | 0 => some (.vadd o)
  | 1 => some (.vsub o)
  | 2 => some (.vmul o)
  | 3 => some (.vfma o)
  | 4 => some (.vfms o)
  | 5 => some (.vfnma o)
  | 6 => some (.vmin o)
  | 7 => some (.vmax o)
  | 8 => some (.vabs o)
  | 9 => some (.vneg o)
  | 10 => some (.vdiv o)
  | 11 => some (.vsqrt o)
  | 12 => some (.vand o)
  | 13 => some (.vor o)
  | 14 => some (.vxor o)
  | 15 => some (.vandn o)
  | 16 => some (.vshl o)
  | 17 => some (.vshr o)
  | 18 => some (.vsar o)
  | 19 => some (.vshli o)
  | 20 => some (.vshri o)
  | 21 => some (.vsari o)
  | 22 => some (.vmulhi o)
  | 23 => some (.vmulhiu o)
  | 24 => some (.vadc o)
  | 25 => some (.vsbc o)
  | 26 => some (.vmacw o)
  | 32 => some (.vcmpeq o)
  | 33 => some (.vcmplt o)
  | 34 => some (.vcmple o)
  | 35 => some (.vcmpltu o)
  | 36 => some (.vcmpleu o)
  | 37 => some (.vclass o)
  | 38 => some (.vsel o)
  | 39 => some (.vmov o)
  | 40 => some (.vmovx o)
  | 41 => some (.vbcast o)
  | 42 => some (.vext o)
  | 43 => some (.vperm o)
  | 44 => some (.viota o)
  | 45 => some (.vredadd o)
  | 46 => some (.vredmax o)
  | 47 => some (.vredmin o)
  | 48 => some (.vcvt o)
  | 49 => some (.vqnt o)
  | 50 => some (.vdqnt o)
  | 51 => some (.vpack o)
  | 52 => some (.vunpk o)
  | 53 => some (.vclz o)
  | 54 => some (.vpopc o)
  | 55 => some (.vscan o)
  | 56 => some (.kand o)
  | 57 => some (.kor o)
  | 58 => some (.kxor o)
  | 59 => some (.kmov o)
  | 60 => some (.kpopc o)
  | 61 => some (.kfirst o)
  | _ => none

/-- F op8 (R61). -/
def opF (op : BitVec 8) (o : FOp) : Option Instr :=
  match op.toNat with
  | 0 => some (.fexp2 o)
  | 1 => some (.flog2 o)
  | 2 => some (.frcp o)
  | 3 => some (.frsq o)
  | 4 => some (.fsinpi o)
  | 5 => some (.fcospi o)
  | 6 => some (.ftanh o)
  | 7 => some (.fsigm o)
  | 8 => some (.ferf o)
  | 9 => some (.frand o)
  | 10 => some (.fmovx o)
  | 64 => some (.dpt o)
  | 65 => some (.dfrom o)
  | 66 => some (.dadd o)
  | 67 => some (.dsub o)
  | 68 => some (.dmul o)
  | 69 => some (.dmax o)
  | 70 => some (.dmin o)
  | 71 => some (.daff o)
  | 72 => some (.dmap o)
  | 74 => some (.dtag o)
  | 75 => some (.dtags o)
  | 76 => some (.dcanon o)
  | 77 => some (.dmom o)
  | 78 => some (.dqnt o)
  | 79 => some (.dcdf o)
  | 80 => some (.dmov o)
  | 81 => some (.dsupp o)
  | _ => none

/-- L op6 (R61). `FENCE` has a layout of its own (R46). -/
def opL (op : BitVec 6) (w : W32) : Option Instr :=
  let o := LOp.ofWord w
  match op.toNat with
  | 0 => some (.ldB o)
  | 1 => some (.ldBz o)
  | 2 => some (.ldH o)
  | 3 => some (.ldHz o)
  | 4 => some (.ldW o)
  | 5 => some (.ldWz o)
  | 6 => some (.ldD o)
  | 7 => some (.ldQ o)
  | 8 => some (.ldv256 o)
  | 9 => some (.ldv512 o)
  | 10 => some (.ldv1024 o)
  | 11 => some (.ldk o)
  | 12 => some (.ldd o)
  | 13 => some (.ldxD o)
  | 14 => some (.ldxW o)
  | 16 => some (.stB o)
  | 17 => some (.stH o)
  | 18 => some (.stW o)
  | 19 => some (.stD o)
  | 20 => some (.stQ o)
  | 21 => some (.stv256 o)
  | 22 => some (.stv512 o)
  | 23 => some (.stv1024 o)
  | 24 => some (.stk o)
  | 25 => some (.std o)
  | 26 => some (.stxD o)
  | 27 => some (.stxW o)
  | 28 => some (.vgather o)
  | 29 => some (.vscatter o)
  | 32 => some (.ldaW o)
  | 33 => some (.ldaD o)
  | 34 => some (.stlW o)
  | 35 => some (.stlD o)
  | 36 => some (.fence (FenceOp.ofWord w))
  | 37 => some (.drain o)
  | 38 => some (.pref o)
  | 40 => some (.aaddW o)
  | 41 => some (.aandW o)
  | 42 => some (.aorW o)
  | 43 => some (.axorW o)
  | 44 => some (.aminW o)
  | 45 => some (.amaxW o)
  | 46 => some (.aminuW o)
  | 47 => some (.amaxuW o)
  | 48 => some (.aswpW o)
  | 49 => some (.acasW o)
  | 50 => some (.afaddW o)
  | 51 => some (.aaddD o)
  | 52 => some (.aandD o)
  | 53 => some (.aorD o)
  | 54 => some (.axorD o)
  | 55 => some (.aminD o)
  | 56 => some (.amaxD o)
  | 57 => some (.aminuD o)
  | 58 => some (.amaxuD o)
  | 59 => some (.aswpD o)
  | 60 => some (.acasD o)
  | 61 => some (.oadd o)
  | 62 => some (.oswp o)
  | 63 => some (.ocas o)
  | _ => none

/-- C op4 (R61). -/
def opC (op : BitVec 4) (o : COp) : Option Instr :=
  match op.toNat with
  | 0 => some (.copy o)
  | 1 => some (.copy2 o)
  | 2 => some (.send o)
  | 3 => some (.fetch o)
  | 4 => some (.scopy o)
  | 5 => some (.coll o)
  | 6 => some (.czero o)
  | 7 => some (.cflush o)
  | _ => none

/-- M op4 (R61, R141). -/
def opM (op : BitVec 4) (w : W32) : Option Instr :=
  match op.toNat with
  | 0 => some (.mcall (MCallOp.ofWord w))
  | 1 => some (.mclr (MClrOp.ofWord w))
  | 2 => some (.mstat (MStatOp.ofWord w))
  | 3 => some (.msig (MSigOp.ofWord w))
  | 4 => some (.mabort (MAbortOp.ofWord w))
  | 5 => some (.mload (MLoadOp.ofWord w))
  | _ => none

/-- B-X op6 (R61). The two forms of `ERET` and of `EVSET` are told apart by their own field (R89, R331). -/
noncomputable def opB (op : BitVec 6) (w : W32) : Option Instr :=
  match op.toNat with
  | 1 => some (.bprepx (PrepXOp.ofWord w))
  | 2 => some (.bcallx (PrepXOp.ofWord w))
  | 3 => some (.ret (RetOp.ofWord w))
  | 4 => some (.loop (LoopOp.ofWord w))
  | 5 => some (.loopi (LoopIOp.ofWord w))
  | 6 => some (.trap (CodeOp.ofWord w))
  | 7 => some (.syscall (CodeOp.ofWord w))
  | 8 => if w.extractLsb' 0 1 = 0 then some (.eret (PlainOp.ofWord w)) else some (.eretS (PlainOp.ofWord w))
  | 9 => some (.twait (TWaitOp.ofWord w))
  | 10 => some (.tpoll (TPollOp.ofWord w))
  | 11 => some (.waitwp (WaitWpOp.ofWord w))
  | 12 => some (.setfmt (RegOp.ofWord w))
  | 13 => some (.setbank (SetBankOp.ofWord w))
  | 14 => some (.sync (PlainOp.ofWord w))
  | 15 => some (.mfs (SysOp.ofWord w))
  | 16 => some (.mts (SysOp.ofWord w))
  | 17 => some (.ifence (PlainOp.ofWord w))
  | 18 => some (.ovl (OvlOp.ofWord w))
  | 19 => some (.launch (RegOp.ofWord w))
  | 20 => some (.launchg (KeyOp.ofWord w))
  | 21 => some (.shape (KeyOp.ofWord w))
  | 22 => some (.predict (PredictOp.ofWord w))
  | 23 => some (.alloc (AllocOp.ofWord w))
  | 24 => some (.free (RegOp.ofWord w))
  | 25 => some (.yield (PlainOp.ofWord w))
  | 26 => some (.halt (PlainOp.ofWord w))
  | 27 => if w.extractLsb' 14 1 = 0 then some (.evset (EventOp.ofWord w)) else some (.evsetClear (EventOp.ofWord w))
  | 28 => some (.evwait (EventOp.ofWord w))
  | _ => none

/-- The operation a word names by its unit field and its opcode, with the fields as they stand (R42, R61). -/
noncomputable def decodeOp (w : W32) : Except DecodeErr Instr :=
  let found (r : Option Instr) : Except DecodeErr Instr :=
    match r with
    | some i => .ok i
    | none => .error .reservedOpcode
  match (w.extractLsb' 27 4).toNat with
  | 0 | 1 =>
    if w.extractLsb' 22 1 = 0 then found (opSR (w.extractLsb' 15 7) (SROp.ofWord w))
    else if w.extractLsb' 21 1 = 0 then found (opSI (w.extractLsb' 17 4) (SIOp.ofWord w))
    else found (opSK (w.extractLsb' 20 1) (SKOp.ofWord w))
  | 2 | 3 | 4 => found (opV (w.extractLsb' 17 6) (VOp.ofWord w))
  | 5 => found (opM (w.extractLsb' 19 4) w)
  | 6 | 7 => found (opL (w.extractLsb' 17 6) w)
  | 8 | 9 => found (opC (w.extractLsb' 19 4) (COp.ofWord w))
  | 10 => found (opF (w.extractLsb' 15 8) (FOp.ofWord w))
  | 11 =>
    if w.extractLsb' 22 1 = 0 then
      (if w.extractLsb' 21 1 = 0 then .ok (.bprep (PrepOp.ofWord w)) else .ok (.bcall (PrepOp.ofWord w)))
    else found (opB (w.extractLsb' 16 6) w)
  | _ => .error .reservedUnit

/-- The slot instruction a word is: its operation, unless a reserved bit is set or a field holds a reserved value (R46, R47). -/
noncomputable def decode (w : W32) : Except DecodeErr Instr :=
  match decodeOp w with
  | .error e => .error e
  | .ok i => if encodeWord i = some w && Machine.fieldsOk i then .ok i else .error .reservedField

/-- The word of a micro-op, as the layout of R149 draws it. -/
def encodeUop : Instr → Option W64
  | .endR o => some (0#6 ++ o.t ++ o.gA ++ o.gB ++ o.p ++ 0#14 ++ o.imm)
  | .lda o => some (1#6 ++ o.t ++ o.gA ++ o.gB ++ o.p ++ 0#14 ++ o.imm)
  | .ldb o => some (2#6 ++ o.t ++ o.gA ++ o.gB ++ o.p ++ 0#14 ++ o.imm)
  | .ldsa o => some (3#6 ++ o.t ++ o.gA ++ o.gB ++ o.p ++ 0#14 ++ o.imm)
  | .ldsb o => some (4#6 ++ o.t ++ o.gA ++ o.gB ++ o.p ++ 0#14 ++ o.imm)
  | .mma o => some (5#6 ++ o.t ++ o.gA ++ o.gB ++ o.p ++ 0#14 ++ o.imm)
  | .zero o => some (6#6 ++ o.t ++ o.gA ++ o.gB ++ o.p ++ 0#14 ++ o.imm)
  | .tld o => some (7#6 ++ o.t ++ o.gA ++ o.gB ++ o.p ++ 0#14 ++ o.imm)
  | .epi o => some (8#6 ++ o.t ++ o.gA ++ o.gB ++ o.p ++ 0#14 ++ o.imm)
  | .stt o => some (9#6 ++ o.t ++ o.gA ++ o.gB ++ o.p ++ 0#14 ++ o.imm)
  | .sigchk o => some (10#6 ++ o.t ++ o.gA ++ o.gB ++ o.p ++ 0#14 ++ o.imm)
  | .loopMicroOp o => some (11#6 ++ o.t ++ o.gA ++ o.gB ++ o.p ++ 0#14 ++ o.imm)
  | .endl o => some (12#6 ++ o.t ++ o.gA ++ o.gB ++ o.p ++ 0#14 ++ o.imm)
  | .gadv o => some (13#6 ++ o.t ++ o.gA ++ o.gB ++ o.p ++ 0#14 ++ o.imm)
  | .setp o => some (14#6 ++ o.t ++ o.gA ++ o.gB ++ o.p ++ 0#14 ++ o.imm)
  | _ => none

/-- The micro-op a 64-bit word is (R149, R150); none for a nonzero zero field or a reserved code, which act as
`Fault(token, 7)`. -/
noncomputable def decodeUop (w : W64) : Option Instr :=
  let o : UOp := ⟨w.extractLsb' 55 3, w.extractLsb' 52 3, w.extractLsb' 49 3, w.extractLsb' 46 3, w.extractLsb' 0 32⟩
  if w.extractLsb' 32 14 ≠ 0 then none
  else
    match (w.extractLsb' 58 6).toNat with
    | 0 => some (.endR o)
    | 1 => some (.lda o)
    | 2 => some (.ldb o)
    | 3 => some (.ldsa o)
    | 4 => some (.ldsb o)
    | 5 => some (.mma o)
    | 6 => some (.zero o)
    | 7 => some (.tld o)
    | 8 => some (.epi o)
    | 9 => some (.stt o)
    | 10 => some (.sigchk o)
    | 11 => some (.loopMicroOp o)
    | 12 => some (.endl o)
    | 13 => some (.gadv o)
    | 14 => some (.setp o)
    | _ => none

/-- The instruction the decoder reads from bytes in memory order (R9): a slot word of four bytes or a micro-op word of eight. -/
noncomputable def decodeBytes (bs : List Byte) : Option Instr :=
  if bs.length = 4 then (decode (BitVec.ofNat 32 (natOfBytes bs))).toOption
  else if bs.length = 8 then decodeUop (BitVec.ofNat 64 (natOfBytes bs))
  else none

/-- The bytes of the word that spec/opcode_table.json numbers `w`: one slot word, or one micro-op word when it needs more than 32
bits. -/
def tableBytes (nbits w : Nat) : List Byte :=
  if nbits ≤ 32 then bytesOfWord (BitVec.ofNat 32 w)
  else bytesOfWord (BitVec.ofNat 32 w) ++ bytesOfWord (BitVec.ofNat 32 (w / 2 ^ 32))

/-- What the decoder reads from the word `w` of `nbits` bits of spec/opcode_table.json. A row without bits has no word. -/
noncomputable def decodeTableWord (nbits w : Nat) : Option Instr :=
  if nbits = 0 then none else decodeBytes (tableBytes nbits w)

end Sys2Proof
end

