-- ==== Sys2Proof/Machine/Ops.lean ====
section
/-! DEFINITION. The named operations over the registers of a core: what a read sees (spec/02 R35), results in flight and their
landing, guards, reports (spec/17 R373), taking an exception (spec/04 R84, R85, R90) and the return from one (R89). -/

namespace Sys2Proof.Machine

open Sys2Proof

/-! ## Parts of the state -/

/-- A core. -/
def getCore (s : State) (c : Nat) : Core := tabGet s.cores c {}
/-- The state with a core replaced. -/
def setCore (s : State) (c : Nat) (x : Core) : State := { s with cores := tabSet s.cores c x }
/-- The state with a core changed. -/
def modCore (s : State) (c : Nat) (f : Core → Core) : State := setCore s c (f (getCore s c))
/-- The core whose slot or micro-op executes. -/
def me (s : State) : Core := getCore s s.cur
/-- The state with the executing core changed. -/
def modMe (s : State) (f : Core → Core) : State := modCore s s.cur f
/-- A hearth. -/
def getHearth (s : State) (h : Nat) : Hearth := tabGet s.hearths h {}
/-- The state with a hearth changed. -/
def modHearth (s : State) (h : Nat) (f : Hearth → Hearth) : State := { s with hearths := tabSet s.hearths h (f (getHearth s h)) }
/-- A die. -/
def getDie (s : State) (d : Nat) : Die := tabGet s.dies d {}
/-- The state with a die changed. -/
def modDie (s : State) (d : Nat) (f : Die → Die) : State := { s with dies := tabSet s.dies d (f (getDie s d)) }
/-- A context. -/
def getCtx (s : State) (c : Nat) : Ctx := tabGet s.ctxs c {}
/-- The state with a context changed. -/
def modCtx (s : State) (c : Nat) (f : Ctx → Ctx) : State := { s with ctxs := tabSet s.ctxs c (f (getCtx s c)) }
/-- The state with a task changed, if it is listed. -/
def modTask (s : State) (u : Nat) (f : Task → Task) : State :=
  match tabFind s.tasks u with
  | some t => { s with tasks := tabSet s.tasks u (f t) }
  | none => s
/-- The state with a launch changed, if it is listed. -/
def modLaunch (s : State) (u : Nat) (f : Launch → Launch) : State :=
  match tabFind s.launches u with
  | some l => { s with launches := tabSet s.launches u (f l) }
  | none => s

/-- The hearth of a core (spec/01 R17: four cores per hearth). -/
def hearthOf (c : Nat) : Nat := c / 4
/-- The die of a core (spec/01: 24 hearths per die). -/
def dieOf (c : Nat) : Nat := c / 96
/-- The task that owns a core. -/
def taskOf (s : State) (c : Nat) : Option Task := (getCore s c).task.bind (tabFind s.tasks)
/-- The context of the task that owns a core; 0 where none does. -/
def ctxOf (s : State) (c : Nat) : Nat := match taskOf s c with | some t => t.ctx | none => 0
/-- Whether the task that owns a core is provisional (spec/02 R32). -/
def greenOf (s : State) (c : Nat) : Bool := match taskOf s c with | some t => t.green | none => false
/-- The VCC of a core's gang (spec/02 R34). -/
def vccOf (s : State) (c : Nat) : Nat := match taskOf s c with | some t => t.vcc | none => 0
/-- What the bounds of a core are counted on: the VCC, or the handler count in a handler (spec/04 R87). -/
def nowOf (s : State) (c : Nat) : Nat := if (getCore s c).handler then (getCore s c).ctl.hcount else vccOf s c
/-- The global cores of a task's gang (spec/02 R25). -/
def gangOf (t : Task) : List Nat := (List.range t.size).map (fun i => t.hearth * 4 + t.first + i)

/-- The cores of a task as it stands: those it holds, or the saved ones of a pre-empted task. -/
def taskCores (s : State) (u : Nat) (t : Task) : List Core :=
  if t.saved.isEmpty then ((gangOf t).map (getCore s)).filter (fun c => c.task == some u) else t.saved

/-! ## Results in flight (spec/02 R35) -/

/-- All the bits of a number of bits below `bits`. -/
def lowMask (n bits : Nat) : BitVec n := BitVec.ofNat n (2 ^ bits - 1)

/-- A loaded scalar of `size` bytes, extended to 64 bits. -/
def extendTo64 (v size : Nat) (signed : Bool) : W64 :=
  if signed then BitVec.ofInt 64 (toInt (8 * size) v) else BitVec.ofNat 64 (v % 2 ^ (8 * size))

/-- What a load does when it lands: the register part of spec/12 R260 and R264, every bit of it 1 after an error (R97, R261). -/
def loadLands (d : LoadDest) (buf bad : DImage) : List Land :=
  let v : DImage := buf ||| bad
  match d with
  | .scalar y r size signed =>
    let x := if bad = 0 then extendTo64 v.toNat size signed else BitVec.allOnes 64
    if y then [.y r x] else [.x r x]
  | .pair y r =>
    let lo := v.extractLsb' 0 64
    let hi := v.extractLsb' 64 64
    if y then [.y r lo, .y (r + 1) hi] else [.x r lo, .x (r + 1) hi]
  | .vec slot bits => [.v slot (lowMask 1024 bits) (v.extractLsb' 0 1024)]
  | .wreg r bits => [.w r (lowMask 1024 bits) (v.extractLsb' 0 1024)]
  | .kreg r => [.k r (BitVec.allOnes 128) (v.extractLsb' 0 128)]
  | .dreg r => [.d r (BitVec.allOnes 6144) v (some 0)]
  | .gather slot _ mask => [.v slot mask (v.extractLsb' 0 1024)]

/-- The writes a flight entry makes, once they are known. -/
def flightLands : FlightVal → Option (List Land)
  | .known l => some l
  | .load _ left d buf bad => if left = 0 then some (loadLands d buf bad) else none

/-- Every write in flight that is known, with a number that tells one from another. -/
def pendingLands (c : Core) : List (Nat × Land) :=
  (c.flight.flatMap (fun f => (flightLands f.val).getD [])).zipIdx.map (fun p => (p.2, p.1))

/-- An x register as a bundle reads it at issue: x0 is zero, and a write in flight may already show (R35, R48). -/
def seeX (s : State) (c : Core) (r : Nat) : W64 :=
  if r = 0 then 0 else
  (pendingLands c).foldl (fun v p => match p.2 with
    | .x q n => if q = r ∧ Config.freeEarly s.tick p.1 = true then n else v
    | _ => v) (tabGet c.regs.x r 0)

/-- A y register as a bundle reads it at issue. -/
def seeY (s : State) (c : Core) (r : Nat) : W64 :=
  if r = 0 then 0 else
  (pendingLands c).foldl (fun v p => match p.2 with
    | .y q n => if q = r ∧ Config.freeEarly s.tick p.1 = true then n else v
    | _ => v) (tabGet c.regs.y r 0)

/-- A predicate: q0 is true, q1 false. -/
def seeQ (s : State) (c : Core) (r : Nat) : Bool :=
  if r = 0 then true else if r = 1 then false else
  (pendingLands c).foldl (fun v p => match p.2 with
    | .q q n => if q = r ∧ Config.freeEarly s.tick p.1 = true then n else v
    | _ => v) (tabGet c.regs.q r false)

/-- A mask: k0 is all ones. Each write in flight shows whole or not at all, as for every register here. -/
def seeK (s : State) (c : Core) (r : Nat) : W128 :=
  if r = 0 then BitVec.allOnes 128 else
  (pendingLands c).foldl (fun v p => match p.2 with
    | .k q m n => if q = r ∧ Config.freeEarly s.tick p.1 = true then blend v m n else v
    | _ => v) (tabGet c.regs.k r 0)

/-- A vector register by its physical slot. -/
def seeV (s : State) (c : Core) (slot : Nat) : W1024 :=
  (pendingLands c).foldl (fun v p => match p.2 with
    | .v q m n => if q = slot ∧ Config.freeEarly s.tick p.1 = true then blend v m n else v
    | _ => v) (tabGet c.regs.v slot 0)

/-- A w register. -/
def seeW (s : State) (c : Core) (r : Nat) : W1024 :=
  (pendingLands c).foldl (fun v p => match p.2 with
    | .w q m n => if q = r ∧ Config.freeEarly s.tick p.1 = true then blend v m n else v
    | _ => v) (tabGet c.regs.w r 0)

/-- The image of a distribution register: each write in flight shows whole or not at all (spec/09 R225). -/
def seeD (s : State) (c : Core) (r : Nat) : DImage :=
  (pendingLands c).foldl (fun v p => match p.2 with
    | .d q m n _ => if q = r ∧ Config.freeEarly s.tick p.1 = true then blend v m n else v
    | _ => v) (tabGet c.regs.d r 0)

/-- The tag set of a distribution register: one of the two, chosen apart from the image (spec/09 R225). -/
def seeTag (s : State) (c : Core) (r : Nat) : BitVec 16 :=
  (pendingLands c).foldl (fun v p => match p.2 with
    | .d q _ _ (some t) => if q = r ∧ Config.freeEarly s.tick (2 ^ 20 + p.1) = true then t else v
    | _ => v) (tabGet c.regs.dtag r 0)

/-- A matrix parameter. -/
def seeP (s : State) (c : Core) (r : Nat) : W64 :=
  (pendingLands c).foldl (fun v p => match p.2 with
    | .p q n => if q = r ∧ Config.freeEarly s.tick p.1 = true then n else v
    | _ => v) (tabGet c.regs.p r 0)

/-- A field of a stride set, the bits of the field only (spec/07 R136): 0 BASE, 1 STR0, 2 STR1, 3 EXT0, 4 EXT1. -/
def strideSet (g : Stride) (f : Nat) (v : W64) : Stride :=
  match f with
  | 0 => { g with base := v.setWidth 57 }
  | 1 => { g with str0 := v.setWidth 32 }
  | 2 => { g with str1 := v.setWidth 32 }
  | 3 => { g with ext0 := v.setWidth 8 }
  | 4 => { g with ext1 := v.setWidth 8 }
  | _ => g

/-- A stride set. -/
def seeG (s : State) (c : Core) (r : Nat) : Stride :=
  (pendingLands c).foldl (fun v p => match p.2 with
    | .g q f n => if q = r ∧ Config.freeEarly s.tick p.1 = true then strideSet v f n else v
    | _ => v) (tabGet c.regs.g r {})

/-- A field of a copy set (spec/08 R174): 0 SRC, 1 DST, 2 LEN, 3 SSTR, 4 DSTR, 5 ROWS, 6 TYPE, 7 DEV, 8 GROUP. -/
def copySet (h : CopySet) (f : Nat) (v : W64) : CopySet :=
  match f with
  | 0 => { h with src := v.setWidth 57 }
  | 1 => { h with dst := v.setWidth 57 }
  | 2 => { h with len := v.setWidth 32 }
  | 3 => { h with sstr := v.setWidth 32 }
  | 4 => { h with dstr := v.setWidth 32 }
  | 5 => { h with rows := v.setWidth 24 }
  | 6 => { h with type := v.setWidth 8 }
  | 7 => { h with dev := v.setWidth 9 }
  | 8 => { h with group := v.setWidth 16 }
  | _ => h

/-- A copy set. -/
def seeH (s : State) (c : Core) (r : Nat) : CopySet :=
  (pendingLands c).foldl (fun v p => match p.2 with
    | .h q f n => if q = r ∧ Config.freeEarly s.tick p.1 = true then copySet v f n else v
    | _ => v) (tabGet c.regs.h r {})

/-- The registers after a write lands; x0, y0, k0, q0 and q1 ignore writes (spec/03 R48). -/
def landRegs (r : Regs) : Land → Regs
  | .x i v => if i = 0 then r else { r with x := tabSet r.x i v }
  | .y i v => if i = 0 then r else { r with y := tabSet r.y i v }
  | .v i m v => { r with v := tabSet r.v i (blend (tabGet r.v i 0) m v) }
  | .w i m v => { r with w := tabSet r.w i (blend (tabGet r.w i 0) m v) }
  | .k i m v => if i = 0 then r else { r with k := tabSet r.k i (blend (tabGet r.k i 0) m v) }
  | .q i b => if i ≤ 1 then r else { r with q := tabSet r.q i b }
  | .d i m v t =>
    let r' := { r with d := tabSet r.d i (blend (tabGet r.d i 0) m v) }
    match t with
    | some n => { r' with dtag := tabSet r'.dtag i n }
    | none => r'
  | .p i v => { r with p := tabSet r.p i v }
  | .g i f v => { r with g := tabSet r.g i (strideSet (tabGet r.g i {}) f v) }
  | .h i f v => { r with h := tabSet r.h i (copySet (tabGet r.h i {}) f v) }
  | .sys _ _ => r

/-- Three 16-bit fields, one per vector file. -/
def threeOf (v : W64) : Tab (BitVec 16) := [(0, v.extractLsb' 0 16), (1, v.extractLsb' 16 16), (2, v.extractLsb' 32 16)]

/-- The bits of FMT that are no reserved ones (spec/05 R92, spec/00 R8). -/
def fmtBits : W32 := 0x07FFFFFF

/-- ESTATE as an `MTS` leaves it: bit 3 is reserved, and PPRIV never becomes 2 or 3 (spec/04 R86) (log entry 41: DESIGN CHOICE, unsafe). -/
def estateWritten (old : BitVec 8) (v : W64) : BitVec 8 :=
  let w := v.setWidth 8 &&& 0xF7
  if w.getLsbD 1 then (w &&& 0xFC) ||| (old &&& 0x03) else w

/-- A write of a system register that lands on its core (spec/04 R83; reserved bits are dropped, spec/00 R8). FMT and LC0 to LC3 take
their own ways (R55, R70), and 0x214 acts on the context. SPILLBASE keeps its ignored low 12 bits as written (log entry 42: DESIGN
CHOICE, unsafe). -/
def landSys (c : Core) (idx : Nat) (v : W64) : Core :=
  let y := c.sys
  match idx with
  | 0x008 => { c with sys := { y with lderr := v.setWidth 16 &&& 0xFF03 } }
  | 0x014 => { c with ctl := { c.ctl with loops := c.ctl.loops.take (if v.extractLsb' 0 3 ≤ 4 then (v.extractLsb' 0 3).toNat else 4) } }
  | 0x018 => { c with sys := { y with window := threeOf v } }
  | 0x019 => { c with sys := { y with bankLo := v.setWidth 6 } }
  | 0x01A => { c with sys := { y with bankHi := v.setWidth 6 } }
  | 0x01B => { c with sys := { y with spillBase := v.setWidth 57 } }
  | 0x01C => { c with sys := { y with spillLim := v.setWidth 16 } }
  | 0x01D => { c with sys := { y with spilled := threeOf v } }
  | 0x020 => { c with sys := { y with rngKey := v } }
  | 0x021 => { c with sys := { y with rngCtr := v } }
  | 0x080 => { c with sys := { y with trapvec := v.setWidth 17 } }
  | 0x081 => { c with sys := { y with epc := v.setWidth 16 } }
  | 0x082 => { c with sys := { y with tcause := v.setWidth 8 } }
  | 0x083 => { c with sys := { y with tslots := v.setWidth 21 } }
  | 0x084 => { c with sys := { y with taddr := v } }
  | 0x085 => { c with sys := { y with taux := v } }
  | 0x086 => { c with sys := { y with estate := estateWritten y.estate v } }
  | 0x087 => { c with sys := { y with efmt := tabSet (tabSet y.efmt 0 (v.extractLsb' 0 32 &&& fmtBits)) 1 (v.extractLsb' 32 32 &&& fmtBits) } }
  | 0x088 => { c with sys := { y with efmt := tabSet (tabSet y.efmt 2 (v.extractLsb' 0 32 &&& fmtBits)) 3 (v.extractLsb' 32 32 &&& fmtBits) } }
  | 0x210 => { c with sys := { y with sealSel := v.setWidth 12 } }
  | 0x212 => { c with sys := { y with predSel := v.setWidth 10 } }
  | _ => if 0x030 ≤ idx ∧ idx < 0x040 then { c with sys := { y with seq := tabSet y.seq (idx - 0x030) (v.setWidth 16) } } else c

/-- A core after a write lands. -/
def landCore (c : Core) (l : Land) : Core :=
  match l with
  | .sys i v => landSys c i v
  | l => { c with regs := landRegs c.regs l }

/-- Results of an operation issued now with a bound, known at once (R35, R54). -/
def emit (s : State) (bound : Nat) (l : List Land) : State :=
  modMe s fun c => { c with fresh := c.fresh ++ [⟨nowOf s s.cur + bound, .known l⟩] }

/-- One result. -/
abbrev emit1 (s : State) (bound : Nat) (l : Land) : State := emit s bound [l]

/-- Entries put in the order in which they land: by the vc in which the bound ends, then by issue (R35). -/
def insertFlight (f : Flight) : List Flight → List Flight
  | [] => [f]
  | g :: r => if f.due < g.due then f :: g :: r else g :: insertFlight f r

/-- Flight entries in landing order. -/
def landingOrder (l : List Flight) : List Flight := l.foldl (fun acc f => insertFlight f acc) []

/-- The core after every entry that may land and is known has landed; `all` lands entries before their bound (R38). -/
def landDue (c : Core) (now : Nat) (all : Bool) : Core :=
  let go := fun (f : Flight) => (all || f.due ≤ now) && (flightLands f.val).isSome
  let c' := (landingOrder (c.flight.filter go)).foldl (fun c f => ((flightLands f.val).getD []).foldl landCore c) c
  { c' with flight := c.flight.filter (fun f => !go f) }

/-! ## Guards and status -/

/-- Whether the whole-operation guard holds (spec/03 R43, R44). -/
def guardOn (s : State) (g : BitVec 4) : Bool := seeQ s (me s) g.toNat

/-- `s` when the guard is false, else the operation's effect (R44). -/
def guarded (s : State) (g : BitVec 4) (f : State → State) : Out :=
  .next (if guardOn s g then f s else s)

/-! ## Reports and errors -/

/-- KIND and UNIT of a core and one of its engines, 3 for none (spec/15 R346). -/
def coreUnit (c engine : Nat) : BitVec 14 := BitVec.ofNat 14 (c + 512 * engine)

/-- The first error of a launch is the one its completion entry describes (spec/15 R347). -/
def launchError (s : State) (l : Nat) (e : ErrInfo) : State :=
  modLaunch s l fun l => if l.err.isSome then l else { l with err := some e }

/-- An error of an access that a task has performed reaches its launch at once, that of a provisional task too (spec/14 R325, spec/15 R347). -/
def noteAccess (s : State) (u : Nat) (e : ErrInfo) : State :=
  match tabFind s.tasks u with
  | some t => launchError s t.launch e
  | none => s

/-- Any other error of a task reaches its launch: at once, or when a provisional task is confirmed (spec/14 R325). -/
def noteError (s : State) (u : Nat) (e : ErrInfo) : State :=
  match tabFind s.tasks u with
  | some t => if t.green then modTask s u fun t => { t with laterErrs := t.laterErrs ++ [e] } else launchError s t.launch e
  | none => s

/-- The first resolved disagreement of a launch (spec/15 R347). -/
def noteDispute (s : State) (u : Nat) (e : ErrInfo) : State :=
  match tabFind s.tasks u with
  | some t => modLaunch s t.launch fun l => if l.dispute.isSome then l else { l with dispute := some e }
  | none => s

/-- The bytes of a report entry (spec/17 R374). -/
def reportBytes (r : Report) : List Byte :=
  bytesOf r.seq.toNat 8 ++ [r.cls, r.sub] ++ bytesOf (r.unit.toNat + 2 ^ 14 * r.kind.toNat) 2 ++ [r.ctx.setWidth 8, 0, 0, 0]
    ++ bytesOf r.addr.toNat 8 ++ bytesOf r.d0.toNat 8 ++ bytesOf r.d1.toNat 8 ++ bytesOf r.d2.toNat 8 ++ bytesOf r.d3.toNat 8
    ++ bytesOf r.time.toNat 8

/-- The primary host port, as a die: die 1's when die 0 is fenced or its port is down (spec/16 R368, spec/17 R390). -/
def hostPort (s : State) : Option Nat :=
  if s.hostUp.getLsbD 0 && (getDie s 0).state == 0 then some 0
  else if s.hostUp.getLsbD 1 && (getDie s 1).state == 0 then some 1
  else none

/-- A host address as the port's translation cache holds it, or as the IOMMU answers now (spec/16 R363). -/
def hostPage (s : State) (port pasid page : Nat) : Option (Nat × Bool × Bool) :=
  match s.ats.find? (fun e => e.1 == port && e.2.1 == pasid * 2 ^ 52 + page) with
  | some e => some (e.2.2 / 4, e.2.2 % 2 == 1, e.2.2 / 2 % 2 == 1)
  | none => Config.hostTranslate s.tick port pasid page

/-- The IOMMU's answer kept in the port's translation cache (R363). -/
def keepAts (s : State) (port pasid page : Nat) : State :=
  if s.ats.any (fun e => e.1 == port && e.2.1 == pasid * 2 ^ 52 + page) then s else
  match Config.hostTranslate s.tick port pasid page with
  | some (p, r, w) => { s with ats := s.ats ++ [(port, pasid * 2 ^ 52 + page, p * 4 + 2 * w.toNat + r.toNat)] }
  | none => s

/-- The host port that carries reports: the primary one, or die 1's in place of die 0's removed one once the ring is programmed through its
mirror (spec/17 R390; log entry 61: DEDUCED, unsafe). -/
def ringPort (s : State) : Option Nat :=
  if hostPort s = some 1 ∧ (getDie s 0).state = 0 ∧ s.ring.mirror = false then none else hostPort s

/-- Bytes written to host memory without a PASID, where the translation allows (R363, R372). -/
def hostWrite (s : State) (addr : Nat) (b : List Byte) : State :=
  match ringPort s with
  | none => s
  | some p =>
    match hostPage s p (2 ^ 20) (addr / 4096) with
    | some (page, _, true) => keepAts { s with hostMem := cellsSet s.hostMem (page * 4096 + addr % 4096) b } p (2 ^ 20) (addr / 4096)
    | _ => keepAts s p (2 ^ 20) (addr / 4096)

/-- Whether a die is fenced (spec/16 R368). -/
def fenced (s : State) (d : Nat) : Bool := (getDie s d).state != 0

/-- Whether traffic between two dies is left without a route (spec/01 R18). -/
def cutOff (s : State) (a b : Nat) : Bool :=
  a != b && a + b == 3 && ((List.range 4).filter (fun d => d != a && d != b)).all (fenced s)

/-- The die of a unit that a report names (spec/15 R346): a core's, a port's, or the die itself. -/
def unitDie (kind : BitVec 2) (unit : BitVec 14) : Nat :=
  let u := unit.toNat
  if kind = 0 then u % 512 / 96
  else if kind = 1 then (if u < 10 then u / 5 else if u < 18 then (u - 10) / 4 + 2 else if u < 22 then u - 18 else u % 2)
  else u % 4

/-- Whether the ring takes a report (spec/17 R372): it is on and not full, the device is not in bisque mode, and a healthy chain of dies leads
from the unit's die to the host port that carries reports. -/
def ringTakes (s : State) (r : Report) : Bool :=
  let g := s.ring
  decide (4 ≤ g.log2) && decide (g.log2 ≤ 16) && decide ((g.tail - g.head).toNat ≠ 2 ^ g.log2.toNat) && s.boot.phase != .bisque
    && (match ringPort s with | some p => !cutOff s (unitDie r.kind r.unit) p | none => false)

/-- A report posted in the ring, or dropped and counted in LOST (spec/17 R372, R373). Reports stand in the order of the steps that
detect them, those of different dies too (log entry 45: DESIGN CHOICE, unsafe). -/
def post (s : State) (r : Report) : State :=
  let g := s.ring
  let size := 2 ^ g.log2.toNat
  if ringTakes s r = false then
    { s with ring := { g with lost := if g.lost = BitVec.allOnes 32 then g.lost else g.lost + 1 } }
  else
    let r' := { r with seq := BitVec.ofNat 64 s.reports.length, time := Config.freeTime s.tick }
    let s1 := hostWrite s (g.base.toNat / 64 * 64 + 64 * (g.tail.toNat % size)) (reportBytes r')
    { s1 with reports := s1.reports ++ [r'], ring := { g with tail := g.tail + 1, msiSent := if g.msi then g.msiSent + 1 else g.msiSent } }

/-- A report with the fields the manual gives; SEQ and TIME are filled when it is posted. -/
def mkReport (sub cls : Nat) (kind : BitVec 2) (unit : BitVec 14) (ctx : Nat) (addr d0 d1 d2 d3 : Nat) : Report :=
  { seq := 0, cls := BitVec.ofNat 8 cls, sub := BitVec.ofNat 8 sub, kind := kind, unit := unit, ctx := BitVec.ofNat 6 ctx,
    addr := BitVec.ofNat 64 addr, d0 := BitVec.ofNat 64 d0, d1 := BitVec.ofNat 64 d1, d2 := BitVec.ofNat 64 d2,
    d3 := BitVec.ofNat 64 d3, time := 0 }

/-- A report of an error of a task that is no access already performed: a provisional task's waits for confirmation (spec/14 R325). -/
def postFor (s : State) (u : Nat) (r : Report) : State :=
  match tabFind s.tasks u with
  | some t => if t.green then modTask s u fun t => { t with laterReports := t.laterReports ++ [r] } else post s r
  | none => post s r

/-- The error a task ended in, noted for its launch and reported with SUB 10 (spec/17 R375). -/
def publishError (s : State) (u : Nat) (e : ErrInfo) : State :=
  let ctx := match tabFind s.tasks u with | some t => t.ctx | none => 0
  post (noteError s u e) (mkReport 10 e.cls.toNat e.kind e.unit ctx e.addr.toNat e.info.toNat 0 0 0)

/-- A task ends in error (spec/04 R90): its cores stop once every one of them has made its issue decision for this vc. A provisional
task's error is published only when it is confirmed (spec/14 R325). -/
def endInError (s : State) (u : Nat) (cls : Nat) (kind : BitVec 2) (unit : BitVec 14) (addr cause : Nat) : State :=
  match tabFind s.tasks u with
  | none => s
  | some t =>
    if t.error.isSome then s else
    let e : ErrInfo := ⟨BitVec.ofNat 8 cls, kind, unit, BitVec.ofNat 64 addr, BitVec.ofNat 16 cause⟩
    let s1 := modTask s u fun t => { t with error := some e }
    if t.green then s1 else publishError s1 u e

/-! ## Framing a bundle (spec/03 R40) -/

/-- The words of the bundle at a word address, at most `n`, and whether its end was found (log entry 27: DEDUCED, unsafe). -/
def frameFrom (m : Tab W32) (pc : Nat) : Nat → List W32 × Bool
  | 0 => ([], false)
  | n + 1 =>
    if 65535 < pc then ([], false) else
    let w := tabGet m pc 0
    if w.getLsbD 31 then ([w], true) else
    let r := frameFrom m (pc + 1) n
    (w :: r.1, r.2)

/-- The bundle at the program counter. -/
def frameOf (c : Core) : List W32 × Bool := frameFrom c.imem c.ctl.pc 8

/-- The unit field of a word (R42). -/
def unitOf (w : W32) : Nat := (w.extractLsb' 27 4).toNat

/-- Position and word of a unit's slot in the bundle at the program counter. -/
def slotOf (c : Core) (u : Nat) : Nat × W32 :=
  (findIdxFrom (fun w => unitOf w == u) (frameOf c).1 0).getD (0, 0)

/-! ## Taking an exception (spec/04 R84, R85, R90) -/

/-- The error class of a task that ends through a cause (R85). -/
def causeClass (cause : Nat) : Nat :=
  match cause with
  | 0x04 => 4 | 0x05 => 4 | 0x07 => 9 | 0x08 => 11 | 0x0A => 13 | 0x0F => 12
  | _ => 10

/-- FMTW and the held values after a trap: a write due in vc v + j takes effect in the (j + 1)th vc after resumption (R86). A field of
EFMT0 or EFMT1 without a held write is 0 (log entry 43: DESIGN CHOICE, unsafe). -/
def holdFmt (pend : List (Nat × W32)) (now : Nat) (estate : BitVec 8) : BitVec 8 × Tab W32 :=
  pend.foldl (fun (e, t) p =>
    let j := p.1 - now
    (e ||| BitVec.ofNat 8 (2 ^ (4 + min j 3)), tabSet t (min j 3) p.2)) (estate, [])

/-- The trap record of a core (R84, R85). EPC has 16 bits: of the address 65,536 it holds 0 (log entry 44: DESIGN CHOICE, unsafe). -/
def trapRecord (y : Sys) (pc cause : Nat) (tslots : BitVec 21) (taddr taux : W64) : Sys :=
  { y with epc := BitVec.ofNat 16 pc, tcause := BitVec.ofNat 8 cause, tslots := tslots, taddr := taddr, taux := taux }

/-- INFO of the entry of a task that ends through a cause: the cause, and for a footprint the tile of its epoch (spec/15 R346). -/
def trapInfo (c : Core) (cause : Nat) : Nat := if cause = 0x0A then cause + 256 * c.hitTile else cause

/-- Results in flight of a handler that a trap interrupts, counted on the VCC from here on, in the order in which they were due (spec/02 R38). -/
def vccFlight (s : State) (core : Nat) (c : Core) : List Flight :=
  if c.handler then c.flight.map (fun f => { f with due := f.due + vccOf s core - c.ctl.hcount }) else c.flight

/-- The trap record written, and the handler entered or the task ended in error (R84, R90). The handler issues once the gang's
operations in flight have landed (spec/02 R38) (log entry 6: DEDUCED, unsafe). -/
def takeTrap (s : State) (cause : Nat) (tslots : BitVec 21) (taddr taux : W64) : State :=
  let c := me s
  let y := c.sys
  if y.trapvec.getLsbD 16 = false ∨ y.estate.getLsbD 2 = true then
    let s1 := modMe s fun c => { c with
      mark := .trapped (BitVec.ofNat 8 cause), decided := true, blocked := none, hold := .none, walkFault := none
      cause := BitVec.ofNat 8 cause
      sys := trapRecord c.sys c.ctl.pc cause tslots taddr taux }
    match c.task with
    | some u => endInError s1 u (causeClass cause) 0 (coreUnit s.cur 3) taddr.toNat (trapInfo c cause)
    | none => s1
  else
    let (est, efmt) := holdFmt y.fmtPend (nowOf s s.cur) (y.priv.setWidth 8 ||| 4)
    modMe s fun c => { c with
      mark := .trapped (BitVec.ofNat 8 cause), decided := true, trapped := true, handler := false, blocked := none, hold := .none
      walkFault := none, wait := .none, cause := BitVec.ofNat 8 cause, flight := vccFlight s s.cur c
      sys := { trapRecord c.sys c.ctl.pc cause tslots taddr taux with priv := 1, estate := est, efmt := efmt, fmtPend := [] }
      ctl := { c.ctl with
        shTgt := c.ctl.tgt, shLoops := c.ctl.loops, tgt := [], loops := [], pc := (y.trapvec.extractLsb' 0 16).toNat } }

/-- A trap raised by the slot of a unit: TSLOTS names its word, TAUX[31:0] holds it (spec/03 R52, spec/04 R85). -/
def slotTrap (s : State) (u cause : Nat) (taddr : W64) (hi : BitVec 32) : State :=
  let c := me s
  let p := slotOf c u
  takeTrap s cause (BitVec.ofNat 21 (2 ^ p.1 + 256 * (frameOf c).1.length)) taddr (hi ++ p.2)

/-! ## The return from an exception (spec/04 R89) -/

/-- The held FMT writes put back: bit j takes effect j vc after the first (R86). -/
def unholdFmt (estate : BitVec 8) (efmt : Tab W32) (first : Nat) : List (Nat × W32) :=
  ([0, 1, 2, 3].filter (fun j => estate.getLsbD (4 + j))).map (fun j => (first + j, tabGet efmt j 0))

/-- `ERET` performed: the level, target buffer, loop stack and held FMT writes come back; with S = 0 the bundle at EPC re-issues in
the next vc, with S = 1 it counts as committed with no slot taking effect, its conditions sampled at the return (log entry 76: DESIGN CHOICE,
unsafe). The held writes are counted from the vc in which the bundle
at EPC issues: the next one, or with S = 1 the trapping one, so that later bundles see the FMT of spec/03 R56 (DEDUCED, log entry 37;
unsafe). -/
def finishReturn (s : State) (core : Nat) (skip : Bool) : State :=
  let v := vccOf s core
  modCore s core fun c =>
    let y := c.sys
    let epc := y.epc.toNat
    let len := (frameFrom c.imem epc 8).1.length
    let tgt := c.ctl.shTgt
    let post : Post := {
      addr := epc, seqNext := epc + len, next := epc + len, old := tgt
      conds := [0, 1, 2, 3].map (fun e => (e, seeQ s c (tabGet tgt e {}).cond.toNat)) }
    { c with
      handler := false, trapped := false, retPend := none, decided := true
      sys := { y with
        priv := y.estate.extractLsb' 0 2, estate := y.estate &&& 0x03, fmtPend := unholdFmt y.estate y.efmt (if skip then v else v + 1) }
      ctl := { c.ctl with
        pc := epc, tgt := tgt, loops := c.ctl.shLoops, shTgt := [], shLoops := []
        post := if skip then some post else none } }

/-- Whether a handler operation is in flight, a handler FMT write is still to take effect, or the transfers and loop tests of the handler's
last bundle are still to be made. -/
def handlerBusy (c : Core) : Bool := !(c.flight.isEmpty && c.fresh.isEmpty && c.sys.fmtPend.isEmpty && c.ctl.post.isNone)

/-- A pending return is made as soon as nothing of the handler is in flight. -/
def tryReturn (s : State) (core : Nat) : State :=
  match (getCore s core).retPend with
  | some n => if handlerBusy (getCore s core) then s else finishReturn s core (n == 1)
  | none => s

end Sys2Proof.Machine
end

