-- ==== Sys2Proof/Machine/Memory.lean ====
section
/-! DEFINITION. Memory as spec/10 places it and spec/16 translates it: physical addresses and their errors, the walk and the
translation caches, reads and writes of bytes, and the outstanding accesses of a core in the order spec/11 lets them perform. -/

namespace Sys2Proof.Machine

open Sys2Proof

/-! ## Physical addresses (spec/10 R230, R231) -/

/-- Byte offset in the package space. -/
def paOff (pa : Nat) : Nat := pa % 2 ^ 43
/-- Device number of a domain physical address. -/
def paDev (pa : Nat) : Nat := pa / 2 ^ 43
/-- This device's number (spec/16 R354). -/
def ownDev (s : State) : Nat := s.ctxBlock.devnum.toNat
/-- A local address. -/
def localPa (s : State) (off : Nat) : Nat := ownDev s * 2 ^ 43 + off
/-- First byte of the scratchpad aperture. -/
def apertureBase : Nat := 0x10000000000
/-- Package offset of a scratchpad byte. -/
def scratchOff (hearth phys : Nat) : Nat := apertureBase + hearth * 2 ^ 24 + phys
/-- Where the model's memory keeps a byte: a local byte under its offset, a byte of device d under (d + 1) × 2^43 + offset. -/
def memKey (s : State) (pa : Nat) : Nat := if paDev pa = ownDev s then paOff pa else (paDev pa + 1) * 2 ^ 43 + paOff pa
/-- Host addresses carry their port above bit 60 (log entry 12: DESIGN CHOICE, safe). -/
def hostPa (port addr : Nat) : Nat := port * 2 ^ 60 + addr % 2 ^ 60

/-- The stack of a byte of die d's range (spec/10 R232). -/
def stackOf (d o : Nat) : Nat := 2 * d + (o / 2 ^ 8 % 2 + o / 2 ^ 17 % 2) % 2

/-- The fabric ports of a die (spec/01 R14). -/
def fabricPorts (d : Nat) : List Nat :=
  match d with
  | 0 => [0, 1, 2, 3, 4]
  | 1 => [5, 6, 7, 8, 9]
  | 2 => [10, 11, 12, 13]
  | _ => [14, 15, 16, 17]

/-- A fabric port. -/
def getPort (s : State) (p : Nat) : Port := tabGet s.ports p {}

/-- Whether a die reaches a device: it answers, and a fabric port of the die is up or training (R387, R388; log entry 10: DESIGN CHOICE, unsafe). -/
def reaches (s : State) (d dev : Nat) : Bool :=
  !s.unreachable.contains dev && (fabricPorts d).any (fun p => (getPort s p).state == 1 || (getPort s p).state == 2)

/-- Whether an address names another device of the domain. -/
def isRemote (s : State) (pa : Nat) : Bool := paDev pa != ownDev s

/-- The fabric ports of a die that carry traffic. -/
def upPorts (s : State) (d : Nat) : List Nat := (fabricPorts d).filter (fun p => (getPort s p).state == 1 || (getPort s p).state == 2)

/-- Whether a write to an address may leave a die: with 512 packets unacknowledged a port sends no new one (spec/17 R382). -/
def linkRoom (s : State) (d mt pa : Nat) : Bool :=
  mt == 2 || !isRemote s pa || (upPorts s d).isEmpty || (upPorts s d).any (fun p => decide ((getPort s p).replay.length < 512))

/-- Packets that waited for room take their numbers as soon as fewer than 512 are unacknowledged (R382). -/
def admitLater : Nat → Port → Port
  | 0, x => x
  | n + 1, x =>
    match x.later with
    | [] => x
    | k :: r =>
      if x.replay.length < 512 then
        admitLater n { x with later := r, sendNext := x.sendNext + 1, replay := x.replay ++ [{ k with seq := x.sendNext }] }
      else x

/-- A packet of a write, or with no bytes of a request, to another device: numbered and kept in the replay buffer of a port of its die, or
behind the packets that fill it (R382). Which port carries it the manual leaves open (log entry 3: DESIGN CHOICE, safe). -/
def packetOut (s : State) (d pa : Nat) (w : List (Nat × Byte)) : State :=
  let roomy := (upPorts s d).filter (fun p => decide ((getPort s p).replay.length < 512))
  let open_ := if roomy.isEmpty then upPorts s d else roomy
  match open_[(Config.freeData s.tick pa).toNat % open_.length]? with
  | none => s
  | some p =>
    let x := getPort s p
    { s with ports := tabSet s.ports p (admitLater 1 { x with later := x.later ++ [{ seq := 0, crcOk := true, writes := w }] }) }

/-- The packet of a write. -/
def sendPacket (s : State) (d pa : Nat) (b : List Byte) : State := packetOut s d pa (b.zipIdx.map (fun e => (paOff pa + e.2, e.1)))

/-- The request packet of a read. -/
def sendRequest (s : State) (d mt pa : Nat) : State := if mt = 2 ∨ isRemote s pa = false then s else packetOut s d pa []

/-- The error class an access from a die meets at a domain physical address, 0 for none (R20, R230, R231, R233, R234, R368, R388). A device
whose own DEVNUM is 432 to 511 reaches its own addresses (log entry 81: DEDUCED, unsafe). -/
def addrClass (s : State) (die pa : Nat) : Nat :=
  let off := paOff pa
  let dev := paDev pa
  let own := dev == ownDev s
  if 432 ≤ dev && !own then 5
  else if !own && !reaches s die dev then 5
  else if off < 0x6000000000 then
    let d := off / 0x1800000000
    if own && (fenced s d || cutOff s die d || s.boot.absent.getLsbD (stackOf d (off % 0x1800000000))) then 6 else 0
  else if off < apertureBase then 6
  else if off < 0x10060000000 then
    let d := (off - apertureBase) / 2 ^ 24 / 24
    if own && (fenced s d || cutOff s die d) then 6 else 0
  else if off < 0x20000000000 then 6
  else if off < 0x40000000000 then
    let p := (off - 0x20000000000) / 2 ^ 39
    let o := (off - 0x20000000000) % 2 ^ 39
    if own then
      if fenced s p || cutOff s die p then 6
      else if s.cxlRemoved.contains p then 5
      else if tabGet s.cxlCap p 0 ≤ o then 6 else 0
    else if Config.peerCapacity dev p ≤ o then 6 else 0
  else 6

/-- Whether a key is a scratchpad byte of this device. -/
def isScratchKey (k : Nat) : Bool := apertureBase ≤ k && k < 0x10060000000

/-- Bytes of a code word: 8 in SRAM, a 32-byte sector elsewhere (spec/17 R378). -/
def codeWord (k : Nat) : Nat := if isScratchKey k then 8 else 32

/-- The code words in error that meet a range of keys. -/
def eccHits (s : State) (k n : Nat) : List BadWord := s.eccBad.filter (fun b => b.key < k + n && k < b.key + b.size)

/-- The home slice of a line: 384 × die + slice for this device's lines, beyond for others and for scratchpads (spec/10 R235). -/
def homeSlice (s : State) (pa : Nat) : Nat :=
  let off := paOff pa
  let l := off / 128
  let dev := if isRemote s pa then 1000000 + paDev pa * 2 ^ 20 else 0
  let fold := (l % 128) ^^^ (l / 2 ^ 7 % 128) ^^^ (l / 2 ^ 14 % 128) ^^^ (l / 2 ^ 21 % 128) ^^^ (l / 2 ^ 28 % 128) ^^^ (l / 2 ^ 35 % 2)
  let slice := 128 * (l % 3) + fold
  if off < 0x6000000000 then dev + off / 0x1800000000 * 384 + slice
  else if isScratchKey off then dev + 10000 + (off - apertureBase) / 2 ^ 24
  else dev + (off - 0x20000000000) / 2 ^ 39 * 384 + slice

/-- Whether an address is that of a cacheable line; the scratchpad aperture is not cached (spec/10 R235). -/
def cacheable (pa : Nat) : Bool := paOff pa < 0x6000000000 || (0x20000000000 ≤ paOff pa && paOff pa < 0x40000000000)

/-- The die that homes a byte of a package (spec/10 R231). -/
def homeDie (pa : Nat) : Nat :=
  let off := paOff pa
  if off < 0x6000000000 then off / 0x1800000000
  else if isScratchKey off then (off - apertureBase) / 2 ^ 24 / 24
  else (off - 0x20000000000) / 2 ^ 39

/-! ## The remote-data cache (spec/10 R236-R238) -/

/-- The lines a remote-data cache holds: 64 MiB of 128 bytes each (R236). -/
def rdcLines : Nat := 524288

/-- The number of the 32-byte sector of a byte. -/
def sectorOf (s : State) (pa : Nat) : Nat := memKey s pa / 32

/-- A remote-data cache without the sectors of a line of which one is given. -/
def dropLine (d : Die) (k : Nat) : Die :=
  { d with rdc := d.rdc.filter (fun x => x.1 / 4 != k / 4), clean := d.clean.filter (fun x => x / 4 != k / 4)
           dirty := d.dirty.filter (fun x => x / 4 != k / 4), rdcBad := d.rdcBad.filter (fun x => x / 4 != k / 4) }

/-- The sectors a remote-data cache holds. -/
def rdcSectors (d : Die) : List Nat := d.rdc.map Prod.fst ++ d.clean ++ d.dirty

/-- A remote-data cache with room for the line of a sector. A full one gives up the line of the first sector in this order: copies of other
devices' lines by address, then shared lines, then modified lines, oldest first; a modified line given up is written back. The manual names
no replacement policy, and no modified line is written back before (log entry 63: DESIGN CHOICE, unsafe). -/
def rdcRoom (d : Die) (k : Nat) : Die :=
  if (rdcSectors d).length < rdcLines then d
  else if (rdcSectors d).any (fun x => x / 4 == k / 4) || decide (((rdcSectors d).map (fun x => x / 4)).dedup.length < rdcLines) then d
  else match (rdcSectors d).head? with
    | some x => dropLine d x
    | none => d

/-- A sector modified by a write of a die: the other dies' sectors of its line go, modified ones written back, and a die that does not home it
holds it modified; an access of memory type 1 performs at its home and leaves no copy (R236; spec/16 R357). The bytes themselves are kept at
their home here, as no access can tell. -/
def takeLine (s : State) (die mt pa : Nat) : State :=
  if isRemote s pa || !cacheable pa then s else
  let k := sectorOf s pa
  let s1 := if s.dies.all (fun d => (rdcSectors d.2).all (fun x => x / 4 != k / 4)) then s else
    { s with dies := tabMap s.dies (fun i d => if i = die ∧ mt = 0 then
        { d with clean := d.clean.filter (fun x => x != k), dirty := d.dirty.filter (fun x => x != k), rdcBad := d.rdcBad.filter (fun x => x != k) }
      else dropLine d k) }
  if mt ≠ 0 ∨ homeDie pa = die then s1 else modDie s1 die fun d => let r := rdcRoom d k; { r with dirty := r.dirty ++ [k] }

/-- A sector read by a die: another die that holds its line modified writes it back and goes on sharing it, and a die that does not home it
takes a shared copy (R236). -/
def shareLine (s : State) (die mt pa : Nat) : State :=
  if isRemote s pa || !cacheable pa then s else
  let k := sectorOf s pa
  let s1 := if s.dies.all (fun d => d.1 == die || d.2.dirty.all (fun x => x / 4 != k / 4)) then s else
    { s with dies := tabMap s.dies (fun i d => if i = die then d else
        { d with clean := d.clean ++ d.dirty.filter (fun x => x / 4 == k / 4), dirty := d.dirty.filter (fun x => x / 4 != k / 4) }) }
  if mt ≠ 0 ∨ homeDie pa = die ∨ (getDie s1 die).dirty.contains k = true ∨ (getDie s1 die).clean.contains k = true then s1
  else modDie s1 die fun d => let r := rdcRoom d k; { r with clean := r.clean ++ [k] }

/-- Whether a die reads a byte of another die's line from a copy that holds an uncorrected error (spec/17 R378). -/
def badCopy (s : State) (die mt pa : Nat) : Bool :=
  mt == 0 && !isRemote s pa && (getDie s die).rdcBad.contains (sectorOf s pa) && (getDie s die).clean.contains (sectorOf s pa)

/-! ## Reading and writing bytes -/

/-- The error class an access of a die meets at a host port: no healthy chain of dies leads there (spec/01 R16, R18), or it is down
(spec/17 R388). -/
def hostClass (s : State) (die port : Nat) : Nat :=
  if cutOff s die port then 6 else if s.hostUp.getLsbD port then 0 else 5

/-- The bytes at a physical address, or the class of the error met. `mt` 2 names host memory, whose host may complete a read with an
error status (spec/16 R363). -/
def readPa (s : State) (die mt pa n : Nat) : Except Nat (List Byte) :=
  if mt = 2 then
    if hostClass s die (pa / 2 ^ 60) ≠ 0 then .error (hostClass s die (pa / 2 ^ 60))
    else if Config.hostError s.tick pa then .error 5
    else .ok (cellsGet s.hostMem (pa % 2 ^ 60) n)
  else
    let k := memKey s pa
    if addrClass s die pa ≠ 0 then .error (addrClass s die pa)
    else if !(eccHits s k n).isEmpty || badCopy s die mt pa then .error 3
    else .ok (cellsGet s.mem k n)

/-- The memory after bytes are written where their home takes them, or the class of the error met: a write that covers a code word
in error clears it, one that would have to merge with it performs nothing (spec/17 R378). -/
def writePa (s : State) (die mt pa : Nat) (b : List Byte) : Except Nat State :=
  if mt = 2 then
    if hostClass s die (pa / 2 ^ 60) ≠ 0 then .error (hostClass s die (pa / 2 ^ 60))
    else .ok { s with hostMem := cellsSet s.hostMem (pa % 2 ^ 60) b }
  else
    let k := memKey s pa
    let hits := eccHits s k b.length
    if addrClass s die pa ≠ 0 then .error (addrClass s die pa)
    else if hits.any (fun e => e.key < k || k + b.length < e.key + e.size) then .error 3
    else
      let s1 := { s with mem := cellsSet s.mem k b, eccBad := s.eccBad.filter (fun e => !hits.contains e) }
      .ok (if isRemote s pa then modDie (sendPacket s1 die pa b) die fun d => dropLine d (k / 32) else takeLine s1 die mt pa)

/-- A read, within one sector, through the remote-data cache of a die: for a line of another device a copy fetched earlier may serve it, and
the read may leave a copy (spec/10 R237); what the cache does not serve goes out as a request. The scratchpad aperture is not cached (R235). -/
def readCached (s : State) (die mt pa n : Nat) : Except Nat (List Byte) × State :=
  if mt = 0 ∧ isRemote s pa = true ∧ cacheable pa = true then
    let k := sectorOf s pa
    match tabFind (getDie s die).rdc k with
    | some b =>
      if Config.freeCopy s.tick pa then
        (if (getDie s die).rdcBad.contains k then .error 3 else .ok ((b.drop (pa % 32)).take n), s)
      else (readPa s die mt pa n, sendRequest (modDie s die fun d => { d with rdc := tabErase d.rdc k }) die mt pa)
    | none =>
      match readPa s die mt (pa / 32 * 32) 32 with
      | .ok b =>
        (.ok ((b.drop (pa % 32)).take n),
          sendRequest (if Config.freeCopy s.tick pa then modDie s die fun d =>
              let r := rdcRoom d k
              { r with rdc := tabSet r.rdc k b, rdcBad := r.rdcBad.filter (fun x => x != k) }
            else s) die mt pa)
      | .error _ => (readPa s die mt pa n, s)
  else (readPa s die mt pa n, if mt = 2 then s else shareLine (sendRequest s die mt pa) die mt pa)

/-- A line of 128 bytes read through the cache, sector by sector. -/
def readLine (s : State) (die mt pa : Nat) : Except Nat (List Byte) × State :=
  [0, 32, 64, 96].foldl (fun a o => match a.1 with
    | .error c => (.error c, a.2)
    | .ok l =>
      match readCached a.2 die mt (pa + o) 32 with
      | (.ok b, t) => (.ok (l ++ b), t)
      | (.error c, t) => (.error c, t)) (.ok [], s)

/-- A die's copies of lines of other devices are invalidated (R237). -/
def dropCopies (s : State) (die : Nat) : State := modDie s die fun d => { d with rdc := [], rdcBad := d.rdcBad.filter (fun k => d.clean.contains k) }

/-! ## Translation (spec/16 R356-R360) -/

/-- The end of a walk. -/
inductive WalkEnd where
  | leaf (w : W64) (bits : Nat)
  | absent
  | ecc (pa : Nat)
  deriving DecidableEq, Repr

/-- Whether a table entry at a physical address lies in this device's present HBM, where a die reaches it (R356, R391, spec/01 R18); a table
lies in both stacks of its die (spec/10 R232). -/
def tableOk (s : State) (die pa : Nat) : Bool := !isRemote s pa && paOff pa < 0x6000000000 && addrClass s die pa == 0

/-- The table entry that a walk of a die uses: the one in memory, or one of the die's walk cache (R360), as it chooses. -/
def tableEntry (s : State) (die ctx va level at_ : Nat) : W64 :=
  let now := BitVec.ofNat 64 (natOfBytes (cellsGet s.mem (memKey s at_) 8))
  match (getDie s die).walks.find? (fun k => k.asid == ctx && k.level == level && k.base == va / 2 ^ (12 + 9 * level)) with
  | some k => if Config.freeCopy s.tick (2 ^ 62 + at_) then k.entry else now
  | none => now

/-- The walk from a table of a level: level n has entries of 12 + 9n address bits. -/
def walkFrom (s : State) (die ctx va : Nat) : Nat → Nat → WalkEnd
  | 0, _ => .absent
  | n + 1, table =>
    let at_ := table + 8 * (va / 2 ^ (12 + 9 * n) % 512)
    if !tableOk s die at_ then .absent else
    if !(eccHits s (memKey s at_) 8).isEmpty then .ecc at_ else
    let w := tableEntry s die ctx va n at_
    if w.getLsbD 0 = false ∨ w.extractLsb' 8 4 ≠ 0 ∨ w.extractLsb' 52 12 ≠ 0 then .absent
    else if w.getLsbD 1 then
      if n = 4 ∨ w.extractLsb' 6 2 = 3 ∨ w.toNat % 2 ^ (12 + 9 * n) / 2 ^ 12 ≠ 0 then .absent
      else .leaf w (12 + 9 * n)
    else if n = 0 then .absent
    else walkFrom s die ctx va n (w.toNat / 2 ^ 12 * 2 ^ 12)

/-- The walk of a die for a global address of a context (R226, R356). -/
def walk (s : State) (die ctx va : Nat) : WalkEnd :=
  walkFrom s die ctx va 5 ((tabGet (getCtx s ctx).desc 0 0).toNat / 2 ^ 12 % 2 ^ 40 * 2 ^ 12)

/-- The table entries of levels 4 to 1 on a walk of a die, as its walk cache keeps them (R360). -/
def walkSteps (s : State) (die ctx va : Nat) : Nat → Nat → List WalkEntry
  | 0, _ => []
  | n + 1, table =>
    let at_ := table + 8 * (va / 2 ^ (12 + 9 * n) % 512)
    if n = 0 ∨ tableOk s die at_ = false then [] else
    let w := tableEntry s die ctx va n at_
    if w.getLsbD 0 = false ∨ w.getLsbD 1 = true ∨ w.extractLsb' 8 4 ≠ 0 ∨ w.extractLsb' 52 12 ≠ 0 then []
    else ⟨ctx, n, va / 2 ^ (12 + 9 * n), w⟩ :: walkSteps s die ctx va n (w.toNat / 2 ^ 12 * 2 ^ 12)

/-- A list with one more entry, the oldest given up where it is full. -/
def pushBounded {α : Type} (bound : Nat) (l : List α) (x : α) : List α := (if bound ≤ l.length then l.tail else l) ++ [x]

/-- A walk that found a leaf: the translation enters the hearth's TLB of 4,096 entries and the die's of 65,536, and its table entries
the walk cache (R360). -/
def noteWalk (s : State) (hearth ctx va : Nat) (w : W64) (bits : Nat) : State :=
  let e : Tlb := ⟨ctx, va / 2 ^ bits, bits, w⟩
  let root := (tabGet (getCtx s ctx).desc 0 0).toNat / 2 ^ 12 % 2 ^ 40 * 2 ^ 12
  let steps := walkSteps s (hearth / 24) ctx va 5 root
  let s1 := modHearth s hearth fun h => { h with tlb := pushBounded 4096 h.tlb e }
  modDie s1 (hearth / 24) fun d => { d with
    tlb2 := pushBounded 65536 d.tlb2 e
    walks := d.walks.filter (fun k => steps.all (fun x => !(k.asid == x.asid && k.level == x.level && k.base == x.base))) ++ steps }

/-- A cached translation that covers an address (R360) (log entry 30: DESIGN CHOICE, unsafe). -/
def tlbFind (l : List Tlb) (asid va : Nat) : Option Tlb := l.find? (fun t => t.asid == asid && t.base == va / 2 ^ t.bits)

/-- A translation that a core of a hearth finds cached, in its hearth's TLB or its die's second-level TLB. -/
def cached (s : State) (hearth asid va : Nat) : Option Tlb :=
  match tlbFind (getHearth s hearth).tlb asid va with
  | some t => some t
  | none => tlbFind (getDie s (hearth / 24)).tlb2 asid va

/-- What an access needs of its leaf (R358); `pref` marks `PREF`, which needs R alone. -/
structure Need where
  r : Bool := false
  w : Bool := false
  x : Bool := false
  sup : Bool := false
  pref : Bool := false
  deriving DecidableEq, Repr

/-- Whether a leaf allows an access. -/
def leafAllows (leaf : W64) (n : Need) : Bool :=
  (!n.r || leaf.getLsbD 2) && (!n.w || leaf.getLsbD 3) && (!n.x || leaf.getLsbD 4) && (n.sup || n.x || n.pref || leaf.getLsbD 5)

/-- The physical address a leaf gives. -/
def leafPa (leaf : W64) (bits va : Nat) : Nat := leaf.toNat % 2 ^ 52 / 2 ^ bits * 2 ^ bits + va % 2 ^ bits

/-- The end of a translation: where the access goes, a fault with its cause (4 not present, 5 permission), or a walk to wait for. -/
inductive Tr where
  | ok (pa mt : Nat) (win : Bool)
  | fault (cause : Nat) (ecc : Bool)
  | walk
  deriving DecidableEq, Repr

/-- First address of the scratchpad window. -/
def windowBase : Nat := 2 ^ 56

/-- The physical scratchpad offset of a window offset in a partition (spec/10 R227). -/
def windowPhys (part qstart o : Nat) : Nat :=
  let q := part / 4
  o / q * 2 ^ 22 + qstart + o % q

/-- A translation by a leaf: host memory goes on to the host's IOMMU (R363), where a fetch reads too. -/
def byLeaf (s : State) (ctx : Nat) (leaf : W64) (bits va : Nat) (n : Need) : Tr :=
  if !leafAllows leaf n then .fault 5 false
  else if leaf.extractLsb' 6 2 = 2 then
    let d := tabGet (getCtx s ctx).desc 8 0
    let port := (d.getLsbD 3).toNat
    let pasid := if d.getLsbD 2 then (d.extractLsb' 32 20).toNat else 2 ^ 20
    match hostPage s port pasid (leafPa leaf bits va / 4096) with
    | some (page, r, w) => if ((n.r || n.x) && !r) || (n.w && !w) then .fault 5 false else .ok (hostPa port (page * 4096 + va % 4096)) 2 false
    | none => .fault 5 false
  else .ok (leafPa leaf bits va) (leaf.extractLsb' 6 2).toNat false

/-- The answer of the host's IOMMU kept in the port's translation cache once an access has used it (R363). -/
def noteHost (s : State) (hearth ctx va : Nat) : State :=
  let leaf := match cached s hearth ctx va with
    | some t => some (t.leaf, t.bits)
    | none => match walk s (hearth / 24) ctx va with | .leaf w bits => some (w, bits) | _ => none
  match leaf with
  | none => s
  | some (w, bits) =>
    let d := tabGet (getCtx s ctx).desc 8 0
    let port := (d.getLsbD 3).toNat
    let pasid := if d.getLsbD 2 then (d.extractLsb' 32 20).toNat else 2 ^ 20
    let page := leafPa w bits va / 4096
    if w.extractLsb' 6 2 = 2 then keepAts s port pasid page else s

/-- The translation of an address for a task of a hearth; `wait` says that a missing translation is waited for. -/
def translate (s : State) (hearth ctx part qstart : Nat) (va : Nat) (n : Need) (wait : Bool) : Tr :=
  let va := va % 2 ^ 57
  if windowBase ≤ va then
    let o := va - windowBase
    if 2 ^ 24 ≤ o then .fault 4 false
    else if part ≤ o then .fault 5 false
    else .ok (localPa s (scratchOff hearth (windowPhys part qstart o))) 0 true
  else
    match cached s hearth ctx va with
    | some t => byLeaf s ctx t.leaf t.bits va n
    | none =>
      if wait then .walk else
      match walk s (hearth / 24) ctx va with
      | .leaf w bits => byLeaf s ctx w bits va n
      | .absent => .fault 4 false
      | .ecc _ => .fault 4 true

/-- Whether a core runs at supervisor level. -/
def isSup (c : Core) : Bool := c.sys.priv == 1

/-- The translation of an address for the executing core. A page whose walk failed faults when its bundle issues again. -/
def translateMe (s : State) (va : Nat) (n : Need) : Tr :=
  let c := me s
  match taskOf s s.cur with
  | none => .fault 4 false
  | some t =>
    let n := { n with sup := isSup c }
    match translate s t.hearth t.ctx t.part t.qstart va n true with
    | .walk =>
      match c.walkFault with
      | some (page, _, _, ecc) => if page = va % 2 ^ 57 / 4096 then .fault 4 ecc else .walk
      | none => .walk
    | r => r

/-- The translation an engine of a core makes for a context, walking at once; the walked translation is cached in the die (R360). -/
def translateTask (s : State) (t : Task) (sup : Bool) (va : Nat) (n : Need) : Tr :=
  translate s t.hearth t.ctx t.part t.qstart va { n with sup := sup } false

/-! ## Footprints and the owners of scratchpad blocks (spec/06 R124, spec/13 R304, spec/16 R364) -/

/-- The open epochs of a hearth, each with its tile. -/
def openEpochs (s : State) (hearth : Nat) : List (Nat × Epoch) :=
  (List.range 4).flatMap (fun i => (getCore s (hearth * 4 + i)).mu.tiles.filterMap (fun t => t.2.epoch.map (fun e => (t.1, e))))

/-- The open epochs that a pre-empted task left in a hearth keep their footprint too (spec/06 R127), and so do those of a task that has ended
while its matrix work goes on; those of a core that its routine runs on for the moment are among the open ones. -/
def suspendedEpochs (s : State) (hearth : Nat) : List (Nat × Epoch) :=
  s.tasks.flatMap (fun t => if t.2.hearth = hearth then t.2.saved.zipIdx.flatMap (fun c =>
      if (getCore s (hearth * 4 + t.2.first + c.2)).task = some t.1 then []
      else c.1.mu.tiles.filterMap (fun t => t.2.epoch.map (fun e => (t.1, e))))
    else [])

/-- The open epochs whose footprint holds a 128-byte row, given by a package offset of a scratchpad byte, with their tiles. -/
def footEpochs (s : State) (off : Nat) : List (Nat × Epoch) :=
  let h := (off - apertureBase) / 2 ^ 24
  (openEpochs s h ++ suspendedEpochs s h).filter (fun e => e.2.foot.contains (off / 128))

/-- Whether a row lies in the footprint of an open epoch. -/
def inFootprint (s : State) (off : Nat) : Bool := !(footEpochs s off).isEmpty

/-- The first byte of a write to a range that a footprint refuses, as an offset in the range: host memory has none, and whether a row of
another device, while it is reached, lies in one is not known here (R124; log entry 90: DEDUCED, safe). -/
def footHit (s : State) (mt pa n : Nat) : Option Nat :=
  if mt = 2 ∨ isScratchKey (paOff pa) = false then none
  else if isRemote s pa then
    if (List.range 4).any (fun d => reaches s d (paDev pa)) ∧ paDev pa < 432 ∧ Config.peerFoot s.tick pa = true then some 0 else none
  else (List.range n).find? (fun i => inFootprint s (paOff pa + i))

/-- The tile of the epoch whose footprint holds a row (spec/15 R346); of another device's epoch it is not known. -/
def footTile (s : State) (pa : Nat) : Nat :=
  if isRemote s pa then (Config.freeData s.tick pa).toNat % 32 else (((footEpochs s (paOff pa)).head?).map Prod.fst).getD 0

/-- The task whose state a scratchpad block holds. -/
def blockOwnerOf (s : State) (hearth block : Nat) : Option Nat := tabGet (getHearth s hearth).blockOwner block none

/-- Whether a task is pre-empted, its state still to be kept. -/
def isSuspended (s : State) (u : Nat) : Bool := match tabFind s.tasks u with | some t => t.st == 3 | none => false

/-- The block of a hearth a local scratchpad address lies in. -/
def blockOf (pa : Nat) : Nat × Nat := ((paOff pa - apertureBase) / 2 ^ 24, (paOff pa - apertureBase) % 2 ^ 24 / 4096)

/-- The memory with a 4 KiB scratchpad block set to zero. -/
def zeroBlock (s : State) (hearth block : Nat) : State :=
  let k := scratchOff hearth (block * 4096)
  { s with mem := s.mem.filter (fun c => c.1 < k || k + 4096 ≤ c.1), eccBad := s.eccBad.filter (fun c => c.key < k || k + 4096 ≤ c.key) }

/-- A task's first access to a block clears it and makes it the task's (R364) (log entry 34: DEDUCED, unsafe). -/
def touchBlock (s : State) (u hearth block : Nat) : State :=
  if blockOwnerOf s hearth block = some u then s
  else modHearth (zeroBlock s hearth block) hearth fun h => { h with blockOwner := tabSet h.blockOwner block (some u) }

/-- Whether a block holds the state of a pre-empted task other than `u` (R304). -/
def needsClaim (s : State) (u hearth block : Nat) : Bool :=
  match blockOwnerOf s hearth block with
  | some o => o != u && isSuspended s o
  | none => false

/-! ## A write into the source of a resident segment (spec/04 R79) -/

/-- The sources of the segments that are resident for tasks of a context: the task, the first byte's address and the bytes. -/
def residentSources (s : State) (ctx : Nat) : List (Task × Nat × Nat) :=
  s.tasks.flatMap (fun t => if t.2.ctx ≠ ctx then [] else
    t.2.segs.filterMap (fun g =>
      if (taskCores s t.1 t.2).any (fun c => c.ibank.any (fun b => b.2 == .resident (BitVec.ofNat 8 g.1)))
      then some (t.2, g.2.1, 4 * g.2.2.1) else none))

/-- Whether a byte at a physical address is a source byte of a segment resident for a task of a context. -/
def inResident (s : State) (ctx pa : Nat) : Bool :=
  (residentSources s ctx).any (fun g =>
    (List.range (g.2.2 / 4096 + 2)).any (fun k =>
      let va := if k = 0 then g.2.1 else (g.2.1 / 4096 + k) * 4096
      match translateTask s g.1 true va {} with
      | .ok p _ _ => decide (va < g.2.1 + g.2.2) && decide (p ≤ pa) && decide (pa < p + min (4096 - va % 4096) (g.2.1 + g.2.2 - va))
      | _ => false))

/-- The first virtual address of a task's context image. -/
def imageBase (s : State) (t : Task) : Nat :=
  ((tabGet (getCtx s t.ctx).desc 2 0).extractLsb' 0 57).toNat + t.slot * 0x1800000

/-- Whether a virtual address of a context lies in the context image of one of its tasks that stands pre-empted, which its program must not
change (spec/13 R303). -/
def inImage (s : State) (ctx va : Nat) : Bool :=
  s.tasks.any (fun t => t.2.ctx == ctx && t.2.st == 3 && decide (imageBase s t.2 ≤ va % 2 ^ 57) && decide (va % 2 ^ 57 < imageBase s t.2 + 0x1800000))

/-- What a write of a context leaves of a byte: the byte itself, but in the source of a resident segment (spec/04 R79) or in the image of a
pre-empted task (spec/13 R303), which the program must not change and for which no consequence is named, an indeterminate byte: the previous
one, the new one, or one that the context wrote beside it (spec/00 R6, R7; log entry 46: DEDUCED, safe). -/
def storedByte (s : State) (die ctx mt va pa : Nat) (b : Byte) : Byte :=
  if inImage s ctx va = false ∧ (mt = 2 ∨ inResident s ctx pa = false) then b else
  match (Config.freeData s.tick pa).toNat % 3 with
  | 0 => b
  | n => match readPa s die mt (if n = 1 then pa else pa / 4 * 4) 1 with | .ok [old] => old | _ => b

/-- Whether a context has a resident segment or a pre-empted task, so that its writes may reach what it must not change. -/
def mayBreach (s : State) (ctx : Nat) : Bool := !(residentSources s ctx).isEmpty || s.tasks.any (fun t => t.2.ctx == ctx && t.2.st == 3)

/-- What a write of a context leaves of its bytes. -/
def storedBytes (s : State) (die ctx mt va pa : Nat) (b : List Byte) : List Byte :=
  if mayBreach s ctx then b.zipIdx.map (fun x => storedByte s die ctx mt (va + x.2) (pa + x.2) x.1) else b

/-! ## Access errors -/

/-- LDERR after an error (spec/12 R265): CLASS is that of the first error recorded. -/
def lderrSet (v : BitVec 16) (load : Bool) (cls : Nat) : BitVec 16 :=
  let v1 := if v &&& 3 = 0 then (v &&& 0x00FF) ||| BitVec.ofNat 16 (256 * cls) else v
  v1 ||| (if load then 1 else 2)

/-- The registers of a task's core changed, whether the task holds the core or stands pre-empted. -/
def modTaskCore (s : State) (core : Nat) (task : Option Nat) (f : Core → Core) : State :=
  if (getCore s core).task = task then modCore s core f
  else match task with
    | some u => modTask s u fun t => { t with saved := modifyAt t.saved (core % 4 - t.first) f }
    | none => s

/-- An uncorrected error met at an address, as it is named (R376, R378): the first address read in its code word, as a physical address or
a scratchpad offset, its array class and its instance (log entry 26: DEDUCED, unsafe). -/
def eccName (s : State) (die pa : Nat) : Option (Nat × Nat × Nat) :=
  let k := memKey s pa
  match (eccHits s k 32).head? with
  | none => if (getDie s die).rdcBad.contains (sectorOf s pa) then some (pa, 6, die) else none
  | some b =>
    let w := max k b.key
    some (if isScratchKey w then (w - apertureBase) % 2 ^ 24 else localPa s w, b.cls, b.inst)

/-- The report of an uncorrected error met at an address (R378) (log entry 7: DEDUCED, unsafe). -/
def postEcc (s : State) (kind : BitVec 2) (unit : BitVec 14) (ctx pa : Nat) : State :=
  match eccName s (unitDie kind unit) pa with
  | some (a, cls, inst) => post s (mkReport 4 3 kind unit ctx a cls inst 0 0)
  | none => s

/-- The report of a walk whose table read met an uncorrected error, with class 3 (spec/16 R359). -/
def postWalk (s : State) (kind : BitVec 2) (unit : BitVec 14) (ctx va : Nat) : State :=
  match walk s (unitDie kind unit) ctx va with
  | .ecc pa => postEcc s kind unit ctx pa
  | _ => s

/-- The reports of an access that ended with an error class (spec/12 R266): an uncorrected error that it met, in the data or in a page
table that it walked (spec/16 R359), is reported before. A write that a port did not take may or may not have performed at its home
(spec/17 R388); one to a device number that does not exist has no home (log entry 8: DEDUCED, unsafe). -/
def postAccess (s : State) (kind : BitVec 2) (unit : BitVec 14) (ctx cls addr d0 d1 d2 : Nat) : State :=
  let s1 :=
    if cls = 3 then postEcc s kind unit ctx addr
    else if cls = 4 ∧ addr < windowBase then postWalk s kind unit ctx addr
    else s
  let out := if cls = 5 ∧ d0 = 1 ∧ (paDev addr < 432 ∨ 512 ≤ paDev addr) ∧ kind ≠ 2 then 2 else d0
  post s1 (mkReport 0 cls kind unit ctx addr out d1 d2 0)

/-! ## Context images (spec/13 R303, spec/16 R365) -/

/-- An access cut where it crosses a 32-byte sector (spec/10 R239): pieces of one sector perform together. Each part is its virtual
address, its offset in the access and its length. -/
def cut : Nat → Nat → Nat → Nat → List (Nat × Nat × Nat)
  | 0, _, _, _ => []
  | fuel + 1, ea, off, n =>
    if n = 0 then [] else
    let a := (ea + off) % 2 ^ 57
    let l := min n (32 - a % 32)
    (a, off, l) :: cut fuel ea (off + l) (n - l)

/-- The parts of an access of `n` bytes. -/
def parts (ea n : Nat) : List (Nat × Nat × Nat) := cut (n + 1) ea 0 n

/-- Who makes an access: the hearth and die it starts from, the context, the partition, the level, and the task it is for. -/
structure Who where
  hearth : Nat
  ctx : Nat
  part : Nat := 0
  qstart : Nat := 0
  sup : Bool := false
  task : Option Nat := none
  deriving DecidableEq, Repr

/-- The die of an access. -/
def whoDie (w : Who) : Nat := w.hearth / 24

/-- An access for a task. -/
def whoTask (u : Nat) (t : Task) (sup : Bool) : Who := ⟨t.hearth, t.ctx, t.part, t.qstart, sup, some u⟩

/-- Each part with its place, or the first virtual address that does not translate. -/
def placeFor (s : State) (w : Who) (need : Need) : List (Nat × Nat × Nat) → Except Nat (List Placed)
  | [] => .ok []
  | (va, off, n) :: r =>
    match translate s w.hearth w.ctx w.part w.qstart va { need with sup := w.sup } false with
    | .ok pa mt win =>
      match placeFor s w need r with
      | .ok l => .ok (⟨va, off, n, pa, mt, win⟩ :: l)
      | .error a => .error a
    | _ => .error va

/-- What a part of a write takes of its bytes: for a write of a program's context as `storedBytes` says. -/
def partBytes (s : State) (die : Nat) (ctx : Option Nat) (data : List Byte) (p : Placed) : List Byte :=
  let b := (data.drop p.off).take p.n
  match ctx with
  | some c => storedBytes s die c p.mt p.va p.pa b
  | none => b

/-- Each part written where it goes; a part that fails performs nothing, and the first failure is kept. -/
def writeParts (s : State) (die : Nat) (ctx : Option Nat) (data : List Byte) : List Placed → Option (Nat × Nat) → State × Option (Nat × Nat)
  | [], e => (s, e)
  | p :: r, e =>
    match writePa s die p.mt p.pa (partBytes s die ctx data p) with
    | .ok s1 => writeParts s1 die ctx data r e
    | .error c => writeParts s die ctx data r (e.or (some (c, p.pa)))

/-- The host's answers for the parts of an access are kept (spec/16 R363). -/
def noteHosts (s : State) (w : Who) (l : List Placed) : State :=
  l.foldl (fun s p => if p.mt = 2 then noteHost s w.hearth w.ctx p.va else s) s

/-- Bytes of a victim's state written into its image. A failed write is reported and the state is lost, and so when the state could not be
read: `readErr` gives the class of that error and the physical address it is reported with, 0 for a register file's (R434, spec/17 R375). -/
def saveImage (s : State) (u core off : Nat) (b : List Byte) (readErr : Option (Nat × Option Nat)) : State :=
  match tabFind s.tasks u with
  | none => s
  | some t =>
    let va := (imageBase s t + off) % 2 ^ 57
    let fail := fun (s : State) (cls : Nat) (addr : Option Nat) (a : Nat) =>
      let s1 := modTask s u fun t => if t.lost.isSome then t else { t with lost := some (BitVec.ofNat 8 cls, BitVec.ofNat 64 a) }
      match addr with
      | some p => postAccess s1 0 (coreUnit core 3) t.ctx cls p 1 0 0
      | none => post s1 (mkReport 0 cls 0 (coreUnit core 3) t.ctx 0 1 0 0 0)
    match readErr with
    | some (c, pa) => fail s c pa va
    | none =>
      let w : Who := { (whoTask u t false) with part := 0 }
      match placeFor s w { w := true } (parts va b.length) with
      | .error a => fail s 4 (some a) a
      | .ok l =>
        match writeParts (noteHosts s w l) (t.hearth / 24) none b l none with
        | (s1, none) => s1
        | (s1, some (c, pa)) => fail s1 c (some pa) va

/-- The offset of a core's image in its task's context image. -/
def coreImage (t : Task) (core : Nat) : Nat := (core % 4 - t.first) * 0x1D0000

/-- The registers of a task on one of its cores, whether it holds the core or stands pre-empted. -/
def ownerCore (s : State) (core task : Nat) : Core :=
  if (getCore s core).task = some task then getCore s core
  else match tabFind s.tasks task with
    | some t => (t.saved[core % 4 - t.first]?).getD {}
    | none => {}

/-- A value of the control region that changes while its task stands pre-empted is written into the task's image too: its tokens and write
pointers (spec/12 R273, R288, R290) and LDERR (R265) (log entry 39: DEDUCED, unsafe). -/
def keepImage (s : State) (core task off : Nat) (b : List Byte) : State :=
  if (getCore s core).task = some task then s else
  match tabFind s.tasks task with
  | some t => if t.st = 3 ∧ t.error.isNone = true then saveImage s task core (coreImage t core + off) b none else s
  | none => s

/-- INFO of an access that completed in error: a footprint's refusal names the tile of the epoch whose footprint it is (spec/15 R346; log entry
91: DEDUCED, unsafe). -/
def accInfo (s : State) (cls pa : Nat) : BitVec 16 := if cls = 13 then BitVec.ofNat 16 (256 * footTile s pa) else 0

/-- An access of a core that completes in error: LDERR, the report of SUB 0, and the launch's error (spec/12 R265, R266; spec/15 R347). -/
def accessError (s : State) (core : Nat) (task : Option Nat) (load : Bool) (cls pa d0 d2 : Nat) : State :=
  let s0 := modTaskCore s core task fun c => { c with sys := { c.sys with lderr := lderrSet c.sys.lderr load cls } }
  let s1 := match task with
    | some u => keepImage s0 core u 0x400 (bytesOf (ownerCore s0 core u).sys.lderr.toNat 8)
    | none => s0
  let unit := coreUnit core 3
  let ctx := match task.bind (tabFind s.tasks) with | some t => t.ctx | none => 0
  let s2 := match task with
    | some u => noteAccess s1 u ⟨BitVec.ofNat 8 cls, 0, unit, BitVec.ofNat 64 pa, accInfo s cls pa⟩
    | none => s1
  postAccess s2 0 unit ctx cls pa d0 0 d2

/-! ## Outstanding accesses of a core (spec/11 R245-R252) -/

/-- The mask bit of an entry's kind in a FENCE (spec/11 R242): a load is of kind R, a store of kind W, an atomic of both. -/
def kindBits (k : AccKind) : BitVec 6 :=
  match k with
  | .load => 1
  | .store => 2
  | .atomic _ _ _ _ _ => 3
  | .ordered _ _ _ _ _ _ => 3
  | .fence _ _ _ => 0
  | .drain => 0
  | .signal (.launch _) => 1
  | .signal (.alloc _) => 2
  | .signal _ => 0

/-- Whether an entry writes. -/
def writesAcc (k : AccKind) : Bool :=
  match k with
  | .store => true
  | .atomic _ _ _ _ _ => true
  | .ordered _ _ _ _ _ _ => true
  | .signal (.alloc _) => true
  | _ => false

/-- Whether an entry only reads. -/
def isLoadAcc (k : AccKind) : Bool := match k with | .load => true | _ => false

/-- Whether an ordering entry holds back every access of later bundles (spec/15 R335, R338, R343). -/
def holdsLater (k : AccKind) : Bool :=
  match k with
  | .signal (.launch _) => true
  | .signal (.alloc _) => true
  | .signal (.barrier _) => true
  | _ => false

/-- Whether two entries share a byte. -/
def shareByte (a b : Acc) : Bool := a.mt / 2 == b.mt / 2 && a.pa < b.pa + b.n && b.pa < a.pa + a.n

/-- Whether an M or C operation that a task issued before bundle `no` on a core is still under way with accesses of the kinds given
(R249); those of a pre-empted task too (R258). -/
def enginesBusy (s : State) (core : Nat) (task : Option Nat) (pred : BitVec 6) (no : Nat) : Bool :=
  let m := pred &&& 0x30 != 0
  let r := pred &&& 0x0C != 0
  let mu := match task with | some u => (ownerCore s core u).mu | none => {}
  (m && (mu.run.any (fun q => q.entry.no < no) || mu.queue.any (fun e => e.no < no))) ||
  (r && (getCore s core).chan.any (fun h => h.2.run.any (fun q => task == some q.e.task && q.e.no < no)
    || h.2.queue.any (fun e => task == some e.task && e.no < no)))

/-- Whether two entries are ordered atomics of one flow: their sequence numbers order them at their home (spec/12 R270). -/
def sameFlow (p e : AccKind) : Bool :=
  match p, e with
  | .ordered _ _ _ f _ _, .ordered _ _ _ g _ _ => f == g
  | _, _ => false

/-- Whether an entry is an ordered atomic whose request has not been sent. -/
def unsent (k : AccKind) : Bool := match k with | .ordered _ _ _ _ _ sent => !sent | _ => false

/-! ### Visibility within the hearth (R243, R244; log entry 62: DEDUCED, unsafe) -/

/-- Whether an outstanding entry counts as performed at a scope: for core and hearth a store visible within its hearth, for wider ones nothing
that has not performed at its home (R243, R244). -/
def shownAt (p : Acc) (scope : Nat) : Bool := decide (scope ≤ 1) && p.shown

/-- Whether an earlier entry counts as performed for a release at a scope: at core scope every store does (R247). -/
def releasedAt (p : Acc) (scope : Nat) : Bool := scope == 0 && p.kind == .store || shownAt p scope

/-- Whether an earlier entry counts as performed for a `FENCE` at a scope: at core scope every store does where the fence holds back writes of
the core alone (R243, R249). -/
def fencedAt (p : Acc) (succ : BitVec 6) (scope : Nat) : Bool :=
  succ &&& 0x3C == 0 && (shownAt p scope || (succ == 2 && releasedAt p scope))

/-- Whether an entry shares a byte with an access of `n` bytes at an address of a memory type. -/
def meets (a : Acc) (mt pa n : Nat) : Bool := a.mt / 2 == mt / 2 && a.pa < pa + n && pa < a.pa + a.n

/-- Whether an entry shares a 16-byte piece with such an access (spec/10 R239). -/
def meetsPiece (a : Acc) (mt pa n : Nat) : Bool :=
  a.mt / 2 == mt / 2 && decide (a.pa / 16 ≤ (pa + n - 1) / 16) && decide (pa / 16 ≤ (a.pa + a.n - 1) / 16)

/-- The outstanding stores that their hearths see before they perform at their homes, with their cores. -/
def allShown (s : State) : List (Nat × Acc) := s.cores.flatMap (fun x => (x.2.acc.filter (fun a => a.shown)).map (fun a => (x.1, a)))

/-- Those that the units of a core's hearth see. -/
def shownTo (s : State) (core : Nat) : List (Nat × Acc) := (allShown s).filter (fun x => hearthOf x.1 == hearthOf core)

/-- Bytes at an address with the bytes of an entry put over them. -/
def overlay (pa : Nat) (b : List Byte) (a : Acc) : List Byte :=
  b.zipIdx.map (fun x => if a.pa ≤ pa + x.2 ∧ pa + x.2 < a.pa + a.n then (a.data[pa + x.2 - a.pa]?).getD x.1 else x.1)

/-- An entry as what a read or a write waits for. -/
def sourceOf (x : Nat × Acc) : Source := ⟨x.1, x.2.id, x.2.pa⟩

/-- A read by a load of a core: the home's bytes, or a copy's, under the stores that its hearth sees, and those stores (R244). An access of memory
type 1 performs at its home (spec/16 R357). -/
def readSeen (s : State) (core mt pa n : Nat) : Except Nat (List Byte) × List Source × State :=
  match readCached s (dieOf core) mt pa n with
  | (.error c, s1) => (.error c, [], s1)
  | (.ok b, s1) =>
    (.ok (((shownTo s core).filter (fun x => mt == 0 && meets x.2 mt pa n)).foldl (fun b x => overlay pa b x.2) b), (shownTo s core).map sourceOf, s1)

/-- The entry of a write that has still to perform. -/
def outstanding (s : State) (r : Source) : Option Acc := (getCore s r.core).acc.find? (fun a => a.id == r.id && a.pa == r.pa)

/-- Whether a write is still outstanding. -/
def stillOut (s : State) (r : Source) : Bool := (outstanding s r).isSome

/-- Whether a core's units read nothing for now: one of its writes went ahead of stores that core scope orders before it (R254, R256). -/
def owes (s : State) (core : Nat) : Bool := (getCore s core).debts.any (stillOut s)

/-- The stores of its hearth, seen there before it, that a store would go ahead of at its home. -/
def overtaken (s : State) (core : Nat) (e : Acc) : List (Nat × Acc) :=
  (shownTo s core).filter (fun x => sourceOf x != sourceOf (core, e) && (!e.shown || decide (x.2.seen < e.seen)))

/-- The stores of its own core that only core scope orders before a store: those before a release of that scope or before a `FENCE` of it. -/
def overtakenOwn (s : State) (core : Nat) (e : Acc) : List Source :=
  ((getCore s core).acc.filter (fun p => p.task == e.task && p.kind == .store && decide (p.no < e.no)
    && (e.rel == some 0 || (match p.fenced with | some k => decide (k < e.no) | none => false)))).map (fun p => sourceOf (core, p))

/-- Whether something may stand between a load that has its bytes and a store of its hearth: a barrier that let the load pass, or a store to
a piece of the load's that the hearth has seen since. -/
def readBefore (s : State) (core : Nat) (a : Acc) : Bool :=
  a.got && (a.joined || (shownTo s core).any (fun x => !a.src.contains (sourceOf x) && meetsPiece a x.2.mt x.2.pa x.2.n))

/-- Whether a store may perform at its home ahead of others that its hearth has seen: no load that read in their midst comes before it (R254,
R256). -/
def mayOvertake (s : State) (core : Nat) (e : Acc) : Bool :=
  (overtaken s core e).isEmpty || s.cores.all (fun x => hearthOf x.1 != hearthOf core || !x.2.acc.any (readBefore s core))

/-- Whether a store meets a piece that another store shows or that a load has read in the midst of such stores: those perform first
(R255, R256). -/
def crosses (s : State) (core : Nat) (e : Acc) : Bool :=
  s.cores.any (fun x => x.2.acc.any (fun a => (a.shown || a.got) && sourceOf (x.1, a) != sourceOf (core, e) && meetsPiece a e.mt e.pa e.n))

/-- Whether a write of a die issued before a step has still to perform on a line of another device: a later read from that die waits for
it (spec/10 R237). -/
def lineWrites (s : State) (die pa n stamp : Nat) : Bool :=
  isRemote s pa && s.cores.any (fun x => dieOf x.1 == die && x.2.acc.any (fun a =>
    writesAcc a.kind && a.mt != 2 && decide (a.stamp < stamp) && decide (a.pa / 128 ≤ (pa + n - 1) / 128) && decide (pa / 128 ≤ (a.pa + a.n - 1) / 128)))

/-! ### What keeps an entry from performing (R245-R252) -/

/-- Whether an outstanding entry `p`, earlier in the list, keeps entry `e` from performing. -/
def blocksAcc (s : State) (p e : Acc) : Bool :=
  let later := p.no < e.no
  match p.kind with
  | .fence _ succ _ => later && (succ &&& kindBits e.kind != 0)
  | .drain => later && kindBits e.kind != 0
  | _ =>
    match e.kind with
    | .fence pred succ scope => later && (pred &&& kindBits p.kind != 0) && !fencedAt p succ scope
    | .drain => later && writesAcc p.kind && isRemote s p.pa && p.mt != 2
    | .signal (.event _ _) => later                                  -- spec/15 R341: as a package-scope release
    | .signal (.free _) => later
    | .signal (.launch _) => later
    | .signal .ifence => later && (kindBits p.kind &&& 2 != 0)
    | .signal (.barrier _) => false
    | _ =>
      holdsLater p.kind && later ||
      (match p.kind with | .signal (.alloc _) => true | .signal _ => false | _ => true) && (
      let bothLoads := isLoadAcc p.kind && isLoadAcc e.kind
      if sameFlow p.kind e.kind then unsent p.kind                    -- R246, R270, one flow
      else
        (p.win && e.win && p.id != e.id && (later || !bothLoads))       -- R246, window accesses in program order; R239, one access
        || (shareByte p e && (later || !bothLoads))                     -- R246, same byte
        || (!later && isLoadAcc p.kind && !isLoadAcc e.kind)            -- R245, loads of a bundle before its stores
        || (later && p.acq.isSome)                                      -- R247, acquire
        || (later && (match e.rel with | some sc => !releasedAt p sc | none => false)))  -- R247, release

/-- Whether an entry orders what its core stored before: a release, or a fence or signal that waits for writes. -/
def ordersStores (e : Acc) : Bool :=
  e.rel.isSome || (match e.kind with
    | .fence pred _ _ => pred &&& 0x22 != 0
    | .signal _ => true
    | _ => false)

/-- Whether a store that was held for a task has still to perform at its home. -/
def heldOut (s : State) (u : Nat) (t : Task) : Bool :=
  !t.held.isEmpty || (gangOf t).any (fun i => (getCore s i).acc.any (fun a => a.task == some u && a.held))

/-- Whether a held store of its task keeps an entry from performing: an atomic comes after all of them (spec/14 R330), an `IFENCE` after
those of its core, also in a provisional task (spec/04 R80), a `DRAIN` after those of its core to other devices (R252), any other entry after
those of its core that share a byte with it or that its order covers (R253; spec/14 R323). -/
def heldFirst (s : State) (core : Nat) (e : Acc) : Bool :=
  match e.task, e.task.bind (tabFind s.tasks) with
  | some u, some t =>
    let mine := fun (f : HeldStore → Bool) => t.held.any (fun h => h.core == core && decide (h.no < e.no) && f h)
    !e.held && (match e.kind with
      | .signal .ifence => mine (fun _ => true)
      | .atomic _ _ _ _ _ => !t.green && heldOut s u t
      | .ordered _ _ _ _ _ _ => !t.green && heldOut s u t
      | .drain => !t.green && mine (fun h => h.tile.isNone && h.rows.any (fun r => isRemote s r.pa && r.mt != 2))
      | _ => !t.green && mine (fun h => ordersStores e || h.rows.any (fun r => meets e r.mt r.pa r.bytes.length)))
  | _, _ => false

/-- Whether the entries before the n-th of a core let it go. -/
def orderOk (s : State) (core n : Nat) (e : Acc) : Bool :=
  ((getCore s core).acc.take n).all (fun p => p.task != e.task || !blocksAcc s p e)
    && !heldFirst s core e

/-- Whether a write of a kind to another device has gone out for a task's core whose acknowledgement is still out (R244; spec/17 R388). -/
def ackOut (s : State) (core : Nat) (task : Option Nat) (kind : SentKind → Bool) : Bool :=
  s.ports.any (fun p => p.2.sent.any (fun x => x.core == core && x.task == task && kind x.kind))

/-- A write whose packet has just gone out, noted until it is acknowledged (R244, R250; spec/17 R388). -/
def noteSent (s0 s1 : State) (core : Nat) (task : Option Nat) (mt pa : Nat) (kind : SentKind) (pos : Nat) : State :=
  if isRemote s1 pa && mt != 2 then
    { s1 with ports := tabMap s1.ports (fun p x =>
        let y := getPort s0 p
        if x.sendNext = y.sendNext ∧ x.later.length = y.later.length then x
        else { x with sent := x.sent ++ [⟨x.sendNext + BitVec.ofNat 16 x.later.length - 1, core, task, pa, kind, pos⟩] }) }
  else s1

/-- Whether a write is one of the core's L slots. -/
def isStoreSent (k : SentKind) : Bool := k == .store

/-- Whether a write is one of the core's matrix unit. -/
def isMatrixSent (k : SentKind) : Bool := match k with | .row => true | .record _ => true | _ => false

/-- Whose acknowledgements an entry waits for: a `DRAIN`, and a `FENCE` or release of domain scope, for what its core stored before it, such a
`FENCE` after writes of runners or matrix engines for theirs too (R249, R252; spec/17 R388). -/
def needsAcks (e : Acc) (k : SentKind) : Bool :=
  (e.rel == some 4 && isStoreSent k) || (match e.kind with
    | .drain => isStoreSent k
    | .fence pred _ scope => scope == 4 && (match k with
        | .store => pred &&& 2 != 0
        | .runner _ => pred &&& 8 != 0
        | .row => pred &&& 0x20 != 0
        | .record _ => pred &&& 0x20 != 0)
    | _ => false)

/-- Whether a gang barrier waits for an entry of a bundle before it (R257; spec/15 R343): every access of the core that has not performed at
hearth scope; a load that has its bytes and a store that its hearth sees have. -/
def barrierWaits (p : Acc) : Bool :=
  match p.kind with
  | .load => !p.got
  | .store => !shownAt p 1
  | .atomic _ _ _ _ _ => true
  | .ordered _ _ _ _ _ _ => true
  | .signal (.launch _) => true
  | .signal (.alloc _) => true
  | _ => false

/-- Whether the n-th outstanding entry of a core may perform now. -/
def canPerform (s : State) (core n : Nat) : Bool :=
  let c := getCore s core
  match c.acc[n]? with
  | none => false
  | some e =>
    orderOk s core n e && !ackOut s core e.task (needsAcks e) &&
    (match e.kind with
     | .fence pred _ _ => !enginesBusy s core e.task pred e.no
     | .drain => true
     | .load =>
       if e.got then e.src.all (fun r => !stillOut s r)                -- R256: what its hearth saw before it has performed
       else (e.mt == 2 || !lineWrites s (dieOf core) e.pa e.n e.stamp) && linkRoom s (dieOf core) e.mt e.pa && !owes s core
     | .signal (.launch _) => decide ((getDie s (dieOf core)).port.length < 256)
         && (e.mt == 2 || !lineWrites s (dieOf core) e.pa e.n e.stamp) && linkRoom s (dieOf core) e.mt e.pa && !owes s core
     | .signal (.event _ _) => true
     | .signal (.barrier before) => before.all (fun b => (getCore s b.1).acc.all (fun p =>
         p.task != e.task || b.2 ≤ p.no || !barrierWaits p))
     | .signal _ => true
     | .store => linkRoom s (dieOf core) e.mt e.pa && mayOvertake s core e
     | .atomic _ _ _ _ _ => linkRoom s (dieOf core) e.mt e.pa && (e.mt == 2 || !lineWrites s (dieOf core) e.pa e.n e.stamp) && !owes s core
     | .ordered _ _ _ f _ sent =>
       -- the request may go when its flow's run is with the same home, or nothing of the flow is outstanding (R270)
       let w := tabGet c.flow f {}
       !sent && ((w.home == some (homeSlice s e.pa) && !w.restart) || w.outstanding == 0) && linkRoom s (dieOf core) e.mt e.pa
         && (e.mt == 2 || !lineWrites s (dieOf core) e.pa e.n e.stamp) && !owes s core)

/-- Whether the n-th outstanding entry of a core, a store to a cacheable byte of this device, may become visible to its hearth before it
performs at its home (R244; spec/16 R357): what comes before it lets it, and no other such store shares a piece with it. -/
def canShow (s : State) (core n : Nat) : Bool :=
  match (getCore s core).acc[n]? with
  | none => false
  | some e =>
    e.kind == .store && e.mt == 0 && !isRemote s e.pa && cacheable e.pa && !e.shown && orderOk s core n e
      && (allShown s).all (fun x => sourceOf x == sourceOf (core, e) || !meetsPiece x.2 e.mt e.pa e.n)

/-- What a core owes once a store of its own is seen by others or performs: the stores that it went ahead of and that core scope orders before
it (R254, R256). -/
def oweFor (s : State) (core : Nat) (e : Acc) : State :=
  match overtakenOwn s core e with
  | [] => s
  | l => modCore s core fun c => { c with debts := c.debts ++ l }

/-- A store becomes visible within its hearth (R244). -/
def showStore (s : State) (core n : Nat) : State :=
  match (getCore s core).acc[n]? with
  | some e =>
    if canShow s core n then
      modCore (oweFor s core e) core fun c => { c with acc := modifyAt c.acc n (fun a => { a with shown := true, seen := s.tick }) }
    else s
  | none => s

/-- Whether an outstanding fence of a core holds back engine accesses of the kinds given for an operation of bundle `no` (R249), or an
outstanding acquire or DRAIN of an earlier bundle does (R247, R252). -/
def engineHeld (c : Core) (task : Option Nat) (kinds : BitVec 6) (no : Nat) : Bool :=
  c.acc.any (fun p => p.task == task && match p.kind with
    | .fence _ succ _ => p.no ≤ no && (succ &&& kinds != 0)
    | .drain => p.no < no
    | k => p.no < no && (p.acq.isSome || holdsLater k))

/-- What an engine of a core reads from for an operation of bundle `no`: a domain `FENCE` or acquire of an earlier bundle that has still to
perform drops the die's copies of other devices' lines first (spec/10 R237). -/
def freshFor (s : State) (core : Nat) (task : Option Nat) (no : Nat) : State :=
  if (getCore s core).acc.any (fun p => p.task == task && decide (p.no < no) && (match p.kind with | .fence _ _ sc => sc == 4 | _ => false)) then
    dropCopies s (dieOf core)
  else s

/-- A load's piece arrived: its bytes enter the buffer of its flight entry, or it completed in error (R261). For a gather the failed
element alone is all ones (R264). -/
def fillFlight (c : Core) (id off : Nat) (r : Except Nat (List Byte)) : Core :=
  let f := fun (x : Flight) =>
    match x.val with
    | .load i left d buf bad =>
      if i ≠ id then x else
      match r with
      | .ok b =>
        let m := BitVec.ofNat 6144 (onesAt (8 * off) (8 * b.length))
        { x with val := .load i (left - 1) d (blend buf m (BitVec.ofNat 6144 (natOfBytes b <<< (8 * off)))) bad }
      | .error _ =>
        match d with
        | .gather _ size _ =>
          { x with val := .load i (left - 1) d buf (bad ||| BitVec.ofNat 6144 (onesAt (8 * (off / size * size)) (8 * size))) }
        | _ => { x with val := .load i (left - 1) d buf (BitVec.allOnes 6144) }
    | _ => x
  { c with flight := c.flight.map f, fresh := c.fresh.map f }

/-- A core without its n-th outstanding entry. -/
def dropAcc (c : Core) (n : Nat) : Core := { c with acc := c.acc.eraseIdx n }

/-- What the cores still owe. -/
def settleDebts (s : State) : State :=
  if s.cores.all (fun x => x.2.debts.isEmpty) then s
  else { s with cores := tabMap s.cores (fun _ c => { c with debts := c.debts.filter (stillOut s) }) }

end Sys2Proof.Machine
end

