-- ==== Sys2Proof/Machine/Flags.lean ====
section
/-! DEFINITION. Every status a result leaves beside itself: predicate pairs, mask pairs, carries and borrows, LDERR and the tile status
(spec/03 R43, R47; spec/08 R170, R171, R188, R190; spec/12 R265; spec/07 R134). The machine has no other condition flags. -/

namespace Sys2Proof.Machine

open Sys2Proof

/-- The pair a compare writes: the condition and its complement (R171). -/
def pairLands (m : Nat) (c : Bool) : List Land := [.q (2 * m) c, .q (2 * m + 1) (!c)]

/-- The pair a carry is written to, named by its even register (R170). -/
def carryLands (g : Nat) (c : Bool) : List Land := [.q g c, .q (g + 1) (!c)]

/-- The exact sum of ADDC (R170). -/
def addCarry (a b : W64) (c : Bool) : Nat := a.toNat + b.toNat + c.toNat

/-- What SUBB subtracts (R170). -/
def subBorrow (b : W64) (c : Bool) : Nat := b.toNat + c.toNat

/-- Mask bits of the bytes of the elements of `sz` bytes for which `p` holds, among the first `n`. -/
def byteMask (sz n : Nat) (p : Nat → Bool) : Nat := elemMask sz ((List.range n).filter p)

/-- A mask pair written at the bytes of the enabled elements: `c` at the first mask, its complement at the second (R188, R190). -/
def maskPairLands (even sz n : Nat) (enabled c : Nat → Bool) : List Land :=
  let m := BitVec.ofNat 128 (byteMask sz n enabled)
  let v := BitVec.ofNat 128 (byteMask sz n (fun e => enabled e && c e))
  [.k even m v, .k (even + 1) m (m &&& ~~~v)]

/-- The bits of a class (R191). -/
def classBit (f : FFmt) (x : Nat) : Nat :=
  match decodeF f x with
  | .nan => 0
  | .inf true => 1
  | .inf false => 8
  | .zero true => 4
  | .zero false => 5
  | .fin neg _ _ _ =>
    let sub := x / 2 ^ f.m % 2 ^ f.e == 0
    if neg then (if sub then 3 else 2) else (if sub then 6 else 7)

end Sys2Proof.Machine
end

