-- ==== Sys2Proof/Machine/Operands.lean ====
section
/-! DEFINITION. The operand forms of the slots (spec/03 R46-R50; spec/08 R165-R180): scalar sources and destinations, vector registers
through the bank window, element types, widths and masks, and what a copy into another file writes. -/

namespace Sys2Proof.Machine

open Sys2Proof

/-! ## Scalar operands -/

/-- A register of the scalar file of a slot: x for unit 0, y for unit 1 (R165); also the base files of L0 and L1 and the list files
of C0 and C1, whose even units read x. -/
def seeS (s : State) (y : Bool) (r : BitVec 5) : W64 := if y then seeY s (me s) r.toNat else seeX s (me s) r.toNat

/-- Whether a unit works on the y file: S1, L1, C1. -/
def isY (u : BitVec 4) : Bool := u.getLsbD 0

/-- A write to a scalar register. -/
def landS (y : Bool) (r : BitVec 5) (v : W64) : Land := if y then .y r.toNat v else .x r.toNat v

/-! ## Vector operands -/

/-- The number of resident banks of every V file (spec/04 R73). -/
def bankCount (c : Core) : Nat := c.sys.bankHi.toNat - c.sys.bankLo.toNat + 1

/-- The physical bank of a logical bank (R73). -/
def physBank (c : Core) (logical : Nat) : Nat := c.sys.bankLo.toNat + logical % bankCount c

/-- The window of a V file (R73). -/
def windowOf (c : Core) (f : Nat) : Nat := (tabGet c.sys.window f 0).toNat

/-- The bank a V file's registers name now: 64 × file + physical bank. -/
def bankKey (c : Core) (f : Nat) : Nat := f * 64 + physBank c (windowOf c f) % 64

/-- The slot of a vector register of a file, bound at issue (spec/04 R76). -/
def vSlot (c : Core) (f : Nat) (r : Nat) : Nat := bankKey c f * 32 + r

/-- A vector register of a file at issue. -/
def seeVR (s : State) (f : Nat) (r : BitVec 5) : W1024 := seeV s (me s) (vSlot (me s) f r.toNat)

/-- The state with the bundle held back for a cause that pauses the VCC (spec/02 R36). -/
def holdFor (s : State) (h : Hold) : State := modMe s fun c => { c with hold := h, mark := .held }

/-- Whether the current bank of a V file still holds a pre-empted task's state (spec/13 R304). -/
def bankForeign (s : State) (c : Core) (key : Nat) : Bool :=
  match tabGet c.bankOwner key none with
  | some u => (c.task != some u) && isSuspended s u
  | none => false

/-- The effect of an operation that binds registers of V files: a bank that holds a victim's state is claimed first. -/
def needBanks (s : State) (files : List Nat) (k : State → Out) : Out :=
  let c := me s
  match files.find? (fun f => bankForeign s c (bankKey c f)) with
  | some f => .next (holdFor s (.claimBank (bankKey c f)))
  | none => k s

/-- The type code of a V file in FMT (spec/05 R92). -/
def vCode (c : Core) (f : Nat) : Nat := (c.sys.fmt.toNat / 2 ^ (4 * f)) % 16

/-- The width in bits of a w field (R47). -/
def vBits (w : BitVec 2) : Nat := 256 * 2 ^ w.toNat

/-- The rounding mode of FMT. -/
def rmOf (fmt : W32) : BitVec 2 := fmt.extractLsb' 23 2
/-- SAT of FMT. -/
def satOf (fmt : W32) : Bool := fmt.getLsbD 25

/-- Whether the element at byte `b` is enabled by k(G) (R45). -/
def enabledAt (s : State) (g : BitVec 4) (b : Nat) : Bool := (seeK s (me s) g.toNat).getLsbD b

/-- An unsupported element type: TCAUSE 0x09 with the code in TAUX[35:32] (spec/05 R93). -/
def typeTrap (s : State) (u : BitVec 4) (code : Nat) : Out := .next (slotTrap s u.toNat 0x09 0 (BitVec.ofNat 32 code))

/-- A set of element types, as R179 names them. -/
structure Types where
  float : Bool := false
  sint : Bool := false
  uint : Bool := false
  fp8 : Bool := false
  deriving DecidableEq, Repr

/-- Whether a type belongs to a set. -/
def Types.has (t : Types) : ETy → Bool
  | .flt f => if f.e = 8 ∨ f.m = 10 then t.float else t.fp8
  | .int _ sg => if sg then t.sint else t.uint

/-- The file of a V unit. -/
def vFile (u : BitVec 4) : Nat := u.toNat - 2

/-- A V operation: its type is checked whatever the mask, its banks are bound, and then it has its effect (R179, R180). -/
def vOp (u : BitVec 4) (extra : List Nat) (ok : ETy → Bool) (s : State) (k : ETy → State → State) : Out :=
  let code := vCode (me s) (vFile u)
  match etyOf code with
  | none => typeTrap s u code
  | some t => if ok t then needBanks s (vFile u :: extra) (fun s => .next (k t s)) else typeTrap s u code

/-- The elements of a result written to a vector register: those of size `sz` bytes for which `en` holds, among `n`. -/
def elemLand (slot sz n : Nat) (en : Nat → Bool) (val : Nat → Nat) : Land :=
  .v slot (BitVec.ofNat 1024 (elemMask (8 * sz) ((List.range n).filter en))) (BitVec.ofNat 1024 (packElems (8 * sz) ((List.range n).map val)))

/-! ## Copies into another file (R50) -/

/-- The write of a copy into the register of a file: `bits` of `v` from bit 0. A scalar takes 64 bits; a vector register the bits
`mask` names; a w register all 1,024 bits that `wmask` names. -/
def copyLand (s : State) (file : Nat) (d : BitVec 5) (mask wmask v : W1024) : Land :=
  match file with
  | 0 => .x d.toNat (v.extractLsb' 0 64)
  | 1 => .y d.toNat (v.extractLsb' 0 64)
  | 5 => .w d.toNat wmask v
  | f => .v (vSlot (me s) (f - 2) d.toNat) mask v

/-- The V files a copy's destination binds. -/
def copyBanks (file : Nat) : List Nat := if 2 ≤ file ∧ file ≤ 4 then [file - 2] else []

end Sys2Proof.Machine
end

