-- ==== Sys2Proof/Machine/Scalar.lean ====
section
/-! DEFINITION. The S-slot operations (spec/08 R165-R177; `GUARD` spec/06 R130). -/

namespace Sys2Proof.Machine

open Sys2Proof

/-! ## Values -/

/-- Bits [127:64] of a signed product. -/
def mulHigh (a b : W64) : W64 := (a.signExtend 128 * b.signExtend 128).extractLsb' 64 64
/-- Bits [127:64] of an unsigned product. -/
def mulHighU (a b : W64) : W64 := (a.setWidth 128 * b.setWidth 128).extractLsb' 64 64
/-- The signed quotient (R104, R166). -/
def divS (a b : W64) : W64 := if b = 0 then BitVec.allOnes 64 else a.sdiv b
/-- The unsigned quotient. -/
def divU (a b : W64) : W64 := if b = 0 then BitVec.allOnes 64 else a.udiv b
/-- The signed remainder. -/
def remS (a b : W64) : W64 := if b = 0 then a else a.srem b
/-- The unsigned remainder. -/
def remU (a b : W64) : W64 := if b = 0 then a else a.umod b
/-- The low six bits of a count (R104). -/
def count6 (b : W64) : Nat := b.toNat % 64
/-- Leading zero bits of a number of `w` bits. -/
def clzNat (w x : Nat) : Nat := if x = 0 then w else w - 1 - Nat.log2 x
/-- Trailing zero bits, at most the fuel. -/
def ctzNat (x : Nat) : Nat → Nat
  | 0 => 0
  | n + 1 => if x % 2 = 1 then 0 else 1 + ctzNat (x / 2) n
/-- One bits among the low `n` bits. -/
def popNat (x : Nat) : Nat → Nat
  | 0 => 0
  | n + 1 => x % 2 + popNat (x / 2) n
/-- The width a size code of SEXT and ZEXT names (R167). -/
def sizeCode (b : BitVec 5) : Nat := 8 * 2 ^ b.toNat
/-- The low `n` bits with a[n − 1] filled above. -/
def sextLow (n : Nat) (a : W64) : W64 := BitVec.ofInt 64 (toInt n a.toNat)
/-- The low `n` bits with zeros above. -/
def zextLow (n : Nat) (a : W64) : W64 := BitVec.ofNat 64 (a.toNat % 2 ^ n)
/-- The immediate of an S-I operation, sign-extended (R168). -/
def imm7 (i : BitVec 7) : W64 := i.signExtend 64

/-! ## Forms -/

/-- d := f(a, b). -/
def sBinary (o : SROp) (bound : Nat) (f : W64 → W64 → W64) (s : State) : Out :=
  guarded s o.g fun s => emit1 s bound (landS (isY o.u) o.d (f (seeS s (isY o.u) o.a) (seeS s (isY o.u) o.b)))
/-- d := f(a). -/
def sUnary (o : SROp) (f : W64 → W64) (s : State) : Out :=
  guarded s o.g fun s => emit1 s 1 (landS (isY o.u) o.d (f (seeS s (isY o.u) o.a)))
/-- d := f(a, imm). -/
def sImm (o : SIOp) (bound : Nat) (f : W64 → W64 → W64) (s : State) : Out :=
  guarded s o.g fun s => emit1 s bound (landS (isY o.u) o.d (f (seeS s (isY o.u) o.a) (imm7 o.imm)))
/-- A compare of two registers (R171). -/
def sCompare (o : SROp) (p : W64 → W64 → Bool) (s : State) : Out :=
  guarded s o.g fun s => emit s 1 (pairLands o.d.toNat (p (seeS s (isY o.u) o.a) (seeS s (isY o.u) o.b)))
/-- A compare with an immediate (R168). -/
def sCompareI (o : SIOp) (p : W64 → W64 → Bool) (s : State) : Out :=
  guarded s o.g fun s => emit s 1 (pairLands o.d.toNat (p (seeS s (isY o.u) o.a) (imm7 o.imm)))
/-- A predicate operation (R172). -/
def sPred (o : SROp) (p : Bool → Bool → Bool) (s : State) : Out :=
  guarded s o.g fun s => emit s 1 (pairLands o.d.toNat (p (seeQ s (me s) o.a.toNat) (seeQ s (me s) o.b.toNat)))

/-- A field of a stride set as GGET returns it (R173). -/
def strideGet (g : Stride) (f : Nat) : W64 :=
  match f with
  | 0 => g.base.setWidth 64
  | 1 => g.str0.signExtend 64
  | 2 => g.str1.signExtend 64
  | 3 => g.ext0.setWidth 64
  | _ => g.ext1.setWidth 64

/-- A field of a copy set as HGET returns it (R174). -/
def copyGet (h : CopySet) (f : Nat) : W64 :=
  match f with
  | 0 => h.src.setWidth 64
  | 1 => h.dst.setWidth 64
  | 2 => h.len.setWidth 64
  | 3 => h.sstr.signExtend 64
  | 4 => h.dstr.signExtend 64
  | 5 => h.rows.setWidth 64
  | 6 => h.type.setWidth 64
  | 7 => h.dev.setWidth 64
  | _ => h.group.setWidth 64

/-- A list with token n appended (R175). -/
def tokAppend (a : W64) (n : Nat) : W64 := BitVec.ofNat 64 (a.toNat % 2 ^ 14 * 128 + (if n = 0 then 0 else 64 + n))

/-! ## The meanings, in the order of the opcode table -/

/-- ADD (R166). -/
def execAdd (o : SROp) (s : State) : Out := sBinary o 1 (fun a b => a + b) s
/-- SUB (R166). -/
def execSub (o : SROp) (s : State) : Out := sBinary o 1 (fun a b => a - b) s
/-- MUL (R166). -/
def execMul (o : SROp) (s : State) : Out := sBinary o 3 (fun a b => a * b) s
/-- MULH (R166). -/
def execMulh (o : SROp) (s : State) : Out := sBinary o 3 mulHigh s
/-- MULHU (R166). -/
def execMulhu (o : SROp) (s : State) : Out := sBinary o 3 mulHighU s
/-- DIV (R166). -/
def execDiv (o : SROp) (s : State) : Out := sBinary o 20 divS s
/-- DIVU (R166). -/
def execDivu (o : SROp) (s : State) : Out := sBinary o 20 divU s
/-- REM (R166). -/
def execRem (o : SROp) (s : State) : Out := sBinary o 20 remS s
/-- REMU (R166). -/
def execRemu (o : SROp) (s : State) : Out := sBinary o 20 remU s
/-- AND (R166). -/
def execAnd (o : SROp) (s : State) : Out := sBinary o 1 (fun a b => a &&& b) s
/-- OR (R166). -/
def execOr (o : SROp) (s : State) : Out := sBinary o 1 (fun a b => a ||| b) s
/-- XOR (R166). -/
def execXor (o : SROp) (s : State) : Out := sBinary o 1 (fun a b => a ^^^ b) s
/-- ANDN (R166). -/
def execAndn (o : SROp) (s : State) : Out := sBinary o 1 (fun a b => a &&& ~~~b) s
/-- SHL (R166). -/
def execShl (o : SROp) (s : State) : Out := sBinary o 1 (fun a b => a <<< count6 b) s
/-- SHR (R166). -/
def execShr (o : SROp) (s : State) : Out := sBinary o 1 (fun a b => a >>> count6 b) s
/-- SAR (R166). -/
def execSar (o : SROp) (s : State) : Out := sBinary o 1 (fun a b => a.sshiftRight (count6 b)) s
/-- ROR (R166). -/
def execRor (o : SROp) (s : State) : Out := sBinary o 1 (fun a b => a.rotateRight (count6 b)) s
/-- MIN (R166). -/
def execMin (o : SROp) (s : State) : Out := sBinary o 1 (fun a b => if a.slt b then a else b) s
/-- MAX (R166). -/
def execMax (o : SROp) (s : State) : Out := sBinary o 1 (fun a b => if a.slt b then b else a) s
/-- MINU (R166). -/
def execMinu (o : SROp) (s : State) : Out := sBinary o 1 (fun a b => if a.ult b then a else b) s
/-- MAXU (R166). -/
def execMaxu (o : SROp) (s : State) : Out := sBinary o 1 (fun a b => if a.ult b then b else a) s
/-- CLZ (R166). -/
def execClz (o : SROp) (s : State) : Out := sUnary o (fun a => BitVec.ofNat 64 (clzNat 64 a.toNat)) s
/-- CTZ (R166). -/
def execCtz (o : SROp) (s : State) : Out := sUnary o (fun a => BitVec.ofNat 64 (ctzNat a.toNat 64)) s
/-- POPC (R166). -/
def execPopc (o : SROp) (s : State) : Out := sUnary o (fun a => BitVec.ofNat 64 (popNat a.toNat 64)) s
/-- SEXT (R167). -/
def execSext (o : SROp) (s : State) : Out := sUnary o (sextLow (sizeCode o.b)) s
/-- ZEXT (R167). -/
def execZext (o : SROp) (s : State) : Out := sUnary o (zextLow (sizeCode o.b)) s
/-- ADDC (R170): executes whatever the predicates hold. -/
def execAddc (o : SROp) (s : State) : Out :=
  let t := addCarry (seeS s (isY o.u) o.a) (seeS s (isY o.u) o.b) (seeQ s (me s) o.g.toNat)
  .next (emit s 1 (landS (isY o.u) o.d (BitVec.ofNat 64 t) :: carryLands o.g.toNat (decide (2 ^ 64 ≤ t))))
/-- SUBB (R170). -/
def execSubb (o : SROp) (s : State) : Out :=
  let a := seeS s (isY o.u) o.a
  let t := subBorrow (seeS s (isY o.u) o.b) (seeQ s (me s) o.g.toNat)
  .next (emit s 1 (landS (isY o.u) o.d (a - BitVec.ofNat 64 t) :: carryLands o.g.toNat (decide (a.toNat < t))))
/-- CMPEQ (R171). -/
def execCmpeq (o : SROp) (s : State) : Out := sCompare o (fun a b => a == b) s
/-- CMPLT (R171). -/
def execCmplt (o : SROp) (s : State) : Out := sCompare o (fun a b => a.slt b) s
/-- CMPLTU (R171). -/
def execCmpltu (o : SROp) (s : State) : Out := sCompare o (fun a b => a.ult b) s
/-- CMPLE (R171). -/
def execCmple (o : SROp) (s : State) : Out := sCompare o (fun a b => a.sle b) s
/-- CMPLEU (R171). -/
def execCmpleu (o : SROp) (s : State) : Out := sCompare o (fun a b => a.ule b) s
/-- PAND (R172). -/
def execPand (o : SROp) (s : State) : Out := sPred o (fun a b => a && b) s
/-- POR (R172). -/
def execPor (o : SROp) (s : State) : Out := sPred o (fun a b => a || b) s
/-- PXOR (R172). -/
def execPxor (o : SROp) (s : State) : Out := sPred o (fun a b => a != b) s
/-- MOVX (R50, R177): all 64 bits, the other bits of a 1,024-bit register zero. -/
def execMovx (o : SROp) (s : State) : Out :=
  if guardOn s o.g then
    needBanks s (copyBanks o.b.toNat) fun s =>
      .next (emit1 s 2 (copyLand s o.b.toNat o.d (BitVec.allOnes 1024) (BitVec.allOnes 1024) ((seeS s (isY o.u) o.a).setWidth 1024)))
  else .next s
/-- MOVP (R173). -/
def execMovp (o : SROp) (s : State) : Out :=
  guarded s o.g fun s => emit1 s 1 (.p (o.d.toNat % 8) (seeS s (isY o.u) o.a))
/-- MOVFP (R173). -/
def execMovfp (o : SROp) (s : State) : Out :=
  guarded s o.g fun s => emit1 s 1 (landS (isY o.u) o.d (seeP s (me s) (o.a.toNat % 8)))
/-- GSET (R173). -/
def execGset (o : SROp) (s : State) : Out :=
  guarded s o.g fun s => emit1 s 1 (.g (o.d.toNat % 8) o.b.toNat (seeS s (isY o.u) o.a))
/-- GGET (R173). -/
def execGget (o : SROp) (s : State) : Out :=
  guarded s o.g fun s => emit1 s 1 (landS (isY o.u) o.d (strideGet (seeG s (me s) (o.a.toNat % 8)) o.b.toNat))
/-- HSET (R174). -/
def execHset (o : SROp) (s : State) : Out :=
  guarded s o.g fun s => emit1 s 1 (.h (o.d.toNat % 8) o.b.toNat (seeS s (isY o.u) o.a))
/-- HGET (R174). -/
def execHget (o : SROp) (s : State) : Out :=
  guarded s o.g fun s => emit1 s 1 (landS (isY o.u) o.d (copyGet (seeH s (me s) (o.a.toNat % 8)) o.b.toNat))
/-- GUARD (spec/06 R130): traps when x[a] and y[b] differ. -/
def execGuard (o : SROp) (s : State) : Out :=
  guarded s o.g fun s =>
    let a := seeX s (me s) o.a.toNat
    let b := seeY s (me s) o.b.toNat
    if a = b then s else slotTrap s 0 0x07 (a ^^^ b) 0
/-- RDVC (R176): the VCC in the vc of its own bundle; a bundle that blocked was issued in the vc of its first attempt (R433). -/
def execRdvc (o : SROp) (s : State) : Out :=
  guarded s o.g fun s =>
    let v := match (me s).blocked with | some b => b.vc | none => vccOf s s.cur
    emit1 s 1 (landS (isY o.u) o.d (BitVec.ofNat 64 v))

/-- ADDI (R168). -/
def execAddi (o : SIOp) (s : State) : Out := sImm o 1 (fun a b => a + b) s
/-- ANDI (R168). -/
def execAndi (o : SIOp) (s : State) : Out := sImm o 1 (fun a b => a &&& b) s
/-- ORI (R168). -/
def execOri (o : SIOp) (s : State) : Out := sImm o 1 (fun a b => a ||| b) s
/-- XORI (R168). -/
def execXori (o : SIOp) (s : State) : Out := sImm o 1 (fun a b => a ^^^ b) s
/-- SHLI (R168). -/
def execShli (o : SIOp) (s : State) : Out := sImm o 1 (fun a b => a <<< count6 b) s
/-- SHRI (R168). -/
def execShri (o : SIOp) (s : State) : Out := sImm o 1 (fun a b => a >>> count6 b) s
/-- SARI (R168). -/
def execSari (o : SIOp) (s : State) : Out := sImm o 1 (fun a b => a.sshiftRight (count6 b)) s
/-- RORI (R168). -/
def execRori (o : SIOp) (s : State) : Out := sImm o 1 (fun a b => a.rotateRight (count6 b)) s
/-- MULI (R168). -/
def execMuli (o : SIOp) (s : State) : Out := sImm o 3 (fun a b => a * b) s
/-- CMPEQI (R168). -/
def execCmpeqi (o : SIOp) (s : State) : Out := sCompareI o (fun a b => a == b) s
/-- CMPLTI (R168). -/
def execCmplti (o : SIOp) (s : State) : Out := sCompareI o (fun a b => a.slt b) s
/-- CMPLTUI (R168). -/
def execCmpltui (o : SIOp) (s : State) : Out := sCompareI o (fun a b => a.ult b) s
/-- CMPLEI (R168). -/
def execCmplei (o : SIOp) (s : State) : Out := sCompareI o (fun a b => a.sle b) s
/-- CMPLEUI (R168). -/
def execCmpleui (o : SIOp) (s : State) : Out := sCompareI o (fun a b => a.ule b) s
/-- TOKL (R175). -/
def execTokl (o : SIOp) (s : State) : Out :=
  guarded s o.g fun s => emit1 s 1 (landS (isY o.u) o.d (tokAppend (seeS s (isY o.u) o.a) (o.imm.toNat % 64)))
/-- MOVI (R169). -/
def execMovi (o : SKOp) (s : State) : Out :=
  guarded s o.g fun s => emit1 s 1 (landS (isY o.u) o.d (o.imm.signExtend 64))
/-- MOVSH (R169): reads its own destination at issue. -/
def execMovsh (o : SKOp) (s : State) : Out :=
  guarded s o.g fun s =>
    emit1 s 1 (landS (isY o.u) o.d (BitVec.ofNat 64 ((seeS s (isY o.u) o.d).toNat * 2 ^ 15 + o.imm.toNat)))

end Sys2Proof.Machine
end

