-- ==== Sys2Proof/Machine/Vector.lean ====
section
/-! DEFINITION. The V-slot operations (spec/08 R178-R202). -/

namespace Sys2Proof.Machine

open Sys2Proof

/-! ## Element arithmetic -/

/-- Arithmetic on elements: exact values rounded once for a float type, wrapped integers otherwise (R182). -/
def vArith (t : ETy) (fmt : W32) (fl : List Ex → Ex) (ig : List Int → Int) (xs : List Nat) : Nat :=
  match t with
  | .flt f => roundF f (rmOf fmt) (satOf fmt) (fl (xs.map (decodeF f)))
  | .int b sg => ofInt b (ig (xs.map (intVal b sg)))

/-- The exact a × b + c. -/
def exFma (rm : BitVec 2) (a b c : Ex) : Ex := exSum [exMul a b, c] rm

/-- The smaller or larger of two elements (R183). -/
def vPick (t : ETy) (less : Bool) (a b : Nat) : Nat :=
  match t with
  | .flt f =>
    if isNaN f a ∨ isNaN f b then nanOf f
    else if decide (orderKey f a < orderKey f b) = less then a else if orderKey f a = orderKey f b then a else b
  | .int w sg => if decide (intVal w sg a < intVal w sg b) = less then a else if intVal w sg a = intVal w sg b then a else b

/-- |a| (R183). -/
def vAbs (t : ETy) (a : Nat) : Nat :=
  match t with
  | .flt f => if isNaN f a then nanOf f else a % 2 ^ (f.e + f.m)
  | .int w sg => if sg then ofInt w (intVal w true a).natAbs else a

/-- −a (R183). -/
def vNeg (t : ETy) (a : Nat) : Nat :=
  match t with
  | .flt f => if isNaN f a then nanOf f else a ^^^ 2 ^ (f.e + f.m)
  | .int w _ => ofInt w (-(a : Int))

/-- The count of a vector shift (R104, R186). -/
def vCount (w c : Nat) : Nat := c % w

/-- A shift of an element: 0 left, 1 right with zeros, 2 right with the sign (R186). -/
def vShift (w kind x c : Nat) : Nat :=
  match kind with
  | 0 => x * 2 ^ c % 2 ^ w
  | 1 => x / 2 ^ c
  | _ => ofInt w (toInt w x / (2 ^ c : Nat))

/-! ## Forms

`a`, `b` and `d` of an element function are the element's bits in the three registers, read at issue. -/

/-- Number of elements of `sz` bytes in a width field. -/
def vCountOf (w : BitVec 2) (sz : Nat) : Nat := vBits w / (8 * sz)

/-- A vector register of the slot's file, as a number. -/
def vReg (o : VOp) (s : State) (r : BitVec 5) : Nat := (seeVR s (vFile o.u) r).toNat

/-- The slot of the destination register. -/
def vDest (o : VOp) (s : State) : Nat := vSlot (me s) (vFile o.u) o.d.toNat

/-- d[e] := f(a[e], b[e], d[e]) for every enabled element. -/
def vMap (o : VOp) (bound : ETy → Nat) (ok : ETy → Bool) (f : ETy → W32 → Nat → Nat → Nat → Nat) (s : State) : Out :=
  vOp o.u [] ok s fun t s =>
    let w := etyBits t
    let n := vBits o.w / w
    let a := vReg o s o.a
    let b := vReg o s o.b
    let d := vReg o s o.d
    emit1 s (bound t) (elemLand (vDest o s) (w / 8) n (fun e => enabledAt s o.g (e * (w / 8)))
      (fun e => f t (me s).sys.fmt (elemAt a w e) (elemAt b w e) (elemAt d w e)))

/-- The types of the plain arithmetic. -/
def arithTypes : Types := { float := true, sint := true, uint := true }
/-- Integer types. -/
def intTypes : Types := { sint := true, uint := true }
/-- Every type. -/
def allTypes : Types := { float := true, sint := true, uint := true, fp8 := true }
/-- Float types. -/
def floatTypes : Types := { float := true }

/-- Bound 4 for float arithmetic, 2 for integers (spec/03 R54). -/
def arithBound (t : ETy) : Nat := match t with | .flt _ => 4 | .int _ _ => 2

/-- An arithmetic operation on a, b and d (R182). -/
def vFused (o : VOp) (fl : BitVec 2 → Ex → Ex → Ex → Ex) (ig : Int → Int → Int → Int) (s : State) : Out :=
  vMap o arithBound arithTypes.has (fun t fmt a b d =>
    match t with
    | .flt f => roundF f (rmOf fmt) (satOf fmt) (fl (rmOf fmt) (decodeF f a) (decodeF f b) (decodeF f d))
    | .int w sg => ofInt w (ig (intVal w sg a) (intVal w sg b) (intVal w sg d))) s

/-- A compare: the mask pair of the enabled elements (R190). -/
def vCompare (o : VOp) (ok : ETy → Bool) (c : ETy → Nat → Nat → Bool) (s : State) : Out :=
  vOp o.u [] ok s fun t s =>
    let w := etyBits t
    let a := vReg o s o.a
    let b := vReg o s o.b
    emit s 2 (maskPairLands (2 * o.d.toNat) (w / 8) (vBits o.w / w) (fun e => enabledAt s o.g (e * (w / 8)))
      (fun e => c t (elemAt a w e) (elemAt b w e)))

/-- a ⋈ b by value for floats (NaN false), by the type's signedness for integers. -/
def vRel (fl : Int → Int → Bool) (t : ETy) (a b : Nat) : Bool :=
  match t with
  | .flt f => !isNaN f a && !isNaN f b && fl (valueKey f a) (valueKey f b)
  | .int w sg => fl (intVal w sg a) (intVal w sg b)

/-- A shift by a count per element, or by the b field (R186). -/
def vShiftOp (o : VOp) (kind : Nat) (imm : Bool) (s : State) : Out :=
  vMap o (fun _ => 2) intTypes.has (fun t _ a b _ => vShift (etyBits t) kind a (vCount (etyBits t) (if imm then o.b.toNat else b))) s

/-- A carry chain (R188): `f a b c` gives the result and the carry out. -/
def vCarry (o : VOp) (f : Nat → Nat → Nat → Nat → Nat × Bool) (s : State) : Out :=
  vOp o.u [] intTypes.has s fun t s =>
    let w := etyBits t
    let sz := w / 8
    let n := vBits o.w / w
    let a := vReg o s o.a
    let b := vReg o s o.b
    let r := fun e => f w (elemAt a w e) (elemAt b w e) (if enabledAt s o.g (e * sz) then 1 else 0)
    emit s 2 (elemLand (vDest o s) sz n (fun _ => true) (fun e => (r e).1)
      :: maskPairLands o.g.toNat sz n (fun _ => true) (fun e => (r e).2))

/-! ## Reductions (R195) -/

/-- One level of the pairwise tree. -/
def treeLevel (comb : Nat → Nat → Nat) : List (Option Nat) → List (Option Nat)
  | some x :: some y :: r => some (comb x y) :: treeLevel comb r
  | some x :: none :: r => some x :: treeLevel comb r
  | none :: y :: r => y :: treeLevel comb r
  | l => l

/-- The root of the pairwise tree over a list of 2^n leaves. -/
def treeRoot (comb : Nat → Nat → Nat) : Nat → List (Option Nat) → Option Nat
  | 0, l => l.head?.join
  | n + 1, l => treeRoot comb n (treeLevel comb l)

/-- A leaf or a combination by addition. -/
def vSum2 (t : ETy) (fmt : W32) (a b : Nat) : Nat := vArith t fmt (fun l => exSum l (rmOf fmt)) (fun l => l.sum) [a, b]

/-- An element as a leaf: rounded into its own type, which only makes a NaN canonical. -/
def vLeaf (t : ETy) (fmt : W32) (a : Nat) : Nat :=
  match t with
  | .flt f => roundF f (rmOf fmt) (satOf fmt) (decodeF f a)
  | .int _ _ => a

/-- The value of an empty reduction: 0 sum, 1 maximum, 2 minimum. -/
def emptyRoot (t : ETy) (fmt : W32) (kind : Nat) : Nat :=
  match t with
  | .flt f =>
    match kind with
    | 0 => signBit f (rmOf fmt == 3)
    | 1 => signBit f true + (2 ^ f.e - 1) * 2 ^ f.m
    | _ => (2 ^ f.e - 1) * 2 ^ f.m
  | .int w sg =>
    match kind with
    | 0 => 0
    | 1 => ofInt w (intMin w sg)
    | _ => ofInt w (intMax w sg)

/-- A reduction: the root in element 0, the other elements within the width zero. -/
def vReduce (o : VOp) (kind : Nat) (comb : ETy → W32 → Nat → Nat → Nat) (s : State) : Out :=
  vOp o.u [] arithTypes.has s fun t s =>
    let w := etyBits t
    let n := vBits o.w / w
    let a := vReg o s o.a
    let fmt := (me s).sys.fmt
    let leaves := (List.range n).map (fun e => if enabledAt s o.g (e * (w / 8)) then some (vLeaf t fmt (elemAt a w e)) else none)
    let root := (treeRoot (comb t fmt) (Nat.log2 n) leaves).getD (emptyRoot t fmt kind)
    emit1 s 6 (.v (vDest o s) (lowMask 1024 (vBits o.w)) (BitVec.ofNat 1024 (root % 2 ^ w)))

/-- The running sums of VSCAN (R196): for each element, the sum where it is enabled. -/
def scanGo (t : ETy) (fmt : W32) (en : Nat → Bool) (x : Nat → Nat) : List Nat → Option Nat → List Nat
  | [], _ => []
  | e :: r, run =>
    if en e then
      let v := match run with | none => vLeaf t fmt (x e) | some y => vSum2 t fmt y (x e)
      v :: scanGo t fmt en x r (some v)
    else 0 :: scanGo t fmt en x r run

/-! ## Mask operations (R201, R202) -/

/-- A mask operation on the mask bits of the width, where k(G) is 1. -/
def kOp (o : VOp) (f : W128 → W128 → W128) (s : State) : Out :=
  vOp o.u [] allTypes.has s fun _ s =>
    let c := me s
    let m := seeK s c o.g.toNat &&& lowMask 128 (vBits o.w / 8)
    emit1 s 2 (.k o.d.toNat m (f (seeK s c o.a.toNat) (seeK s c o.b.toNat)))

/-- A count of a mask, into bits [63:0] of a vector register, the other bits of the width zero. -/
def kCount (o : VOp) (f : Nat → Nat → Nat) (s : State) : Out :=
  vOp o.u [] allTypes.has s fun _ s =>
    let c := me s
    let n := vBits o.w / 8
    let m := (seeK s c o.a.toNat &&& seeK s c o.g.toNat &&& lowMask 128 n).toNat
    emit1 s 2 (.v (vDest o s) (lowMask 1024 (vBits o.w)) (BitVec.ofNat 1024 (f n m)))

/-! ## The meanings -/

/-- VADD (R182). -/
def execVadd (o : VOp) (s : State) : Out := vFused o (fun rm a b _ => exSum [a, b] rm) (fun a b _ => a + b) s
/-- VSUB (R182). -/
def execVsub (o : VOp) (s : State) : Out := vFused o (fun rm a b _ => exSum [a, exNeg b] rm) (fun a b _ => a - b) s
/-- VMUL (R182). -/
def execVmul (o : VOp) (s : State) : Out := vFused o (fun _ a b _ => exMul a b) (fun a b _ => a * b) s
/-- VFMA (R182). -/
def execVfma (o : VOp) (s : State) : Out := vFused o (fun rm a b d => exFma rm a b d) (fun a b d => a * b + d) s
/-- VFMS (R182). -/
def execVfms (o : VOp) (s : State) : Out := vFused o (fun rm a b d => exFma rm a b (exNeg d)) (fun a b d => a * b - d) s
/-- VFNMA (R182). -/
def execVfnma (o : VOp) (s : State) : Out := vFused o (fun rm a b d => exSum [d, exNeg (exMul a b)] rm) (fun a b d => d - a * b) s
/-- VMIN (R183). -/
def execVmin (o : VOp) (s : State) : Out := vMap o (fun _ => 2) arithTypes.has (fun t _ a b _ => vPick t true a b) s
/-- VMAX (R183). -/
def execVmax (o : VOp) (s : State) : Out := vMap o (fun _ => 2) arithTypes.has (fun t _ a b _ => vPick t false a b) s
/-- VABS (R183). -/
def execVabs (o : VOp) (s : State) : Out := vMap o (fun _ => 2) arithTypes.has (fun t _ a _ _ => vAbs t a) s
/-- VNEG (R183). -/
def execVneg (o : VOp) (s : State) : Out := vMap o (fun _ => 2) arithTypes.has (fun t _ a _ _ => vNeg t a) s
/-- VDIV (R184). -/
def execVdiv (o : VOp) (s : State) : Out :=
  vMap o (fun _ => 16) floatTypes.has (fun t fmt a b _ => vArith t fmt (fun l => exDiv (l.getD 0 .nan) (l.getD 1 .nan)) (fun _ => 0) [a, b]) s
/-- VSQRT (R184). -/
def execVsqrt (o : VOp) (s : State) : Out :=
  vMap o (fun _ => 16) floatTypes.has (fun t fmt a _ _ => vArith t fmt (fun l => exSqrt (l.getD 0 .nan)) (fun _ => 0) [a]) s
/-- VAND (R185). -/
def execVand (o : VOp) (s : State) : Out := vMap o (fun _ => 2) arithTypes.has (fun _ _ a b _ => a &&& b) s
/-- VOR (R185). -/
def execVor (o : VOp) (s : State) : Out := vMap o (fun _ => 2) arithTypes.has (fun _ _ a b _ => a ||| b) s
/-- VXOR (R185). -/
def execVxor (o : VOp) (s : State) : Out := vMap o (fun _ => 2) arithTypes.has (fun _ _ a b _ => a ^^^ b) s
/-- VANDN (R185). -/
def execVandn (o : VOp) (s : State) : Out :=
  vMap o (fun _ => 2) arithTypes.has (fun t _ a b _ => a &&& (2 ^ etyBits t - 1 - b)) s
/-- VSHL (R186). -/
def execVshl (o : VOp) (s : State) : Out := vShiftOp o 0 false s
/-- VSHR (R186). -/
def execVshr (o : VOp) (s : State) : Out := vShiftOp o 1 false s
/-- VSAR (R186). -/
def execVsar (o : VOp) (s : State) : Out := vShiftOp o 2 false s
/-- VSHLI (R186). -/
def execVshli (o : VOp) (s : State) : Out := vShiftOp o 0 true s
/-- VSHRI (R186). -/
def execVshri (o : VOp) (s : State) : Out := vShiftOp o 1 true s
/-- VSARI (R186). -/
def execVsari (o : VOp) (s : State) : Out := vShiftOp o 2 true s
/-- VMULHI (R187). -/
def execVmulhi (o : VOp) (s : State) : Out :=
  vMap o (fun _ => 2) intTypes.has (fun t _ a b _ =>
    let w := etyBits t
    ofInt w (toInt w a * toInt w b / (2 ^ w : Nat))) s
/-- VMULHIU (R187). -/
def execVmulhiu (o : VOp) (s : State) : Out := vMap o (fun _ => 2) intTypes.has (fun t _ a b _ => a * b / 2 ^ etyBits t) s
/-- VADC (R188). -/
def execVadc (o : VOp) (s : State) : Out := vCarry o (fun w a b c => ((a + b + c) % 2 ^ w, decide (2 ^ w ≤ a + b + c))) s
/-- VSBC (R188). -/
def execVsbc (o : VOp) (s : State) : Out := vCarry o (fun w a b c => (ofInt w ((a : Int) - (b + c : Nat)), decide (a < b + c))) s
/-- VMACW (R189): 32-bit lanes, each with r narrow elements of a and of b. -/
def execVmacw (o : VOp) (s : State) : Out :=
  vOp o.u [] (fun t => etyBits t == 8 && intTypes.has t || etyBits t == 16) s fun t s =>
    let w := etyBits t
    let r := 32 / w
    let n := vBits o.w / 32
    let a := vReg o s o.a
    let b := vReg o s o.b
    let d := vReg o s o.d
    let fmt := (me s).sys.fmt
    emit1 s 4 (elemLand (vDest o s) 4 n (fun e => enabledAt s o.g (4 * e)) (fun e =>
      let xs := (List.range r).map (fun j => (elemAt a w (e * r + j), elemAt b w (e * r + j)))
      match t with
      | .flt f =>
        roundF fp32 (rmOf fmt) (satOf fmt)
          (exSum (decodeF fp32 (elemAt d 32 e) :: xs.map (fun p => exMul (decodeF f p.1) (decodeF f p.2))) (rmOf fmt))
      | .int b sg => ofInt 32 ((xs.map (fun p => intVal b sg p.1 * intVal b sg p.2)).sum + elemAt d 32 e)))
/-- VCMPEQ (R190). -/
def execVcmpeq (o : VOp) (s : State) : Out := vCompare o arithTypes.has (vRel (fun a b => a == b)) s
/-- VCMPLT (R190). -/
def execVcmplt (o : VOp) (s : State) : Out := vCompare o arithTypes.has (vRel (fun a b => decide (a < b))) s
/-- VCMPLE (R190). -/
def execVcmple (o : VOp) (s : State) : Out := vCompare o arithTypes.has (vRel (fun a b => decide (a ≤ b))) s
/-- VCMPLTU (R190). -/
def execVcmpltu (o : VOp) (s : State) : Out := vCompare o intTypes.has (fun _ a b => decide (a < b)) s
/-- VCMPLEU (R190). -/
def execVcmpleu (o : VOp) (s : State) : Out := vCompare o intTypes.has (fun _ a b => decide (a ≤ b)) s
/-- VCLASS (R191). -/
def execVclass (o : VOp) (s : State) : Out :=
  vMap o (fun _ => 2) floatTypes.has (fun t _ a _ _ => match t with | .flt f => 2 ^ classBit f a | .int _ _ => 0) s
/-- VSEL (R192): unguarded, k(G) selects. -/
def execVsel (o : VOp) (s : State) : Out :=
  vOp o.u [] allTypes.has s fun t s =>
    let w := etyBits t
    let a := vReg o s o.a
    let b := vReg o s o.b
    emit1 s 2 (elemLand (vDest o s) (w / 8) (vBits o.w / w) (fun _ => true)
      (fun e => if enabledAt s o.g (e * (w / 8)) then elemAt a w e else elemAt b w e))
/-- VMOV (R192). -/
def execVmov (o : VOp) (s : State) : Out := vMap o (fun _ => 2) allTypes.has (fun _ _ a _ _ => a) s
/-- VMOVX (R50, R194): into a w register the bits beyond the width become zero. -/
def execVmovx (o : VOp) (s : State) : Out :=
  vOp o.u (copyBanks o.b.toNat) allTypes.has s fun t s =>
    let w := etyBits t
    let m := BitVec.ofNat 1024 (elemMask w ((List.range (vBits o.w / w)).filter (fun e => enabledAt s o.g (e * (w / 8)))))
    let v := seeVR s (vFile o.u) o.a
    emit1 s 2 (copyLand s o.b.toNat o.d m (m ||| ~~~lowMask 1024 (vBits o.w)) (v &&& lowMask 1024 (vBits o.w)))
/-- VBCAST (R50, R194). -/
def execVbcast (o : VOp) (s : State) : Out :=
  vOp o.u (copyBanks o.b.toNat) allTypes.has s fun t s =>
    let w := etyBits t
    let n := vBits o.w / w
    let m := BitVec.ofNat 1024 (elemMask w ((List.range n).filter (fun e => enabledAt s o.g (e * (w / 8)))))
    let x := elemAt (vReg o s o.a) w 0
    let v := BitVec.ofNat 1024 (packElems w ((List.range n).map (fun _ => x)))
    emit1 s 2 (copyLand s o.b.toNat o.d m (m ||| ~~~lowMask 1024 (vBits o.w)) v)
/-- VEXT (R50, R194): nothing is written when bit 0 of k(G) is 0. -/
def execVext (o : VOp) (s : State) : Out :=
  vOp o.u [] allTypes.has s fun t s =>
    let x := elemAt (vReg o s o.a) (etyBits t) 0
    let v : W1024 := match t with
      | .flt _ => BitVec.ofNat 1024 x
      | .int b sg => (BitVec.ofInt 64 (intVal b sg x)).setWidth 1024
    if enabledAt s o.g 0 then emit1 s 2 (copyLand s o.b.toNat o.d 0 0 v) else s
/-- VPERM (R193). -/
def execVperm (o : VOp) (s : State) : Out :=
  vOp o.u [] allTypes.has s fun t s =>
    let w := etyBits t
    let n := vBits o.w / w
    let a := vReg o s o.a
    let b := vReg o s o.b
    emit1 s 2 (elemLand (vDest o s) (w / 8) n (fun e => enabledAt s o.g (e * (w / 8))) (fun e => elemAt a w (elemAt b w e % n)))
/-- VIOTA (R193). -/
def execViota (o : VOp) (s : State) : Out :=
  vOp o.u [] arithTypes.has s fun t s =>
    let w := etyBits t
    let fmt := (me s).sys.fmt
    emit1 s 2 (elemLand (vDest o s) (w / 8) (vBits o.w / w) (fun e => enabledAt s o.g (e * (w / 8)))
      (fun e => convert (.int 64 true) t (rmOf fmt) (satOf fmt) e))
/-- VREDADD (R195). -/
def execVredadd (o : VOp) (s : State) : Out := vReduce o 0 (fun t fmt a b => vSum2 t fmt a b) s
/-- VREDMAX (R195). -/
def execVredmax (o : VOp) (s : State) : Out := vReduce o 1 (fun t _ a b => vPick t false a b) s
/-- VREDMIN (R195). -/
def execVredmin (o : VOp) (s : State) : Out := vReduce o 2 (fun t _ a b => vPick t true a b) s
/-- VCVT (R197): from T to the type of b[3:0]; the larger of the two sizes sets the mask bit. -/
def execVcvt (o : VOp) (s : State) : Out :=
  vOp o.u [] allTypes.has s fun t s =>
    let u := (etyOf (o.b.toNat % 16)).getD t
    let l := max (etyBits t) (etyBits u)
    let a := vReg o s o.a
    let fmt := (me s).sys.fmt
    emit1 s 4 (elemLand (vDest o s) (etyBits u / 8) (vBits o.w / l) (fun e => enabledAt s o.g (e * (l / 8)))
      (fun e => convert t u (rmOf fmt) (satOf fmt) (elemAt a (etyBits t) e)))
/-- VQNT (R198): byte e of d := Round(a[e] / b[e]). -/
def execVqnt (o : VOp) (s : State) : Out :=
  vOp o.u [] (fun t => ({ fp8 := true } : Types).has t) s fun t s =>
    let a := vReg o s o.a
    let b := vReg o s o.b
    let fmt := (me s).sys.fmt
    emit1 s 4 (elemLand (vDest o s) 1 (vBits o.w / 32) (fun e => enabledAt s o.g (4 * e)) (fun e =>
      match t with
      | .flt f => roundF f (rmOf fmt) (satOf fmt) (exDiv (decodeF fp32 (elemAt a 32 e)) (decodeF fp32 (elemAt b 32 e)))
      | .int _ _ => 0))
/-- VDQNT (R198): d[e] := Round(byte e of a × b[e]). -/
def execVdqnt (o : VOp) (s : State) : Out :=
  vOp o.u [] (fun t => ({ fp8 := true } : Types).has t) s fun t s =>
    let a := vReg o s o.a
    let b := vReg o s o.b
    let fmt := (me s).sys.fmt
    emit1 s 4 (elemLand (vDest o s) 4 (vBits o.w / 32) (fun e => enabledAt s o.g (4 * e)) (fun e =>
      match t with
      | .flt f => roundF fp32 (rmOf fmt) (satOf fmt) (exMul (decodeF f (elemAt a 8 e)) (decodeF fp32 (elemAt b 32 e)))
      | .int _ _ => 0))
/-- The type VPACK narrows to (R199). -/
def packType (t : ETy) : Option ETy :=
  match t with
  | .int 64 _ => some (.int 32 true)
  | .int 32 sg => some (.int 16 sg)
  | .int 16 sg => some (.int 8 sg)
  | .flt f => if f.m = 23 then some (.flt bf16) else none
  | .int _ _ => none
/-- The type VUNPK widens to (R199). -/
def unpackType (t : ETy) : Option ETy :=
  match t with
  | .int 32 _ => some (.int 64 true)
  | .int 16 sg => some (.int 32 sg)
  | .int 8 sg => some (.int 16 sg)
  | .flt f => if f = bf16 ∨ f = fp16 then some (.flt fp32) else none
  | .int _ _ => none
/-- VPACK (R199): a into the low half of the width, b into the high half; each destination element has its own mask bit. -/
def execVpack (o : VOp) (s : State) : Out :=
  vOp o.u [] (fun t => (packType t).isSome) s fun t s =>
    let w := etyBits t
    let n := vBits o.w / w
    let a := vReg o s o.a
    let b := vReg o s o.b
    let fmt := (me s).sys.fmt
    let u := (packType t).getD t
    emit1 s 4 (elemLand (vDest o s) (w / 16) (2 * n) (fun e => enabledAt s o.g (e * (w / 16)))
      (fun e => convert t u (rmOf fmt) (satOf fmt) (if e < n then elemAt a w e else elemAt b w (e - n))))
/-- VUNPK (R199): half b[0] of the width of a. -/
def execVunpk (o : VOp) (s : State) : Out :=
  vOp o.u [] (fun t => (unpackType t).isSome) s fun t s =>
    let w := etyBits t
    let n := vBits o.w / w
    let a := vReg o s o.a
    let fmt := (me s).sys.fmt
    let u := (unpackType t).getD t
    emit1 s 4 (elemLand (vDest o s) (w / 4) (n / 2) (fun e => enabledAt s o.g (e * (w / 4)))
      (fun e => convert t u (rmOf fmt) (satOf fmt) (elemAt a w (o.b.toNat % 2 * (n / 2) + e))))
/-- VCLZ (R200). -/
def execVclz (o : VOp) (s : State) : Out := vMap o (fun _ => 2) intTypes.has (fun t _ a _ _ => clzNat (etyBits t) a) s
/-- VPOPC (R200). -/
def execVpopc (o : VOp) (s : State) : Out := vMap o (fun _ => 2) intTypes.has (fun t _ a _ _ => popNat a (etyBits t)) s
/-- VSCAN (R196). -/
def execVscan (o : VOp) (s : State) : Out :=
  vOp o.u [] arithTypes.has s fun t s =>
    let w := etyBits t
    let n := vBits o.w / w
    let a := vReg o s o.a
    let en := fun e => enabledAt s o.g (e * (w / 8))
    let sums := scanGo t (me s).sys.fmt en (fun e => elemAt a w e) (List.range n) none
    emit1 s 6 (elemLand (vDest o s) (w / 8) n en (fun e => sums.getD e 0))
/-- KAND (R201). -/
def execKand (o : VOp) (s : State) : Out := kOp o (fun a b => a &&& b) s
/-- KOR (R201). -/
def execKor (o : VOp) (s : State) : Out := kOp o (fun a b => a ||| b) s
/-- KXOR (R201). -/
def execKxor (o : VOp) (s : State) : Out := kOp o (fun a b => a ^^^ b) s
/-- KMOV (R201). -/
def execKmov (o : VOp) (s : State) : Out := kOp o (fun a _ => a) s
/-- KPOPC (R202). -/
def execKpopc (o : VOp) (s : State) : Out := kCount o (fun n m => popNat m n) s
/-- KFIRST (R202). -/
def execKfirst (o : VOp) (s : State) : Out := kCount o (fun n m => if m = 0 then n else ctzNat m n) s

end Sys2Proof.Machine
end

