-- ==== Sys2Proof/Machine/Special.lean ====
section
/-! DEFINITION. The F-slot operations: special functions, random bits and copies (spec/08 R203-R206) and distribution registers
(spec/09 R208-R224). -/

namespace Sys2Proof.Machine

open Sys2Proof

/-! ## Special functions (spec/08 R203-R206) -/

/-- The float format of FT (spec/05 R92); 3 to 7 are reserved. -/
def ftOf (fmt : W32) : Option FFmt :=
  match (fmt.extractLsb' 20 3).toNat with
  | 0 => some fp32
  | 1 => some bf16
  | 2 => some fp16
  | _ => none

/-- A function of every element of w[a] (R203). -/
def fTrans (o : FOp) (fn : Fn) (s : State) : Out :=
  guarded s o.g fun s =>
    let fmt := (me s).sys.fmt
    match ftOf fmt with
    | none => slotTrap s 10 0x09 0 (BitVec.ofNat 32 (fmt.extractLsb' 20 3).toNat)
    | some f =>
      let w := 1 + f.e + f.m
      let a := (seeW s (me s) o.a.toNat).toNat
      emit1 s 14 (.w o.d.toNat (BitVec.allOnes 1024)
        (BitVec.ofNat 1024 (packElems w ((List.range (1024 / w)).map (fun e => fnRound fn f (rmOf fmt) (satOf fmt) (elemAt a w e))))))

/-- One round of Philox4x32 (R204). -/
def philoxRound (c : Nat × Nat × Nat × Nat) (k0 k1 : Nat) : Nat × Nat × Nat × Nat :=
  let p0 := 0xD2511F53 * c.1
  let p1 := 0xCD9E8D57 * c.2.2.1
  ((p1 / 2 ^ 32) ^^^ c.2.1 ^^^ k0, p1 % 2 ^ 32, (p0 / 2 ^ 32) ^^^ c.2.2.2 ^^^ k1, p0 % 2 ^ 32)

/-- `n` rounds, the key stepped after each. -/
def philoxGo : Nat → Nat × Nat × Nat × Nat → Nat → Nat → Nat × Nat × Nat × Nat
  | 0, c, _, _ => c
  | n + 1, c, k0, k1 => philoxGo n (philoxRound c k0 k1) ((k0 + 0x9E3779B9) % 2 ^ 32) ((k1 + 0xBB67AE85) % 2 ^ 32)

/-- Block j of FRAND, 128 bits. -/
def philoxBlock (ctr key : W64) (j : Nat) : Nat :=
  let c := philoxGo 10 (ctr.toNat % 2 ^ 32, ctr.toNat / 2 ^ 32, j, 0) (key.toNat % 2 ^ 32) (key.toNat / 2 ^ 32)
  packElems 32 [c.1, c.2.1, c.2.2.1, c.2.2.2]

/-- FEXP2 (R203). -/
def execFexp2 (o : FOp) (s : State) : Out := fTrans o .exp2 s
/-- FLOG2 (R203). -/
def execFlog2 (o : FOp) (s : State) : Out := fTrans o .log2 s
/-- FRCP (R203). -/
def execFrcp (o : FOp) (s : State) : Out := fTrans o .rcp s
/-- FRSQ (R203). -/
def execFrsq (o : FOp) (s : State) : Out := fTrans o .rsq s
/-- FSINPI (R203). -/
def execFsinpi (o : FOp) (s : State) : Out := fTrans o .sinpi s
/-- FCOSPI (R203). -/
def execFcospi (o : FOp) (s : State) : Out := fTrans o .cospi s
/-- FTANH (R203). -/
def execFtanh (o : FOp) (s : State) : Out := fTrans o .tanh s
/-- FSIGM (R203). -/
def execFsigm (o : FOp) (s : State) : Out := fTrans o .sigm s
/-- FERF (R203). -/
def execFerf (o : FOp) (s : State) : Out := fTrans o .erf s
/-- FRAND (R204): the counter advances for the next bundle; an MTS of RNGCTR in the same bundle lands after it and stands (R207). -/
def execFrand (o : FOp) (s : State) : Out :=
  guarded s o.g fun s =>
    let y := (me s).sys
    emit1 (emit1 s 4 (.w o.d.toNat (BitVec.allOnes 1024)
        (BitVec.ofNat 1024 (packElems 128 ((List.range 8).map (philoxBlock y.rngCtr y.rngKey))))))
      1 (.sys 0x021 (y.rngCtr + 1))
/-- FMOVX (R50, R206). -/
def execFmovx (o : FOp) (s : State) : Out :=
  if guardOn s o.g then
    needBanks s (copyBanks o.b.toNat) fun s =>
      .next (emit1 s 2 (copyLand s o.b.toNat o.d (BitVec.allOnes 1024) (BitVec.allOnes 1024) (seeW s (me s) o.a.toNat)))
  else .next s

/-! ## Distribution registers (spec/09) -/

/-- A point: value bits and mass. -/
abbrev Point := Nat × Nat

/-- The eight points of an element (R208). -/
def pointsAt (img : Nat) (e : Nat) : List Point :=
  (List.range 8).map (fun j => (elemAt img 32 (8 * e + j), elemAt img 16 (256 + 8 * e + j)))

/-- The canonical NaN of FP32. -/
def nan32 : Nat := 0x7FC00000

/-- What an element is read as before condensation: none when empty (R209). -/
def readElem (img e : Nat) : Option (List Point) :=
  let p := pointsAt img e
  let m := (p.map Prod.snd).sum
  if m = 0 then none
  else if m = 32768 then some ((p.filter (fun q => q.2 != 0)).map (fun q => (if isNaN fp32 q.1 then nan32 else q.1, q.2)))
  else some [(nan32, 32768)]

/-- The order of exact values: −∞, negatives, −0, +0, positives, +∞, NaN last (R211). -/
def exRank : Ex → Int
  | .inf true => -3
  | .fin true _ _ _ => -2
  | .zero true => -1
  | .zero false => 0
  | .fin false _ _ _ => 1
  | .inf false => 2
  | .nan => 3

/-- Whether one exact value stands strictly before another. -/
def exBefore (a b : Ex) : Bool :=
  match a, b with
  | .fin s n d e, .fin t m c g =>
    if s != t then s
    else
      let x := n * c * 2 ^ (e - g).toNat
      let y := m * d * 2 ^ (g - e).toNat
      if s then decide (y < x) else decide (x < y)
  | _, _ => decide (exRank a < exRank b)

/-- A stable insertion: the new entry after those it does not stand before. -/
def insertBy {α : Type} (before : α → α → Bool) (x : α) : List α → List α
  | [] => [x]
  | y :: r => if before x y then x :: y :: r else y :: insertBy before x r

/-- A stable sort. -/
def stableSort {α : Type} (before : α → α → Bool) (l : List α) : List α := l.foldl (fun acc x => insertBy before x acc) []

/-- Runs of equal values merged, masses added. -/
def mergeRuns : List Point → List Point
  | [] => []
  | p :: r =>
    match mergeRuns r with
    | q :: t => if p.1 = q.1 then (p.1, p.2 + q.2) :: t else p :: q :: t
    | [] => [p]

/-- The portion of a candidate at masses [lo, lo + m) in bin k of width b (R211). -/
def portion (lo m k b : Nat) : Nat := min (lo + m) ((k + 1) * b) - max lo (k * b)

/-- The representative of bin k. -/
def binValue (rm : BitVec 2) (sat : Bool) (b k : Nat) : List (Ex × Nat) → Nat → List Ex → Nat
  | [], _, acc => roundF fp32 rm sat (exSum acc.reverse rm)
  | (v, m) :: r, lo, acc =>
    let p := portion lo m k b
    binValue rm sat b k r (lo + m) (if p = 0 then acc else exMul (.fin false p b 0) v :: acc)

/-- `Condense` of candidates (value, mass) given in index order, of total mass t (R211). -/
def condense (rm : BitVec 2) (sat : Bool) (t : Nat) (c : List (Ex × Nat)) : List Point :=
  let sorted := stableSort (fun a b => exBefore a.1 b.1) c
  let r := (List.range 8).map (fun k => (binValue rm sat (t / 8) k sorted 0 [], 4096))
  mergeRuns (stableSort (fun a b => decide (orderKey fp32 a.1 < orderKey fp32 b.1)) r)

/-- `Canon(e)` (R212). -/
def canon (rm : BitVec 2) (sat : Bool) (img e : Nat) : Option (List Point) :=
  (readElem img e).map (fun p => condense rm sat 32768 (p.map (fun q => (decodeF fp32 q.1, q.2))))

/-- A point's exact value. -/
def ptEx (p : Point) : Ex := decodeF fp32 p.1

/-- The value of the point that covers a mass position. -/
def atMass : List Point → Nat → Nat
  | [], _ => nan32
  | p :: r, m => if m < p.2 then p.1 else atMass r (m - p.2)

/-- The candidates of a pairing of two populated elements (R213). -/
def pairing (rank : Bool) (op : Ex → Ex → Ex) (a b : List Point) : List (Ex × Nat) :=
  if rank then
    (List.range 8).map (fun s => (op (decodeF fp32 (atMass a (4096 * s + 2048))) (decodeF fp32 (atMass b (4096 * s + 2048))), 4096))
  else a.flatMap (fun p => b.map (fun q => (op (ptEx p) (ptEx q), p.2 * q.2)))

/-- The image that holds the elements given, empty ones all zero. -/
def imageOf (elems : List (Option (List Point))) : DImage :=
  let pts := elems.flatMap (fun p => let l := p.getD []; l ++ List.replicate (8 - l.length) ((0, 0) : Point))
  BitVec.ofNat 6144 (packElems 32 (pts.map Prod.fst) + 2 ^ 4096 * packElems 16 (pts.map Prod.snd))

/-- The write of a whole register: image and tag set. -/
def dLand (d : BitVec 5) (img : DImage) (tag : BitVec 16) : Land := .d d.toNat (BitVec.allOnes 6144) img (some tag)

/-- A D operation: guarded as a whole, with the rounding mode and SAT of its issue. -/
def dOp (o : FOp) (bound : Nat) (f : State → Core → BitVec 2 → Bool → Land) (s : State) : Out :=
  guarded s o.g fun s => emit1 s bound (f s (me s) (rmOf (me s).sys.fmt) (satOf (me s).sys.fmt))

/-- A binary operation on all elements (R213, R217). -/
def dBinary (o : FOp) (op : BitVec 2 → Ex → Ex → Ex) (s : State) : Out :=
  dOp o 28 (fun s c rm sat =>
    let a := (seeD s c o.a.toNat).toNat
    let b := (seeD s c o.b.toNat).toNat
    let ta := seeTag s c o.a.toNat
    let tb := seeTag s c o.b.toNat
    let rank := ta &&& tb != 0
    dLand o.d (imageOf ((List.range 16).map (fun e =>
      match canon rm sat a e, canon rm sat b e with
      | some p, some q => some (condense rm sat (if rank then 32768 else 2 ^ 30) (pairing rank (op rm) p q))
      | _, _ => none))) (ta ||| tb)) s

/-- The smaller or larger of two exact values; NaN if either is (R183). -/
def exPick (less : Bool) (a b : Ex) : Ex :=
  match a, b with
  | .nan, _ => .nan
  | _, .nan => .nan
  | a, b => if exBefore a b = less then a else b

/-- A map of one operand's elements. -/
def dUnary (o : FOp) (bound : Nat) (f : State → Core → BitVec 2 → Bool → Nat → List Point → List Point) (s : State) : Out :=
  dOp o bound (fun s c rm sat =>
    let a := (seeD s c o.a.toNat).toNat
    dLand o.d (imageOf ((List.range 16).map (fun e => (canon rm sat a e).map (f s c rm sat e)))) (seeTag s c o.a.toNat)) s

/-- The function of DMAP on a value (R219). -/
def mapFn (code : Nat) (rm : BitVec 2) (sat : Bool) (v : Nat) : Nat :=
  match code with
  | 0 => if isNaN fp32 v then nan32 else if 0 < valueKey fp32 v then v else 0
  | 1 => fnRound .exp2 fp32 rm sat v
  | 2 => fnRound .log2 fp32 rm sat v
  | 3 => fnRound .tanh fp32 rm sat v
  | 4 => fnRound .sigm fp32 rm sat v
  | 5 => fnRound .erf fp32 rm sat v
  | _ => roundF fp32 rm sat (exSqrt (decodeF fp32 v))

/-- Whether a point holds a NaN. -/
def hasNaN (p : List Point) : Bool := p.any (fun q => isNaN fp32 q.1)

/-- Σ m × v over an element's points, over 32,768. -/
def exMean (rm : BitVec 2) (p : List Point) : Ex := exSum (p.map (fun q => exMul (.fin false q.2 32768 0) (ptEx q))) rm

/-- An exact value as a rational; zeros are 0. -/
def exToRat : Ex → Int × Nat × Int
  | .fin s n d e => (if s then -(n : Int) else n, d, e)
  | _ => (0, 1, 0)

/-- The exact variance of finite points (R221). -/
def exVar (p : List Point) : Ex :=
  let mean := exToRat (exMean 0 p)
  let t := (p.map (fun q =>
    let x := ratAdd (exToRat (ptEx q)) (-mean.1, mean.2)
    (x.1 * x.1 * q.2, x.2.1 * x.2.1 * 32768, 2 * x.2.2))).foldl ratAdd (0, 1, 0)
  exRat false t.1 t.2.1 t.2.2

/-- One read-out of DMOM (R221). -/
def moment (kind : Nat) (rm : BitVec 2) (sat : Bool) (p : List Point) : Nat :=
  match kind with
  | 0 => roundF fp32 rm sat (exMean rm p)
  | 1 =>
    if p.any (fun q => match ptEx q with | .nan => true | .inf _ => true | _ => false) then nan32
    else roundF fp32 rm sat (exVar p)
  | 2 => (p.head?.map Prod.fst).getD nan32
  | _ => (p.getLast?.map Prod.fst).getD nan32

/-- The value of the first point whose cumulative mass reaches q × 32,768 (R222). -/
def quantileGo (q : Ex) : List Point → Nat → Nat
  | [], _ => nan32
  | [p], _ => p.1
  | p :: r, m => if exBefore (.fin false (m + p.2) 32768 0) q then quantileGo q r (m + p.2) else p.1

/-- The quantile of a populated element at a level (R222). -/
def quantile (q : Nat) (p : List Point) : Nat :=
  if isNaN fp32 q then nan32
  else if valueKey fp32 q ≤ 0 then (p.head?.map Prod.fst).getD nan32
  else if 0x3F800000 ≤ valueKey fp32 q then (p.getLast?.map Prod.fst).getD nan32
  else quantileGo (decodeF fp32 q) p 0

/-- The probability of the values up to x (R223). -/
def cdfAt (x : Nat) (p : List Point) : Nat :=
  if isNaN fp32 x then nan32
  else
    let m := ((p.filter (fun q => !isNaN fp32 q.1 && decide (valueKey fp32 q.1 ≤ valueKey fp32 x))).map Prod.snd).sum
    roundF fp32 0 false (exRat false m 32768 0)

/-- A read-out of sixteen FP32 results into a w register from byte `off` on; an empty element gives NaN. -/
def dRead (o : FOp) (off : Nat) (f : State → Core → BitVec 2 → Bool → Nat → List Point → Nat) (s : State) : Out :=
  dOp o 12 (fun s c rm sat =>
    let a := (seeD s c o.a.toNat).toNat
    let r := (List.range 16).map (fun e => match canon rm sat a e with | some p => f s c rm sat e p | none => nan32)
    .w o.d.toNat (BitVec.ofNat 1024 (onesAt (8 * off) 512)) (BitVec.ofNat 1024 (packElems 32 r <<< (8 * off)))) s

/-- DPT (R215). -/
def execDpt (o : FOp) (s : State) : Out :=
  dOp o 4 (fun s c _ _ =>
    let a := (seeW s c o.a.toNat).toNat
    dLand o.d (imageOf ((List.range 16).map (fun e =>
      let v := elemAt a 32 e
      some [(if isNaN fp32 v then nan32 else v, 32768)]))) 0) s
/-- DFROM (R216): only the elements it builds are written, and the tag set stays. -/
def execDfrom (o : FOp) (s : State) : Out :=
  dOp o 28 (fun s c rm sat =>
    let m := 2 ^ ((o.b.toNat % 8) + 1)
    let cnt := 32 / m
    let f := o.b.toNat / 8 * cnt
    let a := (seeW s c o.a.toNat).toNat
    let elems := (List.range 16).map (fun e =>
      if f ≤ e ∧ e < f + cnt then
        some (condense rm sat 32768 ((List.range m).map (fun i => (decodeF fp32 (elemAt a 32 ((e - f) * m + i)), 32768 / m))))
      else none)
    let mask := onesAt (256 * f) (256 * cnt) ||| onesAt (4096 + 128 * f) (128 * cnt)
    .d o.d.toNat (BitVec.ofNat 6144 mask) (imageOf elems) none) s
/-- DADD (R217). -/
def execDadd (o : FOp) (s : State) : Out := dBinary o (fun rm a b => exSum [a, b] rm) s
/-- DSUB (R217). -/
def execDsub (o : FOp) (s : State) : Out := dBinary o (fun rm a b => exSum [a, exNeg b] rm) s
/-- DMUL (R217). -/
def execDmul (o : FOp) (s : State) : Out := dBinary o (fun _ a b => exMul a b) s
/-- DMAX (R217). -/
def execDmax (o : FOp) (s : State) : Out := dBinary o (fun _ a b => exPick false a b) s
/-- DMIN (R217). -/
def execDmin (o : FOp) (s : State) : Out := dBinary o (fun _ a b => exPick true a b) s
/-- DAFF (R218). -/
def execDaff (o : FOp) (s : State) : Out :=
  dUnary o 12 (fun s c rm sat e p =>
    let b := (seeW s c o.b.toNat).toNat
    let k := decodeF fp32 (elemAt b 32 e)
    let t := decodeF fp32 (elemAt b 32 (16 + e))
    condense rm sat 32768 (p.map (fun q => (exSum [exMul k (ptEx q), t] rm, q.2)))) s
/-- DMAP (R219). -/
def execDmap (o : FOp) (s : State) : Out :=
  dUnary o 28 (fun _ _ rm sat _ p =>
    mergeRuns (stableSort (fun a b => decide (orderKey fp32 a.1 < orderKey fp32 b.1)) (p.map (fun q => (mapFn o.b.toNat rm sat q.1, q.2))))) s
/-- DTAG (R220). -/
def execDtag (o : FOp) (s : State) : Out :=
  dOp o 2 (fun s c _ _ => dLand o.d (seeD s c o.a.toNat) (BitVec.ofNat 16 (2 ^ (o.b.toNat % 16)))) s
/-- DTAGS (R220). -/
def execDtags (o : FOp) (s : State) : Out :=
  dOp o 2 (fun s c _ _ => dLand o.d (seeD s c o.a.toNat) ((seeW s c o.b.toNat).setWidth 16)) s
/-- DCANON (R220). -/
def execDcanon (o : FOp) (s : State) : Out := dUnary o 12 (fun _ _ _ _ _ p => p) s
/-- DMOM (R221). -/
def execDmom (o : FOp) (s : State) : Out :=
  dRead o (64 * (o.b.toNat / 4 % 2)) (fun _ _ rm sat _ p => moment (o.b.toNat % 4) rm sat p) s
/-- DQNT (R222). -/
def execDqnt (o : FOp) (s : State) : Out :=
  dRead o 0 (fun s c _ _ e p => quantile (elemAt (seeW s c o.b.toNat).toNat 32 e) p) s
/-- DCDF (R223). -/
def execDcdf (o : FOp) (s : State) : Out :=
  dRead o 0 (fun s c _ _ e p => cdfAt (elemAt (seeW s c o.b.toNat).toNat 32 e) p) s
/-- DMOV (R220). -/
def execDmov (o : FOp) (s : State) : Out :=
  dOp o 2 (fun s c _ _ => dLand o.d (seeD s c o.a.toNat) (seeTag s c o.a.toNat)) s
/-- DSUPP (R224). -/
def execDsupp (o : FOp) (s : State) : Out :=
  dOp o 2 (fun s c _ _ =>
    let img := (seeD s c o.a.toNat).toNat
    let win := o.b.toNat % 8
    let v : W1024 :=
      match o.b.toNat / 8 with
      | 0 => BitVec.ofNat 1024 (elemAt img 1024 win)
      | 1 => BitVec.ofNat 1024 (elemAt img 1024 (4 + win))
      | _ => (seeTag s c o.a.toNat).setWidth 1024
    .w o.d.toNat (BitVec.allOnes 1024) v) s

end Sys2Proof.Machine
end

