-- ==== Sys2Proof/Machine/LoadStore.lean ====
section
/-! DEFINITION. The L-slot operations (spec/12 R259-R272; acquire, release, `FENCE` and `DRAIN` spec/11 R247-R252) and what an
outstanding access does when it performs. -/

namespace Sys2Proof.Machine

open Sys2Proof

/-! ## Addresses and pieces -/

/-- The base register of an L word (R259). -/
def lBase (o : LOp) (s : State) : Nat := (seeS s (isY o.u) o.a).toNat

/-- An effective address: base plus a signed displacement, modulo 2^57 (R226, R259). -/
def lAddr (base : Nat) (off : Int) : Nat := (((base : Int) + off) % (2 ^ 57 : Int)).toNat

/-- The address of an offset form: m4 counts access sizes. -/
def lOffset (o : LOp) (size : Nat) (s : State) : Nat := lAddr (lBase o s) (o.m4.toInt * size)

/-- The address of an index form: register m4 of the base file. -/
def lIndex (o : LOp) (size : Nat) (s : State) : Nat := lAddr (lBase o s) ((seeS s (isY o.u) (o.m4.setWidth 5)).toInt * size)

/-- The address of a form without offset. -/
def lPlain (o : LOp) (s : State) : Nat := lAddr (lBase o s) 0

/-- What the checks of an access end with. -/
inductive Checked where
  | ok (l : List Placed)
  | trap (cause addr : Nat) (hi : BitVec 32)
  | hold (h : Hold)
  deriving DecidableEq, Repr

/-- Every part translated in order; the first failure decides (R261). TAUX[32] tells a write, TAUX[33] an error of the walk. -/
def placeAll (s : State) (need : Need) : List (Nat × Nat × Nat) → Checked
  | [] => .ok []
  | (va, off, n) :: r =>
    match translateMe s va need with
    | .fault c ecc => .trap c va ((if need.w then 1 else 0) + (if ecc then 2 else 0))
    | .walk => .hold (.walk va need.w)
    | .ok pa mt win =>
      match placeAll s need r with
      | .ok l => .ok (⟨va, off, n, pa, mt, win⟩ :: l)
      | x => x

/-- The first footprint row of this device that a store meets, as the store addresses it, and the tile of its epoch (R124, R262). -/
def footTrap (s : State) (l : List Placed) : Option (Nat × Nat) :=
  l.findSome? (fun p => if isRemote s p.pa then none
    else (footHit s p.mt p.pa p.n).map (fun i => ((p.va + i) % 2 ^ 57 / 128 * 128, footTile s (p.pa + i))))

/-- Whether an address is a scratchpad byte of a task's own partition, reached through the window or the aperture (spec/10 R227). -/
def ownScratch (s : State) (t : Task) (pa : Nat) : Bool :=
  let o := (paOff pa - apertureBase) % 2 ^ 22
  !isRemote s pa && isScratchKey (paOff pa) && (blockOf pa).1 == t.hearth && decide (t.qstart ≤ o) && decide (o < t.qstart + t.part / 4)

/-- Whether an access of a task reaches a block of its own partition. -/
def ownBlock (s : State) (u : Nat) (p : Placed) : Bool :=
  p.win || (p.mt != 2 && (match tabFind s.tasks u with | some t => ownScratch s t p.pa | none => false))

/-- The first block that an access of a task reaches and that holds a victim's state (spec/13 R304). -/
def claimOf (s : State) (u : Nat) (l : List Placed) : Option (Nat × Nat) :=
  (l.find? (fun p => ownBlock s u p && needsClaim s u (blockOf p.pa).1 (blockOf p.pa).2)).map (fun p => blockOf p.pa)

/-- The first block that an access of the executing core must claim. -/
def claimNeeded (s : State) (l : List Placed) : Option (Nat × Nat) := (me s).task.bind (fun u => claimOf s u l)

/-- Where an access of a bundle whose count the shape home has accepted goes: it passed its checks when the count was published, and the
bundle commits (spec/15 R336). -/
def keptPlaces (s : State) (l : List (Nat × Nat × Nat)) : Option (List Placed) :=
  (me s).blocked.bind (fun b => if b.accepted then b.places.find? (fun p => p.map (fun x => (x.va, x.off, x.n)) == l) else none)

/-- All checks of an access (R240, R261, R262). -/
def checkAll (s : State) (need : Need) (l : List (Nat × Nat × Nat)) : Checked :=
  match keptPlaces s l with
  | some p => .ok p
  | none =>
  match placeAll s need l with
  | .ok p =>
    match if need.w then footTrap s p else none with
    | some a => .trap 0x0A a.1 0
    | none =>
      match claimNeeded s p with
      | some (h, b) => .hold (.claimBlock h b)
      | none => .ok p
  | x => x

/-- The first access of a task to each of its blocks clears it (spec/16 R364). -/
def touchAll (s : State) (l : List Placed) : State :=
  match (me s).task with
  | none => s
  | some u => l.foldl (fun s p =>
      if ownBlock s u p then touchBlock s u (blockOf p.pa).1 (blockOf p.pa).2
      else if p.mt = 2 then noteHost s (hearthOf s.cur) (ctxOf s s.cur) p.va
      else s) s

/-- The core with the tile noted whose footprint a store of its bundle meets, for the entry of a task that ends so (spec/15 R346). -/
def noteHit (s : State) (l : List (Nat × Nat × Nat)) : State :=
  match placeAll s { w := true } l with
  | .ok p => match footTrap s p with
    | some a => modMe s fun c => { c with hitTile := a.2 }
    | none => s
  | _ => s

/-- An access that passes its checks goes on with its parts; one that fails traps, and one that must wait holds the bundle back. -/
def withAccess (s : State) (u : BitVec 4) (need : Need) (l : List (Nat × Nat × Nat)) (k : State → List Placed → State) : State :=
  match checkAll s need l with
  | .ok p => k (touchAll s p) p
  | .trap c a hi => slotTrap (if c = 0x0A then noteHit s l else s) u.toNat c (BitVec.ofNat 64 a) hi
  | .hold h => holdFor s h

/-- The bundle waits (spec/02 R37, R433): a green block or a count that awaits acceptance. -/
def blockFor (s : State) (w : Wait) : State := modMe s fun c => { c with wait := w, mark := .blocked }

/-! ## Outstanding entries -/

/-- The entries of an access, in program order; `tick` is the step of its issue. -/
def mkAccs (c : Core) (tick : Nat) (kind : AccKind) (acq rel : Option Nat) (data : List Byte) (l : List Placed) : List Acc :=
  l.map (fun p => { id := c.nextId, kind := kind, win := p.win, mt := p.mt, pa := p.pa, n := p.n, off := p.off
                    data := (data.drop p.off).take p.n, acq := acq, rel := rel, no := c.bundleNo, task := c.task
                    va := p.va, stamp := tick })

/-- A load issued: a result in flight that its parts fill, and the parts outstanding (R261). -/
def issueLoad (s : State) (bound : Nat) (dest : LoadDest) (acq : Option Nat) (l : List Placed) : State :=
  modMe s fun c => { c with
    fresh := c.fresh ++ [⟨nowOf s s.cur + bound, .load c.nextId l.length dest 0 0⟩]
    acc := c.acc ++ mkAccs c s.tick .load acq none [] l
    nextId := c.nextId + 1 }

/-- The bytes of the green share a hearth's provisional work holds (spec/06 R119, R128): held stores, held and retained rows. -/
def greenUsed (s : State) (hearth : Nat) : Nat :=
  (s.tasks.map (fun t =>
    if t.2.hearth = hearth ∧ t.2.green then
      ((t.2.held.flatMap (fun h => h.rows.map (fun r => r.bytes.length))).sum
        + ((taskCores s t.1 t.2).flatMap (fun c => c.mu.tiles.flatMap (fun x =>
            match x.2.epoch with | some e => e.held.map (fun r => r.bytes.length) | none => []))).sum)
    else 0)).sum

/-- The size of the green share. -/
def greenShare : Nat := 262144

/-- The stores of other destinations than the scratchpad invalidate copies in the issuing die's cache at issue (spec/10 R237). -/
def invalidateAt (s : State) (l : List Placed) : State :=
  l.foldl (fun s p => if isRemote s p.pa && p.mt != 2 then modDie s (dieOf s.cur) fun d => dropLine d (sectorOf s p.pa) else s) s

/-- A store issued: outstanding, or held in the green share when the task is provisional and the destination is not its own
scratchpad (R262); a full share blocks. A store through the aperture to a byte of its own partition is held too (log entry 84: DEDUCED,
unsafe). -/
def issueStore (s : State) (rel : Option Nat) (data : List Byte) (l : List Placed) : State :=
  let out := l.filter (fun p => greenOf s s.cur && !p.win)
  let direct := l.filter (fun p => !(greenOf s s.cur && !p.win))
  let need := (out.map (fun p => p.n)).sum
  if need ≠ 0 ∧ greenShare < greenUsed s (hearthOf s.cur) + need then blockFor s .green
  else
    let s1 := invalidateAt s direct
    let s2 := modMe s1 fun c => { c with acc := c.acc ++ mkAccs c s.tick .store none rel data direct, nextId := c.nextId + 1 }
    if out.isEmpty then s2
    else match (me s).task with
      | some u =>
        let rows := out.map (fun p => ({ va := p.va, pa := p.pa, mt := p.mt, bytes := (data.drop p.off).take p.n, sup := isSup (me s), off := p.off } : HeldRow))
        modTask s2 u fun t => { t with held := t.held ++ [{ core := s.cur, rows := rows, release := rel.isSome, no := (me s).bundleNo }] }
      | none => s2

/-! ## Loads and stores (R260-R262) -/

/-- The bound of a load, fixed by its address (spec/03 R54). -/
def loadBound (ea : Nat) : Nat := if windowBase ≤ ea ∧ ea < windowBase + 2 ^ 24 then 8 else 40

/-- The V files a data file code binds. -/
def fileBanks (f3 : BitVec 3) : List Nat := copyBanks f3.toNat

/-- A load of `size` bytes at an address into the register part given. -/
def lLoad (o : LOp) (size : Nat) (ea : State → Nat) (dest : Core → LoadDest) (acq : Option Nat) (s : State) : Out :=
  if guardOn s o.g then
    needBanks s (fileBanks o.f3) fun s =>
      let a := ea s
      .next (withAccess s o.u { r := true } (parts a size) fun s l =>
        issueLoad s (if acq.isSome then 40 else loadBound a) (dest (me s)) acq l)
  else .next s

/-- A scalar load. -/
def lScalar (o : LOp) (size : Nat) (signed : Bool) (ea : State → Nat) (s : State) : Out :=
  lLoad o size ea (fun _ => .scalar (o.f3 == 1) o.d.toNat size signed) none s

/-- The register part of a 1,024-bit file: a vector register or a w register. -/
def wideDest (o : LOp) (bits : Nat) (c : Core) : LoadDest :=
  if o.f3 = 5 then .wreg o.d.toNat bits else .vec (vSlot c (o.f3.toNat - 2) o.d.toNat) bits

/-- The bits of a 1,024-bit source. -/
def wideSource (o : LOp) (s : State) : Nat :=
  if o.f3 = 5 then (seeW s (me s) o.d.toNat).toNat else (seeVR s (o.f3.toNat - 2) o.d).toNat

/-- The data register of an x or y form. -/
def scalarSource (o : LOp) (s : State) : Nat := (seeS s (o.f3 == 1) o.d).toNat

/-- The register after d. -/
def nextReg (d : BitVec 5) : BitVec 5 := d + 1

/-- A store of `size` bytes of a source. -/
def lStore (o : LOp) (size : Nat) (ea : State → Nat) (src : State → Nat) (rel : Option Nat) (s : State) : Out :=
  if guardOn s o.g then
    needBanks s (fileBanks o.f3) fun s =>
      let data := bytesOf (src s) size
      .next (withAccess s o.u { w := true } (parts (ea s) size) fun s l => issueStore s rel data l)
  else .next s

/-- A misaligned atomic, acquire or release traps before anything else of its slot (spec/10 R240; log entry 13: DEDUCED, unsafe). -/
def aligned (s : State) (u : BitVec 4) (ea size : Nat) (k : State → Out) : Out :=
  if ea % size = 0 then k s else .next (slotTrap s u.toNat 0x06 (BitVec.ofNat 64 ea) 0)

/-- LD.B (R260). -/
def execLdB (o : LOp) (s : State) : Out := lScalar o 1 true (lOffset o 1) s
/-- LD.BZ (R260). -/
def execLdBz (o : LOp) (s : State) : Out := lScalar o 1 false (lOffset o 1) s
/-- LD.H (R260). -/
def execLdH (o : LOp) (s : State) : Out := lScalar o 2 true (lOffset o 2) s
/-- LD.HZ (R260). -/
def execLdHz (o : LOp) (s : State) : Out := lScalar o 2 false (lOffset o 2) s
/-- LD.W (R260). -/
def execLdW (o : LOp) (s : State) : Out := lScalar o 4 true (lOffset o 4) s
/-- LD.WZ (R260). -/
def execLdWz (o : LOp) (s : State) : Out := lScalar o 4 false (lOffset o 4) s
/-- LD.D (R260). -/
def execLdD (o : LOp) (s : State) : Out := lScalar o 8 false (lOffset o 8) s
/-- LD.Q (R260): a scalar pair, or bits [127:0] of a wide register. -/
def execLdQ (o : LOp) (s : State) : Out :=
  lLoad o 16 (lOffset o 16) (fun c => if o.f3.toNat < 2 then .pair (o.f3 == 1) o.d.toNat else wideDest o 128 c) none s
/-- LDV.256 (R260). -/
def execLdv256 (o : LOp) (s : State) : Out := lLoad o 32 (lOffset o 32) (wideDest o 256) none s
/-- LDV.512 (R260). -/
def execLdv512 (o : LOp) (s : State) : Out := lLoad o 64 (lOffset o 64) (wideDest o 512) none s
/-- LDV.1024 (R260). -/
def execLdv1024 (o : LOp) (s : State) : Out := lLoad o 128 (lOffset o 128) (wideDest o 1024) none s
/-- LDK (R260). -/
def execLdk (o : LOp) (s : State) : Out := lLoad o 16 (lOffset o 16) (fun _ => .kreg o.d.toNat) none s
/-- LDD (R260): the whole image; the tag set becomes 0. -/
def execLdd (o : LOp) (s : State) : Out := lLoad o 768 (lOffset o 768) (fun _ => .dreg o.d.toNat) none s
/-- LDX.D (R260). -/
def execLdxD (o : LOp) (s : State) : Out := lScalar o 8 false (lIndex o 8) s
/-- LDX.W (R260). -/
def execLdxW (o : LOp) (s : State) : Out := lScalar o 4 true (lIndex o 4) s
/-- ST.B (R260). -/
def execStB (o : LOp) (s : State) : Out := lStore o 1 (lOffset o 1) (scalarSource o) none s
/-- ST.H (R260). -/
def execStH (o : LOp) (s : State) : Out := lStore o 2 (lOffset o 2) (scalarSource o) none s
/-- ST.W (R260). -/
def execStW (o : LOp) (s : State) : Out := lStore o 4 (lOffset o 4) (scalarSource o) none s
/-- ST.D (R260). -/
def execStD (o : LOp) (s : State) : Out := lStore o 8 (lOffset o 8) (scalarSource o) none s
/-- ST.Q (R260). -/
def execStQ (o : LOp) (s : State) : Out :=
  lStore o 16 (lOffset o 16) (fun s =>
    if o.f3.toNat < 2 then scalarSource o s + 2 ^ 64 * (seeS s (o.f3 == 1) (nextReg o.d)).toNat else wideSource o s) none s
/-- STV.256 (R260). -/
def execStv256 (o : LOp) (s : State) : Out := lStore o 32 (lOffset o 32) (wideSource o) none s
/-- STV.512 (R260). -/
def execStv512 (o : LOp) (s : State) : Out := lStore o 64 (lOffset o 64) (wideSource o) none s
/-- STV.1024 (R260). -/
def execStv1024 (o : LOp) (s : State) : Out := lStore o 128 (lOffset o 128) (wideSource o) none s
/-- STK (R260). -/
def execStk (o : LOp) (s : State) : Out := lStore o 16 (lOffset o 16) (fun s => (seeK s (me s) o.d.toNat).toNat) none s
/-- STD (R260): the image only. -/
def execStd (o : LOp) (s : State) : Out := lStore o 768 (lOffset o 768) (fun s => (seeD s (me s) o.d.toNat).toNat) none s
/-- STX.D (R260). -/
def execStxD (o : LOp) (s : State) : Out := lStore o 8 (lIndex o 8) (scalarSource o) none s
/-- STX.W (R260). -/
def execStxW (o : LOp) (s : State) : Out := lStore o 4 (lIndex o 4) (scalarSource o) none s

/-! ## Gather and scatter (R264) -/

/-- The element type of a gather or scatter: FP32, INT32, UINT32 or INT64. -/
def gatherBits (code : Nat) : Option Nat := if code = 0 ∨ code = 3 ∨ code = 4 then some 32 else if code = 11 then some 64 else none

/-- The enabled elements and their addresses. -/
def gatherAddrs (o : LOp) (w : Nat) (s : State) : List (Nat × Nat) :=
  let offs := (seeVR s (o.f3.toNat - 2) (nextReg o.d)).toNat
  ((List.range (1024 / w)).filter (fun e => enabledAt s o.m4 (e * (w / 8)))).map
    (fun e => (e, lAddr (lBase o s) (toInt w (elemAt offs w e))))

/-- A gather or scatter: guarded as a whole, its type checked, its banks bound. -/
def gatherOp (o : LOp) (s : State) (k : Nat → List (Nat × Nat) → State → State) : Out :=
  if guardOn s o.g then
    let code := vCode (me s) (o.f3.toNat - 2)
    match gatherBits code with
    | none => .next (slotTrap s o.u.toNat 0x09 0 (BitVec.ofNat 32 code))
    | some w => needBanks s (fileBanks o.f3) fun s => .next (k w (gatherAddrs o w s) s)
  else .next s

/-- The parts of all elements, each at its place in the register. -/
def gatherParts (w : Nat) (l : List (Nat × Nat)) : List (Nat × Nat × Nat) :=
  l.flatMap (fun p => (parts p.2 (w / 8)).map (fun q => (q.1, p.1 * (w / 8) + q.2.1, q.2.2)))

/-- VGATHER (R264). -/
def execVgather (o : LOp) (s : State) : Out :=
  gatherOp o s fun w l s =>
    withAccess s o.u { r := true } (gatherParts w l) fun s p =>
      let mask := BitVec.ofNat 1024 (elemMask w (l.map Prod.fst))
      issueLoad s (if l.all (fun q => loadBound q.2 == 8) then 8 else 40)
        (.gather (vSlot (me s) (o.f3.toNat - 2) o.d.toNat) (w / 8) mask) none p
/-- VSCATTER (R264). -/
def execVscatter (o : LOp) (s : State) : Out :=
  gatherOp o s fun w l s =>
    let data := bytesOf (seeVR s (o.f3.toNat - 2) o.d).toNat 128
    withAccess s o.u { w := true } (gatherParts w l) fun s p => issueStore s none data p

/-! ## Acquire, release, fences (spec/11 R247-R252), prefetch -/

/-- The scope field of acquire, release and atomics. -/
def scopeOf (m4 : BitVec 4) : Nat := (m4.setWidth 3).toNat

/-- An acquire load (R247). -/
def lAcquire (o : LOp) (size : Nat) (signed : Bool) (s : State) : Out :=
  if guardOn s o.g then
    aligned s o.u (lPlain o s) size
      (lLoad o size (lPlain o) (fun _ => .scalar (o.f3 == 1) o.d.toNat size signed) (some (scopeOf o.m4)))
  else .next s

/-- A release store (R247). -/
def lRelease (o : LOp) (size : Nat) (s : State) : Out :=
  if guardOn s o.g then
    aligned s o.u (lPlain o s) size (lStore o size (lPlain o) (scalarSource o) (some (scopeOf o.m4)))
  else .next s

/-- LDA.W (spec/11 R247). -/
def execLdaW (o : LOp) (s : State) : Out := lAcquire o 4 true s
/-- LDA.D (spec/11 R247). -/
def execLdaD (o : LOp) (s : State) : Out := lAcquire o 8 false s
/-- STL.W (spec/11 R247). -/
def execStlW (o : LOp) (s : State) : Out := lRelease o 4 s
/-- STL.D (spec/11 R247). -/
def execStlD (o : LOp) (s : State) : Out := lRelease o 8 s

/-- Whether the task of the executing core is provisional and holds a store (spec/14 R323). -/
def holdsStore (s : State) : Bool :=
  match taskOf s s.cur with
  | some t => t.green && (!t.held.isEmpty || (gangOf t).any (fun c => (getCore s c).mu.tiles.any (fun x =>
      match x.2.epoch with | some e => !e.held.isEmpty | none => false)))
  | none => false

/-- An ordering entry put among the outstanding accesses. -/
def issueMarker (s : State) (k : AccKind) : State :=
  modMe s fun c => { c with acc := c.acc ++ [{ id := c.nextId, kind := k, no := c.bundleNo, task := c.task, stamp := s.tick }], nextId := c.nextId + 1 }

/-- FENCE (spec/11 R249): an entry that successors wait for. -/
def execFence (o : FenceOp) (s : State) : Out :=
  guarded s o.g fun s =>
    if o.pred &&& 0x22 ≠ 0 ∧ holdsStore s = true then blockFor s .green
    else issueMarker s (.fence o.pred o.succ o.scope.toNat)
/-- DRAIN (spec/11 R252). -/
def execDrain (o : LOp) (s : State) : Out :=
  guarded s o.g fun s => if holdsStore s then blockFor s .green else issueMarker s .drain
/-- PREF (R263): may leave a copy of a line of another device; a translation that is not at hand drops it, and so does a write of the
die to the line that has still to perform (spec/10 R237). -/
def execPref (o : LOp) (s : State) : Out :=
  guarded s o.g fun s =>
    match translateMe s (lOffset o 128 s) { r := true, pref := true } with
    | .ok pa 0 false =>
      if cacheable pa && !lineWrites s (dieOf s.cur) pa 1 s.tick then (readLine s (dieOf s.cur) 0 (pa / 128 * 128)).2 else s
    | _ => s

/-! ## Atomics (R267-R270) -/

/-- What an atomic writes, on `bits` bits (R267). -/
def atomResult (op : AtomOp) (bits : Nat) (fmt : W32) (old v new : Nat) : Nat :=
  match op with
  | .add => (old + v) % 2 ^ bits
  | .and => old &&& v
  | .or => old ||| v
  | .xor => old ^^^ v
  | .min => if toInt bits old ≤ toInt bits v then old else v
  | .max => if toInt bits v ≤ toInt bits old then old else v
  | .minu => min old v
  | .maxu => max old v
  | .swap => v
  | .cas => if old = v then new else old
  | .fadd => roundF fp32 (rmOf fmt) (satOf fmt) (exSum [decodeF fp32 old, decodeF fp32 v] (rmOf fmt))

/-- An atomic entry, with its result in flight when it returns the old value. -/
def issueAtomic (s : State) (o : LOp) (size : Nat) (ro : Bool) (kind : AccKind) (scope : Option Nat) (l : List Placed) : State :=
  let s := invalidateAt s l
  modMe s fun c => { c with
    fresh := if ro then c.fresh ++ [⟨nowOf s s.cur + 64, .load c.nextId l.length (.scalar (o.f3 == 1) o.d.toNat size false) 0 0⟩] else c.fresh
    acc := c.acc ++ mkAccs c s.tick kind scope scope [] l
    nextId := c.nextId + 1 }

/-- An atomic: a provisional task waits at issue (R268). A misaligned one waits too, and traps when it is confirmed (log entry 64: DESIGN
CHOICE, unsafe). -/
def lAtomic (o : LOp) (size : Nat) (op : AtomOp) (s : State) : Out :=
  if guardOn s o.g then
    if greenOf s s.cur then .next (blockFor s .green)
    else
      aligned s o.u (lPlain o s) size fun s =>
        let v := seeS s (o.f3 == 1) o.d
        let n := if op = .cas then seeS s (o.f3 == 1) (nextReg o.d) else 0
        let ro := o.m4.getLsbD 3
        let kind := AccKind.atomic op v n ro (me s).sys.fmt
        .next (withAccess s o.u { r := true, w := true } (parts (lPlain o s) size) fun s l =>
          issueAtomic s o size ro kind (some (scopeOf o.m4)) l)
  else .next s

/-- An ordered atomic: it takes its flow's next sequence number (R269, R270). In a provisional task it waits as `lAtomic` does. -/
def lOrdered (o : LOp) (op : AtomOp) (s : State) : Out :=
  if guardOn s o.g then
    if greenOf s s.cur then .next (blockFor s .green)
    else
      aligned s o.u (lPlain o s) 8 fun s =>
        let f := o.m4.toNat
        let v := seeS s (o.f3 == 1) o.d
        let n := if op = .cas then seeS s (o.f3 == 1) (nextReg o.d) else 0
        let q := tabGet (me s).sys.seq f 0
        .next (withAccess s o.u { r := true, w := true } (parts (lPlain o s) 8) fun s l =>
          modMe (issueAtomic s o 8 true (.ordered op v n f q false) none l) fun c =>
            { c with sys := { c.sys with seq := tabSet c.sys.seq f (q + 1) } })
  else .next s

/-- AADD.W (R267). -/
def execAaddW (o : LOp) (s : State) : Out := lAtomic o 4 .add s
/-- AAND.W (R267). -/
def execAandW (o : LOp) (s : State) : Out := lAtomic o 4 .and s
/-- AOR.W (R267). -/
def execAorW (o : LOp) (s : State) : Out := lAtomic o 4 .or s
/-- AXOR.W (R267). -/
def execAxorW (o : LOp) (s : State) : Out := lAtomic o 4 .xor s
/-- AMIN.W (R267). -/
def execAminW (o : LOp) (s : State) : Out := lAtomic o 4 .min s
/-- AMAX.W (R267). -/
def execAmaxW (o : LOp) (s : State) : Out := lAtomic o 4 .max s
/-- AMINU.W (R267). -/
def execAminuW (o : LOp) (s : State) : Out := lAtomic o 4 .minu s
/-- AMAXU.W (R267). -/
def execAmaxuW (o : LOp) (s : State) : Out := lAtomic o 4 .maxu s
/-- ASWP.W (R267). -/
def execAswpW (o : LOp) (s : State) : Out := lAtomic o 4 .swap s
/-- ACAS.W (R267). -/
def execAcasW (o : LOp) (s : State) : Out := lAtomic o 4 .cas s
/-- AFADD.W (R267). -/
def execAfaddW (o : LOp) (s : State) : Out := lAtomic o 4 .fadd s
/-- AADD.D (R267). -/
def execAaddD (o : LOp) (s : State) : Out := lAtomic o 8 .add s
/-- AAND.D (R267). -/
def execAandD (o : LOp) (s : State) : Out := lAtomic o 8 .and s
/-- AOR.D (R267). -/
def execAorD (o : LOp) (s : State) : Out := lAtomic o 8 .or s
/-- AXOR.D (R267). -/
def execAxorD (o : LOp) (s : State) : Out := lAtomic o 8 .xor s
/-- AMIN.D (R267). -/
def execAminD (o : LOp) (s : State) : Out := lAtomic o 8 .min s
/-- AMAX.D (R267). -/
def execAmaxD (o : LOp) (s : State) : Out := lAtomic o 8 .max s
/-- AMINU.D (R267). -/
def execAminuD (o : LOp) (s : State) : Out := lAtomic o 8 .minu s
/-- AMAXU.D (R267). -/
def execAmaxuD (o : LOp) (s : State) : Out := lAtomic o 8 .maxu s
/-- ASWP.D (R267). -/
def execAswpD (o : LOp) (s : State) : Out := lAtomic o 8 .swap s
/-- ACAS.D (R267). -/
def execAcasD (o : LOp) (s : State) : Out := lAtomic o 8 .cas s
/-- OADD (R269). -/
def execOadd (o : LOp) (s : State) : Out := lOrdered o .add s
/-- OSWP (R269). -/
def execOswp (o : LOp) (s : State) : Out := lOrdered o .swap s
/-- OCAS (R269). -/
def execOcas (o : LOp) (s : State) : Out := lOrdered o .cas s

/-- The context of an outstanding entry's task. -/
def accCtx (s : State) (e : Acc) : Nat := match e.task.bind (tabFind s.tasks) with | some t => t.ctx | none => 0

/-! ## An outstanding access performs -/

/-- The read and the write of an atomic at its home, indivisible (R268): the old value, or the class of the error. -/
def atomicAt (s : State) (die : Nat) (e : Acc) (op : AtomOp) (v new : W64) (fmt : W32) : Except Nat (Nat × State) :=
  match readPa s die e.mt e.pa e.n with
  | .error c => .error c
  | .ok b =>
    let bits := 8 * e.n
    let old := natOfBytes b
    let b := bytesOf (atomResult op bits fmt old (v.toNat % 2 ^ bits) (new.toNat % 2 ^ bits)) e.n
    match writePa s die e.mt e.pa (storedBytes s die (accCtx s e) e.mt e.va e.pa b) with
    | .ok s1 => .ok (old, s1)
    | .error c => .error c

/-- The entry of an outstanding access taken off and its result, if it returns one, filled in; what its core owes for a write that went ahead
of others is kept. One whose page translates no more ends with its virtual address (spec/17 R375). -/
def finishAcc (s : State) (core n : Nat) (e : Acc) (ro : Bool) (r : Except Nat (List Byte)) (d2 : Nat) : State :=
  let fill := fun (c : Core) => if ro then fillFlight c e.id e.off r else c
  match r with
  | .ok _ => settleDebts (modCore (if writesAcc e.kind then oweFor s core e else s) core fun c => dropAcc (fill c) n)
  | .error cls => settleDebts (accessError (modCore s core fun c => dropAcc (fill c) n) core e.task ro cls (if cls = 4 then e.va else e.pa) (if ro then 0 else 1) d2)

/-- A write of an outstanding entry refused by a footprint at its home, from a byte on (spec/06 R124): nothing is written, and its core
takes `Trap(0x0A)` at its next bundle; a core that has halted has none, and its access ends in error with class 13 (log entry 51: DEDUCED,
unsafe). -/
def refuseAcc (s : State) (core n : Nat) (e : Acc) (ro : Bool) (i d2 : Nat) : State :=
  let row : W64 := BitVec.ofNat 64 ((e.va + i) % 2 ^ 57 / 128 * 128)
  let halted := match e.task with | some u => (ownerCore s core u).halted || (ownerCore s core u).task != some u | none => true
  if halted then finishAcc s core n e ro (.error 13) d2
  else
    let s1 := modCore s core fun c => dropAcc (if ro then fillFlight c e.id e.off (.error 13) else c) n
    settleDebts (modTaskCore s1 core e.task fun c => { c with late := c.late ++ [(row, footTile s (e.pa + i))] })

/-- A load's bytes arrived. One made while its hearth sees stores that have not performed at their homes goes on waiting for them: what
follows the load in any order follows those stores too (spec/11 R254, R256; log entry 62: DEDUCED, unsafe). -/
def performLoad (s : State) (core n : Nat) (e : Acc) : State :=
  if e.got then modCore s core fun c => dropAcc c n else
  match readSeen s core e.mt e.pa e.n with
  | (.ok b, x :: l, s1) => modCore s1 core fun c =>
      let c1 := fillFlight c e.id e.off (.ok b)
      { c1 with acc := modifyAt c1.acc n (fun a => { a with got := true, src := x :: l }) }
  | (r, _, s1) => finishAcc s1 core n e true r 0

/-- Whether an entry drops the die's copies of other devices' lines before it performs: an acquire of domain scope, or any access that
follows a domain `FENCE` still to perform (spec/10 R237). -/
def dropsCopies (c : Core) (n : Nat) (e : Acc) : Bool :=
  e.acq == some 4 || (c.acc.take n).any (fun p => p.task == e.task && decide (p.no < e.no)
    && (match p.kind with | .fence _ _ sc => sc == 4 | _ => false))

/-- The stores that a `FENCE` of core scope does not wait for are noted as those that later stores follow (R243, R249, R254). -/
def passFenced (c : Core) (e : Acc) : Core :=
  match e.kind with
  | .fence pred _ 0 =>
    if pred &&& 2 = 0 then c else
    { c with acc := c.acc.map (fun p => if p.task = e.task ∧ p.kind = .store ∧ p.no < e.no then { p with fenced := some (min e.no (p.fenced.getD e.no)) } else p) }
  | _ => c

/-- The n-th outstanding entry of a core performs at its home (spec/11 R244-R252). An ordered atomic sends its request (R270). -/
def performAcc (s : State) (core n : Nat) : State :=
  match (getCore s core).acc[n]? with
  | none => s
  | some e =>
    let die := dieOf core
    let s0 := if dropsCopies (getCore s core) n e then dropCopies s die else s
    match e.kind with
    | .load => performLoad s0 core n e
    | .store =>
      match footHit s0 e.mt e.pa e.n with
      | some i => refuseAcc s0 core n e false i 0
      | none =>
        match writePa s0 die e.mt e.pa (storedBytes s0 die (accCtx s0 e) e.mt e.va e.pa e.data) with
        | .ok s1 => finishAcc (noteSent s0 s1 core e.task e.mt e.pa .store 0) core n e false (.ok []) 0
        | .error c => finishAcc s0 core n e false (.error c) 0
    | .atomic op v new ro fmt =>
      match footHit s0 e.mt e.pa e.n with
      | some i => refuseAcc s0 core n e ro i 0
      | none =>
        match atomicAt s0 die e op v new fmt with
        | .ok (old, s1) => finishAcc (if ro then s1 else noteSent s0 s1 core e.task e.mt e.pa .store 0) core n e ro (.ok (bytesOf old e.n)) 0
        | .error c => finishAcc s0 core n e ro (.error c) 0
    | .ordered op v new f q _ =>
      let c := getCore s core
      let w := tabGet c.flow f {}
      let slice := homeSlice s e.pa
      let start := w.restart || w.home != some slice
      let s1 := modCore (sendRequest s0 die e.mt e.pa) core fun c => { c with
        acc := modifyAt c.acc n (fun e => { e with kind := .ordered op v new f q true })
        flow := tabSet c.flow f { home := some slice, outstanding := w.outstanding + 1, restart := false } }
      { s1 with oreqs := s1.oreqs ++ [{ core := core, id := e.id, flow := f, seq := q, start := start, slice := slice }] }
    | .fence _ _ scope =>
      let s1 := modCore s core fun c => dropAcc (passFenced c e) n
      if scope = 4 then dropCopies s1 die else s1
    | .drain => modCore s core fun c => dropAcc c n
    | .signal _ => s

end Sys2Proof.Machine
end

