-- ==== Sys2Proof/Machine/Engine.lean ====
section
/-! DEFINITION. Accesses of the units that translate at once (matrix units, runners, stokers): placing, reading and writing ranges of
virtual addresses (spec/16 R359); context images and the claiming of a victim's banks, blocks and tiles (spec/13 R303-R305, R434);
tokens (spec/12 R273, spec/17 R432) and the halting of a task (spec/02 R31, R33). -/

namespace Sys2Proof.Machine

open Sys2Proof

/-! ## Context images (spec/13 R303, spec/16 R365) -/

/-- An access of a die's stoker in a context: at supervisor level (log entry 14: DEDUCED, unsafe), without a partition. -/
def whoStoker (die ctx : Nat) : Who := { hearth := 24 * die, ctx := ctx, sup := true }

/-- The bytes of the parts in order, or the first failure: its class and physical address. -/
def readParts (s : State) (die : Nat) : List Placed → Except (Nat × Nat) (List Byte)
  | [] => .ok []
  | p :: r =>
    match readPa s die p.mt p.pa p.n with
    | .error c => .error (c, p.pa)
    | .ok b =>
      match readParts s die r with
      | .ok l => .ok (b ++ l)
      | x => x

/-- Bytes of a context image, or the class of the failure and the virtual address read from (R434). -/
def loadImage (s : State) (t : Task) (off n : Nat) : Except (Nat × Nat) (List Byte) :=
  let va := (imageBase s t + off) % 2 ^ 57
  match placeFor s { hearth := t.hearth, ctx := t.ctx } { r := true } (parts va n) with
  | .error a => .error (4, a)
  | .ok l =>
    match readParts s (t.hearth / 24) l with
    | .ok b => .ok b
    | .error (c, _) => .error (c, va)

/-- What a read of parts leaves: requests for those on other devices (spec/17 R382), and copies of other dies' lines (spec/10 R236). -/
def askParts (s : State) (die : Nat) (l : List Placed) : State :=
  l.foldl (fun s p => if p.mt = 2 then s else shareLine (sendRequest s die p.mt p.pa) die p.mt p.pa) s

/-- What a read of a context image leaves, the host's answers among it (spec/16 R363). -/
def noteImage (s : State) (t : Task) (off n : Nat) : State :=
  let w : Who := { hearth := t.hearth, ctx := t.ctx }
  match placeFor s w { r := true } (parts ((imageBase s t + off) % 2 ^ 57) n) with
  | .ok l => askParts (noteHosts s w l) (whoDie w) l
  | .error _ => s

/-- The partition offset of a block of a hearth in a task's partition (spec/10 R227). -/
def blockOffset (t : Task) (block : Nat) : Nat :=
  let q := t.part / 4
  let phys := block * 4096
  phys / 2 ^ 22 * q + (phys % 2 ^ 22 - t.qstart)

/-- The blocks of a task's partition. -/
def partBlocks (t : Task) : List Nat :=
  (List.range 4).flatMap (fun g => (List.range (t.part / 4 / 4096)).map (fun i => g * 1024 + t.qstart / 4096 + i))

/-- A block that holds a pre-empted task's state is written to its image and set to zero (R304). -/
def claimBlock (s : State) (hearth block : Nat) : State :=
  match blockOwnerOf s hearth block with
  | none => s
  | some o =>
    match tabFind s.tasks o with
    | none => s
    | some t =>
      let k := scratchOff hearth (block * 4096)
      let err := (eccHits s k 4096).head?.map (fun b => (3, some (localPa s (max k b.key))))
      let s1 := saveImage s o (t.hearth * 4 + t.first) (0x800000 + blockOffset t block) (cellsGet s.mem k 4096) err
      let s2 := modTask (zeroBlock s1 hearth block) o fun t => { t with claimedBlocks := t.claimedBlocks ++ [block] }
      modHearth s2 hearth fun h => { h with blockOwner := tabSet h.blockOwner block none }

/-- The bytes of a bank: its 32 registers in order. -/
def bankBytes (c : Core) (key : Nat) : List Byte := (List.range 32).flatMap (fun r => bytesOf (tabGet c.regs.v (key * 32 + r) 0).toNat 128)

/-- A core whose bank reads as zero. -/
def clearBank (c : Core) (key : Nat) : Core := { c with regs := { c.regs with v := c.regs.v.filter (fun e => e.1 / 32 != key) } }

/-- A bank of a core that holds a pre-empted task's state is written to its image and set to zero (R304). -/
def claimBank (s : State) (core key : Nat) : State :=
  match tabGet (getCore s core).bankOwner key none with
  | none => s
  | some o =>
    match tabFind s.tasks o with
    | none => s
    | some t =>
      let c := getCore s core
      let s1 := saveImage s o core (coreImage t core + 0x10000 + key * 4096) (bankBytes c key) (if c.fileBad then some (3, none) else none)
      let s2 := modTask s1 o fun t => { t with claimedBanks := t.claimedBanks ++ [(core, key)] }
      modCore s2 core fun c => { clearBank c key with bankOwner := tabSet c.bankOwner key none }

/-- The elements of one engine's copy of a tile. -/
def tileElems (l : List W32) : List W32 := if l.isEmpty then List.replicate 16384 0 else l

/-- The status bits of a tile (spec/07 R134). -/
def tileStatus (t : Tile) : Nat :=
  t.valid.toNat + 2 * t.dirty.toNat + 4 * t.inflight.toNat + 8 * t.epoch.isSome.toNat + 16 * t.ovf.toNat + 32 * t.accint.toNat
    + 64 * t.image.isSome.toNat

/-- Before the first micro-op of a newcomer `u` uses a tile, each engine saves its copy of a victim's tile, with its status (spec/07 R162). A
copy that holds an uncorrected error is lost (spec/17 R378). -/
def claimTile (s : State) (u core tile : Nat) : State :=
  s.tasks.foldl (fun s e =>
    let t := e.2
    let pos := core % 4 - t.first
    if e.1 ≠ u ∧ t.st = 3 ∧ (gangOf t).contains core ∧ (t.claimedTiles.contains (core, tile)) = false then
      match (t.saved[pos]?).bind (fun c => tabFind c.mu.tiles tile) with
      | none => s
      | some x =>
        let bad := fun (x : Tile) (e : Nat) => if x.bad.getLsbD e then some (3, none) else none
        let at_ := fun (e : Nat) => coreImage t core + 0xD0000 + (8 * e + tile) * 0x10000
        let s1 := saveImage s e.1 core (at_ 0) ((tileElems x.cope).flatMap (fun w => bytesOf w.toNat 4)) (bad x 0)
        let s2 := saveImage s1 e.1 core (at_ 1) ((tileElems x.drag).flatMap (fun w => bytesOf w.toNat 4)) (bad x 1)
        let s3 := saveImage s2 e.1 core (coreImage t core + 0x880 + tile) [BitVec.ofNat 8 (tileStatus x)] none
        modTask s3 e.1 fun t => { t with claimedTiles := t.claimedTiles ++ [(core, tile)] }
    else s) s

/-! ## Ranges of virtual addresses -/

/-- The blocks of its partition that an access reaches: a victim's state is claimed first, and a first access clears (R304; spec/16
R364). -/
def touchFor (s : State) (w : Who) (l : List Placed) : State :=
  match w.task with
  | none => l.foldl (fun s p => if p.mt = 2 then noteHost s w.hearth w.ctx p.va else s) s
  | some u => l.foldl (fun s p =>
      if ownBlock s u p then
        let b := blockOf p.pa
        touchBlock (if needsClaim s u b.1 b.2 then claimBlock s b.1 b.2 else s) u b.1 b.2
      else if p.mt = 2 then noteHost s w.hearth w.ctx p.va
      else s) s

/-- The address in its task's image of a byte of a scratchpad block. -/
def blockVa (s : State) (t : Task) (pa : Nat) : Nat :=
  (imageBase s t + 0x800000 + blockOffset t (blockOf pa).2 + (paOff pa - apertureBase) % 4096) % 2 ^ 57

/-- Where a pre-empted task's access to its window performs: in the scratchpad, or in its image once the block was claimed (R305). A
block the task never held before is written to the image with zeros first. An uncorrected error in a table on the way to the image is
reported (spec/16 R359). -/
def rehome (s : State) (u : Nat) (p : Placed) : State × Option Placed :=
  match tabFind s.tasks u with
  | none => (s, some p)
  | some t =>
    if t.st ≠ 3 ∨ ownBlock s u p = false then (s, some p) else
    let b := blockOf p.pa
    let other := match blockOwnerOf s b.1 b.2 with | some o => o != u | none => false
    if other = false ∧ t.claimedBlocks.contains b.2 = false then (touchBlock s u b.1 b.2, some p) else
    let core := t.hearth * 4 + t.first
    let s1 := if t.claimedBlocks.contains b.2 then s else
      modTask (saveImage s u core (0x800000 + blockOffset t b.2) (List.replicate 4096 0) none) u
        fun t => { t with claimedBlocks := t.claimedBlocks ++ [b.2] }
    let va := blockVa s t p.pa
    match translate s t.hearth t.ctx 0 0 va { r := true, w := true } false with
    | .ok pa mt _ => (if mt = 2 then noteHost s1 t.hearth t.ctx va else s1, some { p with pa := pa, mt := mt, win := false })
    | _ => (postWalk s1 0 (coreUnit core 3) t.ctx va, none)

/-- Whether a part of an access of a halted task has no bytes any more: its block holds another task's by now (R304; spec/16 R364; log entry 65:
DESIGN CHOICE, unsafe). -/
def goneFor (s : State) (u : Nat) (p : Placed) : Bool :=
  match tabFind s.tasks u with
  | none => false
  | some t => t.st == 5 && ownBlock s u p && (match blockOwnerOf s (blockOf p.pa).1 (blockOf p.pa).2 with
    | some o => o != u && (match tabFind s.tasks o with | some k => k.st != 5 | none => false)
    | none => false)

/-- An entry among a core's outstanding ones as a part of its access. -/
def placedAcc (e : Acc) : Placed := ⟨e.va, e.off, e.n, e.pa, e.mt, e.win⟩

/-- Whether an entry of a halted task has no bytes any more. -/
def accGone (s : State) (e : Acc) : Bool := match e.task with | some u => goneFor s u (placedAcc e) | none => false

/-- An entry of a pre-empted task that goes to a block claimed since performs into the image (spec/13 R305); false where its page there
translates no more. -/
def rehomeAcc (s : State) (core n : Nat) (e : Acc) : State × Bool :=
  match e.task with
  | none => (s, true)
  | some u =>
    if e.mt = 2 ∨ isSuspended s u = false then (s, true) else
    match rehome s u (placedAcc e) with
    | (s1, some p) => (modCore s1 core fun c => { c with acc := modifyAt c.acc n (fun a => { a with pa := p.pa, mt := p.mt, win := p.win }) }, true)
    | (s1, none) => (s1, false)

/-- Where the parts of an access for a task perform, none where one has no place any more. -/
def rehomeAll (s : State) (u : Nat) : List Placed → State × Option (List Placed)
  | [] => (s, some [])
  | p :: r =>
    match rehome s u p with
    | (s1, none) => (s1, none)
    | (s1, some q) => ((rehomeAll s1 u r).1, (rehomeAll s1 u r).2.map (q :: ·))

/-- The parts of an access for a task as they stand: a task that holds its cores claims and touches its blocks, one that stands
pre-empted or has halted reaches what is left of them (R305). -/
def reach (s : State) (w : Who) (u : Nat) (l : List Placed) : State × Option (List Placed) :=
  if isSuspended s u then rehomeAll s u l
  else if l.any (goneFor s u) then (s, none)
  else (touchFor s w l, some l)

/-- The parts of an access of an engine or a stoker as they stand. -/
def reachFor (s : State) (w : Who) (l : List Placed) : State × Option (List Placed) :=
  match w.task with
  | some u => reach s w u l
  | none => (touchFor s w l, some l)

/-- The end of an access of an engine: its class (4 with a virtual address, else with a physical one). -/
abbrev EngErr := Nat × Nat

/-- The bytes of a range of virtual addresses; what lies on another device is asked for (spec/17 R382). -/
def engRead (s : State) (w : Who) (need : Need) (va n : Nat) : Except EngErr (List Byte) × State :=
  match placeFor s w need (parts (va % 2 ^ 57) n) with
  | .error a => (.error (4, a), s)
  | .ok l =>
    match reachFor s w l with
    | (s0, none) => (.error (4, va % 2 ^ 57), s0)
    | (s0, some q) =>
      let s1 := askParts s0 (whoDie w) q
      (readParts s1 (whoDie w) q, s1)

/-- Whether a read of a range, made for an operation issued at a step, has to wait: for writes of its die to the same lines of other devices
that were issued before and have still to perform (spec/10 R237), or for room in its ports (spec/17 R382). -/
def rangeWaits (s : State) (w : Who) (need : Need) (stamp va n : Nat) : Bool :=
  match placeFor s w need (parts (va % 2 ^ 57) n) with
  | .ok l => l.any (fun p => p.mt != 2 && (lineWrites s (whoDie w) p.pa p.n stamp || !linkRoom s (whoDie w) p.mt p.pa))
  | .error _ => false

/-- Whether a die has a write to another device under way, or a packet that is not acknowledged: only then can its reads have to wait. -/
def farBusy (s : State) (die : Nat) : Bool :=
  s.ports.any (fun p => !p.2.replay.isEmpty || !p.2.later.isEmpty)
    || s.cores.any (fun x => dieOf x.1 == die && x.2.acc.any (fun a => writesAcc a.kind && a.mt != 2 && isRemote s a.pa))

/-- Whether one of some reads of ranges that a die makes now has to wait. -/
def readsWait (s : State) (w : Who) (l : List (Need × Nat × Nat)) : Bool :=
  farBusy s (whoDie w) && l.any (fun x => rangeWaits s w x.1 s.tick x.2.1 x.2.2)

/-- Bytes written to a range of virtual addresses: nothing when a part does not translate or lies in a footprint, else every part
that can perform. The end of a record that lies in a footprint is log entry 66 (DEDUCED, unsafe). -/
def engWrite (s : State) (w : Who) (va : Nat) (b : List Byte) : State × Option EngErr :=
  match placeFor s w { w := true } (parts (va % 2 ^ 57) b.length) with
  | .error a => (s, some (4, a))
  | .ok l =>
    match l.find? (fun p => (footHit s p.mt p.pa p.n).isSome) with
    | some p => (s, some (13, p.pa))
    | none =>
      match reachFor s w l with
      | (s1, none) => (s1, some (4, va % 2 ^ 57))
      | (s1, some q) => writeParts s1 (whoDie w) (some w.ctx) b q none

/-- The bytes of a range of virtual addresses before the first that does not translate. -/
def placedPrefix (s : State) (w : Who) (need : Need) : List (Nat × Nat × Nat) → List Placed × Option Nat
  | [] => ([], none)
  | (va, off, n) :: r =>
    match placeFor s w need [(va, off, n)] with
    | .ok l => (l ++ (placedPrefix s w need r).1, (placedPrefix s w need r).2)
    | .error a => ([], some a)

/-- The token code of an error class (spec/17 R432). -/
def codeOf (cls : Nat) : Nat := if cls = 4 then 4 else if cls = 13 then 6 else 5

/-! ## Tokens (spec/12 R273) -/

/-- A token's state. -/
def tokOf (c : Core) (n : Nat) : Tok := if n = 0 then .ok else tabGet c.tok n .ok
/-- A token's image byte. -/
def tokByte (t : Tok) : Nat := match t with | .ok => 0 | .pending => 128 | .err c => 64 + c.toNat
/-- A token's state set; n0 holds none. -/
def setTok (s : State) (core n : Nat) (k : Tok) : State := if n = 0 then s else modCore s core fun c => { c with tok := tabSet c.tok n k }

/-- The tokens of a consumed list (spec/08 R175). -/
def consumed (l : W64) : List Nat :=
  ([0, 1, 2].filter (fun i => l.getLsbD (7 * i + 6) && (l.extractLsb' (7 * i) 6 != 0))).map (fun i => (l.extractLsb' (7 * i) 6).toNat)

/-- Whether every consumed token is done. -/
def listDone (c : Core) (l : W64) : Bool := (consumed l).all (fun n => tokOf c n != .pending)
/-- Whether a consumed token is done-error. -/
def listFailed (c : Core) (l : W64) : Bool := (consumed l).any (fun n => match tokOf c n with | .err _ => true | _ => false)

/-! ## Epochs left open (spec/06 R117) -/

/-- CRC-64/ECMA-182 of a byte string (spec/06 R118). -/
def crcByte (c : W64) (b : Byte) : W64 :=
  (List.range 8).foldl (fun (c : W64) _ => if c.getLsbD 63 then (c <<< 1) ^^^ 0x42F0E1EBA9EA3693 else c <<< 1) (c ^^^ ((b.setWidth 64) <<< 56))

/-- The CRC of a list of bytes. -/
def crc64 (l : List Byte) : W64 := l.foldl crcByte 0

/-- What orders the bytes of an image: scratchpad addresses before global ones (R118). -/
def imageKey (va : Nat) : Nat := if windowBase ≤ va then va - windowBase else va + 2 ^ 57
/-- The address of an ordering key. -/
def keyAddr (k : Nat) : Nat := if 2 ^ 57 ≤ k then k - 2 ^ 57 else k + windowBase

/-- The bytes of stored rows, each address once with the last value stored, in the order of R118. -/
def imageOfRows (rows : List HeldRow) : Tab Byte :=
  rows.foldl (fun t r => (r.bytes.zipIdx).foldl (fun t b => tabSet t (imageKey (r.va + b.2)) b.1) t) []

/-- The signature of stored rows. -/
def signature (rows : List HeldRow) : W64 := crc64 ((imageOfRows rows).map Prod.snd)

/-- A count one higher, at most 2^32 − 1. -/
def satInc (x : BitVec 32) : BitVec 32 := if x = BitVec.allOnes 32 then x else x + 1

/-- Whether the task of a core still holds green rows of a tile (R128). -/
def greenRows (t : Task) (core tile : Nat) : Bool := t.held.any (fun h => h.core == core && h.tile == some tile)

/-- A matrix unit after a tile's open epoch is abandoned: the held stores go, the count rises, the signatures stand (spec/07 R145). -/
def abandonTile (m : MUnit) (tile : Nat) (green : Bool) : MUnit :=
  match tabFind m.tiles tile with
  | none => m
  | some x =>
    match x.epoch with
    | none => m
    | some e =>
      { m with
        abandon := satInc m.abandon
        tiles := tabSet m.tiles tile { x with
          epoch := none, inflight := green
          last := { cope := signature e.held, drag := signature e.drag, assay := 0, outcome := 5 } } }

/-- The open epoch of a core's tile is abandoned. -/
def abandonAt (s : State) (core tile : Nat) : State :=
  let g := match taskOf s core with | some t => greenRows t core tile | none => false
  modCore s core fun c => { c with mu := abandonTile c.mu tile g }

/-- Every open epoch of a core is abandoned. -/
def abandonAll (s : State) (core : Nat) : State := (List.range 8).foldl (fun s t => abandonAt s core t) s

/-! ## The halting of a task (spec/02 R31, R33) -/

/-- Whether a matrix unit has nothing to do. -/
def unitIdle (m : MUnit) : Bool := m.run.isNone && m.queue.isEmpty

/-- Whether every token of a core is done. -/
def tokensDone (c : Core) : Bool := c.tok.all (fun e => e.2 != .pending)

/-- Whether a core lets its task halt: the tokens it produced there have completed (R31), and after an error its matrix work has run to its end
(spec/07 R163). An operation that names no token keeps no task from halting (log entry 65: DESIGN CHOICE, unsafe). -/
def coreQuiet (t : Task) (c : Core) : Bool := tokensDone c && (t.error.isNone || unitIdle c.mu)

/-- Whether a runner operation of a task still waits on a core. -/
def queuedFor (c : Core) (u : Nat) : Bool := c.chan.any (fun h => h.2.queue.any (fun e => e.task == u))

/-- What is left of the cores of a halted task while its matrix units and runners go on (spec/07 R163; spec/15 R345). -/
def lastUnits (u : Nat) (cs : List Core) : List Core :=
  if cs.all (fun c => unitIdle c.mu && !queuedFor c u) then [] else cs.map (fun c => { tok := c.tok, mu := { c.mu with suspended := false }, halted := true })

/-- A core that its task gives up. -/
def leaveCore (c : Core) : Core :=
  { c with task := none, halted := true, wait := .none, hold := .none, handler := false, trapped := false, retPend := none, blocked := none
           flight := [], fresh := [], late := [], ctl := { c.ctl with post := none }
           mu := if unitIdle c.mu then c.mu else { c.mu with queue := [], run := none, tiles := [] } }

/-- The images and claims of a task are given up: banks and blocks that it left hold no state any more, and its banks read as zero
(spec/16 R364). -/
def dropState (s : State) (u : Nat) (t : Task) : State :=
  let s1 := (gangOf t).foldl (fun s i => modCore s i fun c =>
    let left := (c.bankOwner.filter (fun b => b.2 == some u)).map Prod.fst
    { c with bankOwner := c.bankOwner.filter (fun b => b.2 != some u)
             regs := { c.regs with v := c.regs.v.filter (fun e => !left.contains (e.1 / 32)) } }) s
  modHearth s1 t.hearth fun h => { h with blockOwner := h.blockOwner.filter (fun b => b.2 != some u) }

/-- The open epochs of the units that a task left behind are abandoned and counted by their cores (spec/06 R117, spec/07 R144). -/
def abandonSaved (s : State) (t : Task) : State :=
  (List.zip (gangOf t) t.saved).foldl (fun s e => modCore s e.1 fun c =>
    let m := (List.range 8).foldl (fun m i => abandonTile m i (greenRows t e.1 i)) { e.2.mu with abandon := c.mu.abandon }
    { c with mu := { c.mu with abandon := m.abandon } }) s

/-- The image slot of a task is free. -/
def leaveSlot (s : State) (t : Task) : State := modCtx s t.ctx fun c => { c with slots := c.slots.filter (fun i => i != t.slot) }

/-- The last work of a task that holds no cores has ended: one that ended in error while it stood pre-empted is halted now (spec/07
R163, spec/13 R434). -/
def endUnits (s : State) (u : Nat) (t : Task) : State :=
  let s1 := abandonSaved s t
  let s2 := modTask (if t.st = 3 then dropState s1 u t else s1) u fun t => { t with st := 5, saved := [], preempt := false, yielded := false }
  if t.st = 3 then leaveSlot s2 t else s2

/-- A task halts once every core of it has executed `HALT`, or it ended in error and its cores stopped, and its last token has completed; its
stores may still be outstanding. Its open epochs are abandoned, its cores, partition, banks and image slot are free (R33, R117, R365). -/
def settleTask (s : State) (u : Nat) : State :=
  match tabFind s.tasks u with
  | none => s
  | some t =>
    let cs := (gangOf t).map (getCore s)
    if (t.st = 1 ∨ t.st = 2 ∨ t.st = 4)
        ∧ cs.all (fun c => (c.halted || (t.error.isSome && (c.decided || c.handler || c.wait != .none || c.hold != .none))) && coreQuiet t c) = true then
      let s1 := (gangOf t).foldl abandonAll s
      let left := lastUnits u ((gangOf t).map (getCore s1))
      let s2 := (gangOf t).foldl (fun s c => modCore s c leaveCore) s1
      leaveSlot (modTask s2 u fun t => { t with st := 5, preempt := false, yielded := false, saved := left }) t
    else if t.saved.all (fun c => unitIdle c.mu) = true ∧ cs.any (fun c => queuedFor c u) = false ∧ t.ended = false
        ∧ ((t.st = 5 ∧ t.saved ≠ []) ∨ (t.st = 3 ∧ t.error.isSome = true ∧ t.saved.all tokensDone = true)) then endUnits s u t
    else s

/-- The task of a core settled. -/
def settleCore (s : State) (core : Nat) : State :=
  match (getCore s core).task with
  | some u => settleTask s u
  | none => s

/-! ## Errors of M and C operations (spec/17 R432) -/

/-- A token completes done-error and its task's error is noted and reported. `dir` is DATA0 of a report of SUB 0, `word` and `tile`
DATA2 and DATA3 of one of SUB 11. -/
def tokenError (s : State) (core tok code cls addr dir word tile : Nat) : State :=
  let s1 := setTok s core tok (.err (BitVec.ofNat 3 code))
  let ctx := ctxOf s core
  if code = 7 then s1 else
  match (getCore s core).task with
  | none => s1
  | some u =>
    let e : ErrInfo := ⟨BitVec.ofNat 8 cls, 0, coreUnit core 3, BitVec.ofNat 64 addr,
      if cls = 1 ∨ cls = 2 then BitVec.ofNat 16 (256 * tile) else accInfo s cls addr⟩
    if code = 1 ∨ code = 2 then postFor (noteError s1 u e) u (mkReport 11 cls 0 (coreUnit core 3) ctx addr code tok word tile)
    else if code = 3 then noteAccess s1 u e
    else postAccess (noteAccess s1 u e) 0 (coreUnit core 3) ctx cls addr dir tok 0

end Sys2Proof.Machine
end

