-- ==== Sys2Proof/Machine/Matrix.lean ====
section
/-! DEFINITION. The matrix unit: M-slot operations, micro-ops, the two engines and the assay path (spec/06 R112-R128, R431; spec/07). -/

namespace Sys2Proof.Machine

open Sys2Proof

/-! ## Operand formats (spec/05 R94) -/

/-- An operand format: a floating-point format or an 8-bit integer. -/
def matFmt (code : Nat) : ETy :=
  match code with
  | 0 => .flt e4m3
  | 1 => .flt e5m2
  | 2 => .flt bf16
  | 3 => .flt fp16
  | 4 => .int 8 true
  | _ => .int 8 false

/-- AFMT of a sampled FMT. -/
def aCode (fmt : W32) : Nat := (fmt.extractLsb' 12 3).toNat
/-- BFMT. -/
def bCode (fmt : W32) : Nat := (fmt.extractLsb' 15 3).toNat
/-- ACCFMT. -/
def accCode (fmt : W32) : Nat := (fmt.extractLsb' 18 2).toNat
/-- SCALE. -/
def scaleOf (fmt : W32) : Bool := fmt.getLsbD 26
/-- Whether the operands are FP8. -/
def isFp8 (fmt : W32) : Bool := aCode fmt ≤ 1 && bCode fmt ≤ 1
/-- Whether the combination is defined (R94). -/
def combOk (fmt : W32) : Bool :=
  let a := aCode fmt
  let b := bCode fmt
  let c := accCode fmt
  (a ≤ 1 && b ≤ 1 && c == 0)
  || (a == 2 && b == 2 && c == 0 && !scaleOf fmt)
  || (a == 3 && b == 3 && c == 0 && !scaleOf fmt)
  || (4 ≤ a && a ≤ 5 && 4 ≤ b && b ≤ 5 && c == 1 && !scaleOf fmt)
/-- Bytes of an operand element. -/
def opSize (code : Nat) : Nat := if code = 2 ∨ code = 3 then 2 else 1

/-! ## One step of an engine (spec/06 R113, spec/05 R105-R107) -/

/-- `k` pieces of `n` elements. -/
def chunks {α : Type} (n : Nat) : Nat → List α → List (List α)
  | 0, _ => []
  | k + 1, l => l.take n :: chunks n k (l.drop n)

/-- The scale of an element of a block shape, by row and column (R107). -/
def scaleAt (st : Stage) (r c : Nat) : Ex :=
  decodeF fp32 ((st.elems[(r / st.ext0) * (128 / st.ext1) + c / st.ext1]?).getD 0).toNat

/-- An operand's values with their scales, row by row. -/
def scaledRows (code : Nat) (st : Stage) (sc : Option Stage) : List (List Ex) :=
  (chunks 128 128 st.elems).zipIdx.map (fun r => r.1.zipIdx.map (fun e =>
    let v := match matFmt code with
      | .flt f => decodeF f e.1.toNat
      | .int b sg => exInt (intVal b sg e.1.toNat)
    match sc with
    | some t => exMul (scaleAt t r.2 e.2) v
    | none => v))

/-- An operand's integers, row by row. -/
def intRows (code : Nat) (st : Stage) : List (List Int) :=
  (chunks 128 128 st.elems).map (fun r => r.map (fun e => intVal 8 (code == 4) e.toNat))

/-- The columns of 128 rows. -/
def columns {α : Type} (d : α) (rows : List (List α)) : List (List α) := (List.range 128).map (fun j => rows.map (fun r => (r[j]?).getD d))

/-- The bits a faulty engine flips in an element (log entry 11: DESIGN CHOICE, unsafe). -/
def flipOf (s : State) (core engine tile elem : Nat) : W32 :=
  s.faults.foldl (fun x f => if f.core = core ∧ f.engine = engine ∧ f.tile.getD tile = tile ∧ f.elem = elem then x ^^^ f.flip else x) 0

/-- An engine's result with its faults. -/
def engineOut (s : State) (core engine tile : Nat) (l : List W32) : List W32 :=
  if s.faults.isEmpty then l else l.zipIdx.map (fun e => e.1 ^^^ flipOf s core engine tile e.2)

/-- The accumulators after a step, and whether an exact integer sum left the INT32 range. -/
def stepElems (fmt : W32) (a b : Stage) (sa sb : Option Stage) (acc : List W32) : List W32 × Bool :=
  if accCode fmt = 1 then
    let cols := columns 0 (intRows (bCode fmt) b)
    let dots := (intRows (aCode fmt) a).flatMap (fun r => cols.map (fun c => (List.zipWith (fun x y => x * y) r c).foldl (fun x y => x + y) 0))
    let sums := List.zipWith (fun (x : W32) (d : Int) => x.toInt + d) (tileElems acc) dots
    (sums.map (BitVec.ofInt 32), sums.any (fun v => decide (v < intMin 32 true) || decide (intMax 32 true < v)))
  else
    let cols := columns Ex.nan (scaledRows (bCode fmt) b sb)
    let dots := (scaledRows (aCode fmt) a sa).flatMap (fun r => cols.map (fun c => List.zipWith exMul r c))
    (List.zipWith (fun (x : W32) (d : List Ex) =>
      BitVec.ofNat 32 (roundF fp32 (rmOf fmt) (satOf fmt) (exSum (decodeF fp32 x.toNat :: d) (rmOf fmt)))) (tileElems acc) dots, false)

/-! ## The epilogue (R115, spec/07 R156) -/

/-- The output format a code names. -/
def outFmt (code : Nat) : Option ETy :=
  match code with
  | 0 => some (.flt fp32)
  | 1 => some (.flt bf16)
  | 2 => some (.flt fp16)
  | 3 => some (.flt e4m3)
  | 4 => some (.flt e5m2)
  | 5 => some (.int 32 true)
  | 6 => some (.int 8 true)
  | 7 => some (.int 8 false)
  | _ => none

/-- A converted element with RELU: below zero and −0 become +0. -/
def relu (t : ETy) (x : Nat) : Nat :=
  match t with
  | .flt f => if isNaN f x then x else if x / 2 ^ (f.e + f.m) % 2 = 1 then 0 else x
  | .int b sg => if intVal b sg x < 0 then 0 else x

/-- One element of the epilogue; `int` says that the accumulator is INT32. -/
def epiElem (fmt : W32) (int : Bool) (t : ETy) (qnt act : Bool) (scale : W32) (v : W32) : W32 :=
  let o := match qnt, t with
    | true, .flt f =>
      roundF f (rmOf fmt) (satOf fmt) (exDiv (if int then exInt v.toInt else decodeF fp32 v.toNat) (decodeF fp32 scale.toNat))
    | _, _ =>
      if t = .flt fp32 ∧ int = false then v.toNat
      else convert (if int then .int 32 true else .flt fp32) t (rmOf fmt) (satOf fmt) v.toNat
  BitVec.ofNat 32 (if act then relu t o else o)

/-- The output elements of an engine's copy of a tile. -/
def epiElems (fmt imm scale : W32) (int : Bool) (l : List W32) : List W32 :=
  match outFmt (imm.extractLsb' 0 4).toNat with
  | some t => (tileElems l).map (epiElem fmt int t (imm.getLsbD 4) (imm.getLsbD 5) scale)
  | none => []

/-- Bytes of an output element. -/
def outSize (imm : W32) : Nat :=
  match outFmt (imm.extractLsb' 0 4).toNat with
  | some t => etyBits t / 8
  | none => 0

/-- Row i of an output image as bytes. -/
def imageRow (size : Nat) (l : List W32) (i : Nat) : List Byte := ((l.drop (128 * i)).take 128).flatMap (fun e => bytesOf e.toNat size)

/-! ## Parts of the unit -/

/-- The matrix unit of the executing core changed. -/
def modMu (s : State) (f : MUnit → MUnit) : State := modMe s fun c => { c with mu := f c.mu }
/-- A tile of a core. -/
def tileOf (c : Core) (t : Nat) : Tile := tabGet c.mu.tiles t {}
/-- A tile of a core changed. -/
def modTileAt (s : State) (core t : Nat) (f : Tile → Tile) : State :=
  modCore s core fun c => { c with mu := { c.mu with tiles := tabSet c.mu.tiles t (f (tabGet c.mu.tiles t {})) } }
/-- A tile of the executing core changed. -/
def modTile (s : State) (t : Nat) (f : Tile → Tile) : State := modTileAt s s.cur t f
/-- The working set of the running routine changed. -/
def modRun (s : State) (f : MRun → MRun) : State := modMu s fun m => { m with run := m.run.map f }
/-- The next micro-op. -/
def microNext (s : State) : State := modRun s fun r => { r with upc := r.upc + 1 }
/-- Entries of the queue, the running one counted (R138). -/
def queueDepth (m : MUnit) : Nat := m.queue.length + (if m.run.isSome then 1 else 0)

/-- The running routine ends with a fault of its token (R142, R432); everything done before stays done (R149). -/
def microFault (s : State) (code cls addr dir tile : Nat) : State :=
  match (me s).mu.run with
  | none => s
  | some r =>
    let s1 := modMu s fun m => { m with run := none }
    settleCore (tokenError s1 s.cur r.entry.tok code cls addr dir r.upc tile) s.cur

/-- A fault of code 7 (R149, R155-R159). -/
def microAbort (s : State) : State := microFault s 7 0 0 0 0

/-- A micro-op on the executing core: without a running routine, or while its `SIGCHK` is in assay, nothing happens. -/
def micro (s : State) (k : MRun → Task → Nat → State → State) : Out :=
  .next (match (me s).mu.run, (me s).task with
    | some r, some u =>
      match tabFind s.tasks u with
      | some t => if (me s).mu.tiles.any (fun x => x.2.epoch.any (fun e => e.checking)) then s else k r t u s
      | none => s
    | _, _ => s)

/-- Bytes an open epoch of the core holds in the confirmed share (R119). -/
def heldBytes (c : Core) : Nat :=
  (c.mu.tiles.flatMap (fun x => match x.2.epoch with | some e => e.held.map (fun r => r.bytes.length) | none => [])).sum

/-- Whether the running routine's open epochs hold stores (spec/06 R127): those that it opened or stored from itself (log entry 79: DEDUCED,
unsafe). -/
def routineHolds (c : Core) : Bool :=
  match c.mu.run with
  | some r => r.mine.any (fun i => match (tileOf c i).epoch with | some e => !e.held.isEmpty | none => false)
  | none => false

/-- A tile noted as one of the running routine's. -/
def noteMine (i : Nat) (r : MRun) : MRun := if r.mine.contains i then r else { r with mine := r.mine ++ [i] }

/-! ## The unit of a pre-empted or halted task (R162, R163) -/

/-- A unit with the counts of another: the counts are the core's own (R144). -/
def unitCounts (m k : MUnit) : MUnit := { m with abandon := k.abandon, dis0 := k.dis0, dis1 := k.dis1, unres := k.unres }

/-- Something done with the matrix unit of a task on one of its cores, also while the task stands pre-empted or has halted and another holds
the core: its running entry goes on to its next suspend point, with the words of its store as the task's own copy has them (log entry 68:
DESIGN CHOICE, unsafe), and what changes of its tokens reaches its image. -/
def onUnit (s : State) (core u : Nat) (f : State → State) : State :=
  let s0 := { s with cur := core }
  if (getCore s core).task = some u then { f s0 with cur := s.cur } else
  match tabFind s.tasks u with
  | none => s
  | some t =>
    match t.saved[core % 4 - t.first]? with
    | none => s
    | some k =>
      let c := getCore s core
      let s1 := f (modCore s0 core fun x => { x with task := some u, mu := unitCounts k.mu c.mu, tok := k.tok })
      let k1 := getCore s1 core
      let s2 := modCore s1 core fun x => { x with task := c.task, mu := unitCounts c.mu k1.mu, tok := c.tok }
      let s3 := modTask s2 u fun t => { t with
        saved := modifyAt t.saved (core % 4 - t.first) (fun y => { y with mu := k1.mu, tok := k1.tok }) }
      let s4 := ((List.range 64).filter (fun n => tokOf k n != tokOf k1 n)).foldl
        (fun s n => keepImage s core u (0x500 + n) [BitVec.ofNat 8 (tokByte (tokOf k1 n))]) s3
      settleTask { s4 with cur := s.cur } u

/-- Whether a task that holds no cores runs its matrix work to its end: it has halted, or it ended in error (R163). -/
def runsOut (t : Task) : Bool := t.st == 5 || (t.st == 3 && t.error.isSome)

/-- The task without this core whose matrix work goes on there: a routine of a pre-empted one on its way to its suspend point, or what a halted
one has left. -/
def victimOn (s : State) (core : Nat) : Option Nat :=
  (s.tasks.find? (fun t => (gangOf t.2).contains core &&
    (match t.2.saved[core % 4 - t.2.first]? with
      | some k => if runsOut t.2 then !unitIdle k.mu else t.2.st == 3 && k.mu.run.isSome && !k.mu.suspended
      | none => false))).map Prod.fst

/-! ## M-slot operations (R138-R147) -/

/-- The checks of R139 and the entry into the queue. -/
def mEnqueue (u : BitVec 4) (kind : MKind) (tok : BitVec 6) (list : W64) (s : State) : State :=
  let c := me s
  if tokOf c tok.toNat = .pending then slotTrap s u.toNat 0x10 0 (tok.setWidth 32)
  else if 16 ≤ queueDepth c.mu then slotTrap s u.toNat 0x10 0 0
  else
    let e : MEntry := {
      kind := kind, tok := tok.toNat, list := list, fmt := c.sys.fmt
      p := (List.range 8).map (fun r => (r, seeP s c r)), g := (List.range 8).map (fun r => (r, seeG s c r))
      no := c.bundleNo, priv := c.sys.priv, stamp := s.tick }
    modMu (setTok s s.cur tok.toNat .pending) fun m => { m with queue := m.queue ++ [e] }

/-- The M slot. -/
def unitM : BitVec 4 := 5

/-- MCALL (R142): an undefined combination of formats traps first (spec/05 R94). -/
def execMcall (o : MCallOp) (s : State) : Out :=
  guarded s o.g fun s =>
    let fmt := (me s).sys.fmt
    if combOk fmt then mEnqueue unitM (.call o.routine.toNat) o.tok (seeX s (me s) o.list.toNat) s
    else slotTrap s unitM.toNat 0x09 0 (BitVec.ofNat 32 (aCode fmt))
/-- MCLR (R143). -/
def execMclr (o : MClrOp) (s : State) : Out := guarded s o.g fun s => mEnqueue unitM (.clr o.mask) o.tok 0 s
/-- MSTAT (R144). -/
def execMstat (o : MStatOp) (s : State) : Out :=
  guarded s o.g fun s => mEnqueue unitM (.stat (seeX s (me s) o.a.toNat).toNat) o.tok 0 s
/-- MSIG (R145). -/
def execMsig (o : MSigOp) (s : State) : Out :=
  guarded s o.g fun s => mEnqueue unitM (.sig o.tile.toNat (seeX s (me s) o.a.toNat).toNat) o.tok 0 s
/-- MLOAD (R147): privileged (spec/03 R61). -/
def execMload (o : MLoadOp) (s : State) : Out :=
  guarded s o.g fun s =>
    if isSup (me s) then mEnqueue unitM (.load (seeX s (me s) o.a.toNat).toNat (seeX s (me s) o.b.toNat)) o.tok 0 s
    else slotTrap s unitM.toNat 0x03 0 0

/-- The end of an abort: the running entry's token, and every open epoch. -/
def stopUnit (s : State) (core : Nat) : State :=
  let s1 := match (getCore s core).mu.run with
    | some r => setTok (modCore s core fun c => { c with mu := { c.mu with run := none } }) core r.entry.tok (.err 7)
    | none => s
  settleCore (abandonAll s1 core) core

/-- The queue emptied and the running entry stopped; a `SIGCHK` in assay runs to its outcome first (R146, R163). -/
def abortUnit (s : State) (core : Nat) : State :=
  let c := getCore s core
  let s1 := c.mu.queue.foldl (fun s e => setTok s core e.tok (.err 7)) s
  let s2 := modCore s1 core fun c => { c with mu := { c.mu with queue := [] } }
  if c.mu.tiles.any (fun x => x.2.epoch.any (fun e => e.checking)) then
    modCore s2 core fun c => { c with mu := { c.mu with run := c.mu.run.map (fun r => { r with stop := true }) } }
  else stopUnit s2 core

/-- MABORT (R146): acts at its issue. -/
def execMabort (o : MAbortOp) (s : State) : Out := guarded s o.g fun s => abortUnit s s.cur

/-! ## The head of the queue -/

/-- The record of `MSTAT` (R144). HELD of a task just confirmed counts all that its open epochs hold (log entry 69: DESIGN CHOICE, unsafe). -/
def statBytes (c : Core) (green : Bool) : List Byte :=
  (List.range 8).map (fun t => BitVec.ofNat 8 (tileStatus (tileOf c t)))
  ++ bytesOf c.mu.abandon.toNat 4 ++ bytesOf c.mu.dis0.toNat 4 ++ bytesOf c.mu.dis1.toNat 4 ++ bytesOf c.mu.unres.toNat 4
  ++ bytesOf (if green then 0 else heldBytes c) 4 ++ bytesOf c.mu.queue.length 1 ++ List.replicate 35 0

/-- The record of `MSIG` (R145). -/
def sigBytes (t : Nat) (l : LastSig) : List Byte :=
  bytesOf l.cope.toNat 8 ++ bytesOf l.drag.toNat 8 ++ bytesOf l.assay.toNat 8 ++ [l.outcome, BitVec.ofNat 8 t] ++ List.replicate 6 0

/-- A tile after `MCLR` (R143). -/
def clearTile (t : Tile) : Tile :=
  { t with cope := [], drag := [], valid := false, dirty := false, ovf := false, accint := false, image := none, bad := 0 }

/-- A record that went to another device noted until it is acknowledged (spec/11 R244). -/
def noteRecord (s0 s1 : State) (core : Nat) (w : Who) (tok addr n : Nat) : State :=
  match placeFor s0 w { w := true } (parts (addr % 2 ^ 57) n) with
  | .ok (p :: _) => noteSent s0 s1 core w.task p.mt p.pa (.record tok) 0
  | _ => s1

/-- A record written for `MSTAT` or `MSIG`, and the token's end: at once, or on the acknowledgement of one that went to another device (spec/11
R250). -/
def writeRecord (s : State) (core : Nat) (w : Who) (tok addr align : Nat) (b : List Byte) : State :=
  if addr % align ≠ 0 then setTok s core tok (.err 7)
  else
    match engWrite s w addr b with
    | (s1, none) =>
      let s2 := noteRecord s s1 core w tok addr b.length
      if ackOut s2 core w.task (fun k => k == .record tok) then s2 else setTok s2 core tok .ok
    | (s1, some (cls, a)) => tokenError s1 core tok (codeOf cls) cls a 1 0 0

/-- The words of `MLOAD` read one by one; those before a failure stay (R147). -/
def loadWords (s : State) (core : Nat) (w : Who) (tok addr first : Nat) : Nat → Nat → State
  | 0, _ => setTok s core tok .ok
  | n + 1, i =>
    match engRead s w { x := true } (addr + 8 * i) 8 with
    | (.ok b, s1) =>
      loadWords (modCore s1 core fun c => { c with mu := { c.mu with store := tabSet c.mu.store (first + i) (BitVec.ofNat 64 (natOfBytes b)) } })
        core w tok addr first n (i + 1)
    | (.error (cls, a), s1) => tokenError s1 core tok (codeOf cls) cls a 0 0 0

/-- Whether the words of an `MLOAD` cannot be read yet. -/
def entryWaits (s : State) (u : Nat) (t : Task) (e : MEntry) : Bool :=
  match e.kind with
  | .load a r => rangeWaits s (whoTask u t (e.priv == 1)) { x := true } e.stamp a (8 * (if r.toNat / 2 ^ 16 % 4096 = 0 then 4096 else r.toNat / 2 ^ 16 % 4096))
  | _ => false

/-- The head entry performed, or its routine started (R142-R147). -/
def runEntry (s : State) (core u : Nat) (t : Task) (e : MEntry) : State :=
  let w := whoTask u t (e.priv == 1)
  let c := getCore s core
  match e.kind with
  | .call i => modCore s core fun c => { c with mu := { c.mu with run := some { entry := e, upc := 16 * i } } }
  | .clr m =>
    let go := fun (s : State) (i : Nat) =>
      if m.getLsbD i then
        modTileAt (abandonAt s core i) core i clearTile
      else s
    setTok ((List.range 8).foldl go s) core e.tok .ok
  | .stat a => writeRecord s core w e.tok a 64 (statBytes c t.green)
  | .sig i a => writeRecord s core w e.tok a 32 (sigBytes i (tileOf c i).last)
  | .load a r =>
    let f := r.toNat % 4096
    let n := if r.toNat / 2 ^ 16 % 4096 = 0 then 4096 else r.toNat / 2 ^ 16 % 4096
    if a % 8 ≠ 0 ∨ 4096 < f + n then setTok s core e.tok (.err 7) else loadWords s core w e.tok a f n 0

/-- The runner operations of a task on a core: token, consumed list and bundle. -/
def chanEntries (c : Core) (u : Nat) : List (Nat × W64 × Nat) :=
  c.chan.flatMap (fun h => ((h.2.run.toList.map (fun r => r.e)) ++ h.2.queue).filterMap (fun e => if e.task = u then some (e.tok, e.list, e.no) else none))

/-- Whether tokens wait for M work of a core, directly or through runner operations that produce them. -/
def toksBehindM (c : Core) (u : Nat) : Nat → List Nat → Bool
  | 0, _ => false
  | n + 1, l => l.any (fun k => tokOf c k == .pending &&
      ((c.mu.run.toList.map (fun r => r.entry) ++ c.mu.queue).any (fun e => e.tok == k)
        || toksBehindM c u n (((chanEntries c u).filter (fun e => e.1 == k)).flatMap (fun e => consumed e.2.1))))

/-- Whether a fence waits for M accesses, or for runner operations that wait for M work. -/
def fenceBehindM (c : Core) (u : Nat) (p : Acc) : Bool :=
  match p.kind with
  | .fence pred _ _ => pred &&& 0x30 != 0 ||
      (pred &&& 0x0C != 0 && (chanEntries c u).any (fun e => decide (e.2.2 < p.no) && toksBehindM c u 64 (consumed e.2.1)))
  | _ => false

/-- Whether an entry behind such a fence must land before a task's gang can stop: the unit goes on until it has (spec/13 R302). -/
def landsBehindM (s : State) (u : Nat) (t : Task) : Bool :=
  (gangOf t).any (fun i =>
    let l := (getCore s i).acc.filter (fun a => a.task == some u)
    l.zipIdx.any (fun a => (match a.1.kind with | .store => false | .fence _ _ _ => false | .drain => false | .signal (.event _ _) => false | _ => true)
      && (l.take a.2).any (fenceBehindM (getCore s i) u)))

/-- Whether a task's M work stops at its next suspend point (R162): it stands pre-empted, or is about to. A gang whose cores have all halted,
or that ended in error, runs its M work to completion (R163). -/
def mustStop (s : State) (u : Nat) (t : Task) : Bool :=
  t.error.isNone && (t.st == 3 || (t.preempt && (gangOf t).any (fun i => !(getCore s i).halted) && !landsBehindM s u t))

/-- The head of the queue of the unit that a core's task sees starts when every entry before it has completed, its consumed tokens are done and no
fence holds it back (R138; spec/11 R250); `MLOAD` comes after writes of the die to the same lines (spec/10 R237). -/
def startHead (s : State) (core : Nat) : State :=
  let c := getCore s core
  match c.mu.run, c.mu.queue, c.task with
  | none, e :: rest, some u =>
    match tabFind s.tasks u with
    | none => s
    | some t =>
      if listDone c e.list = false ∨ engineHeld c c.task 0x30 e.no = true ∨ mustStop s u t = true ∨ entryWaits s u t e = true
        ∨ ackOut s core c.task isMatrixSent = true then s
      else
        let s1 := modCore s core fun c => { c with mu := { c.mu with queue := rest } }
        settleCore (if listFailed c e.list then setTok s1 core e.tok (.err 7) else runEntry s1 core u t e) core
  | _, _, _ => s

/-- MATRIX_ENTRY_START (R138): the entries of a task that has left the core go first (R162, R163). -/
def execMatrixEntryStart (core : Nat) (s : State) : Out :=
  .next (match victimOn s core with
    | some u => onUnit s core u (fun s => startHead s core)
    | none => startHead s core)

/-! ## Operand loads (R151-R153) -/

/-- The address of row r of a stride set (R136). -/
def rowAddr (g : Stride) (r : Nat) : Nat := lAddr g.base.toNat (r * g.str0.toInt)

/-- A stride set of the working set. -/
def setOf (r : MRun) (g : BitVec 3) : Stride := tabGet r.entry.g g.toNat {}
/-- A parameter of the working set. -/
def paramOf (r : MRun) (p : BitVec 3) : W64 := tabGet r.entry.p p.toNat 0

/-- The 128-byte pieces of rows, in order. -/
def rowPieces (addrs : List Nat) (n : Nat) : List (Nat × Nat × Nat) :=
  addrs.zipIdx.flatMap (fun a => (List.range (n / 128)).map (fun k => ((a.1 + 128 * k) % 2 ^ 57, n * a.2 + 128 * k, 128)))

/-- Whether a piece lies in the partition. -/
def inPart (t : Task) (va n : Nat) : Bool := windowBase ≤ va && va + n ≤ windowBase + t.part

/-- What a load of rows from the partition ends with: code, class and address of a fault, or bytes and physical addresses. -/
inductive Staged where
  | ok (s : State) (bytes : List Byte) (pas : List Nat)
  | fault (s : State) (code cls addr : Nat)
  deriving DecidableEq, Repr

/-- Rows of `n` bytes read from the partition (R151). `align` is 128 for rows and 512 for scale tiles, whose faults have code 2. -/
def stageBytes (s : State) (t : Task) (u : Nat) (addrs : List Nat) (n align : Nat) : Staged :=
  let scale := align == 512
  match addrs.find? (fun a => a % align != 0) with
  | some a => .fault s (if scale then 2 else 1) (if scale then 8 else 7) a
  | none =>
    let pcs := rowPieces addrs n
    match pcs.find? (fun p => !inPart t p.1 p.2.2) with
    | some p => .fault s (if scale then 2 else 4) (if scale then 8 else 4) p.1
    | none =>
      let w := whoTask u t false
      match placeFor s w { r := true } pcs with
      | .error a => .fault s (if scale then 2 else 4) (if scale then 8 else 4) a
      | .ok l =>
        match reach s w u l with
        | (s1, none) => .fault s1 (if scale then 2 else 4) (if scale then 8 else 4) (addrs.head?.getD 0)
        | (s1, some q) =>
          match readParts s1 (whoDie w) q with
          | .ok b => .ok s1 b (l.map (fun p => p.pa))
          | .error (c, a) => .fault s1 5 c a

/-- Rows read join the footprint of every open epoch of the core. -/
def addFootprint (s : State) (pas : List Nat) : State :=
  modMu s fun m => { m with tiles := tabMap m.tiles (fun _ t => { t with
    epoch := t.epoch.map (fun e => { e with foot := e.foot ++ ((pas.map (fun p => paOff p / 128)).filter (fun r => !e.foot.contains r)) }) }) }

/-- The little-endian elements of a byte list. -/
def elemsOf (size : Nat) : Nat → List Byte → List W32
  | 0, _ => []
  | k + 1, b => BitVec.ofNat 32 (natOfBytes (b.take size)) :: elemsOf size k (b.drop size)

/-- The bank groups of physical addresses. -/
def groupsOf (pas : List Nat) : List Nat := (pas.map (fun p => (paOff p - apertureBase) % 2 ^ 24 / 2 ^ 22)).dedup

/-- An operand load of a format from a stride set (R152). -/
def loadOperand (s : State) (t : Task) (u : Nat) (g : Stride) (code : Nat) (put : Stage → MRun → MRun) : State :=
  match stageBytes s t u ((List.range 128).map (rowAddr g)) (128 * opSize code) 128 with
  | .fault s1 c cls a => microFault s1 c cls a 0 0
  | .ok s1 b pas =>
    let st : Stage := { elems := elemsOf (opSize code) 16384 b, grp := groupsOf pas, rows := pas }
    microNext (modRun (addFootprint s1 pas) (put st))

/-- Whether a scale block shape is allowed (spec/05 R107). -/
def extOk (g : Stride) : Bool :=
  let ok := fun (e : BitVec 8) => [1, 2, 4, 8, 16, 32, 64, 128].contains e.toNat
  ok g.ext0 && ok g.ext1 && 128 ≤ g.ext0.toNat * g.ext1.toNat

/-- A scale load from row 0 of a stride set (R153; spec/05 R108, R109). -/
def loadScale (s : State) (t : Task) (u : Nat) (g : Stride) (put : Stage → MRun → MRun) : State :=
  if extOk g = false then microFault s 2 8 g.base.toNat 0 0
  else
    match stageBytes s t u [g.base.toNat] 512 512 with
    | .fault s1 c cls a => microFault s1 c cls a 0 0
    | .ok s1 b pas =>
      let w := elemsOf 4 128 b
      let st : Stage := { elems := (List.range 128).map (fun k => (w[k % 8 * 16 + k / 8]?).getD 0), grp := groupsOf pas, rows := pas
                          ext0 := g.ext0.toNat, ext1 := g.ext1.toNat }
      microNext (modRun (addFootprint s1 pas) (put st))

/-- LDA (R152). -/
def execLda (o : UOp) (s : State) : Out :=
  micro s fun r t u s => loadOperand s t u (setOf r o.gA) (aCode r.entry.fmt) (fun st r => { r with a := some st })
/-- LDB (R152). -/
def execLdb (o : UOp) (s : State) : Out :=
  micro s fun r t u s => loadOperand s t u (setOf r o.gB) (bCode r.entry.fmt) (fun st r => { r with b := some st })
/-- LDSA (R153). -/
def execLdsa (o : UOp) (s : State) : Out :=
  micro s fun r t u s => loadScale s t u (setOf r o.gA) (fun st r => { r with sa := some st })
/-- LDSB (R153). -/
def execLdsb (o : UOp) (s : State) : Out :=
  micro s fun r t u s => loadScale s t u (setOf r o.gB) (fun st r => { r with sb := some st })

/-! ## Opening and stepping (R154, R155) -/

/-- A tile with a new epoch. -/
def openTile (t : Tile) (cope drag : List W32) (int : Bool) (foot : List Nat) (op : EpochOp) : Tile :=
  { t with cope := cope, drag := drag, valid := true, dirty := false, ovf := false, image := none, accint := int, bad := 0
           epoch := some { foot := foot, log := [op] } }

/-- An operation added to an open epoch's log. -/
def logOp (t : Tile) (op : EpochOp) : Tile := { t with epoch := t.epoch.map (fun e => { e with log := e.log ++ [op] }) }

/-- ZERO (R154). -/
def execZero (o : UOp) (s : State) : Out :=
  micro s fun r _ u s =>
    let i := o.t.toNat
    let int := accCode r.entry.fmt == 1
    let s1 := abandonAt (claimTile s u s.cur i) s.cur i
    microNext (modRun (modTile s1 i fun t => openTile t [] [] int [] (.zero int)) (noteMine i))
/-- TLD (R154): the rows join the footprint of every open epoch, this one included. -/
def execTld (o : UOp) (s : State) : Out :=
  micro s fun r t u s0 =>
    let i := o.t.toNat
    let s := claimTile s0 u s0.cur i
    let int := accCode r.entry.fmt == 1
    match stageBytes s t u ((List.range 128).map (rowAddr (setOf r o.gA))) 512 128 with
    | .fault s1 c cls a => microFault s1 c cls a 0 0
    | .ok s1 b pas =>
      let l := elemsOf 4 16384 b
      let s2 := addFootprint (abandonAt s1 s.cur i) pas
      microNext (modRun (modTile s2 i fun t => openTile t l l int ((pas.map (fun p => paOff p / 128)).dedup) (.tld int pas)) (noteMine i))

/-- The scales a step applies. -/
def scalesOf (r : MRun) (st : Option Stage) : Option Stage := if scaleOf r.entry.fmt && isFp8 r.entry.fmt then st else none
/-- Where a scale tile was read and its shape. -/
def scaleRef (st : Option Stage) : Option (Nat × Nat × Nat) := st.map (fun x => ((x.rows[0]?).getD 0, x.ext0, x.ext1))

/-- MMA (R155): one step on both engines. -/
def execMma (o : UOp) (s : State) : Out :=
  micro s fun r _ u s0 =>
    let i := o.t.toNat
    let s := claimTile s0 u s0.cur i
    let x := tileOf (me s) i
    let fmt := r.entry.fmt
    match x.epoch, r.a, r.b with
    | some _, some a, some b =>
      if scaleOf fmt = true ∧ isFp8 fmt = true ∧ (r.sa.isNone ∨ r.sb.isNone) then microAbort s
      else if x.accint ≠ (accCode fmt == 1) then microAbort s
      else if a.grp.any (fun g => b.grp.contains g) then microFault s 1 7 0 0 i
      else if x.bad ≠ 0 then microFault s 5 3 0 0 i
      else
        let c := stepElems fmt a b (scalesOf r r.sa) (scalesOf r r.sb) x.cope
        let d := stepElems fmt a b (scalesOf r r.sa) (scalesOf r r.sb) x.drag
        microNext (modTile s i fun t => { logOp t (.mma fmt a.rows b.rows (scaleRef (scalesOf r r.sa)) (scaleRef (scalesOf r r.sb))) with
          cope := engineOut s s.cur 0 i c.1, drag := engineOut s s.cur 1 i d.1, ovf := t.ovf || c.2, dirty := true })
    | _, _, _ => microAbort s

/-- EPI (R156). -/
def execEpi (o : UOp) (s : State) : Out :=
  micro s fun r _ u s0 =>
    let i := o.t.toNat
    let s := claimTile s0 u s0.cur i
    let x := tileOf (me s) i
    let fmt := r.entry.fmt
    let of_ := (o.imm.extractLsb' 0 4).toNat
    let scale := (paramOf r o.p).setWidth 32
    if x.epoch.isNone ∨ 8 ≤ of_ ∨ (o.imm.getLsbD 4 = true ∧ (accCode fmt = 1 ∨ 5 ≤ of_)) then microAbort s
    else if x.bad ≠ 0 then microFault s 5 3 0 0 i
    else
      microNext (modTile s i fun t => { logOp t (.epi fmt o.imm scale) with
        image := some ⟨outSize o.imm, epiElems fmt o.imm scale x.accint x.cope, epiElems fmt o.imm scale x.accint x.drag⟩, dirty := false })

/-! ## Storing (R157) -/

/-- The rows of an engine's image as held stores of a level. -/
def rowsHeld (sup : Bool) (l : List Placed) (data : List Byte) : List HeldRow :=
  l.map (fun p => { va := p.va, pa := p.pa, mt := p.mt, bytes := (data.drop p.off).take p.n, sup := sup })

/-- Rows of `n` bytes cut at sectors, each at its place in the data. -/
def rowParts (addrs : List Nat) (n : Nat) : List (Nat × Nat × Nat) :=
  addrs.zipIdx.flatMap (fun a => (parts a.1 n).map (fun p => (p.1, n * a.2 + p.2.1, p.2.2)))

/-- STT (R157): both engines' rows; green work waits while the green share is full. -/
def execStt (o : UOp) (s : State) : Out :=
  micro s fun r t u s0 =>
    let i := o.t.toNat
    let s := claimTile s0 u s0.cur i
    let x := tileOf (me s) i
    let m := (o.imm.extractLsb' 0 8).toNat
    match x.epoch, x.image with
    | some _, some im =>
      if 128 < m then microAbort s
      else
        let n := if m = 0 then 128 else m
        let addrs := (List.range n).map (rowAddr (setOf r o.gA))
        if addrs.any (fun a => a % im.size != 0) then microAbort s
        else
          match placeFor s (whoTask u t (r.entry.priv == 1)) { w := true } (rowParts addrs (128 * im.size)) with
          | .error a => microFault s 4 4 a 1 i
          | .ok l =>
            match l.find? (fun p => (footHit s p.mt p.pa p.n).isSome) with
            | some p => microFault s 6 13 p.pa 1 i
            | none =>
              let size := n * 128 * im.size
              if t.green = false ∧ 65536 < heldBytes (me s) + size then microFault s 1 7 0 0 i
              else if t.green = true ∧ greenShare < greenUsed s t.hearth + size then s
              else
                let copes := rowsHeld (r.entry.priv == 1) l ((List.range n).flatMap (imageRow im.size im.cope))
                let drags := rowsHeld (r.entry.priv == 1) l ((List.range n).flatMap (imageRow im.size im.drag))
                let s1 := modTile s i fun t => { t with
                  inflight := true
                  epoch := t.epoch.map (fun e => { e with
                    held := e.held ++ copes, drag := e.drag ++ drags
                    log := e.log ++ [.stt (l.map (fun p => (p.va, p.pa, p.n)))] }) }
                microNext (modRun s1 (noteMine i))
    | _, _ => microAbort s

/-! ## The assay path (spec/06 R121) -/

/-- What the assay path has of a tile. -/
structure Assay where
  acc : List W32 := []
  int : Bool := false
  size : Nat := 0
  image : List W32 := []
  rows : List HeldRow := []
  bad : Option (Nat × Nat) := none
  deriving DecidableEq, Repr

/-- The bytes of a task's 128-byte rows at physical addresses; those of a block claimed from a pre-empted task stand in its image. -/
def rowsAt (s : State) (u die : Nat) : List Nat → Except (Nat × Nat) (List Byte)
  | [] => .ok []
  | a :: r =>
    match (rehome s u ⟨0, 0, 128, a, 0, true⟩).2 with
    | none => .error (4, match tabFind s.tasks u with | some t => blockVa s t a | none => a)
    | some p =>
      match readPa s die p.mt p.pa 128, rowsAt s u die r with
      | .ok b, .ok l => .ok (b ++ l)
      | .error c, _ => .error (c, a)
      | _, x => x

/-- A scale tile read again. -/
def scaleAgain (s : State) (u die : Nat) (x : Option (Nat × Nat × Nat)) : Except (Nat × Nat) (Option Stage) :=
  match x with
  | none => .ok none
  | some (a, e0, e1) =>
    match rowsAt s u die [a, a + 128, a + 256, a + 384] with
    | .ok b =>
      let w := elemsOf 4 128 b
      .ok (some { elems := (List.range 128).map (fun k => (w[k % 8 * 16 + k / 8]?).getD 0), grp := [], rows := [], ext0 := e0, ext1 := e1 })
    | .error e => .error e

/-- One logged operation done again from the epoch's inputs in the scratchpad. -/
def assayOp (s : State) (u core tile : Nat) (held : List HeldRow) (x : Assay) (op : EpochOp) : Assay :=
  let die := dieOf core
  match op with
  | .zero int => { x with acc := [], int := int }
  | .tld int rows =>
    match rowsAt s u die rows with
    | .ok b => { x with acc := elemsOf 4 16384 b, int := int }
    | .error e => { x with bad := x.bad.or (some e) }
  | .mma fmt a b sa sb =>
    match rowsAt s u die a, rowsAt s u die b, scaleAgain s u die sa, scaleAgain s u die sb with
    | .ok ba, .ok bb, .ok ta, .ok tb =>
      let sta : Stage := { elems := elemsOf (opSize (aCode fmt)) 16384 ba, grp := [], rows := [] }
      let stb : Stage := { elems := elemsOf (opSize (bCode fmt)) 16384 bb, grp := [], rows := [] }
      { x with acc := engineOut s core 2 tile (stepElems fmt sta stb ta tb x.acc).1, int := accCode fmt == 1 }
    | .error e, _, _, _ => { x with bad := x.bad.or (some e) }
    | _, .error e, _, _ => { x with bad := x.bad.or (some e) }
    | _, _, .error e, _ => { x with bad := x.bad.or (some e) }
    | _, _, _, .error e => { x with bad := x.bad.or (some e) }
  | .epi fmt imm scale => { x with size := outSize imm, image := epiElems fmt imm scale x.int x.acc }
  | .stt rows =>
    let data := (List.range 128).flatMap (imageRow x.size x.image)
    let offs := rows.foldl (fun (p : Nat × List (Nat × Nat × Nat × Nat)) r => (p.1 + r.2.2, p.2 ++ [(p.1, r.1, r.2.1, r.2.2)])) (0, [])
    let like := fun (pa : Nat) => (held.find? (fun h => h.pa == pa)).getD { va := 0, pa := 0, mt := 0, bytes := [] }
    { x with rows := x.rows ++ offs.2.map (fun r =>
        { va := r.2.1, pa := r.2.2.1, mt := (like r.2.2.1).mt, bytes := (data.drop r.1).take r.2.2.2, sup := (like r.2.2.1).sup }) }

/-- The disputed epoch recomputed in full. -/
def assayRun (s : State) (u core tile : Nat) (e : Epoch) : Assay := e.log.foldl (assayOp s u core tile e.held) {}

/-! ## Release and seals (spec/06 R120, R123, R125, R128, R431) -/

/-- Maximal runs of contiguous addresses of an image: first address and bytes. -/
def runsOf : Tab Byte → List (Nat × List Byte)
  | [] => []
  | (k, b) :: r =>
    match runsOf r with
    | (a, l) :: rest => if keyAddr k + 1 = a then (keyAddr k, b :: l) :: rest else (keyAddr k, [b]) :: (a, l) :: rest
    | [] => [(keyAddr k, [b])]

/-- A run cut into seals of at most 65,536 bytes. -/
def sealCuts : Nat → Nat × List Byte → List (Nat × List Byte)
  | 0, _ => []
  | f + 1, (a, l) => if l.isEmpty then [] else (a, l.take 65536) :: sealCuts f (a + 65536, l.drop 65536)

/-- A seal recorded in the ring of a hearth (R125). -/
def addSeal (s : State) (hearth core ctx src : Nat) (a : Nat) (l : List Byte) : State :=
  modHearth s hearth fun h =>
    let x : Seal := { addr := BitVec.ofNat 57 a, len := BitVec.ofNat 32 l.length, crc := crc64 l, asid := BitVec.ofNat 6 ctx
                      src := BitVec.ofNat 2 src, valid := true, core := BitVec.ofNat 2 core, time := Config.freeTime s.tick }
    { h with seals := tabSet h.seals (h.sealNext % 1024) x, sealNext := h.sealNext + 1 }

/-- A row translated again as it is released, at the level it was stored at: no translation that was removed while it was held serves it
(spec/16 R358, R360, R369) (log entry 48: DEDUCED, unsafe). -/
def placeRow (s : State) (t : Task) (r : HeldRow) : Option Placed :=
  match translateTask s t r.sup r.va { w := true } with
  | .ok pa mt win => some ⟨r.va, 0, r.bytes.length, pa, mt, win⟩
  | _ => none

/-- One row released: its write at its home, where a pre-empted task's block stands now (spec/13 R304, R305), or the class of its
failure. A remote write may be left without its acknowledgement (R431). -/
def releaseRow (s : State) (u : Nat) (t : Task) (core : Nat) (r : HeldRow) : State × Option Nat :=
  let die := dieOf core
  match placeRow s t r with
  | none => (s, some 4)
  | some p =>
    if p.mt != 2 && isRemote s p.pa && Config.freeNoAck s.tick p.pa then (s, some 5) else
    match reach s (whoTask u t r.sup) u [p] with
    | (s1, some (q :: _)) =>
      match writePa s1 die q.mt q.pa (storedBytes s1 die t.ctx q.mt r.va q.pa r.bytes) with
      | .ok s2 => (noteSent s1 s2 core (some u) q.mt q.pa .row 0, none)
      | .error c => (s1, some c)
    | (s1, _) => (s1, some 4)

/-- Rows released in order; those that fail, with their class. -/
def releaseRows (s : State) (u : Nat) (t : Task) (core : Nat) : List HeldRow → List (Nat × HeldRow) → State × List (Nat × HeldRow)
  | [], e => (s, e)
  | r :: rest, e =>
    match releaseRow s u t core r with
    | (s1, none) => releaseRows s1 u t core rest e
    | (s1, some c) => releaseRows s1 u t core rest (e ++ [(c, r)])

/-- Rows of an epoch released: performed in order, and a seal for each run whose every byte performed (R125, R431). The class and
address of the first failure are returned, the virtual address of a row that no longer translates (spec/17 R375). The rows perform in one step of the model, so that no read finds some of their granules old
and some new (R123; log entry 47: DESIGN CHOICE, unsafe). -/
def releaseImage (s : State) (u core ctx src : Nat) (rows : List HeldRow) : State × Option (Nat × Nat) :=
  match tabFind s.tasks u with
  | none => (s, none)
  | some t =>
    let (s1, bad) := releaseRows s u t core rows []
    let failed := fun (a n : Nat) => bad.any (fun r => r.2.va < a + n && a < r.2.va + r.2.bytes.length)
    let seals := ((runsOf (imageOfRows rows)).filter (fun r => !failed r.1 r.2.length)).flatMap (fun r => sealCuts (r.2.length / 65536 + 1) r)
    (seals.foldl (fun s r => addSeal s (hearthOf core) (core % 4) ctx src r.1 r.2) s1, (bad[0]?).map (fun r => (r.1, if r.1 = 4 then r.2.va else r.2.pa)))

/-- Where a row of an image that lies in an open epoch's footprint stands, as its release would write it (spec/13 R305): the first such row. -/
def rowHit (s : State) (u : Nat) (rows : List HeldRow) : Option Nat :=
  match tabFind s.tasks u with
  | none => none
  | some t => rows.findSome? (fun r =>
      match (placeRow s t r).bind (fun p => (reach s (whoTask u t r.sup) u [p]).2) with
      | some (q :: _) => if (footHit s q.mt q.pa q.n).isSome then some q.pa else none
      | _ => none)

/-- The first address of an image (R122). -/
def firstAddr (rows : List HeldRow) : Nat := match imageOfRows rows with | (k, _) :: _ => keyAddr k | [] => 0

/-- A dispute reported, counted and noted (R122; spec/15 R347): engine 0 or 1 when resolved, 2 when not. -/
def dispute (s : State) (u core ctx tile engine : Nat) (addr : Nat) (c d a : W64) : State :=
  let cls := if engine = 2 then 2 else 1
  let s1 := modCore s core fun k => { k with mu := { k.mu with
    dis0 := if engine = 0 then satInc k.mu.dis0 else k.mu.dis0
    dis1 := if engine = 1 then satInc k.mu.dis1 else k.mu.dis1
    unres := if engine = 2 then satInc k.mu.unres else k.mu.unres } }
  let e : ErrInfo := ⟨BitVec.ofNat 8 cls, 0, coreUnit core engine, BitVec.ofNat 64 addr, BitVec.ofNat 16 (256 * tile)⟩
  let s2 := if engine = 2 then noteAccess s1 u e else noteDispute s1 u e
  post s2 (mkReport 1 cls 0 (coreUnit core engine) ctx addr c.toNat d.toNat a.toNat tile)

/-- The running routine of a core after its `SIGCHK` on a tile completed well: it goes on, or stops as `MABORT` asked (R146). That `SIGCHK` is
its suspend point where the epoch it closed held stores and no other one does (spec/06 R127). -/
def afterCheck (s : State) (core tile : Nat) (held : Bool) : State :=
  match (getCore s core).mu.run with
  | none => s
  | some r =>
    if r.stop then stopUnit s core
    else
      let pre := match (getCore s core).task, taskOf s core with | some u, some t => mustStop s u t | _, _ => false
      modCore s core fun c => { c with mu := { c.mu with
        run := some { r with upc := r.upc + 1 }
        suspended := c.mu.suspended || (pre && held && r.mine.contains tile && !routineHolds c) } }

/-- The running routine of a core after its `SIGCHK` faulted, on a read (0) or a write (1); a stop that `MABORT` asked for follows. -/
def faultCheck (s : State) (core code cls addr dir tile : Nat) : State :=
  match (getCore s core).mu.run with
  | none => s
  | some r =>
    let s1 := microFault { s with cur := core } code cls addr dir tile
    let s2 := { s1 with cur := s.cur }
    if r.stop then settleCore (abandonAll s2 core) core else s2

/-- A tile's epoch closed: the record for `MSIG`, and INFLIGHT while green rows of it are held. -/
def closeEpoch (s : State) (u core tile : Nat) (l : LastSig) : State :=
  let g := match tabFind s.tasks u with | some t => greenRows t core tile | none => false
  modTileAt s core tile fun t => { t with epoch := none, inflight := g, last := l }

/-- The end of a `SIGCHK` that releases an image (R120, R128, R158): `src` 0 for cope's rows, 2 for the assay path's. A provisional
task's rows outside its scratchpad go on being held; those of a task fettled meanwhile are squashed (R163). A row that the saggar holds with an
uncorrected error goes before one that lies in a footprint (log entry 80: DESIGN CHOICE, unsafe). -/
def releaseEpoch (s : State) (u core tile src : Nat) (rows : List HeldRow) (l : LastSig) : State :=
  match tabFind s.tasks u with
  | none => s
  | some t =>
    let s1 := closeEpoch s u core tile l
    match rows.find? (fun r => r.bad) with
    | some r => faultCheck s1 core 5 3 r.pa 1 tile
    | none =>
      match rowHit s1 u rows with
      | some a => faultCheck (closeEpoch s u core tile { l with outcome := 6 }) core 6 13 a 1 tile
      | none =>
        let now := if t.green then rows.filter (fun r => windowBase ≤ r.va) else rows
        let later := if t.green ∧ t.ended = false then rows.filter (fun r => r.va < windowBase) else []
        let s2 := if later.isEmpty then s1 else
          modTileAt (modTask s1 u fun t => { t with held := t.held ++ [{ core := core, tile := some tile, rows := later, src := src }] })
            core tile fun t => { t with inflight := true }
        match releaseImage s2 u core t.ctx src now with
        | (s3, none) => afterCheck s3 core tile (!rows.isEmpty)
        | (s3, some (cls, a)) => faultCheck s3 core (codeOf cls) cls a 1 tile

/-- SIGCHK (R158): equal signatures release at once; others wait for the assay path (spec/06 R121). -/
def execSigchk (o : UOp) (s : State) : Out :=
  micro s fun _ _ u s0 =>
    let i := o.t.toNat
    let s := claimTile s0 u s0.cur i
    match (tileOf (me s) i).epoch with
    | none => microAbort s
    | some e =>
      let c := signature e.held
      let d := signature e.drag
      if c = d then releaseEpoch s u s.cur i 0 e.held { cope := c, drag := d, assay := 0, outcome := 1 }
      else
        modHearth (modTile s i fun t => { t with epoch := t.epoch.map (fun e => { e with checking := true }) }) (hearthOf s.cur) fun h =>
          { h with assay := h.assay ++ [(s.cur, i, u)] }

/-- The outcome of a dispute (R120): the assay path agrees with one engine or with neither. Where it cannot read an input of the epoch, the
epoch closes unresolved and no dispute is counted (log entry 67: DESIGN CHOICE, unsafe). -/
def settleDispute (s : State) (u core tile : Nat) (e : Epoch) : State :=
  let ctx := ctxOf s core
  let a := assayRun s u core tile e
  let c := signature e.held
  let d := signature e.drag
  let g := signature a.rows
  let addr := firstAddr e.held
  match a.bad with
  | some (cls, p) => faultCheck (closeEpoch s u core tile { cope := c, drag := d, assay := 0, outcome := 4 }) core (codeOf cls) cls p 0 tile
  | none =>
    if g = c then
      releaseEpoch (dispute s u core ctx tile 1 addr c d g) u core tile 0 e.held { cope := c, drag := d, assay := g, outcome := 2 }
    else if g = d then
      releaseEpoch (dispute s u core ctx tile 0 addr c d g) u core tile 2 a.rows { cope := c, drag := d, assay := g, outcome := 3 }
    else
      let s1 := dispute s u core ctx tile 2 addr c d g
      faultCheck (closeEpoch s1 u core tile { cope := c, drag := d, assay := g, outcome := 4 }) core 3 2 addr 1 tile

/-- ASSAY_COMPLETE (spec/06 R121): disputes of a hearth end in the order of their `SIGCHK`s. -/
def execAssayComplete (hearth : Nat) (s : State) : Out :=
  .next (match (getHearth s hearth).assay with
    | [] => s
    | (core, tile, u) :: rest =>
      onUnit (modHearth s hearth fun h => { h with assay := rest }) core u fun s =>
        match (tileOf (getCore s core) tile).epoch with
        | some e => if e.checking then settleDispute s u core tile e else s
        | none => s)

/-! ## Control within a routine (R159-R161) -/

/-- END (R161): the token completes (R123). -/
def execEndR (_o : UOp) (s : State) : Out :=
  micro s fun r _ _ s => settleCore (setTok (modMu s fun m => { m with run := none }) s.cur r.entry.tok .ok) s.cur

/-- LOOP (R159): four levels; a count of 0 skips the body. -/
def execLoopMicroOp (o : UOp) (s : State) : Out :=
  micro s fun r _ _ s =>
    let off := (o.imm.extractLsb' 20 12).toNat
    let imm := (o.imm.extractLsb' 0 20).toNat
    let n := if imm = 0 then (paramOf r o.p).toNat % 2 ^ 32 else imm
    if off = 0 ∨ r.loops.length = 4 then microAbort s
    else if n = 0 then modRun s fun r => { r with upc := r.upc + off + 1 }
    else modRun s fun r => { r with loops := r.loops ++ [(n, r.upc + 1)], upc := r.upc + 1 }

/-- ENDL (R159): a possible suspend point (spec/06 R127). -/
def execEndl (_o : UOp) (s : State) : Out :=
  micro s fun r t u s =>
    match r.loops.getLast? with
    | none => microAbort s
    | some (n, top) =>
      let s1 := if n = 1 then modRun s fun r => { r with loops := r.loops.dropLast, upc := r.upc + 1 }
        else modRun s fun r => { r with loops := r.loops.dropLast ++ [(n - 1, top)], upc := top }
      if mustStop s u t = true ∧ routineHolds (me s) = false then modMu s1 fun m => { m with suspended := true } else s1

/-- GADV (R160). -/
def execGadv (o : UOp) (s : State) : Out :=
  micro s fun r _ _ s =>
    let g := setOf r o.gA
    let g' := { g with base := BitVec.ofNat 57 (lAddr g.base.toNat (o.imm.toInt * g.str1.toInt)) }
    microNext (modRun s fun r => { r with entry := { r.entry with g := tabSet r.entry.g o.gA.toNat g' } })

/-- SETP (R160): bits [31:0]; bits [63:32] keep their value. -/
def execSetp (o : UOp) (s : State) : Out :=
  micro s fun r _ _ s =>
    let v := (paramOf r o.p).extractLsb' 32 32 ++ o.imm
    microNext (modRun s fun r => { r with entry := { r.entry with p := tabSet r.entry.p o.p.toNat v } })

end Sys2Proof.Machine
end

