-- ==== Sys2Proof/Machine/Runner.lean ====
section
/-! DEFINITION. Runner channels and their operations (spec/12 R276-R290), sealed copies (R282, R283), collectives (R284-R286), and the
home slices of ordered atomics (R270, R271). -/

namespace Sys2Proof.Machine

open Sys2Proof

/-! ## Channels -/

/-- A runner channel of a core. -/
def chanOf (c : Core) (ch : Nat) : Chan := tabGet c.chan ch {}
/-- A write pointer (spec/12 R287). -/
def wptrOf (c : Chan) : W64 := BitVec.ofNat 64 (c.count.toNat + 2 ^ 63 * c.err.toNat)
/-- A channel of a core changed. -/
def modChan (s : State) (core ch : Nat) (f : Chan → Chan) : State :=
  modCore s core fun c => { c with chan := tabSet c.chan ch (f (chanOf c ch)) }
/-- The write pointer of the task that owns an operation changed, whether it holds the core or is pre-empted (R290). -/
def modCount (s : State) (core ch task : Nat) (f : Chan → Chan) : State :=
  let s1 := modTaskCore s core (some task) fun c => { c with chan := tabSet c.chan ch (f (chanOf c ch)) }
  keepImage s1 core task (0x488 + 8 * ch) (bytesOf (wptrOf (chanOf (ownerCore s1 core task) ch)).toNat 8)
/-- A token of the task that owns an operation completes. -/
def ownerTok (s : State) (core task tok : Nat) (k : Tok) : State :=
  if tok = 0 then s else
  keepImage (modTaskCore s core (some task) fun c => { c with tok := tabSet c.tok tok k }) core task (0x500 + tok) [BitVec.ofNat 8 (tokByte k)]

/-- The rows an operation moves (R278). -/
def rowsOf (e : REntry) : Nat := match e.op with | .copy => 1 | _ => e.set.rows.toNat

/-- The members of the group a `COLL` names, in rank order (R284): none when the entry or its words cannot be read. -/
inductive Group where
  | ok (members : List W64)
  | fault (code cls addr : Nat)
  deriving DecidableEq, Repr

/-- A runner's access in the context an operation snapshotted. -/
def whoEntry (s : State) (e : REntry) : Who :=
  match tabFind s.tasks e.task with
  | some t => { whoTask e.task t (e.priv == 1) with ctx := e.ctx }
  | none => { hearth := 0, ctx := e.ctx }

/-- The group table entry and the member words (R284). -/
def groupOf (s : State) (e : REntry) : Group × State :=
  let w := whoEntry s e
  let base := (tabGet (getCtx s e.ctx).desc 7 0).toNat % 2 ^ 57
  if base % 16 ≠ 0 then (.fault 7 0 0, s)
  else
    match engRead s w { r := true } (base + 16 * e.set.group.toNat) 16 with
    | (.error (cls, a), s1) => (.fault (codeOf cls) cls a, s1)
    | (.ok b, s1) =>
      let v := natOfBytes b
      let p := v % 2 ^ 16
      let list := v / 2 ^ 64 % 2 ^ 57
      if p = 0 then (.fault 7 0 0, s1)
      else
        match engRead s1 w { r := true } list (8 * p) with
        | (.error (cls, a), s2) => (.fault (codeOf cls) cls a, s2)
        | (.ok l, s2) => (.ok ((List.range p).map (fun i => BitVec.ofNat 64 (natOfBytes ((l.drop (8 * i)).take 8)))), s2)

/-- The member word of a channel of this device. -/
def memberWord (s : State) (core ch : Nat) : Nat := ownDev s + 512 * core + 2 ^ 18 * ch
/-- The rank of a channel in a group. -/
def rankOf (s : State) (core ch : Nat) (l : List W64) : Option Nat :=
  (findIdxFrom (fun (w : W64) => w.toNat % 2 ^ 19 == memberWord s core ch) l 0).map Prod.fst

/-- Kind of a collective: 0 all-reduce, 1 reduce-scatter, 2 all-gather, 3 broadcast. -/
def collKind (e : REntry) : Nat := (e.aux.extractLsb' 2 3).toNat
/-- Its operation: 0 sum, 1 max, 2 min. -/
def collOp (e : REntry) : Nat := (e.aux.extractLsb' 0 2).toNat

/-- Destination bytes of a member of a collective of P members. -/
def collBytes (e : REntry) (p : Nat) : Nat :=
  match collKind e with
  | 1 => e.set.len.toNat / p
  | 2 => e.set.len.toNat * p
  | _ => e.set.len.toNat

/-- The bytes an operation accounts for (R288). -/
def bytesDue (s : State) (e : REntry) : Nat :=
  match e.op with
  | .cflush => 0
  | .scopy => e.set.len.toNat
  | .coll => match (groupOf s e).1 with | .ok l => collBytes e l.length | .fault _ _ _ => if collKind e = 1 ∨ collKind e = 2 then 0 else e.set.len.toNat
  | _ => e.set.len.toNat * rowsOf e

/-- The writes of a channel's running operation to another device that wait for their acknowledgements (R278; spec/11 R250). -/
def unackedOf (s : State) (core ch : Nat) : List Sent :=
  s.ports.flatMap (fun p => p.2.sent.filter (fun x => x.core == core && x.kind == .runner ch))

/-- The operation of a channel waits for no acknowledgement any more. -/
def forgetSent (s : State) (core ch : Nat) : State :=
  { s with ports := tabMap s.ports (fun _ x => { x with sent := x.sent.filter (fun k => !(k.core == core && k.kind == .runner ch)) }) }

/-- The write pointer of a channel brought up to the first byte of its operation that has not performed or, on another device, is not
acknowledged (R288). -/
def settleCount (s : State) (core ch : Nat) : State :=
  match (chanOf (getCore s core) ch).run with
  | none => s
  | some r =>
    let v := (unackedOf s core ch).foldl (fun v x => min v x.pos) r.done
    if v ≤ r.counted then s else
    modCount (modChan s core ch fun c => { c with run := some { r with counted := v } }) core ch r.e.task
      fun c => { c with count := c.count + BitVec.ofNat 48 (v - r.counted) }

/-- A running or starting operation ends in an error: its token, its write pointer past the bytes left, the report (R279, R288, R432). -/
def failRunner (s : State) (core ch : Nat) (r : RRun) (code cls addr dir : Nat) : State :=
  let e := r.e
  let left := bytesDue s e - r.counted
  let s1 := modCount (forgetSent s core ch) core ch e.task fun c => { c with count := c.count + BitVec.ofNat 48 left, err := true }
  let s2 := modChan s1 core ch fun c => { c with run := none }
  let s3 := ownerTok s2 core e.task e.tok (.err (BitVec.ofNat 3 code))
  let s4 :=
    if code = 7 then s3
    else
      let n : ErrInfo := ⟨BitVec.ofNat 8 cls, 0, coreUnit core 3, BitVec.ofNat 64 addr, accInfo s cls addr⟩
      if code = 3 then noteError s3 e.task n
      else postAccess (noteAccess s3 e.task n) 0 (coreUnit core 3) e.ctx cls addr dir e.tok 0
  settleTask s4 e.task

/-- An address on a device that could not be reached, as a report names it: the address its tables would give, else the device's first
(log entry 49: DESIGN CHOICE, unsafe). -/
def farPhys (s : State) (e : REntry) (va : Nat) : Nat :=
  match Config.peerTranslate s.tick e.set.dev.toNat ((tabGet (getCtx s e.ctx).desc 8 0).extractLsb' 8 6).toNat va with
  | some (pa, _, _) => pa
  | none => e.set.dev.toNat * 2 ^ 43

/-- Whether a byte at a place of a die lies behind what that die does not reach now, or on another device. -/
def farOrLost (s : State) (die mt pa : Nat) : Bool :=
  if mt = 2 then hostClass s die (pa / 2 ^ 60) != 0 else isRemote s pa || addrClass s die pa != 0

/-- Where a running operation stands, as a report of a remote failure names it, and DATA0 of that report: the next byte it would read of
another device or behind a removed port, else the next it would write, whose outcome is not known (log entry 49: DESIGN CHOICE, unsafe). -/
def runnerPhys (s : State) (r : RRun) : Nat × Nat :=
  let e := r.e
  let len := if e.op = .scopy ∨ e.op = .coll then 2 ^ 48 else e.set.len.toNat
  let at_ := fun (base : BitVec 57) (str : BitVec 32) => lAddr base.toNat ((r.done / len : Nat) * str.toInt + (r.done % len : Nat))
  let src := at_ e.set.src e.set.sstr
  let dst := at_ e.set.dst e.set.dstr
  let other := e.set.dev.toNat != ownDev s
  if e.op == .fetch && other then (farPhys s e src, 0)
  else if (e.op == .send || (e.op == .scopy && e.aux.getLsbD 0)) && other then (farPhys s e dst, 2)
  else
    let w := whoEntry s e
    match translate s w.hearth w.ctx w.part w.qstart src { r := true, sup := true } false,
          translate s w.hearth w.ctx w.part w.qstart dst { w := true, sup := true } false with
    | .ok pa mt _, .ok pb _ _ => if farOrLost s (whoDie w) mt pa then (pa, 0) else (pb, 2)
    | .ok pa _ _, _ => (pa, 0)
    | _, .ok pb _ _ => (pb, 2)
    | _, _ => (0, 2)

/-- What the report of an operation that a removed port or 2 ms cut short names: the first write that waits for its acknowledgement, else where
it stands (log entry 49: DESIGN CHOICE, unsafe). -/
def runnerStuck (s : State) (core ch : Nat) (r : RRun) : Nat × Nat :=
  match (unackedOf s core ch).foldl (fun (b : Option Sent) x => match b with | some y => if x.pos < y.pos then some x else b | none => some x) none with
  | some x => (x.pa, 2)
  | none => runnerPhys s r

/-- An operation ends well. -/
def finishRunner (s : State) (core ch : Nat) (e : REntry) : State :=
  settleTask (ownerTok (modChan s core ch fun c => { c with run := none }) core e.task e.tok .ok) e.task

/-! ## C-slot operations (R276, R290) -/

/-- Whether every byte a copy writes lies in the task's partition. -/
def destInside (t : Task) (h : CopySet) (rows : Nat) : Bool :=
  let a : Int := h.dst.toNat
  let b : Int := a + ((rows : Int) - 1) * h.dstr.toInt
  let n : Int := h.len.toNat
  rows == 0 || h.len == 0 ||
    (decide ((windowBase : Int) ≤ a) && decide (a + n ≤ windowBase + t.part) && decide ((windowBase : Int) ≤ b) && decide (b + n ≤ windowBase + t.part))

/-- Whether an operation of a provisional task waits for confirmation at issue (R290). -/
def greenWaits (t : Task) (own : Nat) (op : ROp) (h : CopySet) (aux : BitVec 5) : Bool :=
  match op with
  | .send => true
  | .coll => true
  | .cflush => false
  | .scopy => (aux.getLsbD 0 && h.dev.toNat != own) || !destInside t h 1
  | .copy => !destInside t h 1
  | _ => !destInside t h h.rows.toNat

/-- A C operation issued: the checks of R276, the green block, and the entry with its snapshots. -/
def cIssue (o : COp) (op : ROp) (s : State) : Out :=
  guarded s o.g fun s =>
    let c := me s
    let ch := (isY o.u).toNat
    let q := chanOf c ch
    if tokOf c o.tok.toNat = .pending then slotTrap s o.u.toNat 0x10 0 (o.tok.setWidth 32)
    else if 16 ≤ q.queue.length + (if q.run.isSome then 1 else 0) then slotTrap s o.u.toNat 0x10 0 0
    else
      let h := seeH s c o.h.toNat
      let blocks := match taskOf s s.cur with | some t => t.green && greenWaits t (ownDev s) op h o.aux | none => false
      if blocks then blockFor s .green
      else
        let e : REntry := {
          op := op, set := h, tok := o.tok.toNat, list := seeS s (isY o.u) o.list, aux := o.aux, ctx := ctxOf s s.cur
          task := c.task.getD 0, priv := c.sys.priv, no := c.bundleNo, stamp := s.tick }
        modChan (setTok s s.cur o.tok.toNat .pending) s.cur ch fun c => { c with queue := c.queue ++ [e] }

/-- COPY (R277, R278). -/
def execCopy (o : COp) (s : State) : Out := cIssue o .copy s
/-- COPY2 (R277, R278). -/
def execCopy2 (o : COp) (s : State) : Out := cIssue o .copy2 s
/-- SEND (R280). -/
def execSend (o : COp) (s : State) : Out := cIssue o .send s
/-- FETCH (R280). -/
def execFetch (o : COp) (s : State) : Out := cIssue o .fetch s
/-- SCOPY (R282). -/
def execScopy (o : COp) (s : State) : Out := cIssue o .scopy s
/-- COLL (R284, R285). -/
def execColl (o : COp) (s : State) : Out := cIssue o .coll s
/-- CZERO (R278). -/
def execCzero (o : COp) (s : State) : Out := cIssue o .czero s
/-- CFLUSH (R281). -/
def execCflush (o : COp) (s : State) : Out := cIssue o .cflush s

/-! ## Single pieces -/

/-- Where a byte range goes or comes from: the context's translation, or the other device's (R280; spec/16 R362). -/
inductive Far where
  | ok (s : State) (p : Placed)
  | fault (s : State) (code cls addr : Nat)
  deriving DecidableEq, Repr

/-- A piece of a local address for an operation. -/
def placeNear (s : State) (e : REntry) (write : Bool) (va n : Nat) : Far :=
  let w := whoEntry s e
  match translate s w.hearth w.ctx w.part w.qstart va { r := !write, w := write, sup := w.sup } false with
  | .ok pa mt win =>
    match reach s w e.task [⟨va, 0, n, pa, mt, win⟩] with
    | (s1, some (q :: _)) => .ok s1 q
    | (s1, _) => .fault s1 4 4 va
  | _ => .fault s 4 4 va

/-- A piece of an address on another device. -/
def placeFar (s : State) (e : REntry) (write : Bool) (va n : Nat) : Far :=
  let dev := e.set.dev.toNat
  let d := tabGet (getCtx s e.ctx).desc 8 0
  if windowBase ≤ va then .fault s 4 4 va
  else if !reaches s ((whoEntry s e).hearth / 24) dev then .fault s 5 5 (farPhys s e va)
  else
    match Config.peerTranslate s.tick dev (d.extractLsb' 8 6).toNat va with
    | some (pa, r, w) => if (write && !w) || (!write && !r) then .fault s 4 4 va else .ok s ⟨va, 0, n, pa, 0, false⟩
    | none => .fault s 4 4 va

/-- Whether an operation's destination, or its source, lies on another device (R280). -/
def farDest (s : State) (e : REntry) : Bool :=
  (e.op == .send || (e.op == .scopy && e.aux.getLsbD 0)) && e.set.dev.toNat != ownDev s
/-- Whether its source does. -/
def farSource (s : State) (e : REntry) : Bool := e.op == .fetch && e.set.dev.toNat != ownDev s

/-- The place of a piece for an operation. -/
def placeRun (s : State) (e : REntry) (far write : Bool) (va n : Nat) : Far :=
  if far then placeFar s e write va n else placeNear s e write va n

/-- Whether a read for an operation waits: for a write of its die issued before it (spec/10 R237), for room in the ports of its die (spec/17
R382), or for writes that one of its hearth went ahead of (spec/11 R254). -/
def readWaits (s : State) (core : Nat) (e : REntry) (far : Bool) (l : List (Nat × Nat × Nat)) : Bool :=
  l.any (fun x => match placeRun s e far false x.1 x.2.2 with
    | .ok _ p => (p.mt != 2 && (lineWrites s (dieOf core) p.pa p.n e.stamp || !linkRoom s (dieOf core) p.mt p.pa)) || owes s core
    | .fault _ _ _ _ => false)

/-- The bytes of a range read for an operation up to the first that cannot be read, and the fault met there. -/
def readRange (s : State) (core : Nat) (e : REntry) (far : Bool) : List (Nat × Nat × Nat) → State × List Byte × Option (Nat × Nat × Nat)
  | [] => (s, [], none)
  | (va, _, n) :: r =>
    match placeRun s e far false va n with
    | .fault s1 code cls a => (s1, [], some (code, cls, a))
    | .ok s1 p =>
      match readCached s1 (dieOf core) p.mt p.pa n with
      | (.error c, s2) => (s2, [], some (5, c, p.pa))
      | (.ok b, s2) => ((readRange s2 core e far r).1, b ++ (readRange s2 core e far r).2.1, (readRange s2 core e far r).2.2)

/-! ## Moving bytes (R278, R279, R288) -/

/-- Whether an operation works on a whole run at once: its bytes are staged. -/
def isStaged (e : REntry) : Bool := e.op == .scopy || e.op == .coll

/-- The address of a source byte of an operation, by its place in the write order (R278). -/
def sourceAddr (e : REntry) (pos : Nat) : Nat :=
  let row := if e.op = .copy then 0 else pos / e.set.len.toNat
  lAddr e.set.src.toNat ((row : Int) * e.set.sstr.toInt + (if e.op = .copy then pos else pos % e.set.len.toNat : Nat))

/-- The address of a destination byte of an operation, by its place in the write order (R278); the bytes of a staged one are one run. -/
def destAddr (e : REntry) (pos : Nat) : Nat :=
  let flat := isStaged e || e.op == .copy
  let row := if flat then 0 else pos / e.set.len.toNat
  lAddr e.set.dst.toNat ((row : Int) * e.set.dstr.toInt + (if flat then pos else pos % e.set.len.toNat : Nat))

/-- Bytes taken from those read ahead where they stand there, else from those read now, up to the first that neither holds. -/
def mergeAhead (ahead : List ReadAhead) (now : List Byte) (pos : Nat) : Nat → List Byte
  | 0 => []
  | n + 1 =>
    match (ahead.find? (fun x => x.1 == pos)).map Prod.snd, now with
    | some b, _ => b :: mergeAhead ahead now.tail (pos + 1) n
    | none, b :: r => b :: mergeAhead ahead r (pos + 1) n
    | none, [] => []

/-- How far a read of `n` source bytes from a place in the write order goes on in its row, so that no aligned 32-byte sector is read in two
steps (spec/10 R239). -/
def wholePieces (e : REntry) (pos n : Nat) : Nat :=
  let left := if e.op = .copy then e.set.len.toNat - pos else e.set.len.toNat - pos % e.set.len.toNat
  max n (min left (n + (32 - (sourceAddr e pos + n) % 32) % 32))

/-- The source bytes of the next piece of an operation, and those that its last sector has beyond: those that can be had, and the fault
met at the next. -/
def pieceBytes (s : State) (core : Nat) (r : RRun) (n : Nat) : State × List Byte × Option (Nat × Nat × Nat) :=
  let e := r.e
  if isStaged e then (s, (r.bytes.drop r.done).take n, none)
  else if e.op = .czero then (s, List.replicate n 0, none)
  else
    let m := wholePieces e r.done n
    let q := readRange (freshFor s core (some e.task) e.no) core e (farSource s e) (parts (sourceAddr e r.done) m)
    (q.1, mergeAhead r.ahead q.2.1 r.done m, q.2.2)

/-- One more piece of a running operation, in write order: the bytes for it as they were read ahead or stand now, then written; a
source byte that fails lets the bytes before it perform. The reads of one piece are made in one step (R278 leaves their order open; log
entry 50: DESIGN CHOICE, unsafe; source bytes of COPY, COPY2, SEND and FETCH may be read earlier and in any order by a `Move.ahead`). -/
def runnerPiece (s : State) (core ch : Nat) (r : RRun) : State :=
  let e := r.e
  let die := dieOf core
  let staged := isStaged e
  let len := if staged then r.bytes.length else e.set.len.toNat
  let b := if staged then r.done else r.done % len
  let va := destAddr e r.done
  let n := min (32 - va % 32) (len - b)
  if !staged && e.op != .czero && readWaits s core e (farSource s e) (parts (sourceAddr e r.done) n) then s else
  match pieceBytes s core r n with
  | (s1, [], some (code, cls, a)) => failRunner s1 core ch r code cls a 0
  | (s1, had, _) =>
    let data := had.take n
    match placeRun s1 e (farDest s1 e) true va data.length with
    | .fault s2 code cls a => failRunner s2 core ch r code cls a 1
    | .ok s2 p =>
      if linkRoom s2 die p.mt p.pa = false then s else
      match footHit s2 p.mt p.pa data.length with
      | some i => failRunner s2 core ch r 6 13 (p.pa + i) 1
      | none =>
        match writePa s2 die p.mt p.pa (storedBytes s2 die e.ctx p.mt (if farDest s1 e then windowBase else p.va) p.pa data) with
        | .error cls => failRunner s2 core ch r 5 cls p.pa 1
        | .ok s3 =>
          let kept := r.ahead.filter (fun x => decide (r.done + data.length ≤ x.1))
          let more := if staged then [] else
            ((had.drop n).zipIdx.map (fun x => (r.done + n + x.2, x.1))).filter (fun x => !kept.any (fun y => y.1 == x.1))
          let r1 := { r with done := r.done + data.length, ahead := kept ++ more }
          settleCount (modChan (noteSent s2 s3 core (some e.task) p.mt p.pa (.runner ch) r.done) core ch fun c => { c with run := some r1 }) core ch

/-- Source bytes of a running operation read before the writes that take them, in any order (R278): up to `n` bytes of one row from a
place in the write order on, no aligned 32-byte sector in part (spec/10 R239). What cannot be read yet is left for later. -/
def runnerAhead (core ch off n : Nat) (s : State) : State :=
  match (chanOf (getCore s core) ch).run with
  | none => s
  | some r =>
    let e := r.e
    let len := e.set.len.toNat
    if isStaged e || e.op == .czero || e.op == .cflush || decide (off < r.done) || decide (32 < n) || decide (len * rowsOf e < off + n)
      || decide (len < off % len + n) || (sourceAddr e off % 32 != 0 && off % len != 0) || wholePieces e off n != n
      || readWaits s core e (farSource s e) (parts (sourceAddr e off) n) then s
    else
      match readRange (freshFor s core (some e.task) e.no) core e (farSource s e) (parts (sourceAddr e off) n) with
      | (_, _, some _) => s
      | (s1, b, none) =>
        let new := (b.zipIdx.map (fun x => (off + x.2, x.1))).filter (fun x => !r.ahead.any (fun y => y.1 == x.1))
        modChan s1 core ch fun c => { c with run := some { r with ahead := r.ahead ++ new } }

/-- The bytes a running operation writes in all. -/
def runnerTotal (r : RRun) : Nat :=
  match r.e.op with
  | .scopy => r.bytes.length
  | .coll => r.bytes.length
  | .cflush => 0
  | _ => r.e.set.len.toNat * rowsOf r.e

/-- A running operation performs its next bytes, at least `bytes` of them while it lasts: a piece at a time (log entry 40: DESIGN CHOICE,
safe). -/
def runnerMove (core ch : Nat) : Nat → State → State
  | 0, s => s
  | n + 1, s =>
    match (chanOf (getCore s core) ch).run with
    | none => s
    | some r =>
      if (isStaged r.e && !r.ready) || runnerTotal r ≤ r.done then s
      else runnerMove core ch n (runnerPiece s core ch r)

/-- The lines of the remote-data cache that a range of the context meets: a modified one is written back, then every copy goes
(R281). -/
def flushRange (s : State) (e : REntry) (die : Nat) : List (Nat × Nat × Nat) → State × Option (Nat × Nat × Nat)
  | [] => (s, none)
  | (va, _, n) :: r =>
    match placeNear s e false va n with
    | .fault s1 code cls a => (s1, some (code, cls, a))
    | .ok s1 p => flushRange (if p.mt = 2 then s1 else modDie s1 die fun d => dropLine d (sectorOf s1 p.pa)) e die r

/-! ## Sealed copies (R282, R283) -/

/-- The seal an `SCOPY` uses: the newest of its context with its address and length. -/
def findSeal (h : Hearth) (e : REntry) : Option Seal :=
  let age := fun (i : Nat) => (h.sealNext + 1023 - i) % 1024
  let ok := h.seals.filter (fun x => x.2.valid && x.2.asid.toNat == e.ctx && x.2.addr == e.set.src && x.2.len == e.set.len)
  (ok.foldl (fun (b : Option (Nat × Seal)) x => match b with
    | some y => if age x.1 < age y.1 then some x else b
    | none => some x) none).map Prod.snd

/-- The report of a seal check (R283): KIND 0 at the source, KIND 2 or 1 at the far write. -/
def sealReport (s : State) (e : REntry) (cls : Nat) (kind : BitVec 2) (unit : BitVec 14) (sealCrc c far : W64) (fixed : Bool) : State :=
  postFor s e.task (mkReport 2 cls kind unit e.ctx e.set.src.toNat sealCrc.toNat c.toNat far.toNat (e.set.len.toNat + if fixed then 2 ^ 32 else 0))

/-- An `SCOPY` that fails its check: nothing written. -/
def failSeal (s : State) (core ch : Nat) (r : RRun) (kind : BitVec 2) (unit : BitVec 14) (sealCrc c far : W64) : State :=
  let s1 := noteError s r.e.task ⟨2, kind, unit, BitVec.ofNat 64 r.e.set.src.toNat, 0⟩
  sealReport (failRunner s1 core ch r 3 2 r.e.set.src.toNat 0) r.e 2 kind unit sealCrc c far false

/-- The fabric port that the data of an operation of a core leaves through; which one the manual leaves open. -/
def leavePort (s : State) (core pa : Nat) : Option Nat :=
  let open_ := upPorts s (dieOf core)
  open_[(Config.freeData s.tick pa).toNat % open_.length]?

/-- Whether an `SCOPY` sends its data to another device: the port it leaves through. -/
def portFor (s : State) (core : Nat) (e : REntry) : Option Nat :=
  if farDest s e then leavePort s core (e.set.dev.toNat * 2 ^ 43)
  else match placeNear s e true e.set.dst.toNat 1 with
    | .ok _ p => if isRemote s p.pa && p.mt != 2 then leavePort s core p.pa else none
    | .fault _ _ _ _ => none

/-- The start of an `SCOPY`: its seal found, the run read and checked. Its reads are made in one step (log entry 50: DESIGN CHOICE,
unsafe). -/
def startScopy (s : State) (core ch : Nat) (e : REntry) : State :=
  let r : RRun := { e := e, port := portFor s core e }
  match findSeal (getHearth s (hearthOf core)) e with
  | none => failSeal s core ch r 0 (coreUnit core 3) 0 0 0
  | some x =>
    match readRange (freshFor s core (some e.task) e.no) core e false (parts e.set.src.toNat e.set.len.toNat) with
    | (s1, _, some (code, cls, a)) => failRunner s1 core ch r code cls a 0
    | (s1, b, none) =>
      if crc64 b ≠ x.crc then failSeal s1 core ch r 0 (coreUnit core 3) x.crc (crc64 b) 0
      else modChan s1 core ch fun c => { c with run := some { r with bytes := b, crc := x.crc } }

/-- The receiving die of an `SCOPY` on this device, or the port the data left through (R283). -/
def farUnit (s : State) (core : Nat) (r : RRun) : BitVec 2 × BitVec 14 :=
  match r.port with
  | some p => (1, BitVec.ofNat 14 p)
  | none =>
    match placeNear s r.e true r.e.set.dst.toNat 1 with
    | .ok _ p => (2, BitVec.ofNat 14 (homeDie p.pa % 4))
    | .fault _ _ _ _ => (2, BitVec.ofNat 14 (dieOf core))

/-- SCOPY_FAR_WRITE (R282): the destination runner computes c′ over what arrived; `flip` is what the way changed in it. A report of SUB 2 names
the c′ of the last attempt (log entry 83: DESIGN CHOICE, unsafe). -/
def execScopyFarWrite (core ch : Nat) (flip : BitVec 64) (s : State) : Out :=
  .next (match (chanOf (getCore s core) ch).run with
    | none => s
    | some r =>
      if r.e.op ≠ .scopy ∨ r.ready = true then s
      else
        let c := crc64 r.bytes
        let c' := c ^^^ flip
        let u := farUnit s core r
        if c' = r.crc then
          let s1 := modChan s core ch fun q => { q with run := some { r with ready := true } }
          if r.tries = 1 then sealReport s1 r.e 14 u.1 u.2 r.crc c c' true else s1
        else if r.tries = 0 then modChan s core ch fun q => { q with run := some { r with tries := 1 } }
        else failSeal s core ch r u.1 u.2 r.crc c c')

/-! ## Collectives (R284-R286) -/

/-- The element type of a collective, if its TYPE field is usable. -/
def collType (e : REntry) : Option ETy :=
  if e.set.type.getLsbD 7 then none
  else
    let t := (e.set.type.extractLsb' 0 4).toNat
    if t = 9 ∨ t = 10 then none else etyOf t

/-- Every joined member's operation ends with a fault. -/
def failAll (s : State) (joined : List (Nat × Nat × Nat)) (code cls addr : Nat) : State :=
  joined.foldl (fun s j =>
    match (chanOf (getCore s j.2.1) j.2.2).run with
    | some r => failRunner s j.2.1 j.2.2 r code cls addr 0
    | none => s) s

/-- A collective changed. -/
def modColl (s : State) (x : Coll) (f : Coll → Coll) : State :=
  { s with colls := s.colls.map (fun y => if y.ctx = x.ctx ∧ y.group = x.group then f y else y) }

/-- A collective taken off the list. -/
def dropColl (s : State) (x : Coll) : State := { s with colls := s.colls.filter (fun y => !(y.ctx == x.ctx && y.group == x.group)) }

/-- What a member of a group that can never join ends the collective with, class and address: its device is one that a joined member
does not reach (R286), or it is on a die of this device that is fenced or that no route joins to a member's (spec/16 R368, spec/01 R18). -/
def lostMember (s : State) (x : Coll) (l : List W64) : Option (Nat × Nat) :=
  l.findSome? (fun w =>
    let dev := w.toNat % 512
    let die := dieOf (w.toNat / 512 % 512)
    if dev = ownDev s then (if fenced s die || x.joined.any (fun j => cutOff s (dieOf j.2.1) die) then some (6, localPa s (die * 0x1800000000)) else none)
    else if x.joined.any (fun j => !reaches s (dieOf j.2.1) dev) then some (5, dev * 2 ^ 43) else none)

/-- A collective ends in error for every member: those that have joined now, those of this device still to join when they do. -/
def killColl (s : State) (x : Coll) (l : List W64) (cls addr : Nat) : State :=
  let mine := (l.filter (fun w => w.toNat % 512 == ownDev s)).length
  let s1 := if mine ≤ x.joined.length then dropColl s x else modColl s x fun y => { y with dead := true }
  failAll s1 x.joined 5 cls addr

/-- A channel of this device joins a collective. One that has ended in error, or whose members cannot all be reached, ends it with
an error (R286). -/
def joinColl (s : State) (core ch rank ctx group : Nat) (l : List W64) : State :=
  let x := (s.colls.find? (fun x => x.ctx == ctx && x.group == group)).getD { ctx := ctx, group := group }
  let x1 := { x with joined := x.joined ++ [(rank, core, ch)] }
  let s1 := { dropColl s x with colls := (dropColl s x).colls ++ [x1] }
  match lostMember s1 x1 l with
  | some (cls, a) => killColl s1 x1 l cls a
  | none => if x1.dead then killColl s1 x1 l 5 (localPa s 0) else s1

/-- A member joins, or its `COLL` ends at once (R284, R285). -/
def startColl (s : State) (core ch : Nat) (e : REntry) : State :=
  let r : RRun := { e := e }
  match groupOf s e with
  | (.fault code cls a, s1) => failRunner s1 core ch r code cls a 0
  | (.ok l, s1) =>
    match l.find? (fun w => decide (432 ≤ w.toNat % 512) || decide (384 ≤ w.toNat / 512 % 512)) with
    | some w => failRunner s1 core ch r 5 5 (w.toNat % 512 * 2 ^ 43) 0
    | none =>
      match rankOf s1 core ch l with
      | some rank => joinColl (modChan s1 core ch fun c => { c with run := some r }) core ch rank e.ctx e.set.group.toNat l
      | none => failRunner s1 core ch r 7 0 0 0

/-- What a member gives: its bytes, or none when its reads fail. A member on another device gives bytes the manual does not bind
(log entry 15: DESIGN CHOICE, safe). -/
def contribution (s : State) (joined : List (Nat × Nat × Nat)) (k n : Nat) : Except (Nat × Nat × Nat × Nat) (List Byte) × State :=
  match joined.find? (fun j => j.1 == k) with
  | none => (.ok ((List.range n).map (fun i => (Config.freeData s.tick (k * 2 ^ 32 + i)).setWidth 8)), s)
  | some (_, core, ch) =>
    match (chanOf (getCore s core) ch).run with
    | none => (.ok (List.replicate n 0), s)
    | some r =>
      match readRange (freshFor s core (some r.e.task) r.e.no) core r.e false (parts r.e.set.src.toNat n) with
      | (s1, b, none) => (.ok b, s1)
      | (s1, _, some (code, cls, a)) => (.error (k, code, cls, a), s1)

/-- Every contribution in rank order, or the first that fails. -/
def contributions (s : State) (joined : List (Nat × Nat × Nat)) (n : Nat) : List Nat → Except (Nat × Nat × Nat × Nat) (List (List Byte)) × State
  | [] => (.ok [], s)
  | k :: r =>
    match contribution s joined k n with
    | (.error x, s1) => (.error x, s1)
    | (.ok b, s1) =>
      match contributions s1 joined n r with
      | (.ok l, s2) => (.ok (b :: l), s2)
      | (.error x, s2) => (.error x, s2)

/-- The FMT under which a collective reduces: RM and SAT of its TYPE field. -/
def collFmt (e : REntry) : W32 := ((e.set.type.extractLsb' 4 2).setWidth 32 <<< 23) ||| ((e.set.type.extractLsb' 6 1).setWidth 32 <<< 25)

/-- The tree of R285 over the bytes of all members, element by element. -/
def collTree (e : REntry) (t : ETy) (l : List (List Byte)) : List Byte :=
  let sz := etyBits t / 8
  let n := e.set.len.toNat / sz
  let lv := ((List.range 64).find? (fun k => decide (l.length ≤ 2 ^ k))).getD 0
  (List.range n).flatMap (fun i =>
    let leaves := l.map (fun b => some (natOfBytes ((b.drop (i * sz)).take sz)))
    let padded := leaves ++ List.replicate (2 ^ lv - l.length) none
    let f := match collOp e with
      | 0 => vSum2 t (collFmt e)
      | 1 => vPick t false
      | _ => vPick t true
    bytesOf ((treeRoot f lv padded).getD 0) sz)

/-- The bytes a member's destination receives. -/
def collResult (e : REntry) (t : ETy) (rank : Nat) (l : List (List Byte)) : List Byte :=
  match collKind e with
  | 0 => collTree e t l
  | 1 => ((collTree e t l).drop (rank * (e.set.len.toNat / l.length))).take (e.set.len.toNat / l.length)
  | 2 => l.flatten
  | _ => (l.head?).getD []

/-- Whether two members give the same kind, operation, TYPE and LEN. -/
def sameColl (a b : REntry) : Bool := a.aux == b.aux && a.set.type == b.set.type && a.set.len == b.set.len

/-- Whether a member's LEN suits its element type and a group of `p` members (R285). -/
def collLenOk (e : REntry) (t : ETy) (p : Nat) : Bool :=
  let sz := etyBits t / 8
  let n := e.set.len.toNat
  n % sz == 0 && (collKind e != 1 || n % (p * sz) == 0)

/-- The ranks whose contributions are read: all, or for a broadcast rank 0 alone. -/
def givingRanks (e : REntry) (p : Nat) : List Nat := if collKind e = 3 then [0] else List.range p

/-- Whether the group table entry of a collective, or its member words, cannot be read yet (spec/10 R237). -/
def groupWaits (s : State) (e : REntry) : Bool :=
  let w := whoEntry s e
  let at_ := (tabGet (getCtx s e.ctx).desc 7 0).toNat % 2 ^ 57 + 16 * e.set.group.toNat
  rangeWaits s w { r := true } e.stamp at_ 16 ||
    (match (engRead s w { r := true } at_ 16).1 with
     | .ok b => rangeWaits s w { r := true } e.stamp (natOfBytes b / 2 ^ 64 % 2 ^ 57) (8 * (natOfBytes b % 2 ^ 16))
     | .error _ => false)

/-- The members of a collective on this device have all joined, and it ends: results to write, or a fault for every member (R285,
R286). Its reads are made in one step (log entry 50: DESIGN CHOICE, unsafe). Where one member's contribution cannot be read, the others end with
code 7 (log entry 82: DESIGN CHOICE, unsafe). -/
def endColl (s : State) (x : Coll) : State :=
  let runs := x.joined.filterMap (fun j => ((chanOf (getCore s j.2.1) j.2.2).run).map (fun r => (j, r)))
  match runs with
  | [] => if x.dead then s else dropColl s x
  | (_, r0) :: _ =>
    match groupOf s r0.e with
    | (.fault code cls a, s1) => failAll (dropColl s1 x) x.joined code cls a
    | (.ok l, s1) =>
      match lostMember s x l with
      | some (cls, a) => killColl s1 x l cls a
      | none =>
        let mine := l.filter (fun w => w.toNat % 512 == ownDev s)
        let lead := ((runs.find? (fun q => q.1.1 == 0)).map (fun q => q.2.e)).getD r0.e
        if runs.length < mine.length then s else
        match collType lead with
        | none => failAll (dropColl s1 x) x.joined 7 0 0
        | some t =>
          if runs.all (fun q => sameColl q.2.e lead) = false ∨ collLenOk lead t l.length = false then failAll (dropColl s1 x) x.joined 7 0 0
          else if runs.any (fun q => readWaits s1 q.1.2.1 q.2.e false (parts q.2.e.set.src.toNat lead.set.len.toNat)) then s
          else
            match contributions s1 x.joined lead.set.len.toNat (givingRanks lead l.length) with
            | (.error (k, code, cls, a), s1) =>
              x.joined.foldl (fun s j =>
                match (chanOf (getCore s j.2.1) j.2.2).run with
                | some r => if j.1 = k then failRunner s j.2.1 j.2.2 r code cls a 0 else failRunner s j.2.1 j.2.2 r 7 0 0 0
                | none => s) (dropColl s1 x)
            | (.ok cs, s1) =>
              x.joined.foldl (fun s j => modChan s j.2.1 j.2.2 fun c => { c with
                run := c.run.map (fun r => { r with bytes := collResult lead t j.1 cs, ready := true }) }) (dropColl s1 x)

/-- COLLECTIVE_COMPLETE (R285, R286). -/
def execCollectiveComplete (ctx group : Nat) (s : State) : Out :=
  .next (match s.colls.find? (fun x => x.ctx == ctx && x.group == group) with
    | some x => endColl s x
    | none => s)

/-! ## Start and completion (R276, R278) -/

/-- The head of a channel's queue started. -/
def startEntry (s : State) (core ch : Nat) (e : REntry) : State :=
  let r : RRun := { e := e }
  let usesDev := e.op == .send || e.op == .fetch || (e.op == .scopy && e.aux.getLsbD 0)
  if usesDev = true ∧ 432 ≤ e.set.dev.toNat then failRunner s core ch r 5 5 (e.set.dev.toNat * 2 ^ 43) (if e.op = .fetch then 0 else 1)
  else
    match e.op with
    | .scopy => startScopy s core ch e
    | .coll => startColl s core ch e
    | _ => modChan s core ch fun c => { c with run := some r }

/-- RUNNER_OPERATION_START (R276): nothing runs on the channel, the consumed tokens are done and no fence holds the operation. -/
def execRunnerOperationStart (core ch : Nat) (s : State) : Out :=
  .next (let q := chanOf (getCore s core) ch
    match q.run, q.queue with
    | none, e :: rest =>
      let c := ownerCore s core e.task
      if listDone c e.list = false ∨ engineHeld (getCore s core) (some e.task) 0x0C e.no = true
        ∨ (e.op == .scopy && readWaits s core e false (parts e.set.src.toNat e.set.len.toNat)) = true
        ∨ (e.op == .coll && groupWaits s e) = true then s
      else
        let s1 := modChan s core ch fun c => { c with queue := rest }
        if listFailed c e.list then failRunner s1 core ch { e := e } 7 0 0 0 else startEntry s1 core ch e
    | _, _ => s)

/-- RUNNER_OPERATION_COMPLETE (R278, R281): every write has performed, and those to other devices are acknowledged (R250). -/
def execRunnerOperationComplete (core ch : Nat) (s : State) : Out :=
  .next (match (chanOf (getCore s core) ch).run with
    | none => s
    | some r =>
      if r.e.op = .cflush then
        match flushRange s r.e (dieOf core) (parts r.e.set.src.toNat r.e.set.len.toNat) with
        | (s1, none) => finishRunner s1 core ch r.e
        | (s1, some (code, cls, a)) => failRunner s1 core ch r code cls a 0
      else if (isStaged r.e && !r.ready) || r.done < runnerTotal r || !(unackedOf s core ch).isEmpty then s
      else finishRunner s core ch r.e)

/-- The entries of a task leave a channel: those queued, and the running one at its next write boundary (R290, R319). -/
def dropRunner (s : State) (core ch task : Nat) : State :=
  let q := chanOf (getCore s core) ch
  let gone := q.queue.filter (fun e => e.task == task)
  let s1 := gone.foldl (fun s e => ownerTok s core task e.tok (.err 7)) s
  let s2 := modChan s1 core ch fun c => { c with queue := c.queue.filter (fun e => e.task != task) }
  match q.run with
  | some r => if r.e.task = task then failRunner s2 core ch r 7 0 0 0 else s2
  | none => s2

/-! ## Ordered atomics at their home (R270, R271) -/

/-- The key of a flow at a home slice. -/
def flowKey (r : OReq) : Nat := r.slice * 2 ^ 13 + r.core * 16 + r.flow
/-- The position of a request's outstanding entry. -/
def oreqIdx (c : Core) (r : OReq) : Option Nat :=
  (findIdxFrom (fun (a : Acc) => a.id == r.id && (match a.kind with | .ordered _ _ _ f q _ => f == r.flow && q == r.seq | _ => false)) c.acc 0).map Prod.fst

/-- A request whose number its home expects performs, or is refused by a footprint (spec/06 R124); its packet went out with the request. -/
def performOrdered (s : State) (r : OReq) : State :=
  let s1 := { s with
    expect := tabSet s.expect (flowKey r) (r.seq + 1)
    oreqs := s.oreqs.filter (fun x => !(x.core == r.core && x.id == r.id && x.flow == r.flow)) }
  let s2 := modCore s1 r.core fun c =>
    let w := tabGet c.flow r.flow {}
    { c with flow := tabSet c.flow r.flow { w with outstanding := w.outstanding - 1 } }
  match (oreqIdx (getCore s2 r.core) r).bind (fun n => ((getCore s2 r.core).acc[n]?).map (fun e => (n, e))) with
  | none => s2
  | some (n, e0) =>
    if accGone s2 e0 then modCore s2 r.core fun c => dropAcc c n else
    let s3 := (rehomeAcc s2 r.core n e0).1
    let e := ((getCore s3 r.core).acc[n]?).getD e0
    match e.kind with
    | .ordered op v new f q _ =>
      let d2 := f + 65536 * q.toNat
      if (rehomeAcc s2 r.core n e0).2 = false then finishAcc s3 r.core n e true (.error 4) d2 else
      match footHit s3 e.mt e.pa e.n with
      | some i => refuseAcc s3 r.core n e true i d2
      | none =>
        match atomicAt s3 (dieOf r.core) e op v new 0 with
        | .ok (old, s4) => finishAcc { s4 with ports := s3.ports } r.core n e true (.ok (bytesOf old e.n)) d2
        | .error c => finishAcc s3 r.core n e true (.error c) d2
    | _ => s3

/-- Buffered requests whose turn has come perform. -/
def performBuffered : Nat → State → State
  | 0, s => s
  | n + 1, s =>
    match s.oreqs.find? (fun r => r.buffered && tabGet s.expect (flowKey r) 0 == r.seq) with
    | some r => performBuffered n (performOrdered s r)
    | none => s

/-- A request arrives at its home slice (R271). -/
def orderedArrive (s : State) (r : OReq) : State :=
  let s1 := if r.start then { s with expect := tabSet s.expect (flowKey r) r.seq } else s
  if tabGet s1.expect (flowKey r) 0 = r.seq then performBuffered 32 (performOrdered s1 r)
  else
    let used := (s1.oreqs.filter (fun x => x.buffered && x.slice == r.slice)).length
    let f := fun (x : OReq) =>
      if x.core = r.core ∧ x.id = r.id ∧ x.flow = r.flow then
        (if used < 32 then { x with buffered := true, backoff := false } else { x with refusals := x.refusals + 1, backoff := true })
      else x
    { s1 with oreqs := s1.oreqs.map f }

/-- ORDERED_ATOMIC_REQUEST (R271): the n-th request under way reaches its home; one that waits there performs when its turn has come. -/
def execOrderedAtomicRequest (n : Nat) (s : State) : Out :=
  .next (match s.oreqs[n]? with
    | some r =>
      if r.backoff then s
      else if r.buffered then performBuffered 32 s
      else orderedArrive s r
    | none => s)

/-- ORDERED_ATOMIC_RESEND (R271): a refused request is sent again after its back-off. -/
def execOrderedAtomicResend (n : Nat) (s : State) : Out :=
  .next (match s.oreqs[n]? with
    | some r => if r.backoff then { s with oreqs := modifyAt s.oreqs n (fun r => { r with backoff := false }) } else s
    | none => s)

end Sys2Proof.Machine
end

