-- ==== Sys2Proof/Machine/Control.lean ====
section
/-! DEFINITION. The B-slot operations of spec/04 (prepared transfers, loops, bank windows, overlays, system registers, traps and the
return from them), and the waits of spec/12 (R274, R275, R289). -/

namespace Sys2Proof.Machine

open Sys2Proof

/-- The B slot. -/
def unitB : Nat := 11

/-! ## Prepared transfers (R62-R66) -/

/-- An entry armed by the bundle at the program counter (R64). -/
def arm (s : State) (e : Nat) (t : Target) : State :=
  modMe s fun c => { c with ctl := { c.ctl with tgt := tabSet c.ctl.tgt e t, armed := some e } }

/-- The target a preparing operation gives as a word offset. -/
def relTarget (c : Core) (off : BitVec 15) : BitVec 16 := BitVec.ofInt 16 ((c.ctl.pc : Int) + off.toInt)

/-- BPREP (R62, R64): G is the condition. -/
def execBprep (o : PrepOp) (s : State) : Out :=
  .next (arm s o.entry.toNat ⟨true, false, o.g, o.dist, relTarget (me s) o.off⟩)
/-- BCALL (R62, R64). -/
def execBcall (o : PrepOp) (s : State) : Out :=
  .next (arm s o.entry.toNat ⟨true, true, o.g, o.dist, relTarget (me s) o.off⟩)
/-- BPREPX (R63). -/
def execBprepx (o : PrepXOp) (s : State) : Out :=
  .next (arm s o.entry.toNat ⟨true, false, o.g, o.dist, (seeX s (me s) o.a.toNat).setWidth 16⟩)
/-- BCALLX (R63). -/
def execBcallx (o : PrepXOp) (s : State) : Out :=
  .next (arm s o.entry.toNat ⟨true, true, o.g, o.dist, (seeX s (me s) o.a.toNat).setWidth 16⟩)
/-- RET (R63): guarded as a whole; its condition is q0. -/
def execRet (o : RetOp) (s : State) : Out :=
  guarded s o.g fun s => arm s o.entry.toNat ⟨true, false, 0, o.dist, (seeX s (me s) 31).setWidth 16⟩

/-! ## Hardware loops (R68-R70) -/

/-- A loop opened over the body that ends `off` words after the bundle (R69). With count 0 the end bundle's length is that of the words
that stand in instruction memory when the loop bundle executes, whatever the state of their bank (log entry 52: DESIGN CHOICE, unsafe). START, END
and the address that a skipped body leaves to wrap modulo 65,536, as transfers do (R64; log entry 70: DEDUCED, unsafe). -/
def openLoop (s : State) (n : BitVec 32) (off : Nat) : State :=
  let c := me s
  let stop := (c.ctl.pc + off) % 65536
  if c.ctl.loops.length = 4 then
    takeTrap s 0x01 (BitVec.ofNat 21 (2 ^ (slotOf c unitB).1 + 256 * (frameOf c).1.length)) 0 0
  else if n = 0 then
    modMe s fun c => { c with ctl := { c.ctl with skip := some ((stop + (frameFrom c.imem stop 8).1.length) % 65536) } }
  else
    modMe s fun c => { c with ctl := { c.ctl with loops := c.ctl.loops ++ [⟨n, (c.ctl.pc + (frameOf c).1.length) % 65536, stop, none⟩] } }

/-- LOOP (R68, R69). -/
def execLoop (o : LoopOp) (s : State) : Out :=
  guarded s o.g fun s => openLoop s ((seeX s (me s) o.a.toNat).setWidth 32) o.off.toNat
/-- LOOPI (R68, R69). -/
def execLoopi (o : LoopIOp) (s : State) : Out :=
  guarded s o.g fun s => openLoop s (o.count.setWidth 32) o.off.toNat

/-! ## Traps and the return from them (R88, R89) -/

/-- TRAP (R88): the code stands in TAUX[15:0] with the slot word. -/
def execTrap (o : CodeOp) (s : State) : Out := guarded s o.g fun s => slotTrap s unitB 0x0C 0 0
/-- SYSCALL (R88). -/
def execSyscall (o : CodeOp) (s : State) : Out := guarded s o.g fun s => slotTrap s unitB 0x0D 0 0

/-- A return from an exception: privileged outside a handler; it waits until nothing of the handler is in flight (R89). -/
def eretOp (g : BitVec 4) (skip : Nat) (s : State) : Out :=
  guarded s g fun s =>
    let c := me s
    if isSup c = false ∨ c.sys.estate.getLsbD 2 = false then slotTrap s unitB 0x03 0 0
    else tryReturn (modMe s fun c => { c with retPend := some skip }) s.cur

/-- ERET (R89): the bundle at EPC issues again. -/
def execEret (o : PlainOp) (s : State) : Out := eretOp o.g 0 s
/-- ERET.S (R89): the bundle at EPC counts as committed. -/
def execEretS (o : PlainOp) (s : State) : Out := eretOp o.g 1 s

/-! ## Waits (spec/12 R274, R275, R289) -/

/-- TWAIT (R274). -/
def execTwait (o : TWaitOp) (s : State) : Out :=
  guarded s o.g fun s =>
    if tokOf (me s) o.tok.toNat = .pending then modMe s fun c => { c with wait := .token o.tok.toNat } else s

/-- The error code of a token. -/
def tokCode : Tok → Nat
  | .err c => c.toNat
  | _ => 0

/-- A token as the bundle found it at its issue (spec/02 R433). -/
def tokSeen (c : Core) (n : Nat) : Tok :=
  match c.blocked with
  | some b => if n = 0 then .ok else tabGet b.tok n .ok
  | none => tokOf c n

/-- TPOLL (R275). -/
def execTpoll (o : TPollOp) (s : State) : Out :=
  guarded s o.g fun s =>
    let t := tokSeen (me s) o.tok.toNat
    emit s 2 [.q (2 * o.m.toNat) (t != .pending), .q (2 * o.m.toNat + 1) (match t with | .err _ => true | _ => false),
      .x o.d.toNat (BitVec.ofNat 64 (tokCode t))]

/-- WAITWP (R289). -/
def execWaitwp (o : WaitWpOp) (s : State) : Out :=
  guarded s o.g fun s =>
    let v := (seeX s (me s) o.a.toNat).toNat % 2 ^ 48
    if v ≤ (chanOf (me s) o.ch.toNat).count.toNat then s else modMe s fun c => { c with wait := .pointer o.ch.toNat v }

/-! ## FMT (R55, R82) -/

/-- FMT written with its delay: bundles from vc v + 4 on see it; its reserved bits are dropped (spec/05 R92, spec/00 R8). -/
def writeFmt (s : State) (v : W32) : State :=
  modMe s fun c => { c with sys := { c.sys with fmtPend := c.sys.fmtPend ++ [(nowOf s s.cur + 4, v &&& fmtBits)] } }

/-- SETFMT (R82). -/
def execSetfmt (o : RegOp) (s : State) : Out := guarded s o.g fun s => writeFmt s ((seeX s (me s) o.a.toNat).setWidth 32)

/-! ## Bank windows (R73-R76) -/

/-- The spill count of a file. -/
def spillOf (c : Core) (f : Nat) : Nat := (tabGet c.sys.spilled f 0).toNat
/-- Where logical bank L of file f spills to (R75). -/
def spillAddr (c : Core) (f l : Nat) : Nat := (c.sys.spillBase.toNat / 4096 * 4096 + (3 * l + f) * 4096) % 2 ^ 57
/-- Three 16-bit fields as one word. -/
def packThree (t : Tab (BitVec 16)) : W64 :=
  BitVec.ofNat 64 ((tabGet t 0 0).toNat + 2 ^ 16 * (tabGet t 1 0).toNat + 2 ^ 32 * (tabGet t 2 0).toNat)

/-- The physical bank of a logical bank of a file. -/
def bankAt (c : Core) (f l : Nat) : Nat := f * 64 + physBank c l % 64

/-- A core that enters a logical bank for the first time since its physical bank was spilled: the bank holds zero or what stands there (R7,
R76; spec/16 R364; log entry 31: DEDUCED, unsafe). -/
def enterBank (tick : Nat) (c : Core) (key : Nat) : Core :=
  if c.enter.contains key then { (if Config.freeKeep tick key then c else clearBank c key) with enter := c.enter.filter (fun k => k != key) } else c

/-- SETBANK (R74, R75): while a bank must spill or refill, the bundle is held back; each bank's access is translated first, and a bank
that holds a victim's state is claimed (spec/13 R304). -/
def execSetbank (o : SetBankOp) (s : State) : Out :=
  guarded s o.g fun s =>
    let c := me s
    let f := o.f.toNat
    let wn : Int := windowOf c f + o.delta.toInt
    let sp := spillOf c f
    let n := bankCount c
    let move := fun (write : Bool) (l : Nat) =>
      if bankForeign s c (bankAt c f l) then holdFor s (.claimBank (bankAt c f l)) else
      withAccess s 11 { r := !write, w := write } (parts (spillAddr c f l) 4096) fun s _ => holdFor s (.spill f)
    if wn < 0 then slotTrap s unitB 0x08 0 (BitVec.ofNat 32 (1 + 2 * f))
    else if (sp : Int) + n - 1 < wn then
      (if sp = c.sys.spillLim.toNat then slotTrap s unitB 0x08 0 (BitVec.ofNat 32 (2 * f)) else move true sp)
    else if wn < sp then move false (sp - 1)
    else emit1 (modMe s fun c => enterBank s.tick c (bankAt c f wn.toNat)) 1 (.sys 0x018 (packThree (tabSet c.sys.window f (BitVec.ofInt 16 wn))))

/-- Whether nothing outstanding of the core keeps an access of the executing bundle from performing. -/
def freeToAccess (s : State) (c : Core) (l : List Placed) (write : Bool) : Bool :=
  l.all (fun p =>
    let e : Acc := { id := c.nextId, kind := if write then .store else .load, win := p.win, mt := p.mt, pa := p.pa, n := p.n, no := c.bundleNo, task := c.task }
    c.acc.all (fun q => q.task != c.task || !blocksAcc s q e))

/-- A write that lands in a bank. -/
def landInBank (key : Nat) : Land → Bool
  | .v slot _ _ => slot / 32 == key
  | _ => false

/-- A flight entry that lands in a bank. -/
def landsIn (key : Nat) (f : Flight) : Bool :=
  match f.val with
  | .known l => l.any (landInBank key)
  | .load _ _ d _ _ =>
    match d with
    | .vec slot _ => slot / 32 == key
    | .gather slot _ _ => slot / 32 == key
    | _ => false

/-- Results in flight into a bank land, once they are known (R76). -/
def landBank (c : Core) (key : Nat) : Core :=
  let go := (landingOrder c.flight).filter (landsIn key)
  let c' := go.foldl (fun c f => ((flightLands f.val).getD []).foldl landCore c) c
  { c' with flight := c.flight.filter (fun f => !landsIn key f) }

/-- The held `SETBANK` issues again, and its access is checked again. -/
def unhold (s : State) (core : Nat) : State := modCore s core fun c => { c with hold := .none }

/-- The places of a spilled bank for its core's task, when its access may perform now: it translates, meets no row of an open epoch and
no victim's block, and nothing before it holds it back. -/
inductive SpillPlace where
  | go (w : Who) (l : List Placed)
  | wait
  | again
  deriving DecidableEq, Repr

/-- The place of the bank of a file that a held `SETBANK` moves. -/
def spillPlace (s : State) (core f l : Nat) (write : Bool) : SpillPlace :=
  let c := getCore s core
  if c.flight.any (fun x => landsIn (bankAt c f l) x && (flightLands x.val).isNone) then .wait else
  match c.task, taskOf s core with
  | some u, some t =>
    let w := whoTask u t (isSup c)
    match placeFor s w { r := !write, w := write } (parts (spillAddr c f l) 4096) with
    | .error _ => .again
    | .ok p =>
      if (write && p.any (fun x => !isRemote s x.pa && (footHit s x.mt x.pa x.n).isSome)) || (claimOf s u p).isSome then .again
      else if freeToAccess s c p write = false ∨ p.any (fun x => !linkRoom s (dieOf core) x.mt x.pa) = true
        ∨ (!write && p.any (fun x => x.mt != 2 && lineWrites s (dieOf core) x.pa x.n s.tick)) = true then .wait
      else .go w p
  | _, _ => .wait

/-- The spill count of a file set, a bank noted as moved since the held bundle's issue, with where a spilled one went, and the bundle let go. -/
def moveSpill (c : Core) (f n key : Nat) (places : List Placed) : Core :=
  { c with hold := .none, sys := { c.sys with spilled := tabSet c.sys.spilled f (BitVec.ofNat 16 n) }
           blocked := c.blocked.map (fun b => { b with
             moved := b.moved ++ [key]
             spills := if places.isEmpty ∨ b.moved.contains key = true then b.spills else b.spills ++ [(key, places)] }) }

/-- The stores by which the results of a bundle's own V slots follow the banks that its `SETBANK` spilled (R76; log entry 31: DEDUCED, unsafe): each
register that they write, as it stands with them. -/
def spillFollows (c : Core) (id tick : Nat) (b : Blocked) : List Acc :=
  b.spills.flatMap (fun sp =>
    let own := b.lands.filter (landInBank sp.1)
    let regs := (own.filterMap (fun l => match l with | .v slot _ _ => some (slot % 32) | _ => none)).dedup
    let data := bankBytes (own.foldl landCore c) sp.1
    (sp.2.filter (fun p => regs.contains (p.off / 128))).map (fun p =>
      { id := id, kind := .store, win := p.win, mt := p.mt, pa := p.pa, n := p.n, off := p.off, data := (data.drop p.off).take p.n
        no := c.bundleNo, task := c.task, va := p.va, stamp := tick }))

/-- A core whose bundle commits, by what it was before: what the bundle's own results still have to store of the banks that it spilled joins the
outstanding accesses. -/
def followSpills (old c : Core) (tick : Nat) : Core :=
  match old.blocked with
  | none => c
  | some b => { c with acc := c.acc ++ spillFollows old c.nextId tick b, nextId := c.nextId + 1 }

/-- A write of a core to another device that a footprint there refused at once: its next bundle traps (spec/06 R124). -/
def refuseNow (s : State) (core : Nat) (p : Placed) : State :=
  modCore s core fun c => { c with hold := .none, late := c.late ++ [(BitVec.ofNat 64 (p.va / 128 * 128), footTile s p.pa)] }

/-- One bank spilled: stored. Its physical contents stay until a logical bank is moved into it or entered there (R76). -/
def spillBank (s : State) (core f : Nat) : State :=
  let c := getCore s core
  let sp := spillOf c f
  let key := bankAt c f sp
  match spillPlace s core f sp true with
  | .wait => s
  | .again => unhold s core
  | .go w l =>
    match l.find? (fun p => (footHit s p.mt p.pa p.n).isSome) with
    | some p => refuseNow s core p
    | none =>
      let s1 := modCore (touchFor s w l) core fun c => landBank c key
      let data := bankBytes (getCore s1 core) key
      let (s2, err) := writeParts s1 (dieOf core) (some w.ctx) data l none
      let s3 := match err, l with
        | some (cls, pa), _ => accessError s2 core c.task false cls pa 1 0
        | none, p :: _ => noteSent s1 s2 core c.task p.mt p.pa .store 0
        | none, [] => s2
      modCore s3 core fun c => moveSpill { c with enter := c.enter.filter (fun k => k != key) ++ [key] } f (sp + 1) key l

/-- The 32 registers of a bank from its bytes. -/
def bankFrom (c : Core) (key : Nat) (b : List Byte) : Core :=
  { c with regs := { c.regs with v := (List.range 32).foldl (fun v r =>
      tabSet v (key * 32 + r) (BitVec.ofNat 1024 (natOfBytes ((b.drop (128 * r)).take 128)))) c.regs.v } }

/-- One bank refilled (R75). -/
def refillBank (s : State) (core f : Nat) : State :=
  let c := getCore s core
  let sp := spillOf c f - 1
  let key := bankAt c f sp
  match spillPlace s core f sp false with
  | .wait => s
  | .again => unhold s core
  | .go w l =>
    let s1 := modCore (touchFor s w l) core fun c => landBank c key
    let (data, s2) := match readParts s1 (dieOf core) l with
      | .ok b => (b, askParts s1 (dieOf core) l)
      | .error (cls, pa) => (List.replicate 4096 0xFF, accessError s1 core c.task true cls pa 0 0)
    modCore s2 core fun c => moveSpill { bankFrom c key data with enter := c.enter.filter (fun k => k != key) } f sp key []

/-- Whether the window of a file stands below its spilled banks' upper neighbour, so that the held `SETBANK` goes up. -/
def spillsUp (c : Core) (f : Nat) : Bool :=
  let w := (slotOf c unitB).2
  let wn : Int := windowOf c f + (w.extractLsb' 0 8).toInt
  decide ((spillOf c f : Int) + bankCount c - 1 < wn)

/-- SPILL_REFILL_COMPLETE (R75): the bank access that the held `SETBANK` waits for. -/
def execSpillRefillComplete (core : Nat) (s : State) : Out :=
  .next (match (getCore s core).hold with
    | .spill f => if spillsUp (getCore s core) f then spillBank s core f else refillBank s core f
    | _ => s)

/-! ## System registers (R81-R83; spec/16 R355) -/

/-- DIESTAT (spec/16 R354). -/
def diestatOf (s : State) : W64 :=
  BitVec.ofNat 64 ((getDie s 0).state.toNat + 16 * (getDie s 1).state.toNat + 256 * (getDie s 2).state.toNat + 4096 * (getDie s 3).state.toNat)

/-- A 64-bit word of a seal entry (spec/06 R125). -/
def sealWord (x : Seal) (w : Nat) : W64 :=
  match w with
  | 0 => x.addr.setWidth 64
  | 1 => BitVec.ofNat 64 (x.len.toNat + 2 ^ 32 * (x.crc.toNat % 2 ^ 32))
  | 2 => BitVec.ofNat 64 (x.crc.toNat / 2 ^ 32 + 2 ^ 32 * x.asid.toNat + 2 ^ 38 * x.src.toNat + 2 ^ 40 * x.valid.toNat + 2 ^ 41 * x.core.toNat)
  | _ => x.time

/-- A 64-bit word of a predictor entry (spec/14 R312). -/
def predWord (x : Pred) (w : Nat) : W64 :=
  let h := fun i => if i < x.nh.toNat then (tabGet x.h i 0).toNat else 0
  match w with
  | 0 => BitVec.ofNat 64 (x.mode.toNat + 4 * x.nh.toNat + 2 ^ 32 * x.hint.toNat)
  | 1 => BitVec.ofNat 64 (h 0 + 2 ^ 32 * h 1)
  | 2 => BitVec.ofNat 64 (h 2 + 2 ^ 32 * h 3)
  | _ => 0

/-- GANGPOS (spec/02 R27). -/
def gangposOf (t : Task) (core : Nat) : W64 :=
  BitVec.ofNat 64 (core % 4 - t.first + 4 * (if t.size = 4 then 2 else if t.size = 2 then 1 else 0) + 16 * (core % 4) + 64 * t.hearth)

/-- TASKSTATE (spec/02 R32) with a given STATE and WAIT. -/
def taskstateOf (t : Task) (st wait : Nat) : W64 := BitVec.ofNat 64 (st + 8 * t.green.toNat + 16 * wait)

/-- The remaining count of a loop level. -/
def lcOf (c : Core) (n : Nat) : W64 := match c.ctl.loops[n]? with | some l => l.lc.setWidth 64 | none => 0

/-- A task-level system register as `MFS` reads it; an unassigned index reads 0. -/
def sysLow (s : State) (idx : Nat) : W64 :=
  let c := me s
  let y := c.sys
  match idx with
  | 0x000 => y.fmt.setWidth 64
  | 0x001 => BitVec.ofNat 64 (match c.blocked with | some b => b.vc | none => vccOf s s.cur)
  | 0x002 => match taskOf s s.cur with | some t => BitVec.ofNat 64 t.idx | none => 0
  | 0x003 => match taskOf s s.cur with | some t => t.gridn.setWidth 64 | none => 0
  | 0x004 => match taskOf s s.cur with | some t => gangposOf t s.cur | none => 0
  | 0x005 => match taskOf s s.cur with | some t => taskstateOf t 1 0 | none => 0
  | 0x006 => BitVec.ofNat 64 (ctxOf s s.cur)
  | 0x007 => y.priv.setWidth 64
  | 0x008 => y.lderr.setWidth 64
  | 0x010 => lcOf c 0
  | 0x011 => lcOf c 1
  | 0x012 => lcOf c 2
  | 0x013 => lcOf c 3
  | 0x014 => BitVec.ofNat 64 c.ctl.loops.length
  | 0x018 => packThree y.window
  | 0x019 => y.bankLo.setWidth 64
  | 0x01A => y.bankHi.setWidth 64
  | 0x01B => y.spillBase.setWidth 64
  | 0x01C => y.spillLim.setWidth 64
  | 0x01D => packThree y.spilled
  | 0x020 => y.rngKey
  | 0x021 => y.rngCtr
  | 0x040 => wptrOf (chanOf c 0)
  | 0x041 => wptrOf (chanOf c 1)
  | 0x080 => y.trapvec.setWidth 64
  | 0x081 => y.epc.setWidth 64
  | 0x082 => y.tcause.setWidth 64
  | 0x083 => y.tslots.setWidth 64
  | 0x084 => y.taddr
  | 0x085 => y.taux
  | 0x086 => y.estate.setWidth 64
  | 0x087 => tabGet y.efmt 1 0 ++ tabGet y.efmt 0 0
  | 0x088 => tabGet y.efmt 3 0 ++ tabGet y.efmt 2 0
  | _ => if 0x030 ≤ idx ∧ idx < 0x040 then (tabGet y.seq (idx - 0x030) 0).setWidth 64 else 0

/-- The fields of a context descriptor's words; the bits between them are reserved and read 0 (spec/16 R353, spec/00 R8). -/
def descMask : List Nat :=
  [(2 ^ 52 - 2 ^ 12), 2 ^ 17 - 1, 2 ^ 57 - 1, 2 ^ 16 - 1, 2 ^ 57 - 1, 2 ^ 52 - 1, 2 ^ 32 - 1, 2 ^ 57 - 1,
   0x000FFFFF00003F0F, 2 ^ 57 - 1, 2 ^ 16 - 1]

/-- A supervisor register as `MFS` reads it (spec/16 R355). -/
def sysHigh (s : State) (idx : Nat) : W64 :=
  let c := me s
  match idx with
  | 0x210 => c.sys.sealSel.setWidth 64
  | 0x211 =>
    let x := tabGet (getHearth s (hearthOf s.cur)).seals (c.sys.sealSel.toNat % 1024) {}
    if x.asid.toNat = ctxOf s s.cur then sealWord x (c.sys.sealSel.toNat / 1024) else 0
  | 0x212 => c.sys.predSel.setWidth 64
  | 0x213 => predWord (tabGet (getDie s (dieOf s.cur)).pred (c.sys.predSel.toNat % 256) {}) (c.sys.predSel.toNat / 256)
  | 0x215 => diestatOf s
  | _ => if 0x200 ≤ idx ∧ idx < 0x210 then
      tabGet (getCtx s (ctxOf s s.cur)).desc (idx - 0x200) 0 &&& BitVec.ofNat 64 (descMask.getD (idx - 0x200) 0)
    else 0

/-- A system register as it stands. -/
def sysRead (s : State) (i : Nat) : W64 := if i < 0x200 then sysLow s i else sysHigh s i

/-- A system register as the bundle found it at its issue (spec/02 R433). -/
def sysSeen (s : State) (i : Nat) : W64 := ((me s).blocked.bind (fun b => b.mfs)).getD (sysRead s i)

/-- MFS (R81): through the cross-copy port with bound 2. -/
def execMfs (o : SysOp) (s : State) : Out :=
  guarded s o.g fun s =>
    let i := o.idx.toNat
    if 0x200 ≤ i ∧ isSup (me s) = false then slotTrap s unitB 0x03 0 0
    else emit1 s 2 (landS (o.file == 1) o.r (sysSeen s i))

/-- Whether an `MTS` to a register below 0x200 has an effect at task level (R83). -/
def taskWrites (i : Nat) : Bool := i == 0x000 || i == 0x008 || (0x010 ≤ i && i ≤ 0x014) || i == 0x020 || i == 0x021

/-- A count written for an active loop level, applied at its next test (R70, R72). -/
def writeLc (s : State) (n : Nat) (v : W64) : State :=
  modMe s fun c => { c with ctl := { c.ctl with loops := modifyAt c.ctl.loops n (fun l => { l with pend := some (v.setWidth 32) }) } }

/-- EVCLR: an event cleared as by `EVSET` with op 1, after a provisional task's confirmation (spec/16 R355, spec/15 R341). -/
def clearEvent (s : State) (i : Nat) : State :=
  if i = 0 then s else if greenOf s s.cur then blockFor s .green else issueMarker s (.signal (.event i false))

/-- MTS (R81, R83): FMT with its delay, loop counts held, EVCLR as `EVSET` clears, the others with bound 1. -/
def execMts (o : SysOp) (s : State) : Out :=
  guarded s o.g fun s =>
    let i := o.idx.toNat
    let v := seeS s (o.file == 1) o.r
    if isSup (me s) = false then
      if 0x200 ≤ i then slotTrap s unitB 0x03 0 0
      else if taskWrites i = false then s
      else if i = 0 then writeFmt s (v.setWidth 32)
      else if 0x010 ≤ i ∧ i < 0x014 then writeLc s (i - 0x010) v
      else emit1 s 1 (.sys i v)
    else if i = 0 then writeFmt s (v.setWidth 32)
    else if 0x010 ≤ i ∧ i < 0x014 then writeLc s (i - 0x010) v
    else if i = 0x214 then clearEvent s (v.toNat % 4096)
    else emit1 s 1 (.sys i v)

/-! ## Overlays (R77-R80) -/

/-- IFENCE (R80). -/
def execIfence (o : PlainOp) (s : State) : Out := guarded s o.g fun s => issueMarker s (.signal .ifence)

/-- Who fetches a segment for a core's task. -/
def whoFetch (s : State) (core : Nat) : Option Who := (taskOf s core).map (fun t => whoTask ((getCore s core).task.getD 0) t false)

/-- The words of a segment as a fetch for the core's task finds them now. -/
def fetchBytes (s : State) (core src len : Nat) : Except EngErr (List Byte) × State :=
  match whoFetch s core with
  | none => (.error (4, src), s)
  | some w => engRead s w { x := true } src (4 * len)

/-- OVL (R78): privileged in a handler (R87); an unused entry has no effect. -/
def execOvl (o : OvlOp) (s : State) : Out :=
  guarded s o.g fun s =>
    let c := me s
    if c.handler then slotTrap s unitB 0x03 0 0
    else
      match (taskOf s s.cur).bind (fun t => tabFind t.segs o.n.toNat) with
      | none => s
      | some (src, len, bank) =>
        let fenced := c.acc.any (fun a => a.kind == .signal .ifence)
        let snap := if fenced then none else match (fetchBytes s s.cur src len).1 with | .ok b => some b | .error _ => none
        modMe s fun c => { c with
          ibank := tabSet c.ibank bank (.loading o.n)
          fetch := tabSet c.fetch bank { seg := o.n, src := src, len := len, no := c.bundleNo, snap := snap, stamp := s.tick } }

/-- The words of a byte list. -/
def wordsOf : Nat → List Byte → List W32
  | 0, _ => []
  | n + 1, b => BitVec.ofNat 32 (natOfBytes (b.take 4)) :: wordsOf n (b.drop 4)

/-- Instruction memory with words written from an address on. -/
def putWords (m : Tab W32) (a : Nat) (l : List W32) : Tab W32 := l.zipIdx.foldl (fun m w => tabSet m (a + w.2) w.1) m

/-- The reports of a fetch that failed on an uncorrected error, in its words or in a page table (spec/16 R359, spec/17 R378). -/
def postFetch (s : State) (core : Nat) (e : EngErr) : State :=
  if e.1 = 3 then postEcc s 0 (coreUnit core 3) (ctxOf s core) e.2
  else if e.1 = 4 then postWalk s 0 (coreUnit core 3) (ctxOf s core) e.2
  else s

/-- The fetch into a bank ended, and a bundle that waits for it let go. -/
def endFetch (c : Core) (bank : Nat) (b : IBank) : Core :=
  { c with ibank := tabSet c.ibank bank b, fetch := tabErase c.fetch bank, hold := if c.hold = .fetch bank then .none else c.hold }

/-- Whether a fetch cannot read yet: an `IFENCE` before it has still to perform (R80), or a write of its die to a line of another device that
was issued before (spec/10 R237). -/
def fetchWaits (s : State) (core : Nat) (f : Fetch) : Bool :=
  (getCore s core).acc.any (fun a => a.kind == .signal .ifence && decide (a.no < f.no)) ||
    (match whoFetch s core with
     | some w => rangeWaits s w { x := true } f.stamp f.src (4 * f.len)
     | none => false)

/-- Whether a fetch reads from another device. -/
def fetchRemote (s : State) (core : Nat) (f : Fetch) : Bool :=
  match whoFetch s core with
  | some w => (match placeFor s w { x := true } (parts (f.src % 2 ^ 57) (4 * f.len)) with
    | .ok l => l.any (fun p => p.mt != 2 && isRemote s p.pa)
    | .error _ => false)
  | none => false

/-- OVERLAY_FETCH_COMPLETE (R78): each word as it stands now, or as it stood when the fetch began, unless an `IFENCE` came before
(R80). -/
def execOverlayFetchComplete (core bank : Nat) (s : State) : Out :=
  .next (match tabFind (getCore s core).fetch bank with
    | none => s
    | some f =>
      if fetchWaits s core f then s
      else
        match fetchBytes s core f.src f.len with
        | (.error e, s1) => modCore (postFetch s1 core e) core fun c => endFetch c bank (.failed f.seg (BitVec.ofNat 8 e.1))
        | (.ok b, s1) =>
          let now := wordsOf f.len b
          let old := wordsOf f.len (f.snap.getD b)
          let ws := (List.zip now old).zipIdx.map (fun p => if Config.freeKeep s.tick p.2 then p.1.2 else p.1.1)
          modCore s1 core fun c => endFetch { c with imem := putWords c.imem (8192 * bank) ws } bank (.resident f.seg))

/-- The fetch into a bank outlasts the bound of remote operations, 2 ms: it ends failed with class 5 (R78). -/
def timeoutFetch (s : State) (core bank : Nat) : State :=
  match tabFind (getCore s core).fetch bank with
  | some f => if fetchRemote s core f then modCore s core fun c => endFetch c bank (.failed f.seg 5) else s
  | none => s

end Sys2Proof.Machine
end

