-- ==== Sys2Proof/Machine/Place.lean ====
section
/-! DEFINITION. Where work finds a place (spec/02 R25; spec/10 R227; spec/13 R296-R299, R306; spec/15 R334; spec/16 R365): free cores,
partitions and image slots, effective levels, and the turns of waiting work. -/

namespace Sys2Proof.Machine

open Sys2Proof

/-- A place of a gang: hearth, first core, partition start and image slot. Its banks start at physical bank 0: a gang that holds a
core holds all its banks (spec/13 R298). -/
structure Place where
  hearth : Nat
  first : Nat
  qstart : Nat
  slot : Nat
  deriving DecidableEq, Repr

/-- The tasks that hold cores of a hearth, but for those named. -/
def tasksOn (s : State) (h : Nat) (skip : List Nat) : List Task :=
  (s.tasks.filter (fun e => e.2.hearth == h && e.2.st != 3 && e.2.st != 5 && !skip.contains e.1)).map Prod.snd

/-- Whether a core of a hearth is held by one of some tasks. -/
def coreHeld (l : List Task) (i : Nat) : Bool := l.any (fun t => t.first ≤ i && i < t.first + t.size)

/-- The lowest free gang of a size (R25). -/
def gangPlace (l : List Task) (size : Nat) : Option Nat :=
  (if size = 4 then [0] else if size = 2 then [0, 2] else [0, 1, 2, 3]).find?
    (fun f => (List.range size).all (fun i => !coreHeld l (f + i)))

/-- Whether a partition at a start overlaps none of some tasks' and lies within the groups. -/
def partFits (l : List Task) (part q : Nat) : Bool :=
  q + part / 4 ≤ 4194304 && (part == 0 || l.all (fun t => t.part == 0 || q + part / 4 ≤ t.qstart || t.qstart + t.part / 4 ≤ q))

/-- The lowest start at which a partition fits (R227): 0 or the end of another. -/
def partPlace (l : List Task) (part : Nat) : Option Nat :=
  ((0 :: l.map (fun t => t.qstart + t.part / 4)).filter (partFits l part)).min?

/-- The lowest free image slot of a context (spec/16 R365). -/
def freeSlot (s : State) (ctx : Nat) : Option Nat :=
  let c := getCtx s ctx
  let n := (tabGet c.desc 3 0).toNat % 65536
  (List.range (min n (c.slots.length + 1))).find? (fun i => !c.slots.contains i)

/-- Whether a hearth is open to dispatch (spec/16 R368, spec/17 R380). -/
def hearthOpen (s : State) (h : Nat) : Bool := !fenced s (h / 24) && (getDie s (h / 24)).dispmask.getLsbD (h % 24)

/-- A gang and a partition placed on a hearth. -/
def gangOn (s : State) (skip : List Nat) (size part slot h : Nat) : Option Place :=
  if hearthOpen s h = false then none else
  let l := tasksOn s h skip
  match gangPlace l size, partPlace l part with
  | some f, some q => some ⟨h, f, q, slot⟩
  | _, _ => none

/-- The size of a gang (spec/15 R332). -/
def gangSize (r : Rec) : Nat := 2 ^ r.gang.toNat
/-- The partition of a launch's tasks (spec/10 R227). -/
def partSize (r : Rec) : Nat := (r.scratch.toNat + 16383) / 16384 * 16384

/-- The dies in the order in which a launch tries them (R298): from the one after its previous task's. -/
def dieOrder (last : Option Nat) : List Nat :=
  match last with
  | none => [0, 1, 2, 3]
  | some d => [(d + 1) % 4, (d + 2) % 4, (d + 3) % 4, d]

/-- The healthy dies of a record's mask. -/
def healthyDies (s : State) (r : Rec) : List Nat := [0, 1, 2, 3].filter (fun d => r.diemask.getLsbD d && !fenced s d)

/-- The place R298 gives the next task of a launch, on hearths that a test admits. -/
def recPlace (s : State) (skip : List Nat) (r : Rec) (last : Option Nat) (slot : Nat) (ok : Nat → Bool) : Option Place :=
  (dieOrder last).findSome? (fun d =>
    if (healthyDies s r).contains d then
      ((List.range 24).map (fun i => 24 * d + i)).findSome? (fun h => if ok h then gangOn s skip (gangSize r) (partSize r) slot h else none)
    else none)

/-! ## Levels and turns (R296, R297) -/

/-- The effective level of a launch. -/
def launchLevel (l : Launch) : Nat := min 3 (l.rcd.level.toNat + l.aged)
/-- The effective level of a pre-empted task. -/
def savedLevel (t : Task) : Nat := min 3 (t.level + t.aged)

/-- The launch whose level a task runs at: its own, or the tail launch that raises the count behind it (spec/14 R320). -/
def levelLaunch (s : State) (t : Task) : Option Launch :=
  (tabFind s.launches t.launch).map (fun l =>
    match l.tail with
    | some x => if l.pr ≤ t.idx then (tabFind s.launches x).getD l else l
    | none => l)

/-- The effective level of a waiting member: (0, launch) or (1, task). -/
def memberLevel (s : State) (m : Nat × Nat) : Nat :=
  if m.1 = 0 then (match tabFind s.launches m.2 with | some l => launchLevel l | none => 0)
  else (match tabFind s.tasks m.2 with | some t => savedLevel t | none => 0)

/-- Whether a pre-empted task finds its own cores and partition free (R306). -/
def canReturn (s : State) (skip : List Nat) (t : Task) : Bool :=
  let l := tasksOn s t.hearth skip
  (List.range t.size).all (fun i => !coreHeld l (t.first + i)) && partFits l t.part t.qstart

/-- The place a waiting member finds, on hearths that a test admits. -/
def memberPlace (s : State) (skip : List Nat) (m : Nat × Nat) (ok : Nat → Bool) : Option Place :=
  if m.1 = 0 then
    match tabFind s.launches m.2 with
    | none => none
    | some l =>
      match freeSlot s l.rcd.ctx.toNat with
      | none => none
      | some slot => recPlace s skip l.rcd l.lastDie slot ok
  else
    match tabFind s.tasks m.2 with
    | none => none
    | some t => if ok t.hearth && canReturn s skip t then some ⟨t.hearth, t.first, t.qstart, t.slot⟩ else none

/-- Whether a waiting member would find a place on a hearth. -/
def memberFits (s : State) (skip : List Nat) (h : Nat) (m : Nat × Nat) : Bool := (memberPlace s skip m (fun k => k == h)).isSome

/-- Whether a hearth is left to a level: no waiting work of a higher effective level fits there (R297). -/
def leftTo (s : State) (lv h : Nat) : Bool := s.turns.all (fun m => decide (memberLevel s m ≤ lv) || !memberFits s [] h m)

/-- The waiting members of a level in the order of their turns. -/
def ringAt (s : State) (lv : Nat) : List (Nat × Nat) := s.turns.filter (fun m => memberLevel s m == lv)

/-- The member that holds the turn of a level, passed on until one finds a place, and the members it passed. -/
def turnOf (s : State) (lv : Nat) : List (Nat × Nat) → List (Nat × Nat) → Option (Nat × Nat × Place × List (Nat × Nat))
  | [], _ => none
  | m :: r, passed =>
    match memberPlace s [] m (leftTo s lv) with
    | some p => some (m.1, m.2, p, passed)
    | none => turnOf s lv r (passed ++ [m])

/-- The next placement of a die's frame: the highest level whose turn goes to a place on the die. -/
def nextPlacement (s : State) (die : Nat) : List Nat → Option (Nat × Nat × Place × List (Nat × Nat))
  | [] => none
  | lv :: r =>
    match turnOf s lv (ringAt s lv) [] with
    | some x => if x.2.2.1.hearth / 24 = die then some x else nextPlacement s die r
    | none => nextPlacement s die r

/-- Members put at the tail, in their order. -/
def toTail (s : State) (l : List (Nat × Nat)) : State := { s with turns := s.turns.filter (fun m => !l.contains m) ++ l }

/-- A member that waits no longer. -/
def leaveTurns (s : State) (m : Nat × Nat) : State := { s with turns := s.turns.filter (fun x => x != m) }

/-! ## The split factor (spec/15 R334) -/

/-- Free gang places of a record, at most as many as asked, each taken in turn. -/
def freePlaces (r : Rec) : Nat → State → Option Nat → Nat
  | 0, _, _ => 0
  | n + 1, s, last =>
    match recPlace s [] r last 0 (fun _ => true) with
    | none => 0
    | some p =>
      let t : Task := { launch := 0, idx := 0, ctx := 0, hearth := p.hearth, size := gangSize r, first := p.first, part := partSize r
                        qstart := p.qstart, banks := 1, slot := 0 }
      freePlaces r n { s with tasks := s.tasks ++ [(s.nextUid + n, t)] } (some (p.hearth / 24)) + 1

/-- The split factor S. -/
def splitFactor (s : State) (r : Rec) (n : Nat) : Nat :=
  if r.split = false ∨ (r.det = true ∧ r.rint = false) then 1
  else
    let free := freePlaces r (min (4 * n) 384) s none
    if 4 * n ≤ free then 4 else if 2 * n ≤ free then 2 else 1

end Sys2Proof.Machine
end

