-- ==== Sys2Proof/Machine/Launch.lean ====
section
/-! DEFINITION. The launch, event and gang instructions (spec/15 R331-R345) and what their ordering entries do when they perform:
events, launches handed over, allocations made and freed (spec/16 R361). -/

namespace Sys2Proof.Machine

open Sys2Proof

/-! ## Events (R340) -/

/-- An event of a context set or cleared; event 0 is none. -/
def setEvent (s : State) (ctx i : Nat) (on : Bool) : State :=
  if i = 0 then s else
  modCtx s ctx fun c => { c with events := (if on then [i] else []) ++ c.events.filter (fun k => k != i) }

/-- Whether an event is set. -/
def eventSet (s : State) (ctx i : Nat) : Bool := (getCtx s ctx).events.contains i

/-- Whether a core has a change of an event still to take effect. -/
def eventDue (c : Core) (i : Nat) : Bool :=
  c.acc.any (fun a => a.task == c.task && (match a.kind with | .signal (.event k _) => k == i | _ => false))

/-! ## Allocations (spec/16 R361) -/

/-- The cached translations and walk-cache entries that a test keeps, in every hearth and die (R360). -/
def keepCached (s : State) (keep : Tlb → Bool) (keepWalk : WalkEntry → Bool) : State :=
  { s with
    hearths := tabMap s.hearths (fun _ h => { h with tlb := h.tlb.filter keep })
    dies := tabMap s.dies (fun _ d => { d with tlb2 := d.tlb2.filter keep, walks := d.walks.filter keepWalk }) }

/-- The TLB entries of a context that translate one of `n` pages from a page on, and the walk-cache entries on the walk to one,
removed (R360). -/
def invalidateRange (s : State) (ctx page n : Nat) : State :=
  keepCached s
    (fun t => !(t.asid == ctx && t.base * 2 ^ (t.bits - 12) < page + n && page < (t.base + 1) * 2 ^ (t.bits - 12)))
    (fun k => !(k.asid == ctx && k.base * 2 ^ (9 * k.level) < page + n && page < (k.base + 1) * 2 ^ (9 * k.level)))

/-- Every TLB and walk-cache entry of a context removed (R360). -/
def invalidateAll (s : State) (ctx : Nat) : State := keepCached s (fun t => t.asid != ctx) (fun k => k.asid != ctx)

/-- The physical address of the level-0 entry of a virtual address, when the tables on the way exist and the die whose firmware walks reaches
them (spec/01 R18, R20): that of the core that asked, of the launch's home for a retraction, of the primary host port for a `DESTROY` (log entry
71: DESIGN CHOICE, unsafe). -/
def leafSlot (s : State) (die va : Nat) : Nat → Nat → Option Nat
  | 0, _ => none
  | n + 1, table =>
    let at_ := table + 8 * (va / 2 ^ (12 + 9 * n) % 512)
    if !tableOk s die at_ then none else
    if n = 0 then some at_ else
    if !(eccHits s (memKey s at_) 8).isEmpty then none else
    let w := BitVec.ofNat 64 (natOfBytes (cellsGet s.mem (memKey s at_) 8))
    if w.getLsbD 0 = false ∨ w.getLsbD 1 = true ∨ w.extractLsb' 8 4 ≠ 0 ∨ w.extractLsb' 52 12 ≠ 0 then none
    else leafSlot s die va n (w.toNat / 2 ^ 12 * 2 ^ 12)

/-- The level-0 entry of an address of a context. -/
def ctxLeaf (s : State) (die ctx va : Nat) : Option Nat := leafSlot s die va 5 ((tabGet (getCtx s ctx).desc 0 0).toNat / 2 ^ 12 % 2 ^ 40 * 2 ^ 12)

/-- The pool of a context: its first virtual page, its physical base and its pages. -/
def poolOf (s : State) (ctx : Nat) : Nat × Nat × Nat :=
  let d := (getCtx s ctx).desc
  ((tabGet d 4 0).toNat % 2 ^ 57, (tabGet d 5 0).toNat % 2 ^ 52, (tabGet d 6 0).toNat % 2 ^ 32)

/-- Whether an access of some core, translated before, still goes to pages of the pool (log entry 32: DEDUCED, unsafe). -/
def rangeInUse (s : State) (ctx base n : Nat) : Bool :=
  let pa := (poolOf s ctx).2.1 + (base - (poolOf s ctx).1)
  s.cores.any (fun c => c.2.acc.any (fun a => a.n != 0 && a.mt != 2 && a.pa < pa + 4096 * n && pa < a.pa + a.n))

/-- Whether a page of the pool, counted from its start, is free and can be mapped: it lies in no allocation, and in no range given back that an
access made before may still reach, and a die's firmware reaches it to zero it (spec/01 R18, R20; log entry 71: DESIGN CHOICE, unsafe). -/
def pageFree (s : State) (die ctx i : Nat) : Bool :=
  let va := (poolOf s ctx).1 + 4096 * i
  (getCtx s ctx).allocs.all (fun a => va < a.1 || a.1 + 4096 * a.2.1 ≤ va)
    && (getCtx s ctx).freeing.all (fun a => va < a.1 || a.1 + 4096 * a.2 ≤ va || !rangeInUse s ctx a.1 a.2) && (ctxLeaf s die ctx va).isSome
    && (let d := homeDie ((poolOf s ctx).2.1 + 4096 * i); !fenced s d && !cutOff s die d)

/-- The starts of free runs of `n` pages. -/
def freeRuns (s : State) (die ctx n : Nat) : List Nat :=
  let len := (poolOf s ctx).2.2
  if n = 0 ∨ len < n then [] else
  (List.range (len - n + 1)).filter (fun i => (List.range n).all (fun k => pageFree s die ctx (i + k)))

/-- A leaf entry written, as the device writes one. -/
def writeLeaf (s : State) (die ctx va : Nat) (w : Nat) : State :=
  match ctxLeaf s die ctx va with
  | some a => { s with mem := cellsSet s.mem (memKey s a) (bytesOf w 8) }
  | none => s

/-- A page of memory set to zero. -/
def zeroPage (s : State) (pa : Nat) : State :=
  let k := memKey s pa
  { s with mem := s.mem.filter (fun c => c.1 < k || k + 4096 ≤ c.1), eccBad := s.eccBad.filter (fun c => c.key + c.size ≤ k || k + 4096 ≤ c.key) }

/-- `n` pages from page `i` of the pool mapped, zeroed before (R361). -/
def mapPages (s : State) (die ctx i n : Nat) : State :=
  let p := poolOf s ctx
  (List.range n).foldl (fun s k =>
    let pa := p.2.1 + 4096 * (i + k)
    writeLeaf (zeroPage s pa) die ctx (p.1 + 4096 * (i + k)) (pa + 0x2F)) s

/-- A range taken from the pool, and its base; 0 when none can be had (R338). Which free run it is the manual leaves open (log entry 3: DESIGN CHOICE, safe). -/
def allocate (s : State) (die ctx size : Nat) (owner : Option Nat) : State × Nat :=
  let n := (size + 4095) / 4096
  let runs := freeRuns s die ctx n
  match runs[(Config.freeData s.tick 0).toNat % runs.length]? with
  | none => (s, 0)
  | some i =>
    let base := (poolOf s ctx).1 + 4096 * i
    (modCtx (mapPages s die ctx i n) ctx fun c => { c with allocs := c.allocs ++ [(base, n, owner)] }, base)

/-- An allocation returned to its pool: its leaves cleared and invalidated (R339, R361). Its pages are given out again once no access that was
translated before still goes to them. -/
def release (s : State) (die ctx base : Nat) : State :=
  match (getCtx s ctx).allocs.find? (fun a => a.1 == base) with
  | none => s
  | some (_, n, _) =>
    let s1 := (List.range n).foldl (fun s k => writeLeaf s die ctx (base + 4096 * k) 0) s
    modCtx (invalidateRange s1 ctx (base / 4096) n) ctx fun c => { c with
      allocs := c.allocs.filter (fun a => a.1 != base)
      freeing := (c.freeing ++ [(base, n)]).filter (fun a => rangeInUse s ctx a.1 a.2) }

/-! ## Ordering entries perform -/

/-- The result word of an `ALLOC` written (R338), or refused by a footprint before anything is taken from the pool (spec/06 R124). -/
def performAlloc (s : State) (core n : Nat) (e : Acc) (size : W64) : State :=
  let green := match e.task.bind (tabFind s.tasks) with | some t => t.green | none => false
  match footHit s e.mt e.pa e.n with
  | some i => refuseAcc s core n e false i 0
  | none =>
  let (s1, base) := allocate s (dieOf core) (accCtx s e) size.toNat (if green then e.task else none)
  match writePa s1 (dieOf core) e.mt e.pa (storedBytes s1 (dieOf core) (accCtx s e) e.mt e.va e.pa (bytesOf base 8)) with
  | .ok s2 => finishAcc (noteSent s1 s2 core e.task e.mt e.pa .store 0) core n e false (.ok []) 0
  | .error c => finishAcc s1 core n e false (.error c) 0

/-- A record read and entered in the launch port (R335); a record that cannot be read is an access error and launches nothing. -/
def performLaunch (s : State) (core n : Nat) (e : Acc) (key : Option (BitVec 8)) : State :=
  let die := dieOf core
  let s0 := if dropsCopies (getCore s core) n e then dropCopies s die else s
  match readLine s0 die e.mt e.pa with
  | (.ok b, s1) =>
    let s2 := modDie s1 die fun d => { d with port := d.port ++ [(b, accCtx s e, key)] }
    modCore s2 core fun c => dropAcc c n
  | (.error c, s1) => accessError (modCore s1 core fun c => dropAcc c n) core e.task true c e.pa 0 0

/-- A barrier lets its gang's accesses go on: loads that have their bytes but wait for writes that their hearth saw before stand ahead of what
follows it (spec/11 R257, spec/15 R343). -/
def passBarrier (s : State) (task : Option Nat) (before : List (Nat × Nat)) : State :=
  before.foldl (fun s b => if (getCore s b.1).acc.any (fun a => a.got && a.task == task && decide (a.no < b.2)) then
      modCore s b.1 fun c => { c with acc := c.acc.map (fun a => if a.got ∧ a.task = task ∧ a.no < b.2 then { a with joined := true } else a) }
    else s) s

/-- An ordering entry of a core performs. -/
def performSignal (s : State) (core n : Nat) (e : Acc) (g : Signal) : State :=
  match g with
  | .event i on => setEvent (modCore s core fun c => dropAcc c n) (accCtx s e) i on
  | .launch key => performLaunch s core n e key
  | .alloc size => performAlloc s core n e size
  | .free base => release (modCore s core fun c => dropAcc c n) (dieOf core) (accCtx s e) base.toNat
  | .ifence => modCore s core fun c => dropAcc c n
  | .barrier before => modCore (passBarrier s e.task before) core fun c => dropAcc c n

/-! ## The instructions -/

/-- An entry for a range already placed. -/
def issueRange (s : State) (g : Signal) (l : List Placed) (n : Nat) : State :=
  match l with
  | [] => s
  | p :: _ =>
    modMe s fun c => { c with
      acc := c.acc ++ [{ id := c.nextId, kind := .signal g, win := p.win, mt := p.mt, pa := p.pa, n := n, no := c.bundleNo, task := c.task, va := p.va, stamp := s.tick }]
      nextId := c.nextId + 1 }

/-- SYNC (R343): a gang of 1 passes at once; otherwise the core waits for the others. -/
def execSync (o : PlainOp) (s : State) : Out :=
  guarded s o.g fun s =>
    let c := me s
    if c.handler then slotTrap s unitB 0x03 0 0
    else
      let alone := match taskOf s s.cur with | some t => decide (t.size ≤ 1) | none => true
      let s1 := modMe s fun c => { c with syncs := c.syncs + 1 }
      if alone then issueMarker s1 (.signal (.barrier [(s.cur, c.bundleNo)])) else modMe s1 fun c => { c with wait := .sync }

/-- A record handed over (R335). -/
def launchOp (g : BitVec 4) (a : BitVec 5) (key : Option (BitVec 8)) (s : State) : Out :=
  guarded s g fun s =>
    let c := me s
    let ea := (seeX s c a.toNat).toNat % 2 ^ 57
    if c.handler then slotTrap s unitB 0x03 0 0
    else if greenOf s s.cur then blockFor s .green
    else if ea % 128 ≠ 0 then slotTrap s unitB 0x06 (BitVec.ofNat 64 ea) 0
    else withAccess s 11 { r := true } (parts ea 128) fun s l => issueRange s (.launch key) l 128

/-- LAUNCH (R335). -/
def execLaunch (o : RegOp) (s : State) : Out := launchOp o.g o.a none s
/-- LAUNCHG (R335): the launch is green with a key. -/
def execLaunchg (o : KeyOp) (s : State) : Out := launchOp o.g o.a (some o.key) s

/-- A count put before the shape home: a provisional task's only so that no cycle of waits closes (spec/14 R327). -/
def askShape (s : State) (key : BitVec 8) (n : BitVec 32) : State :=
  let green := greenOf s s.cur
  if green ∧ s.shape.asked.any (fun a => a.core == s.cur) then blockFor s .green
  else
    let ask : Asked := { core := s.cur, ctx := ctxOf s s.cur, key := key.toNat, count := n.toNat }
    let s1 := { s with shape := { s.shape with asked := s.shape.asked.filter (fun a => a.core != s.cur) ++ [ask] } }
    blockFor s1 (if green then .green else .shape)

/-- SHAPE (R336): the bundle waits until the shape home has accepted or refused the count. -/
def execShape (o : KeyOp) (s : State) : Out :=
  guarded s o.g fun s =>
    let c := me s
    let n := (seeX s c o.a.toNat).setWidth 32
    if c.handler then slotTrap s unitB 0x03 0 0
    else
      match c.blocked with
      | none => askShape s o.key n
      | some b =>
        if b.accepted then s
        else
          match b.refused with
          | some w => slotTrap s unitB 0x0F (n.setWidth 64) (o.key.setWidth 32 + 256 * w.setWidth 32)
          | none => askShape s o.key n

/-- PREDICT (R337). -/
def execPredict (o : PredictOp) (s : State) : Out :=
  guarded s o.g fun s =>
    modDie s (dieOf s.cur) fun d =>
      { d with pred := tabSet d.pred o.key.toNat { tabGet d.pred o.key.toNat {} with mode := o.mode, hint := (seeX s (me s) o.a.toNat).setWidth 32 } }

/-- ALLOC (R338): the result word must lie in the task's partition. -/
def execAlloc (o : AllocOp) (s : State) : Out :=
  guarded s o.g fun s =>
    let c := me s
    let r := (seeX s c o.b.toNat).toNat % 2 ^ 57
    let inside := match taskOf s s.cur with | some t => inPart t r 8 | none => false
    if r % 8 ≠ 0 then slotTrap s unitB 0x06 (BitVec.ofNat 64 r) 0
    else if inside = false then slotTrap s unitB 0x05 (BitVec.ofNat 64 r) 1
    else withAccess s 11 { w := true } (parts r 8) fun s l => issueRange s (.alloc (seeX s c o.a.toNat)) l 8

/-- FREE (R339): a provisional task's waits for its confirmation (spec/14 R323). -/
def execFree (o : RegOp) (s : State) : Out :=
  guarded s o.g fun s =>
    let c := me s
    let base := (seeX s c o.a.toNat).setWidth 57
    match c.task with
    | some u =>
      if greenOf s s.cur then modTask s u fun t => { t with frees := t.frees ++ [(s.cur, c.bundleNo, base.toNat)] }
      else issueMarker s (.signal (.free (base.setWidth 64)))
    | none => s

/-- Whether waiting work of a level at least a task's own would find its place in the task's cores (R344). -/
def yieldsTo (s : State) (u : Nat) (t : Task) : Bool :=
  let lv := match levelLaunch s t with | some l => launchLevel l | none => t.level
  s.turns.any (fun m => decide (lv ≤ memberLevel s m) &&
    (match memberPlace s [u] m (fun h => h == t.hearth) with
     | some p =>
       let size := if m.1 = 0 then (match tabFind s.launches m.2 with | some l => gangSize l.rcd | none => 1)
         else (match tabFind s.tasks m.2 with | some x => x.size | none => 1)
       p.first < t.first + t.size && t.first < p.first + size
     | none => false))

/-- YIELD (R344). -/
def execYield (o : PlainOp) (s : State) : Out :=
  guarded s o.g fun s =>
    let c := me s
    if c.handler then slotTrap s unitB 0x03 0 0
    else
      match c.task, taskOf s s.cur with
      | some u, some t => if yieldsTo s u t then modTask s u fun t => { t with preempt := true, yielded := true } else s
      | _, _ => s

/-- HALT (R345); in a handler it ends the task in error, with the class of the last cause raised (spec/04 R90). -/
def execHalt (o : PlainOp) (s : State) : Out :=
  guarded s o.g fun s =>
    let c := me s
    if c.handler then
      match c.task with
      | some u => endInError s u (causeClass c.cause.toNat) 0 (coreUnit s.cur 3) c.sys.taddr.toNat
        (c.sys.tcause.toNat + if c.cause = 0x0A then 256 * c.hitTile else 0)
      | none => s
    else modMe s fun c => { c with halted := true }

/-- An event set or cleared (R341). -/
def eventOp (o : EventOp) (on : Bool) (s : State) : Out :=
  guarded s o.g fun s =>
    let i := (seeX s (me s) o.a.toNat).toNat % 4096
    if greenOf s s.cur then blockFor s .green
    else if i = 0 then s
    else issueMarker s (.signal (.event i on))

/-- EVSET (R341). -/
def execEvset (o : EventOp) (s : State) : Out := eventOp o true s
/-- EVSET with op 1 (R341). -/
def execEvsetClear (o : EventOp) (s : State) : Out := eventOp o false s
/-- EVWAIT (R342). -/
def execEvwait (o : EventOp) (s : State) : Out :=
  guarded s o.g fun s =>
    let c := me s
    let i := (seeX s c o.a.toNat).toNat % 4096
    if i = 0 ∨ (eventSet s (ctxOf s s.cur) i = true ∧ eventDue c i = false) then s
    else modMe s fun c => { c with wait := .event i }

end Sys2Proof.Machine
end

