-- ==== Sys2Proof/Machine/Events.lean ====
section
/-! DEFINITION. What happens at the cores between their bundles: the virtual cycle counter (spec/02 R34-R38), landings, FMT (spec/03
R55), prepared transfers and loop tests (spec/04 R65-R71), handlers (R87), outstanding accesses, page walks, claims, and the ends of
waits (spec/12, spec/15). -/

namespace Sys2Proof.Machine

open Sys2Proof

/-! ## The state of a gang -/

/-- Whether a core has made its issue decision for the current vc; a return from a handler that waits issues nothing (spec/04 R89). -/
def coreDecided (c : Core) : Bool := c.halted || c.decided || c.wait != .none || c.retPend.isSome

/-- Whether a core's gang has stopped in a handler or before one. -/
def coreTrapped (c : Core) : Bool := c.trapped || c.handler

/-- Whether every result of a core that is due by a vc has arrived (R36). -/
def arrivedBy (c : Core) (v : Nat) : Bool := c.flight.all (fun f => decide (v < f.due) || (flightLands f.val).isSome)

/-- Whether every unhalted core of a gang waits at the barrier (spec/15 R343). -/
def allAtBarrier (cs : List Core) : Bool := cs.any (fun c => !c.halted) && cs.all (fun c => c.halted || c.wait == .sync)

/-- FMT writes whose delay has ended take effect (spec/03 R55). -/
def landFmt (c : Core) (now : Nat) : Core :=
  let go := c.sys.fmtPend.filter (fun p => p.1 ≤ now)
  { c with sys := { c.sys with fmt := go.foldl (fun _ p => p.2) c.sys.fmt, fmtPend := c.sys.fmtPend.filter (fun p => decide (now < p.1)) } }

/-- A core at the start of a vc: what is due lands, and its issue decision is open. -/
def startVc (c : Core) (now : Nat) : Core := { landFmt (landDue c now false) now with decided := false }

/-- Whether a task's gang holds its cores and still makes its issue decisions of the current vc: those of a task that ended in error do
(R38, R90), those of a fettled one do not. -/
def gangIssues (t : Task) : Bool := (t.st == 0 || t.st == 1 || t.st == 2 || t.st == 4) && !t.ended

/-- Whether a task's gang goes on: not stopped by an error or a fettle. -/
def gangRuns (t : Task) : Bool := gangIssues t && t.error.isNone

/-- Whether the VCC of a task is paused (R36): a bundle is held back, or every core has made its issue decision and a result that is due has not
arrived. -/
def pausedTask (s : State) (t : Task) : Bool :=
  let cs := (gangOf t).map (getCore s)
  cs.any (fun c => c.hold != .none) || (cs.all coreDecided && cs.any (fun c => !c.handler && !arrivedBy c (t.vcc + 1)))

/-- Whether the handler of a core is paused (spec/04 R87). -/
def pausedHandler (c : Core) : Bool := c.hold != .none || (coreDecided c && !arrivedBy c (c.ctl.hcount + 1))

/-- The gang's cores, when all of them have started under the task. -/
def heldGang (s : State) (u : Nat) (t : Task) : Bool := (gangOf t).all (fun i => (getCore s i).task == some u)

/-! ## Waits end (R37) -/

/-- Whether the gang of a core has made its last decision of the current vc: its VCC is paused (R36), a trap has struck it (R38), it ended
in error (spec/04 R90) or is to be pre-empted (spec/13 R302). A core whose wait ends then issues in the next vc. -/
def wakesLate (s : State) (core : Nat) : Bool :=
  match taskOf s core with
  | none => false
  | some t =>
    let cs := (gangOf t).map (getCore s)
    t.error.isSome || t.preempt || cs.any (fun c => c.hold != .none || coreTrapped c)
      || ((gangOf t).all (fun i => i == core || coreDecided (getCore s i)) && cs.any (fun c => !arrivedBy c (t.vcc + 1)))

/-- A core that waits no longer. -/
def endWait (s : State) (core : Nat) : State :=
  modCore s core fun c => { c with wait := .none, decided := c.decided || (!c.handler && wakesLate s core) }

/-! ## Confirmation and fettling (spec/14 R318, R319) -/

/-- An entry put among a core's outstanding ones by its bundle's number. -/
def insertAcc (a : Acc) : List Acc → List Acc
  | [] => [a]
  | b :: r => if a.no < b.no then a :: b :: r else b :: insertAcc a r

/-- An entry of a task put among a core's outstanding ones. -/
def addAcc (s : State) (core : Nat) (a : Acc) : State :=
  modCore s core fun c => { c with acc := insertAcc { a with id := c.nextId, stamp := s.tick } c.acc, nextId := c.nextId + 1 }

/-- A held L-slot store goes among its core's outstanding accesses, translated again (spec/16 R360; log entry 48: DEDUCED, unsafe). One
that the saggar holds with an uncorrected error performs nothing (spec/17 R378). -/
def releaseStore (s : State) (u : Nat) (t : Task) (h : HeldStore) : State :=
  h.rows.foldl (fun s r =>
    match if r.bad then none else placeRow s t r with
    | some p => addAcc s h.core { id := 0, kind := .store, win := p.win, mt := p.mt, pa := p.pa, n := r.bytes.length, data := r.bytes, va := r.va
                                  rel := if h.release then some 4 else none, no := h.no, task := some u, held := true }
    | none => if r.bad then accessError s h.core (some u) false 3 r.pa 1 0 else accessError s h.core (some u) false 4 r.va 1 0) s

/-- The held rows of an epoch perform whole, or are discarded when one of them meets a footprint (spec/06 R128, R431). A row that the saggar holds
with an uncorrected error goes first, as at a `SIGCHK` (log entry 80: DESIGN CHOICE, unsafe). -/
def releaseTile (s : State) (u : Nat) (t : Task) (h : HeldStore) : State :=
  let fail := fun (s : State) (cls addr : Nat) =>
    postAccess (noteAccess s u ⟨BitVec.ofNat 8 cls, 0, coreUnit h.core 3, BitVec.ofNat 64 addr, accInfo s cls addr⟩)
      0 (coreUnit h.core 3) t.ctx cls addr 1 0 0
  match h.rows.find? (fun r => r.bad) with
  | some r => fail s 3 r.pa
  | none =>
    match rowHit s u h.rows with
    | some a => fail s 13 a
    | none =>
      match releaseImage s u h.core t.ctx h.src h.rows with
      | (s1, none) => s1
      | (s1, some (cls, a)) => fail s1 cls a

/-- A tile is in flight while its open epoch holds stores or green rows of it are still held (spec/07 R134). -/
def clearInflight (s : State) (h : HeldStore) (u : Nat) : State :=
  match h.tile with
  | none => s
  | some i =>
    let g := match tabFind s.tasks u with | some t => greenRows t h.core i | none => false
    let f := fun (c : Core) => match tabFind c.mu.tiles i with
      | some x => { c with mu := { c.mu with tiles := tabSet c.mu.tiles i { x with inflight := g || (match x.epoch with | some e => !e.held.isEmpty | none => false) } } }
      | none => c
    modTaskCore s h.core (some u) f

/-- Whether a held store of a task has still to perform at its home. -/
def heldWaits (s : State) (u : Nat) (t : Task) : Bool :=
  (gangOf t).any (fun i => (getCore s i).acc.any (fun a => a.task == some u && a.held))

/-- A confirmed task's held stores released one after another in issue order, each when those before it have performed (spec/11 R253,
R323), and then its deferred `FREE`s. -/
def pumpHeld (u : Nat) : Nat → State → State
  | 0, s => s
  | n + 1, s =>
    match tabFind s.tasks u with
    | none => s
    | some t =>
      if t.green || t.ended || heldWaits s u t then s else
      match t.held with
      | h :: rest =>
        let s1 := modTask s u fun t => { t with held := rest }
        match h.tile with
        | some _ => pumpHeld u n (clearInflight (releaseTile s1 u t h) h u)
        | none => pumpHeld u n (releaseStore s1 u t h)
      | [] =>
        match t.frees with
        | [] => s
        | f :: rest =>
          let s1 := modTask s u fun t => { t with frees := rest }
          pumpHeld u n (addAcc s1 f.1 { id := 0, kind := .signal (.free (BitVec.ofNat 64 f.2.2)), no := f.2.1, task := some u })

/-- What a confirmed task can release now released. -/
def pump (s : State) (u : Nat) : State :=
  match tabFind s.tasks u with
  | some t => pumpHeld u (t.held.length + t.frees.length + 1) s
  | none => s

/-- The green block of a saved core ends (spec/14 R323). -/
def endGreen (c : Core) : Core := if c.wait = .green then { c with wait := .none } else c

/-- GREEN of TASKSTATE clears in the image of a pre-empted task (spec/02 R33). -/
def clearGreenImage (s : State) (u core : Nat) : State :=
  match tabFind s.tasks u with
  | none => s
  | some t =>
    if t.st ≠ 3 then s else
    let off := coreImage t core + 0x208
    let at_ := fun (a : Nat) => match translate s t.hearth t.ctx 0 0 a { r := true } false with | .ok pa _ _ => pa | _ => a
    match loadImage s t off 1 with
    | .ok b => saveImage (noteImage s t off 1) u core off (b.map (fun x => x &&& 0xF7)) none
    | .error (cls, a) => saveImage s u core off [0] (some (cls, some (if cls = 4 then a else at_ a)))

/-- A task confirmed with the true count of its launch (R318): GREEN clears, held stores are released in issue order, deferred
`FREE`s perform, its allocations become ordinary, its errors are published (R325), and its blocked operations go on. -/
def confirmTask (s : State) (u : Nat) (count : Nat) : State :=
  match tabFind s.tasks u with
  | none => s
  | some t =>
    let s1 := modTask s u fun t => { t with green := false, gridn := BitVec.ofNat 32 count, verdict := none, laterErrs := [], laterReports := [] }
    let s2 := modCtx s1 t.ctx fun c => { c with allocs := c.allocs.map (fun a => if a.2.2 = some u then (a.1, a.2.1, none) else a) }
    let s3 := t.laterErrs.foldl (fun s e => launchError s t.launch e) s2
    let s4 := t.laterReports.foldl post s3
    let s5 := match t.error with | some e => publishError s4 u e | none => s4
    let s6 := (gangOf t).foldl (fun s i => if (getCore s i).task = some u ∧ (getCore s i).wait = .green then endWait s i else s) s5
    let s7 := (gangOf t).foldl (fun s i => clearGreenImage s u i) (modTask s6 u fun t => { t with saved := t.saved.map endGreen })
    settleTask (pump s7 u) u

/-- The allocations that a fettled task made are retracted (R324; spec/16 R361). -/
def retract (s : State) (u : Nat) (t : Task) : State :=
  ((getCtx s t.ctx).allocs.filter (fun a => a.2.2 == some u)).foldl
    (fun s a => release s (match tabFind s.launches t.launch with | some l => l.die | none => t.hearth / 24) t.ctx a.1) s

/-- Whether nothing is left on a core of what a task did there. -/
def leftNothing (s : State) (u : Nat) (t : Task) (i : Nat) : Bool :=
  let c := getCore s i
  let k := ownerCore s i u
  c.acc.all (fun a => a.task != some u) && c.chan.all (fun h => h.2.run.all (fun r => r.e.task != u))
    && k.mu.run.isNone && k.mu.queue.isEmpty && (getHearth s t.hearth).assay.all (fun a => a.2.2 != u)

/-- A fettled task whose accesses, M and C operations have stopped has its allocations retracted and gives up its cores, partition, banks and
image (R319, R324). -/
def freeEnded (s : State) (u : Nat) : State :=
  match tabFind s.tasks u with
  | none => s
  | some t =>
    if t.ended = false then s
    else if t.st = 5 then retract s u t
    else if (gangOf t).all (leftNothing s u t) = false then s
    else
      let s0 := retract s u t
      let s1 := (gangOf t).foldl (fun s i => if (getCore s i).task = some u then
        modCore s i leaveCore else s) s0
      leaveSlot (modTask (dropState s1 u t) u fun t => { t with st := 5, saved := [], preempt := false }) t

/-- A surplus task is fettled (R319): it issues nothing more, its held stores are squashed, its matrix queue emptied, its open epochs
abandoned and its runner entries removed, its allocations retracted (R324); then its cores become free. -/
def fettleTask (s : State) (u : Nat) : State :=
  match tabFind s.tasks u with
  | none => s
  | some t =>
    let s0 := modTask s u fun t => { t with ended := true, verdict := none, held := [], frees := [], laterErrs := [], laterReports := [] }
    let mine := (gangOf t).filter (fun i => (getCore s i).task == some u)
    let s1 := mine.foldl (fun s i => modCore s i fun c => { c with
      wait := .none, hold := .none, blocked := none, decided := true, trapped := false, handler := false, retPend := none, late := [] }) s0
    let s2 := (t.held.foldl (fun s h => clearInflight s h u) s1)
    let s3 := (gangOf t).foldl (fun s i => onUnit s i u (fun s => abortUnit s i)) s2
    let s4 := (gangOf t).foldl (fun s i => dropRunner (dropRunner s i 0 u) i 1 u) s3
    let s6 := { s4 with
      shape := { s4.shape with asked := s4.shape.asked.filter (fun a => !mine.contains a.core) }
      turns := s4.turns.filter (fun m => m != (1, u)) }
    freeEnded s6 u

/-- A verdict that has reached a task is applied at a bundle boundary outside a pause (R316, R330). -/
def applyVerdict (s : State) (u : Nat) : State :=
  match tabFind s.tasks u with
  | none => s
  | some t =>
    match t.verdict with
    | none => s
    | some yes =>
      let count := match tabFind s.launches t.launch with | some l => l.count.getD 0 | none => 0
      if t.st ≠ 3 ∧ t.st ≠ 5 ∧ pausedTask s t = true then s
      else if yes then confirmTask s u count else fettleTask s u

/-! ## The virtual cycle counter -/

/-- Whether a core has a bundle that commits because the shape home has accepted its count (spec/15 R336): it issues before a pre-emption. -/
def hasAccepted (c : Core) : Bool := match c.blocked with | some b => b.accepted | none => false

/-- Whether a task is to be pre-empted and no bundle of its gang has to commit before (spec/13 R302, spec/15 R336). -/
def preemptsNow (s : State) (t : Task) : Bool := t.preempt && !(gangOf t).any (fun i => hasAccepted (getCore s i))

/-- Whether the VCC of a task may advance (R34, R36, R38). -/
def mayAdvance (s : State) (u : Nat) (t : Task) : Bool :=
  let cs := (gangOf t).map (getCore s)
  heldGang s u t && gangRuns t && !preemptsNow s t && t.verdict.isNone
    && cs.all (fun c => coreDecided c && c.hold == .none && !coreTrapped c && c.ctl.post.isNone && arrivedBy c (t.vcc + 1))
    && cs.any (fun c => !c.halted) && !allAtBarrier cs

/-- VIRTUAL_CYCLE_ADVANCE (R34): the next vc of a gang begins, and what is due lands. -/
def execVirtualCycleAdvance (task : Nat) (s : State) : Out :=
  .next (let s := applyVerdict s task
    match tabFind s.tasks task with
    | none => s
    | some t =>
      if mayAdvance s task t then
        let s1 := modTask s task fun t => { t with vcc := t.vcc + 1, issued := false, st := if t.st = 4 then 4 else 1 }
        (gangOf t).foldl (fun s i => modCore s i fun c => startVc c (t.vcc + 1)) s1
      else s)

/-- Whether the gang of a core has stopped, so that what is in flight lands at once (R38, R90; spec/13 R302; spec/15 R345). -/
def gangStopped (s : State) (t : Task) : Bool :=
  let cs := (gangOf t).map (getCore s)
  (cs.all (fun c => c.handler || coreDecided c) && (cs.any (fun c => c.trapped && !c.handler) || t.error.isSome || t.ended))
    || (cs.all coreDecided && (cs.all (fun c => c.halted) || preemptsNow s t))

/-- Whether all that is in flight on a core lands at once: its gang has stopped, or the task whose handler it runs has, its own handler at a
bundle boundary (spec/04 R87, R89); and the last bundle's transfer and loop test are made, and every result is known. -/
def landsAll (s : State) (t : Task) (core : Nat) : Bool :=
  let c := getCore s core
  (if c.handler then coreDecided c && (t.error.isSome || preemptsNow s t || t.ended) else gangStopped s t)
    && c.ctl.post.isNone && c.flight.all (fun f => (flightLands f.val).isSome)

/-- RESULT_LANDING (R35, R38): what is due on a core lands; when its gang has stopped, everything in flight does once it is known and the
transfer and the loop test of its last bundle are made (spec/04 R66, R72). -/
def execResultLanding (core : Nat) (s : State) : Out :=
  .next (match taskOf s core with
    | none => s
    | some t =>
      let all := landsAll s t core
      let now := nowOf s core
      settleCore (tryReturn (modCore s core fun c => landDue c now all) core) core)

/-- FMT_WRITE_EFFECT (spec/03 R55). -/
def execFmtWriteEffect (core : Nat) (s : State) : Out :=
  .next (match taskOf s core with
    | none => s
    | some _ => let now := nowOf s core; tryReturn (modCore s core fun c => landFmt c now) core)

/-- HANDLER_COUNT_ADVANCE (spec/04 R87): a trapped core enters its handler once the gang's results have landed; after that the count
of the core steps as a VCC does, also before a pre-emption that waits for a bundle of its gang whose count was accepted. -/
def execHandlerCountAdvance (core : Nat) (s : State) : Out :=
  .next (match taskOf s core with
    | none => s
    | some t =>
      let c := getCore s core
      if gangRuns t = false ∨ preemptsNow s t = true then s
      else if c.handler then
        let n := c.ctl.hcount + 1
        if coreDecided c && c.hold == .none && c.ctl.post.isNone && arrivedBy c n then
          tryReturn (modCore s core fun c => startVc { c with ctl := { c.ctl with hcount := n } } n) core
        else s
      else if c.trapped then
        if gangStopped s t && (gangOf t).all (fun i => let k := getCore s i; k.handler || (k.hold == .none && k.ctl.post.isNone && k.flight.isEmpty)) then
          modCore s core fun c => { c with handler := true, decided := false, ctl := { c.ctl with hcount := 1 } }
        else s
      else s)

/-! ## Transfers and loops (spec/04 R65-R71) -/

/-- The countdown of a committed bundle: entries that reach 0 are disarmed. `armed` was armed by the bundle itself. -/
def countDown (tgt old : Tab Target) (armed : Option Nat) : List Nat → Tab Target
  | [] => tgt
  | e :: r =>
    let o := tabGet old e {}
    let t := tabGet tgt e {}
    let tgt' := if o.armed = false ∨ armed = some e then tgt
      else if o.count ≤ 1 then tabSet tgt e { t with armed := false, count := 0 }
      else tabSet tgt e { t with count := o.count - 1 }
    countDown tgt' old armed r

/-- The entry that transfers: the lowest that reached 0 with its condition true. -/
def transferOf (p : Post) : Option Target :=
  ([0, 1, 2, 3].find? (fun e => (tabGet p.old e {}).armed && (tabGet p.old e {}).count ≤ 1 && tabGet p.conds e false)).map
    (fun e => tabGet p.old e {})

/-- PREPARED_TRANSFER_TRIGGER (R65, R66). -/
def execPreparedTransferTrigger (core : Nat) (s : State) : Out :=
  .next (let c := getCore s core
    match c.ctl.post with
    | none => s
    | some p =>
      if p.triggered then s
      else
        let tgt := countDown c.ctl.tgt p.old p.armed [0, 1, 2, 3]
        match transferOf p with
        | none => modCore s core fun c => { c with ctl := { c.ctl with tgt := tgt, post := some { p with triggered := true } } }
        | some t =>
          let due := nowOf s core + 1
          let link := if t.call then [⟨due, .known [.x 31 (BitVec.ofNat 64 (p.seqNext % 65536))]⟩] else []
          modCore s core fun c => { c with
            flight := c.flight ++ link
            ctl := { c.ctl with tgt := tgt, post := some { p with triggered := true, taken := true, next := t.target.toNat } } })

/-- The tests of the loops that end at a bundle: the stack after them, and the start of the body that repeats. -/
def loopTest (addr : Nat) : Nat → List LoopLvl → List LoopLvl × Option Nat
  | 0, l => (l, none)
  | n + 1, l =>
    match l.getLast? with
    | none => (l, none)
    | some v =>
      if v.stop ≠ addr then (l, none)
      else
        let lc := (match v.pend with | some w => if w = 0 then 1 else w | none => v.lc) - 1
        if lc ≠ 0 then (l.dropLast ++ [{ v with lc := lc, pend := none }], some v.start)
        else loopTest addr n l.dropLast

/-- LOOP_END_TEST (R70, R71): after it the next bundle is chosen. -/
def execLoopEndTest (core : Nat) (s : State) : Out :=
  .next (let c := getCore s core
    match c.ctl.post with
    | none => s
    | some p =>
      if p.triggered = false then s
      else
        let r := loopTest p.addr 4 c.ctl.loops
        let next := if p.taken then p.next else r.2.getD p.next
        settleCore (modCore s core fun c => { c with ctl := { c.ctl with loops := r.1, pc := next, post := none } }) core)

/-! ## Outstanding accesses -/

/-- Whether an entry returns a value. -/
def returnsValue (k : AccKind) : Bool :=
  match k with
  | .load => true
  | .atomic _ _ _ ro _ => ro
  | .ordered _ _ _ _ _ _ => true
  | .signal (.launch _) => true
  | _ => false

/-- DATA2 of the report of an entry: flow and sequence of an ordered atomic (spec/17 R375). -/
def orderedData (k : AccKind) : Nat := match k with | .ordered _ _ _ f q _ => f + 65536 * q.toNat | _ => 0

/-- What follows an entry's end: its task's next held store goes, and the task may be over. -/
def accDone (s : State) (task : Option Nat) : State :=
  match task with
  | some u => freeEnded (settleTask (pump s u) u) u
  | none => s

/-- The n-th outstanding entry of a core performs, where it stands now; one of a halted task whose block holds another's bytes by now changes nothing
(log entry 65: DESIGN CHOICE, unsafe). -/
def completeAcc (s : State) (core n : Nat) (e : Acc) : State :=
  if accGone s e then accDone (modCore s core fun c => dropAcc c n) e.task else
  match rehomeAcc s core n e with
  | (s1, false) => accDone (finishAcc s1 core n e (returnsValue e.kind) (.error 4) 0) e.task
  | (s1, true) =>
    match e.kind, (getCore s1 core).acc[n]? with
    | .signal g, some e1 => accDone (performSignal s1 core n e1 g) e.task
    | _, _ => accDone (performAcc s1 core n) e.task

/-- The store that its hearth has seen longest before it performs at its home: its core and its place among the outstanding entries. -/
def firstShown (s : State) : Option (Nat × Nat) :=
  ((s.cores.flatMap (fun x => x.2.acc.zipIdx.filterMap (fun a => if a.1.shown then some (a.1.seen, x.1, a.2) else none))).foldl
    (fun (b : Option (Nat × Nat × Nat)) x => match b with | some y => if x.1 < y.1 then some x else b | none => some x) none).map Prod.snd

/-- At most so many of the stores that their hearths see performed at their homes, in the order in which they were seen. -/
def homeShownN : Nat → State → State
  | 0, s => s
  | n + 1, s =>
    match firstShown s with
    | none => s
    | some (c, i) =>
      match (getCore s c).acc[i]? with
      | some e => homeShownN n (completeAcc s c i e)
      | none => s

/-- Every store that its hearth sees performed at its home, before what may not go ahead of one (spec/11 R244, R254-R256; log entry 62: DEDUCED,
unsafe). -/
def homeShown (s : State) : State := homeShownN (allShown s).length s

/-- Whether an entry of a core lets the stores that hearths see perform first: it reads or writes for more than its hearth, or it is a store
that meets one of them or that held rows of its task may follow at once, or a load of memory type 1, which performs at its home (spec/16
R357). -/
def flushes (s : State) (core : Nat) (e : Acc) : Bool :=
  match e.kind with
  | .store => e.held || crosses s core e
  | .load => e.mt == 1 && !e.got && (shownTo s core).any (fun x => meets x.2 e.mt e.pa e.n)
  | .atomic _ _ _ _ _ => true
  | .signal .ifence => false
  | .signal (.barrier _) => false
  | .signal _ => true
  | _ => false

/-- The place of an entry among a core's outstanding ones. -/
def entryAt (s : State) (core : Nat) (e : Acc) : Option Nat :=
  (findIdxFrom (fun (a : Acc) => a.id == e.id && a.off == e.off) (getCore s core).acc 0).map Prod.fst

/-- ACCESS_COMPLETE (R36; spec/11 R244): the n-th outstanding entry of a core performs. -/
def execAccessComplete (core n : Nat) (s : State) : Out :=
  .next (match (getCore s core).acc[n]? with
    | none => s
    | some e =>
      if canPerform s core n = false then s
      else if flushes s core e then
        let s1 := homeShown s
        match entryAt s1 core e with
        | some k => completeAcc s1 core k e
        | none => s1
      else completeAcc s core n e)

/-- An entry of an ordered atomic given up: its request goes, and its flow starts a new run (spec/12 R272). -/
def dropOrdered (s : State) (core : Nat) (e : Acc) : State :=
  match e.kind with
  | .ordered _ _ _ f _ sent =>
    let s1 := { s with oreqs := s.oreqs.filter (fun r => !(r.core == core && r.id == e.id && r.flow == f)) }
    modCore s1 core fun c =>
      let w := tabGet c.flow f {}
      { c with flow := tabSet c.flow f { w with outstanding := if sent then w.outstanding - 1 else w.outstanding, restart := true } }
  | _ => s

/-- A record of a matrix unit, sent to another device, that was not acknowledged (spec/07 R144, R145). -/
def loseRecord (s : State) (core u tok pa : Nat) : State :=
  match tabFind s.tasks u with
  | none => s
  | some t =>
    let s1 := noteAccess (ownerTok s core u tok (.err 5)) u ⟨5, 0, coreUnit core 3, BitVec.ofNat 64 pa, 0⟩
    settleTask (postAccess s1 0 (coreUnit core 3) t.ctx 5 pa 2 tok 0) u

/-- A write that went out to another device and is not acknowledged (spec/12 R266, spec/17 R388). The rows of an image are not: whether they are
acknowledged was settled as they went (spec/06 R431). -/
def loseWrite (s : State) (x : Sent) : State :=
  match x.kind, x.task with
  | .store, _ => accDone (accessError s x.core x.task false 5 x.pa 2 0) x.task
  | .record tok, some u => loseRecord s x.core u tok x.pa
  | _, _ => s

/-- The stores and records that a core has sent to other devices and whose acknowledgements are out. -/
def sentBy (s : State) (core : Nat) : List Sent :=
  s.ports.flatMap (fun p => p.2.sent.filter (fun x => x.core == core && (match x.kind with | .store => true | .record _ => true | _ => false)))

/-- The state without a write among those that wait for their acknowledgements. -/
def dropSent (s : State) (x : Sent) : State := { s with ports := tabMap s.ports (fun _ p => { p with sent := p.sent.filter (fun y => y != x) }) }

/-- REMOTE_ACCESS_TIMEOUT (spec/04 R78, spec/12 R266, R279): what has been under way for 2 ms ends with class 5. -/
def execRemoteAccessTimeout (core : Nat) (w : TimeoutWho) (s : State) : Out :=
  .next (match w with
    | .access n =>
      match (getCore s core).acc[n]? with
      | none => s
      | some e =>
        if e.n = 0 ∨ e.mt = 2 ∨ e.got = true ∨ isRemote s e.pa = false then s
        else
          let s1 := if e.held then homeShown s else s
          match entryAt s1 core e with
          | some k => accDone (finishAcc (dropOrdered s1 core e) core k e (returnsValue e.kind) (.error 5) (orderedData e.kind)) e.task
          | none => s1
    | .fetch bank => timeoutFetch s core bank
    | .sent n => match (sentBy s core)[n]? with | some x => loseWrite (dropSent s x) x | none => s
    | .runner ch =>
      match (chanOf (getCore s core) ch).run with
      | none => s
      | some r =>
        if r.e.op = .coll ∧ r.ready = false then
          match s.colls.find? (fun x => x.joined.any (fun j => j.2.1 == core && j.2.2 == ch)) with
          | some x =>
            match (groupOf s r.e).1 with
            | .ok l =>
              if x.joined.length < (l.filter (fun v => v.toNat % 512 == ownDev s)).length then s
              else killColl s x l 5 (runnerStuck s core ch r).1
            | .fault _ _ _ => s
          | none => failRunner s core ch r 5 5 (runnerStuck s core ch r).1 1
        else failRunner s core ch r 5 5 (runnerStuck s core ch r).1 (runnerStuck s core ch r).2)

/-! ## Pauses end (R36) -/

/-- PAGE_WALK_COMPLETE (spec/16 R356-R360): the translation enters the TLBs, or its failure waits for the bundle. -/
def execPageWalkComplete (core : Nat) (s : State) : Out :=
  .next (match (getCore s core).hold with
    | .walk va write =>
      let ctx := ctxOf s core
      let a := va % 2 ^ 57
      match walk s (dieOf core) ctx a with
      | .leaf w bits => modCore (noteWalk s (hearthOf core) ctx a w bits) core fun c => { c with hold := .none }
      | .absent => modCore s core fun c => { c with hold := .none, walkFault := some (a / 4096, write, false, false) }
      | .ecc pa => postEcc (modCore s core fun c => { c with hold := .none, walkFault := some (a / 4096, write, false, true) })
          0 (coreUnit core 3) ctx pa
    | _ => s)

/-- LAZY_CLAIM (spec/13 R304): the unit that the held bundle reaches is saved and cleared. -/
def execLazyClaim (core : Nat) (s : State) : Out :=
  .next (match (getCore s core).hold with
    | .claimBank key => modCore (claimBank s core key) core fun c => { c with hold := .none }
    | .claimBlock h b => modCore (claimBlock s h b) core fun c => { c with hold := .none }
    | _ => s)

/-! ## What ends a wait (R37) -/

/-- TOKEN_WAIT_END (spec/12 R274). -/
def execTokenWaitEnd (core : Nat) (s : State) : Out :=
  .next (match (getCore s core).wait with
    | .token n => if tokOf (getCore s core) n = .pending then s else endWait s core
    | _ => s)

/-- WRITE_POINTER_WAIT_END (spec/12 R289). -/
def execWritePointerWaitEnd (core : Nat) (s : State) : Out :=
  .next (match (getCore s core).wait with
    | .pointer ch target => if target ≤ (chanOf (getCore s core) ch).count.toNat then endWait s core else s
    | _ => s)

/-- EVENT_WAIT_END (spec/15 R342). -/
def execEventWaitEnd (core : Nat) (s : State) : Out :=
  .next (match (getCore s core).wait with
    | .event i => if eventSet s (ctxOf s core) i && !eventDue (getCore s core) i then endWait s core else s
    | _ => s)

/-- BARRIER_COMPLETE (spec/15 R343): every waiting core issues in the next vc, and the barrier's order is left to the accesses. -/
def execBarrierComplete (task : Nat) (s : State) : Out :=
  .next (match tabFind s.tasks task with
    | none => s
    | some t =>
      let ids := gangOf t
      if heldGang s task t && allAtBarrier (ids.map (getCore s)) then
        let before := ids.map (fun i => (i, (getCore s i).bundleNo - 1))
        ids.foldl (fun s i => modCore s i fun c =>
          if c.halted then c
          else { c with
            wait := .none, decided := true
            acc := c.acc ++ [{ id := c.nextId, kind := .signal (.barrier before), no := c.bundleNo - 1, task := c.task }]
            nextId := c.nextId + 1 }) s
      else s)

/-- GREEN_SHARE_SPACE_AVAILABLE (spec/06 R119, spec/12 R262): a bundle blocked for want of space tries again. -/
def execGreenShareSpaceAvailable (core : Nat) (s : State) : Out :=
  .next (let c := getCore s core
    if c.wait = .green ∧ greenUsed s (hearthOf core) < greenShare ∧ s.shape.asked.all (fun a => a.core != core) = true then endWait s core
    else s)

end Sys2Proof.Machine
end

