-- ==== Sys2Proof/Machine/Sched.lean ====
section
/-! DEFINITION. Launch records (spec/15 R332-R334), the start of a task (spec/02 R27; spec/15 R333; spec/16 R364, R365), pre-emption
and the context image (spec/13 R302, R303), and resumption (R306). -/

namespace Sys2Proof.Machine

open Sys2Proof

/-! ## Launch records (spec/15 R332, R333) -/

/-- `n` bytes of a byte list from an offset, as a number. -/
def fieldAt (b : List Byte) (off n : Nat) : Nat := natOfBytes ((b.drop off).take n)

/-- Bits [lo + n − 1 : lo] of a number. -/
def bitsOf (x lo n : Nat) : Nat := x / 2 ^ lo % 2 ^ n

/-- A record read from its 128 bytes. -/
def parseRec (b : List Byte) : Rec :=
  let w12 := fieldAt b 12 4
  let w32 := fieldAt b 32 4
  let w40 := fieldAt b 40 4
  let w48 := fieldAt b 48 8
  { prog := BitVec.ofNat 64 (fieldAt b 0 8 % 2 ^ 57), plen := BitVec.ofNat 32 (fieldAt b 8 4 % 2 ^ 17), entry := BitVec.ofNat 16 w12
    ctx := BitVec.ofNat 6 (bitsOf w12 16 6), segt := BitVec.ofNat 64 (fieldAt b 16 8 % 2 ^ 57), rout := BitVec.ofNat 64 (fieldAt b 24 8 % 2 ^ 57)
    rfirst := BitVec.ofNat 12 w32, rcount := BitVec.ofNat 13 (bitsOf w32 16 13), grid := BitVec.ofNat 32 (fieldAt b 36 4)
    gang := BitVec.ofNat 2 w40, det := w40.testBit 2, split := w40.testBit 3, level := BitVec.ofNat 2 (bitsOf w40 4 2)
    keyv := w40.testBit 6, key := BitVec.ofNat 8 (bitsOf w40 8 8), banks := BitVec.ofNat 7 (bitsOf w40 16 7)
    diemask := BitVec.ofNat 4 (bitsOf w40 24 4), rint := w40.testBit 28, scratch := BitVec.ofNat 25 (fieldAt b 44 4 % 2 ^ 25)
    waitev := [0, 1, 2, 3].map (fun i => BitVec.ofNat 12 (bitsOf w48 (12 * i) 12)), setev := BitVec.ofNat 12 (bitsOf w48 48 12)
    cea := BitVec.ofNat 57 (fieldAt b 56 8)
    params := (List.range 8).map (fun i => BitVec.ofNat 64 (fieldAt b (64 + 8 * i) 8)) }

/-- The reason bits of a rejected record (R333); 0 for a good one. -/
def rejectBits (r : Rec) (ctx : Nat) : Nat :=
  let bit := fun (i : Nat) (c : Bool) => if c then 2 ^ i else 0
  bit 0 (r.plen == 0 || decide (65536 < r.plen.toNat)) + bit 1 (decide (r.plen.toNat ≤ r.entry.toNat)) + bit 2 (r.gang == 3)
    + bit 3 (r.banks == 0 || decide (64 < r.banks.toNat)) + bit 4 (decide (16777216 < r.scratch.toNat)) + bit 5 (r.diemask == 0)
    + bit 6 (r.ctx.toNat != ctx) + bit 7 (r.prog.toNat % 4 != 0 || r.segt.toNat % 16 != 0 || r.rout.toNat % 8 != 0)
    + bit 8 (decide (4096 < r.rfirst.toNat + r.rcount.toNat))

/-- The grid count of a launch as it is known now (spec/02 R29). -/
def gridOf (l : Launch) : Nat :=
  if l.tailOf.isSome then l.n else if l.green then l.pr else if l.wasGreen then l.count.getD 0 else l.n

/-! ## Fetches at dispatch -/

/-- The bytes of a range read with the rights of a fetch: its class, and the virtual and physical address of the first failure. -/
def fetchRange (s : State) (w : Who) (need : Need) : List (Nat × Nat × Nat) → Except (Nat × Nat × Nat) (List Byte)
  | [] => .ok []
  | p :: r =>
    match placeFor s w need [p] with
    | .error a => .error (4, a, a)
    | .ok l =>
      match readParts (touchFor s w l) (whoDie w) l with
      | .error (c, pa) => .error (c, p.1, pa)
      | .ok b =>
        match fetchRange s w need r with
        | .ok t => .ok (b ++ t)
        | x => x

/-- What reads of ranges with the rights of a fetch leave: the host's answers are kept (spec/16 R363), and other devices are asked (spec/17
R382). -/
def noteRange (s : State) (w : Who) (need : Need) (l : List (Nat × Nat × Nat)) : State :=
  let p := (placedPrefix s w need l).1
  askParts (noteHosts s w p) (whoDie w) p

/-- The words of 8 bytes of a list. -/
def doubleWords : Nat → List Byte → List W64
  | 0, _ => []
  | n + 1, b => BitVec.ofNat 64 (natOfBytes (b.take 8)) :: doubleWords n (b.drop 8)

/-- The used entries of a segment table (spec/04 R77). -/
def parseSegs (b : List Byte) : Tab (Nat × Nat × Nat) :=
  (List.range 256).filterMap (fun i =>
    let src := fieldAt b (16 * i) 8 / 4 * 4
    let v := fieldAt b (16 * i + 8) 8
    let len := bitsOf v 0 14
    if len = 0 ∨ 8192 < len then none else some (i, src, len, bitsOf v 16 3))

/-- What a task's cores load before their first bundle. -/
structure Loads where
  image : List W32
  segs : Tab (Nat × Nat × Nat)
  routines : List W64
  deriving DecidableEq, Repr

/-- The loads of a task, or the first that fails (spec/15 R333). -/
def loadTask (s : State) (u : Nat) (t : Task) (r : Rec) : Except (Nat × Nat × Nat) Loads :=
  let w := whoTask u t false
  match fetchRange s w { x := true } (parts r.prog.toNat (4 * r.plen.toNat)) with
  | .error e => .error e
  | .ok img =>
    match if r.segt = 0 then .ok [] else fetchRange s w { x := true } (parts r.segt.toNat 4096) with
    | .error e => .error e
    | .ok seg =>
      match if r.rout = 0 then .ok [] else fetchRange s w { x := true } (parts r.rout.toNat (8 * r.rcount.toNat)) with
      | .error e => .error e
      | .ok rt =>
        .ok { image := wordsOf r.plen.toNat img, segs := if r.segt = 0 then [] else parseSegs seg
              routines := if r.rout = 0 then [] else doubleWords r.rcount.toNat rt }

/-- The ranges that a task's loads read. -/
def loadRanges (r : Rec) : List (Need × Nat × Nat) :=
  let x : Need := { x := true }
  [(x, r.prog.toNat, 4 * r.plen.toNat)] ++ (if r.segt = 0 then [] else [(x, r.segt.toNat, 4096)])
    ++ (if r.rout = 0 then [] else [(x, r.rout.toNat, 8 * r.rcount.toNat)])

/-- What the loads of a task leave. -/
def noteLoads (s : State) (u : Nat) (t : Task) (r : Rec) : State :=
  let w := whoTask u t false
  let s1 := noteRange s w { x := true } (parts r.prog.toNat (4 * r.plen.toNat))
  let s2 := if r.segt = 0 then s1 else noteRange s1 w { x := true } (parts r.segt.toNat 4096)
  if r.rout = 0 then s2 else noteRange s2 w { x := true } (parts r.rout.toNat (8 * r.rcount.toNat))

/-- A microprogram store with routine words written. -/
def putRoutines (m : Tab W64) (first : Nat) (l : List W64) : Tab W64 := l.zipIdx.foldl (fun m w => tabSet m (first + w.2) w.1) m

/-- The states of the instruction banks after an image of a length is loaded (spec/04 R77). -/
def imageBanks (plen : Nat) : Tab IBank := ((List.range 8).filter (fun k => 8192 * k < plen)).map (fun k => (k, IBank.image))

/-! ## The start of a task -/

/-- The V registers that still hold a pre-empted task's state (spec/13 R304); the others read as zero (spec/16 R364). -/
def keptBanks (s : State) (c : Core) : Tab W1024 :=
  c.regs.v.filter (fun e => match tabGet c.bankOwner (e.1 / 32) none with | some o => isSuspended s o | none => false)

/-- The owners of banks that are pre-empted tasks. -/
def keptOwners (s : State) (c : Core) : Tab (Option Nat) :=
  c.bankOwner.filter (fun e => match e.2 with | some o => isSuspended s o | none => false)

/-- The registers of a core at dispatch (spec/02 R27). -/
def startRegs (r : Rec) (idx grid pos part : Nat) (v : Tab W1024) : Regs :=
  let params := r.params.zipIdx.map (fun p => (p.2 + 1, p.1))
  { x := params ++ [(9, BitVec.ofNat 64 idx), (10, BitVec.ofNat 64 grid), (11, BitVec.ofNat 64 pos), (30, BitVec.ofNat 64 (windowBase + part))]
    y := params ++ [(9, BitVec.ofNat 64 idx)]
    v := v }

/-- A core handed to a task at a position of its gang: everything a task receives is zero but the start values (spec/16 R364); what
the core itself keeps stays. -/
def startCore (s : State) (u : Nat) (t : Task) (r : Rec) (l : Loads) (pos : Nat) (c : Core) : Core :=
  let d := (getCtx s t.ctx).desc
  let spilln := (tabGet d 10 0).toNat % 65536
  { task := some u, pos := pos, decided := true
    regs := startRegs r t.idx t.start.toNat pos t.part (keptBanks s c)
    acc := c.acc, nextId := c.nextId, bundleNo := c.bundleNo
    ctl := { pc := r.entry.toNat }
    sys := {
      bankHi := BitVec.ofNat 6 (t.banks - 1)
      spillBase := BitVec.ofNat 57 ((tabGet d 9 0).toNat % 2 ^ 57 + (4 * t.slot + pos) * 3 * spilln * 4096)
      spillLim := BitVec.ofNat 16 spilln
      trapvec := BitVec.ofNat 17 (tabGet d 1 0).toNat }
    imem := putWords [] 0 l.image, ibank := imageBanks r.plen.toNat
    mu := { store := putRoutines c.mu.store r.rfirst.toNat l.routines, abandon := c.mu.abandon, dis0 := c.mu.dis0, dis1 := c.mu.dis1
            unres := c.mu.unres }
    chan := tabMap c.chan (fun _ h => { h with count := 0, err := false })
    bankOwner := keptOwners s c, debts := c.debts, flow := tabMap c.flow (fun _ f => { f with restart := true }) }

/-- A task whose loads failed ends in error before its first bundle (spec/15 R333). -/
def failStart (s : State) (u : Nat) (t : Task) (cls va pa : Nat) : State :=
  let core := t.hearth * 4 + t.first
  let s1 := (gangOf t).foldl (fun s i => modCore s i fun c =>
    { task := some u, decided := true, acc := c.acc, nextId := c.nextId, bundleNo := c.bundleNo, chan := c.chan, bankOwner := keptOwners s c, debts := c.debts
      flow := tabMap c.flow (fun _ f => { f with restart := true })
      regs := { v := keptBanks s c }, mu := { store := c.mu.store, abandon := c.mu.abandon, dis0 := c.mu.dis0, dis1 := c.mu.dis1, unres := c.mu.unres } }) s
  let s2 := modTask s1 u fun t => { t with st := 1 }
  let s3 := endInError s2 u cls 0 (coreUnit core 3) va 0
  let s4 := if cls = 4 then postWalk s3 0 (coreUnit core 3) t.ctx va else postAccess s3 0 (coreUnit core 3) t.ctx cls pa 0 0 0
  settleTask s4 u

/-- TASK_START (spec/02 R27; spec/15 R333): a dispatched task's loads are made, after writes of its die to the same lines of other devices (spec/10
R237), and its cores receive their start values. -/
def execTaskStart (task : Nat) (s : State) : Out :=
  .next (match tabFind s.tasks task with
    | none => s
    | some t =>
      if t.st ≠ 0 ∨ t.ended = true ∨ heldGang s task t = true ∨ (gangOf t).any (fun i => (getCore s i).task.isSome) = true then s
      else
        match tabFind s.launches t.launch with
        | none => s
        | some l =>
          if readsWait s (whoTask task t false) (loadRanges l.rcd) then s else
          match loadTask s task t l.rcd with
          | .error (cls, va, pa) => failStart s task t cls va pa
          | .ok ld =>
            let s1 := modTask (noteLoads s task t l.rcd) task fun t => { t with segs := ld.segs }
            (gangOf t).zipIdx.foldl (fun s i => modCore s i.1 fun c => startCore s task t l.rcd ld i.2 c) s1)

/-! ## The context image (spec/13 R303) -/

/-- Registers of a table as bytes, in order. -/
def regBytes {w : Nat} (t : Tab (BitVec w)) (n size : Nat) : List Byte := (List.range n).flatMap (fun i => bytesOf (tabGet t i 0).toNat size)

/-- A target-buffer entry as its image word. -/
def targetWord (t : Target) : Nat :=
  t.armed.toNat + 2 * t.call.toNat + 16 * t.cond.toNat + 256 * t.count.toNat + 65536 * t.target.toNat

/-- A loop level as its 20 image bytes. -/
def loopBytes (l : Option LoopLvl) : List Byte :=
  match l with
  | none => List.replicate 20 0
  | some v => bytesOf v.lc.toNat 4 ++ bytesOf v.start 4 ++ bytesOf v.stop 4 ++ bytesOf v.pend.isSome.toNat 4 ++ bytesOf (v.pend.getD 0).toNat 4

/-- The held FMT writes of a pre-empted core: bit j takes effect in the (j + 1)th vc after resumption (spec/04 R86). -/
def heldWrites (pend : List (Nat × W32)) (now : Nat) : BitVec 4 × Tab W32 :=
  pend.foldl (fun (b, t) p =>
    let j := min (p.1 - (now + 1)) 3
    (b ||| BitVec.ofNat 4 (2 ^ j), tabSet t j p.2)) (0, [])

/-- The code of a wait in TASKSTATE and its operand (spec/02 R32; spec/13 R303). -/
def waitCode (w : Wait) : Nat × Nat :=
  match w with
  | .none => (0, 0)
  | .token n => (1, n)
  | .pointer ch t => (2, 2 ^ 48 * ch + t % 2 ^ 48)
  | .sync => (3, 0)
  | .event i => (4, i)
  | .green => (5, 0)
  | .shape => (5, 0)

/-- The pause codes of a held bundle (spec/02 R32). -/
def holdCode (h : Hold) : Nat :=
  match h with
  | .none => 0
  | .fetch _ => 7
  | .walk _ _ => 8
  | .spill _ => 9
  | .claimBank _ => 10
  | .claimBlock _ _ => 10

/-- WAIT of TASKSTATE for a gang (spec/02 R32): the lowest pause code, else the wait of the lowest core that waits. -/
def waitOf (cs : List Core) (now : Nat) : Nat :=
  let pauses := (cs.map (fun c => holdCode c.hold)).filter (fun k => k != 0) ++ (if cs.all (fun c => arrivedBy c (now + 1)) then [] else [6])
  match pauses.min? with
  | some k => k
  | none => ((cs.find? (fun c => c.wait != .none)).map (fun c => (waitCode c.wait).1)).getD 0

/-- The state code of an instruction bank with its segment. -/
def ibankWord (b : IBank) : Nat :=
  match b with
  | .empty => 0
  | .image => 2
  | .loading n => 1 + 256 * n.toNat
  | .resident n => 2 + 256 * n.toNat
  | .failed n _ => 3 + 256 * n.toNat
  | .failedImage _ => 3

/-- A sign-extended 32-bit field in 8 bytes. -/
def signed8 (v : W32) : List Byte := bytesOf (v.signExtend 64).toNat 8

/-- A stride set's 32 image bytes. -/
def strideBytes (g : Stride) : List Byte :=
  bytesOf g.base.toNat 8 ++ signed8 g.str0 ++ signed8 g.str1 ++ bytesOf g.ext0.toNat 4 ++ bytesOf g.ext1.toNat 4

/-- A copy set's 64 image bytes. -/
def copySetBytes (h : CopySet) : List Byte :=
  bytesOf h.src.toNat 8 ++ bytesOf h.dst.toNat 8 ++ bytesOf h.len.toNat 8 ++ signed8 h.sstr ++ signed8 h.dstr ++ bytesOf h.rows.toNat 8
    ++ bytesOf h.type.toNat 4 ++ bytesOf h.dev.toNat 4 ++ bytesOf h.group.toNat 8

/-- The control region up to offset 0x500. -/
def controlLow (t : Task) (c : Core) (wait : Nat) : List Byte :=
  let r := c.regs
  let y := c.sys
  let hw := heldWrites y.fmtPend t.vcc
  let estate := if c.handler then y.estate else y.estate ||| (hw.1.setWidth 8 <<< 4)
  let efmt := if c.handler then y.efmt else hw.2.foldl (fun e p => tabSet e p.1 p.2) y.efmt
  let q := (List.range 16).foldl (fun b i => b + (if i = 0 then 1 else if i = 1 then 0 else (tabGet r.q i false).toNat) * 2 ^ i) 0
  regBytes (tabSet r.x 0 0) 32 8 ++ regBytes (tabSet r.y 0 0) 32 8 ++ bytesOf q 8
    ++ bytesOf (taskstateOf t 3 wait).toNat 8 ++ regBytes (tabSet r.k 0 (BitVec.allOnes 128)) 16 16
    ++ bytesOf y.fmt.toNat 8 ++ bytesOf estate.toNat 8 ++ regBytes efmt 4 4
    ++ (List.range 4).flatMap (fun i => loopBytes (c.ctl.loops[i]?))
    ++ (List.range 4).flatMap (fun i => bytesOf (targetWord (tabGet c.ctl.tgt i {})) 8)
    ++ (List.range 4).flatMap (fun i => bytesOf (targetWord (tabGet c.ctl.shTgt i {})) 8)
    ++ bytesOf (packThree y.window).toNat 8 ++ bytesOf y.bankLo.toNat 8 ++ bytesOf y.bankHi.toNat 8 ++ bytesOf y.spillBase.toNat 8
    ++ bytesOf y.spillLim.toNat 8 ++ bytesOf (packThree y.spilled).toNat 8 ++ bytesOf y.rngKey.toNat 8 ++ bytesOf y.rngCtr.toNat 8
    ++ bytesOf y.lderr.toNat 8 ++ regBytes y.seq 16 8
    ++ bytesOf (wptrOf (chanOf c 0)).toNat 8 ++ bytesOf (wptrOf (chanOf c 1)).toNat 8
    ++ bytesOf y.trapvec.toNat 8 ++ bytesOf y.epc.toNat 8 ++ bytesOf y.tcause.toNat 8 ++ bytesOf y.tslots.toNat 8 ++ bytesOf y.taddr.toNat 8
    ++ bytesOf y.taux.toNat 8 ++ bytesOf y.priv.toNat 8 ++ bytesOf t.vcc 8
    ++ (List.range 8).flatMap (fun k => bytesOf (ibankWord (tabGet c.ibank k .empty)) 2) ++ List.replicate 24 0

/-- The control region from offset 0x500 on. -/
def controlHigh (c : Core) : List Byte :=
  let hw := heldWrites c.sys.fmtPend c.ctl.hcount
  (List.range 64).map (fun n => BitVec.ofNat 8 (tokByte (tokOf c n))) ++ regBytes c.regs.p 8 8
    ++ (List.range 8).flatMap (fun i => strideBytes (tabGet c.regs.g i {}))
    ++ (List.range 8).flatMap (fun i => copySetBytes (tabGet c.regs.h i {}))
    ++ (List.range 8).map (fun i => BitVec.ofNat 8 (tileStatus (tileOf c i)))
    ++ bytesOf c.ctl.loops.length 8 ++ bytesOf (c.syncs.toNat + (if c.wait = .sync then 2 ^ 32 else 0)) 8
    ++ bytesOf (waitCode c.wait).2 8 ++ bytesOf c.ctl.hcount 8
    ++ (if c.handler then bytesOf hw.1.toNat 8 ++ regBytes hw.2 4 4 else List.replicate 24 0) ++ List.replicate 1856 0

/-- The matrix region (R303): a layout of the device's own, which the manual does not give, and its CRC (log entry 16: DESIGN CHOICE, safe). -/
def matrixRegion (s : State) (core : Nat) : List Byte :=
  let b := (List.range 8184).map (fun i => (Config.freeData s.tick (core * 8192 + i)).setWidth 8)
  b ++ bytesOf (crc64 b).toNat 8

/-- The eager part of a core image: offsets 0 to 0x7FFF. -/
def eagerBytes (s : State) (t : Task) (core : Nat) (c : Core) (wait : Nat) : List Byte :=
  controlLow t c wait ++ controlHigh c ++ regBytes c.regs.w 32 128 ++ regBytes c.regs.d 16 768 ++ regBytes c.regs.dtag 16 2
    ++ List.replicate 4064 0 ++ matrixRegion s core

/-! ## Pre-emption (R302) -/

/-- Whether an access of a task on a core, a read of a launch record among them, is still to land: nothing of the task's that comes before it
holds it back (R302). -/
def accLands (s : State) (u core : Nat) : Bool :=
  (getCore s core).acc.zipIdx.any (fun a => a.1.task == some u && orderOk s core a.2 a.1 && ((isLoadAcc a.1.kind && !a.1.got) || writesAcc a.1.kind
    || (match a.1.kind with | .signal (.launch _) => true | _ => false)))

/-- Whether a held `SETBANK` of a core has moved banks: its bundle commits or traps before the gang stops, as its other slots use the window as it
was (spec/04 R76). -/
def movesBanks (c : Core) : Bool := match c.blocked with | some b => !b.moved.isEmpty | none => false

/-- Whether a gang that issues or waits, with a core not halted, has stopped at a bundle boundary with nothing left to land (R302; spec/02
R33). Its matrix units go on to their next suspend points (spec/07 R162) (log entry 33: DEDUCED, safe). -/
def canStop (s : State) (u : Nat) (t : Task) : Bool :=
  heldGang s u t && gangRuns t && t.preempt && (t.st == 1 || t.st == 2) && (gangOf t).any (fun i => !(getCore s i).halted)
    && (gangOf t).all (fun i =>
      let c := getCore s i
      (coreDecided c || c.hold != .none) && !hasAccepted c && !movesBanks c && c.ctl.post.isNone && c.flight.isEmpty && c.fresh.isEmpty && !accLands s u i)

/-- A core as it is saved: a bundle that has not committed issues again (spec/02 R433, R33). -/
def savedCore (c : Core) : Core :=
  { c with hold := .none, blocked := none, walkFault := none, acc := [], debts := [], wait := if c.wait = .green ∨ c.wait = .shape then .none else c.wait }

/-- A task as its gang stops: its VCC counts the last vc in which the gang issued, also where a bundle of the next is held back (spec/02 R38). -/
def stoppedTask (s : State) (t : Task) : Task :=
  if t.issued = false ∧ (gangOf t).any (fun i => (getCore s i).hold != .none && !(getCore s i).handler) = true then { t with vcc := t.vcc - 1 } else t

/-- A core whose bundle is held back as its gang stops issues it again in the first vc after the resumption and sees the FMT that it would have seen:
a handler's count is that of the bundle before (spec/04 R87), and where other cores of the gang have issued in the vc its held FMT writes wait one
vc more (spec/03 R56, spec/04 R86). -/
def stoppedCore (issued : Bool) (c : Core) : Core :=
  if c.hold = .none then c
  else if c.handler then { c with ctl := { c.ctl with hcount := c.ctl.hcount - 1 } }
  else if issued then { c with sys := { c.sys with fmtPend := c.sys.fmtPend.map (fun p => (p.1 + 1, p.2)) } }
  else c

/-- A core left by a pre-empted task: its banks hold the task's state until they are claimed. -/
def leftCore (s : State) (u : Nat) (c : Core) : Core :=
  let keys := [0, 1, 2].flatMap (fun f => ((List.range 64).filter (fun b => c.sys.bankLo.toNat ≤ b && b ≤ c.sys.bankHi.toNat)).map (fun b => 64 * f + b))
  let own := keys.foldl (fun o k =>
    match tabGet o k none with
    | some w => if isSuspended s w then o else tabSet o k (some u)
    | none => tabSet o k (some u)) c.bankOwner
  { c with task := none, halted := true, wait := .none, hold := .none, handler := false, trapped := false, retPend := none, blocked := none
           walkFault := none, bankOwner := own, late := [], enter := [], mu := { c.mu with queue := [], run := none, tiles := [], suspended := false } }

/-- PREEMPTION (R302): the eager state of every core is saved into the image, and the task stands pre-empted. -/
def execPreemption (task : Nat) (s : State) : Out :=
  .next (match tabFind s.tasks task with
    | none => s
    | some t0 =>
      if canStop s task t0 = false then s
      else
        let t := stoppedTask s t0
        let ids := gangOf t
        let cs := ids.map (fun i => stoppedCore t0.issued (getCore s i))
        let wait := waitOf cs t.vcc
        let s1 := (List.zip ids cs).foldl (fun s e =>
          saveImage (saveImage s task e.1 (coreImage t e.1) (eagerBytes s t e.1 e.2 wait) (if e.2.fileBad then some (3, none) else none))
            task e.1 (coreImage t e.1 + 0x8000) (List.replicate 0x8000 0) none) s
        let s2 := modTask s1 task fun t => { t with
          st := 3, vcc := (stoppedTask s t0).vcc, saved := cs.map savedCore, preempt := false, yielded := false, aged := 0, claimedBlocks := [], claimedBanks := [], claimedTiles := [] }
        let s3 := ids.foldl (fun s i => modCore s i fun c => leftCore s task c) s2
        { s3 with
          turns := s3.turns ++ [(1, task)]
          shape := { s3.shape with asked := s3.shape.asked.filter (fun a => !ids.contains a.core) } })

/-! ## Resumption (R306) -/

/-- A pre-empted task that cannot be restored ends in error instead (R434, R303): its matrix work runs to its end, as that of any task that ended in
error (spec/07 R163), then it is halted and its open epochs are abandoned (spec/06 R117); an uncorrected error in a page table on the way is
reported (spec/16 R359). -/
def endSaved (s : State) (u : Nat) (t : Task) (cls va : Nat) : State :=
  let core := t.hearth * 4 + t.first
  let e : ErrInfo := ⟨BitVec.ofNat 8 cls, 0, coreUnit core 3, BitVec.ofNat 64 va, 0⟩
  let s1 := modTask (if cls = 4 then postWalk s 0 (coreUnit core 3) t.ctx va else s) u fun t => { t with error := some e }
  let s2 := if t.green then s1 else publishError s1 u e
  settleTask (leaveTurns s2 (1, u)) u

/-- Another pre-empted task's state in the units of a task that returns is claimed first. -/
def claimAll (s : State) (u : Nat) (t : Task) : State :=
  let s1 := (gangOf t).foldl (fun s i =>
    let s' := (List.range t.banks).foldl (fun s b => [0, 1, 2].foldl (fun s f =>
      match tabGet (getCore s i).bankOwner (64 * f + b) none with
      | some o => if o ≠ u ∧ isSuspended s o = true then claimBank s i (64 * f + b) else s
      | none => s) s) s
    (List.range 8).foldl (fun s k => claimTile s u i k) s') s
  (partBlocks t).foldl (fun s b => if needsClaim s u t.hearth b then claimBlock s t.hearth b else s) s1

/-- The eager part of a core image read back: its matrix region's CRC is checked (R303). -/
def checkImage (s : State) (t : Task) (core : Nat) : Option (Nat × Nat) :=
  match loadImage s t (coreImage t core) 0x8000 with
  | .error (cls, va) => some (cls, va)
  | .ok b =>
    let m := b.drop 0x6000
    if natOfBytes (m.drop 8184) = (crc64 (m.take 8184)).toNat then none else some (10, (imageBase s t + coreImage t core + 0x6000) % 2 ^ 57)

/-- The claimed banks of a core refilled from the image. -/
def reloadBanks (s : State) (t : Task) : List (Nat × Nat) → Except (Nat × Nat) State
  | [] => .ok s
  | (core, key) :: r =>
    match loadImage s t (coreImage t core + 0x10000 + key * 4096) 4096 with
    | .error e => .error e
    | .ok b => reloadBanks (modCore s core fun c => bankFrom c key b) t r

/-- The claimed blocks refilled from the image. -/
def reloadBlocks (s : State) (u : Nat) (t : Task) : List Nat → Except (Nat × Nat) State
  | [] => .ok s
  | b :: r =>
    match loadImage s t (0x800000 + blockOffset t b) 4096 with
    | .error e => .error e
    | .ok d =>
      let z := zeroBlock s t.hearth b
      let s1 := { z with mem := cellsSet z.mem (scratchOff t.hearth (b * 4096)) d }
      reloadBlocks (modHearth s1 t.hearth fun h => { h with blockOwner := tabSet h.blockOwner b (some u) }) u t r

/-- The claimed tiles read back: both engines' copies. -/
def readTiles (s : State) (t : Task) : List (Nat × Nat) → Option (Nat × Nat)
  | [] => none
  | (core, tile) :: r =>
    match loadImage s t (coreImage t core + 0xD0000 + tile * 0x10000) 0x10000, loadImage s t (coreImage t core + 0xD0000 + (8 + tile) * 0x10000) 0x10000 with
    | .error e, _ => some e
    | _, .error e => some e
    | .ok _, .ok _ => readTiles s t r

/-- What an instruction bank is fetched from again, the image or its segment's source (spec/04 R91): the state it gets when the fetch
succeeds and when it fails, the first byte's address and the words. -/
def refetchFrom (t : Task) (r : Rec) (k : Nat) (b : IBank) : Option (IBank × (BitVec 8 → IBank) × Nat × Nat) :=
  let image := some (IBank.image, IBank.failedImage, r.prog.toNat + 4 * 8192 * k, min 8192 (r.plen.toNat - 8192 * k))
  let seg := fun (n : BitVec 8) => (tabFind t.segs n.toNat).map (fun g => (IBank.resident n, IBank.failed n, g.1, g.2.1))
  match b with
  | .empty => none
  | .image => image
  | .failedImage _ => image
  | .loading n => seg n
  | .resident n => seg n
  | .failed n _ => seg n

/-- An instruction bank fetched again. -/
def refetchBank (s : State) (u : Nat) (t : Task) (r : Rec) (k : Nat) (c : Core) : Core :=
  match refetchFrom t r k (tabGet c.ibank k .empty) with
  | none => c
  | some (ok, bad, src, len) =>
    match fetchRange s (whoTask u t false) { x := true } (parts src (4 * len)) with
    | .ok b => { c with imem := putWords c.imem (8192 * k) (wordsOf len b), ibank := tabSet c.ibank k ok }
    | .error (cls, _, _) => { c with ibank := tabSet c.ibank k (bad (BitVec.ofNat 8 cls)) }

/-- The reports of the banks of a core that were fetched again and failed on an uncorrected error. -/
def refetchReports (s : State) (u : Nat) (t : Task) (r : Rec) (core : Nat) (saved : Core) : State :=
  (List.range 8).foldl (fun s k =>
    match refetchFrom t r k (tabGet saved.ibank k .empty) with
    | none => s
    | some (_, _, src, len) =>
      match fetchRange s (whoTask u t false) { x := true } (parts src (4 * len)) with
      | .ok _ => s
      | .error (cls, va, pa) => postFetch s core (cls, if cls = 4 then va else pa)) s

/-- The ranges that a resumption reads of the image, the routines and the instruction banks. -/
def resumeRanges (s : State) (t : Task) (r : Rec) : List (Need × Nat × Nat) :=
  let image := fun (off n : Nat) => (({ r := true } : Need), (imageBase s t + off) % 2 ^ 57, n)
  (gangOf t).map (fun i => image (coreImage t i) 0x8000)
    ++ t.claimedBanks.map (fun b => image (coreImage t b.1 + 0x10000 + b.2 * 4096) 4096)
    ++ t.claimedBlocks.map (fun b => image (0x800000 + blockOffset t b) 4096)
    ++ t.claimedTiles.flatMap (fun b => [image (coreImage t b.1 + 0xD0000 + b.2 * 0x10000) 0x10000, image (coreImage t b.1 + 0xD0000 + (8 + b.2) * 0x10000) 0x10000])
    ++ (if r.rout = 0 then [] else [({ x := true }, r.rout.toNat, 8 * r.rcount.toNat)])
    ++ t.saved.flatMap (fun c => (List.range 8).filterMap (fun k => (refetchFrom t r k (tabGet c.ibank k .empty)).map (fun x => ({ x := true }, x.2.2.1, 4 * x.2.2.2))))

/-- The record of a task's launch. -/
def recOf (s : State) (t : Task) : Rec := ((tabFind s.launches t.launch).map (fun l => l.rcd)).getD (parseRec [])

/-- Whether the reads of a task's resumption have to wait for writes of its die to the same lines of other devices (spec/10 R237). -/
def resumeWaits (s : State) (u : Nat) : Bool :=
  match tabFind s.tasks u with
  | some t => readsWait s (whoTask u t false) (resumeRanges s t (recOf s t))
  | none => false

/-- What the reads that a resumption makes of the image, the routines and the instruction banks leave. -/
def noteResume (s : State) (u : Nat) (t : Task) (r : Rec) : State :=
  let w := whoTask u t false
  let s1 := (gangOf t).foldl (fun s i => noteImage s t (coreImage t i) 0x8000) s
  let s2 := t.claimedBanks.foldl (fun s b => noteImage s t (coreImage t b.1 + 0x10000 + b.2 * 4096) 4096) s1
  let s3 := t.claimedBlocks.foldl (fun s b => noteImage s t (0x800000 + blockOffset t b) 4096) s2
  let s4 := t.claimedTiles.foldl (fun s b => noteImage (noteImage s t (coreImage t b.1 + 0xD0000 + b.2 * 0x10000) 0x10000) t
    (coreImage t b.1 + 0xD0000 + (8 + b.2) * 0x10000) 0x10000) s3
  let s5 := if r.rout = 0 then s4 else noteRange s4 w { x := true } (parts r.rout.toNat (8 * r.rcount.toNat))
  t.saved.foldl (fun s c => (List.range 8).foldl (fun s k => match refetchFrom t r k (tabGet c.ibank k .empty) with
    | some (_, _, src, len) => noteRange s w { x := true } (parts src (4 * len))
    | none => s) s) s5

/-- A core restored to its task: the saved state over what the core itself keeps. What an instruction memory holds beyond a segment or in an empty
bank is as it was saved (spec/04 R91; log entry 78: DESIGN CHOICE, unsafe). -/
def restoreCore (s : State) (u : Nat) (t : Task) (r : Rec) (routines : List W64) (saved c : Core) : Core :=
  let base := { saved with
    task := some u, decided := true, regs := { saved.regs with v := c.regs.v }, acc := c.acc, nextId := c.nextId, bundleNo := c.bundleNo
    bankOwner := c.bankOwner, fileBad := c.fileBad, fetch := [], debts := c.debts
    flow := tabMap c.flow (fun _ f => { f with restart := true })
    mu := { unitCounts saved.mu c.mu with store := putRoutines c.mu.store r.rfirst.toNat routines, suspended := false }
    chan := [0, 1].map (fun ch => (ch, { chanOf c ch with count := (chanOf saved ch).count, err := (chanOf saved ch).err })) }
  (List.range 8).foldl (fun c k => refetchBank s u t r k c) base

/-- A pre-empted task restored on its own cores (R306), or ended in error when a read of its image fails (R434). -/
def resumeTask (s : State) (u : Nat) : State :=
  match tabFind s.tasks u with
  | none => s
  | some t =>
    match t.lost with
    | some (cls, va) => endSaved s u t cls.toNat va.toNat
    | none =>
      let r := recOf s t
      match (gangOf t).findSome? (checkImage s t) with
      | some (cls, va) => endSaved s u t cls va
      | none =>
        let s1 := claimAll s u t
        match reloadBanks s1 t t.claimedBanks with
        | .error (cls, va) => endSaved s1 u t cls va
        | .ok s2 =>
          match reloadBlocks s2 u t t.claimedBlocks with
          | .error (cls, va) => endSaved s2 u t cls va
          | .ok s3 =>
            match readTiles s3 t t.claimedTiles with
            | some (cls, va) => endSaved s3 u t cls va
            | none =>
              match if r.rout = 0 then .ok [] else fetchRange s3 (whoTask u t false) { x := true } (parts r.rout.toNat (8 * r.rcount.toNat)) with
              | .error (cls, va, _) => endSaved s3 u t cls va
              | .ok rt =>
                let words := if r.rout = 0 then [] else doubleWords r.rcount.toNat rt
                let s4 := (List.zip (gangOf t) t.saved).foldl (fun s e =>
                  refetchReports (modCore s e.1 fun c => restoreCore s u t r words e.2 c) u t r e.1 e.2) (noteResume s3 u t r)
                let s5 := modTask s4 u fun t => { t with
                  st := 4, saved := [], claimedBlocks := [], claimedBanks := [], claimedTiles := [], aged := 0, seqNo := s4.nextUid }
                leaveTurns { s5 with nextUid := s5.nextUid + 1 } (1, u)

end Sys2Proof.Machine
end

