-- ==== Sys2Proof/Machine/Frame.lean ====
section
/-! DEFINITION. The stoker's frame (spec/13 R293-R301, R307, R308): records and launches taken, counts accepted and launches resolved
(spec/14 R313-R328), tasks dispatched and resumed, pre-emptions asked for, completion entries written (spec/15 R346, R347). -/

namespace Sys2Proof.Machine

open Sys2Proof

/-! ## Completion (spec/15 R346, R347; spec/13 R300) -/

/-- The lead of the stokers: the lowest healthy die. -/
def leadDie (s : State) : Nat := ([0, 1, 2, 3].find? (fun d => !fenced s d)).getD 0

/-- The die whose stoker serves a task: its own, or the lead die when that is fenced (spec/16 R368). -/
def taskDie (s : State) (t : Task) : Nat := if fenced s (t.hearth / 24) then leadDie s else t.hearth / 24

/-- The die whose stoker completes a launch: its home, or the lead die when that is fenced (spec/16 R368). -/
def homeOf (s : State) (l : Launch) : Nat := if fenced s l.die then leadDie s else l.die

/-- The fields of a completion entry. -/
structure Entry where
  status : Nat := 0
  cls : Nat := 0
  kind : Nat := 3
  unit : Nat := 0
  count : Nat := 0
  addr : Nat := 0
  info : Nat := 0
  pred : Nat := 0
  fett : Nat := 0
  deriving DecidableEq, Repr

/-- The 32 bytes of an entry (R346). -/
def entryBytes (e : Entry) (time : W64) : List Byte :=
  [BitVec.ofNat 8 e.status, BitVec.ofNat 8 e.cls] ++ bytesOf (e.unit % 2 ^ 14 + 2 ^ 14 * e.kind) 2 ++ bytesOf e.count 4 ++ bytesOf e.addr 8
    ++ bytesOf e.info 4 ++ bytesOf e.pred 4 ++ bytesOf e.fett 4 ++ bytesOf (time.toNat / 1000) 4

/-- The entry of a launch that has ended (R347). -/
def entryOf (l : Launch) : Entry :=
  let base : Entry := {
    count := if l.wasGreen then l.count.getD 0 else l.n
    info := 2 ^ 16 * l.splitS + (if l.refused then 2 ^ 24 else 0)
    pred := if l.wasGreen then l.pr else 0
    fett := l.fett }
  let fill := fun (e : Entry) (x : ErrInfo) =>
    { e with cls := x.cls.toNat, kind := x.kind.toNat, unit := x.unit.toNat, addr := x.addr.toNat, info := e.info + x.info.toNat }
  match l.err, l.dispute with
  | some x, _ => { fill base x with status := 1 }
  | none, some x => fill base x
  | none, none => if l.refused then { base with cls := 15 } else base

/-- The state in which a context's completion entries are written: die 1's host port carries those of the removed primary port once the ring is
programmed through its mirror (spec/17 R390; log entry 61: DEDUCED, unsafe). -/
def entryPort (s : State) (ctx : Nat) : State :=
  let d := tabGet (getCtx s ctx).desc 8 0
  if d.getLsbD 3 = false ∧ ringPort s = some 1 ∧ (getCtx s ctx).live = true then modCtx s ctx fun c => { c with desc := tabSet c.desc 8 (d ||| 8) } else s

/-- The entry written and the completion event set (R346, R300); a write that fails is reported. -/
def writeEntry (s : State) (die ctx : Nat) (cea : Nat) (setev : Nat) (e : Entry) : State :=
  let s1 :=
    if cea = 0 ∨ cea % 32 ≠ 0 then s
    else
      match engWrite (entryPort s ctx) (whoStoker die ctx) cea (entryBytes e (Config.freeTime s.tick)) with
      | (s1, none) => { s1 with ctxs := s.ctxs }
      | (s1, some (cls, a)) => postAccess { s1 with ctxs := s.ctxs } 2 (BitVec.ofNat 14 die) ctx cls a 1 0 0
  setEvent s1 ctx setev true

/-! ## Taking launches (spec/13 R294, R295; spec/15 R333, R334) -/

/-- Taken launches of a die that have not completed. -/
def tableUsed (s : State) (die : Nat) : Nat := (s.launches.filter (fun l => homeOf s l.2 == die && !l.2.done)).length

/-- The predicted count of a key (spec/14 R313). -/
def predicted (p : Pred) : Nat :=
  if p.mode = 2 ∨ p.nh = 0 then p.hint.toNat
  else if p.mode = 0 then (tabGet p.h 0 0).toNat
  else ((List.range p.nh.toNat).map (fun i => (tabGet p.h i 0).toNat)).foldl max 0

/-- A launch entered in the table. -/
def addLaunch (s : State) (l : Launch) : State := { s with launches := tabSet s.launches s.nextUid l, nextUid := s.nextUid + 1 }

/-- A launch without a task completes at once (spec/02 R26). -/
def finishEmpty (s : State) (die : Nat) (l : Launch) : State := writeEntry s die l.rcd.ctx.toNat l.rcd.cea.toNat l.rcd.setev.toNat (entryOf l)

/-- A green launch taken (spec/14 R313, R315, R316): a banked count makes it an ordinary launch,
which may be split (R334); else it is predicted and registered. -/
def takeGreen (s : State) (die : Nat) (r : Rec) (key : Nat) : State :=
  let ctx := r.ctx.toNat
  match findIdxFrom (fun (b : Nat × Nat × Nat) => b.1 == ctx && b.2.1 == key) s.shape.banked 0 with
  | some (i, (_, _, c)) =>
    let f := splitFactor s r c
    let l : Launch := { rcd := { r with key := BitVec.ofNat 8 key }, die := die, n := c * f, splitS := f, refused := r.split && r.det && !r.rint
                        count := some c, predDie := die }
    let s1 := { s with shape := { s.shape with banked := s.shape.banked.eraseIdx i, resolved := s.shape.resolved ++ [s.nextUid] } }
    if c = 0 then addLaunch (finishEmpty s1 die l) { l with done := true } else addLaunch s1 l
  | none =>
    let pr := predicted (tabGet (getDie s die).pred key {})
    let l : Launch := { rcd := { r with key := BitVec.ofNat 8 key }, die := die, n := pr, green := true, wasGreen := true, pr := pr, predDie := die }
    addLaunch { s with shape := { s.shape with regs := s.shape.regs ++ [(ctx, key, s.nextUid)] } } l

/-- An ordinary launch taken, with its split factor (spec/15 R334; spec/06 R133). -/
def takePlain (s : State) (die : Nat) (r : Rec) : State :=
  let n := r.grid.toNat
  let f := splitFactor s r n
  let l : Launch := { rcd := r, die := die, n := n * f, splitS := f, refused := r.split && r.det && !r.rint }
  if n = 0 then addLaunch (finishEmpty s die l) { l with done := true } else addLaunch s l

/-- A record taken for a context; `key` is what a program's launch says of greenness, none for a host record (spec/15 R332, R335). -/
def takeRecord (s : State) (die ctx : Nat) (b : List Byte) (host : Bool) (key : Option (BitVec 8)) : State :=
  let r := parseRec b
  let bad := rejectBits r ctx
  if bad ≠ 0 then
    writeEntry s die ctx r.cea.toNat r.setev.toNat { status := 1, info := bad + 2 ^ 16 }
  else
    match if host then (if r.keyv then some r.key else none) else key with
    | some k => takeGreen s die r k.toNat
    | none => takePlain s die r

/-- The reports of a record or node that cannot be read (R294): the record's virtual address, and before it an uncorrected error met in its bytes
or in a page table on the way, at an address `a` as its class names it (spec/16 R359, spec/17 R378). -/
def reportRecord (s : State) (die ctx cls a va : Nat) : State :=
  let unit := BitVec.ofNat 14 die
  let s1 := if cls = 3 then postEcc s 2 unit ctx a else if cls = 4 then postWalk s 2 unit ctx a else s
  post s1 (mkReport 0 cls 2 unit ctx va 0 0 0 0)

/-- A queue's record read whole, or the report of its failure (R294). -/
def readRecord (s : State) (q : Nat) (die ctx va : Nat) : Option (List Byte) × State :=
  match engRead s (whoStoker die ctx) { r := true } va 128 with
  | (.ok b, s1) => (some b, s1)
  | (.error (cls, a), s1) =>
    let s2 := { s1 with queues := tabSet s1.queues q { tabGet s1.queues q {} with rerr := true } }
    (none, reportRecord s2 die ctx cls a va)

/-- A queue. -/
def getQueue (s : State) (q : Nat) : Queue := tabGet s.queues q {}
/-- The state with a queue changed. -/
def modQueue (s : State) (q : Nat) (f : Queue → Queue) : State := { s with queues := tabSet s.queues q (f (getQueue s q)) }

/-- Records of a queue taken, at most as many as given (R294, R295), each after writes of the die to its lines on another device (spec/10
R237). -/
def takeRecords (q : Nat) : Nat → State → State
  | 0, s => s
  | n + 1, s =>
    let x := getQueue s q
    let die := x.die.toNat
    let pend := (x.tail - x.head).toNat
    if 2 ^ x.size.toNat < pend then modQueue s q fun x => { x with ovf := true }
    else if pend = 0 ∨ 1024 ≤ tableUsed s die then s
    else
      let va := (x.base.toNat / 128 * 128 + 128 * (x.head.toNat % 2 ^ x.size.toNat)) % 2 ^ 57
      if readsWait s (whoStoker die x.ctx.toNat) [({ r := true }, va, 128)] then s else
      let (b, s1) := readRecord s q die x.ctx.toNat va
      let s2 := modQueue s1 q fun x => { x with head := x.head + 1 }
      takeRecords q n (match b with | some b => takeRecord s2 die x.ctx.toNat b true none | none => s2)

/-- Snapshot nodes of a queue's graphs taken while the table has room (R307). -/
def takeNodes (q : Nat) : Nat → State → State
  | 0, s => s
  | n + 1, s =>
    let x := getQueue s q
    match x.nodes with
    | [] => s
    | b :: r =>
      if 1024 ≤ tableUsed s x.die.toNat then s
      else takeNodes q n (takeRecord (modQueue s q fun x => { x with nodes := r }) x.die.toNat x.ctx.toNat b true none)

/-- The bytes of a known graph as the last acknowledged patch left them: what the host wrote since stands over them only once the stoker
has acknowledged it (R308). -/
def ackedBytes (s : State) (q : Nat) (l : List Placed) (b : List Byte) : List Byte :=
  let keys := l.flatMap (fun p => if p.mt = 2 then List.replicate p.n (2 ^ 70) else (List.range p.n).map (fun i => memKey s (p.pa + i)))
  List.zipWith (fun k x => match (getQueue s q).old.find? (fun o => o.1 == k) with | some o => o.2.1 | none => x) keys b

/-- A range of a graph's descriptor as a snapshot reads it. -/
def readGraph (s : State) (q va n : Nat) : Except EngErr (List Byte) × State :=
  let x := getQueue s q
  let w := whoStoker x.die.toNat x.ctx.toNat
  match engRead s w { r := true } va n, placeFor s w { r := true } (parts (va % 2 ^ 57) n) with
  | (.ok b, s1), .ok l => (.ok (ackedBytes s q l b), s1)
  | r, _ => r

/-- A node that cannot be read is met as an unreadable record is (log entry 17: DEDUCED, unsafe). -/
def unreadNode (s : State) (q va cls a : Nat) : State :=
  let x := getQueue s q
  reportRecord (modQueue s q fun x => { x with rerr := true }) x.die.toNat x.ctx.toNat cls a va

/-- Whether a graph's descriptor cannot be read yet: writes of the die to its lines on another device come first (spec/10 R237). -/
def graphWaits (s : State) (q graph : Nat) : Bool :=
  let x := getQueue s q
  let w := whoStoker x.die.toNat x.ctx.toNat
  farBusy s (whoDie w) && (readsWait s w [({ r := true }, graph, 2)] || (match (readGraph s q graph 2).1 with
    | .ok h => readsWait s w [({ r := true }, graph + 64, 128 * min 4096 (natOfBytes h))]
    | .error _ => false))

/-- A graph's nodes copied into a snapshot (R307). A descriptor that cannot be read is met as an unreadable record is (log entry 17: DEDUCED, unsafe).
Of a replay that completes in error a report of SUB 10 tells, as its descriptor names no completion entry (log entry 86: DESIGN CHOICE, unsafe). -/
def snapshot (s0 : State) (q : Nat) (graph : Nat) : State :=
  let x := getQueue s0 q
  let s := modQueue s0 q fun x => if x.graphs.contains graph then x else { x with graphs := x.graphs ++ [graph] }
  match readGraph s q graph 2 with
  | (.error (cls, a), s1) => unreadNode s1 q graph cls a
  | (.ok h, s1) =>
    let n := natOfBytes h
    if n = 0 then s1
    else if 4096 < n then post s1 (mkReport 10 12 2 (BitVec.ofNat 14 x.die.toNat) x.ctx.toNat graph 0 0 0 0)
    else
      (List.range n).foldl (fun s i =>
        let va := (graph + 64 + 128 * i) % 2 ^ 57
        match readGraph s q va 128 with
        | (.ok b, s1) => modQueue s1 q fun x => { x with nodes := x.nodes ++ [b] }
        | (.error (cls, a), s1) => unreadNode s1 q va cls a) s1

/-- Whether the dies between a die and one with a host port are healthy, so that it takes commands from the host (spec/01 R16;
log entry 75: DEDUCED, unsafe). -/
def hostChain (s : State) (d : Nat) : Bool := [0, 1].any (fun p => !fenced s p && !cutOff s d p)

/-- A queue served in a frame of its home die (R293-R295, R307, R308). -/
def serveQueue (s : State) (q : Nat) : State :=
  let x := getQueue s q
  let s1 := if x.patchDue then
      modQueue s q fun x => { x with ack := x.patch, patchDue := false, old := x.old.filter (fun o => !o.2.2) }
    else s
  if x.en = false ∨ x.ovf = true then s1
  else if x.size = 0 ∨ 16 < x.size.toNat ∨ fenced s1 x.die.toNat = true ∨ (getCtx s1 x.ctx.toNat).live = false then
    modQueue s1 q fun x => { x with cfg := true }
  else
    let go := x.doors.takeWhile (fun g => !graphWaits s1 q g)
    let s2 := go.foldl (fun s g => snapshot s q g) (modQueue s1 q fun x => { x with doors := x.doors.drop go.length })
    takeRecords q 4 (takeNodes q 1024 s2)

/-- Launches of a die's port taken, at most as many as given (spec/15 R335). -/
def takePort (die : Nat) : Nat → State → State
  | 0, s => s
  | n + 1, s =>
    match (getDie s die).port with
    | [] => s
    | (b, ctx, key) :: r =>
      if 1024 ≤ tableUsed s die then s
      else takePort die n (takeRecord (modDie s die fun d => { d with port := r }) die ctx b false key)

/-! ## Eligibility (R296) -/

/-- Launches of a die whose events are all set become eligible and join their ring. -/
def markEligible (s : State) (die : Nat) : State :=
  s.launches.foldl (fun s e =>
    let l := e.2
    if l.eligible = false ∧ l.done = false ∧ homeOf s l = die ∧ l.rcd.waitev.all (fun i => i == 0 || eventSet s l.rcd.ctx.toNat i.toNat) = true then
      let s1 := modLaunch s e.1 fun l => { l with eligible := true }
      if l.next < l.n then { s1 with turns := s1.turns ++ [(0, e.1)] } else s1
    else s) s

/-! ## Resolution (spec/14 R314-R328) -/

/-- The oldest unresolved launch of a context and key. -/
def oldestReg (s : State) (ctx key : Nat) : Option Nat := (s.shape.regs.find? (fun r => r.1 == ctx && r.2.1 == key)).map (fun r => r.2.2)

/-- The launch of the task on a core. -/
def launchOfCore (s : State) (core : Nat) : Option Nat := (taskOf s core).map (fun t => t.launch)

/-- Whether launch `g` reaches launch `h` through held counts (R327): from a launch whose task holds a count to the launch that this count
would resolve. -/
def reachesLaunch (s : State) (held : List Asked) : Nat → Nat → Nat → Bool
  | 0, g, h => g == h
  | n + 1, g, h => g == h || held.any (fun a => launchOfCore s a.core == some g &&
      (match oldestReg s a.ctx a.key with | some k => reachesLaunch s held n k h | none => false))

/-- A launch resolved: no task of it beyond its count is dispatched any more, its aging ends when none is left (spec/13
R296), and a shortfall becomes a tail launch (R317, R320). -/
def resolveLaunch (s : State) (u : Nat) (c : Nat) : State :=
  match tabFind s.launches u with
  | none => s
  | some l =>
    let s1 := { s with shape := { s.shape with regs := s.shape.regs.filter (fun r => r.2.2 != u), resolved := s.shape.resolved ++ [u] } }
    let tailId := s1.nextUid
    let s2 := modLaunch s1 u fun l => { l with
      green := false, count := some c, n := min c l.pr, fett := l.pr - c, tail := if l.pr < c then some tailId else none }
    let s3 := if min c l.pr ≤ l.next then leaveTurns (modLaunch s2 u fun l => { l with aged := 0 }) (0, u) else s2
    if l.pr < c then
      let t : Launch := { rcd := l.rcd, die := l.die, n := c, next := l.pr, tailOf := some u, eligible := true, predDie := l.predDie }
      { addLaunch s3 t with turns := s3.turns ++ [(0, tailId)] }
    else s3

/-- A green launch that ends without a count (R327, R330): every task is fettled, its aging ends (spec/13 R296), and its entry names the error. -/
def dropLaunch (s : State) (u : Nat) (e : ErrInfo) : State :=
  let s1 := { s with shape := { s.shape with regs := s.shape.regs.filter (fun r => r.2.2 != u) } }
  let s2 := modLaunch (launchError s1 u e) u fun l => { l with green := false, shapeFault := true, n := 0, aged := 0, fett := l.pr }
  leaveTurns s2 (0, u)

/-- The answer to a count: its core goes on, to commit or to trap. -/
def answerShape (s : State) (core : Nat) (refused : Option (BitVec 1)) : State :=
  modCore (endWait s core) core fun c => { c with
    blocked := c.blocked.map (fun b => match refused with | some w => { b with refused := some w } | none => { b with accepted := true }) }

/-- Whether a core has a store of an earlier bundle that is still held for its task (R321). -/
def stillHeld (s : State) (core : Nat) : Bool :=
  match taskOf s core with
  | some t => t.held.any (fun h => h.core == core && decide (h.no < (getCore s core).bundleNo))
  | none => false

/-- A count before the shape home (R316, R327, R328); `none` when it stays. A core that a footprint has refused an earlier store of takes its trap
first and publishes its count again (spec/06 R124, spec/15 R336). -/
def serveAsk (s : State) (held : List Asked) (a : Asked) : Option State :=
  let c := getCore s a.core
  let gone := match taskOf s a.core with | some t => t.error.isSome || t.ended | none => true
  if gone = true ∨ (c.wait ≠ .green ∧ c.wait ≠ .shape) then some s
  else if c.late ≠ [] then some (endWait s a.core)
  else if greenOf s a.core then
    if a.held then none
    else
      match oldestReg s a.ctx a.key, launchOfCore s a.core with
      | some g, some h =>
        if reachesLaunch s held held.length g h then
          some (answerShape (dropLaunch s g ⟨12, 3, 0, 0, 0⟩) a.core (some 0))
        else none
      | _, _ => none
  else if c.wait ≠ .shape ∨ c.acc.any (fun x => x.task == c.task && decide (x.no < c.bundleNo)) = true ∨ stillHeld s a.core = true then none
  else
    match oldestReg s a.ctx a.key with
    | some u => some (answerShape (resolveLaunch s u a.count) a.core none)
    | none =>
      if (s.shape.banked.filter (fun b => b.1 == a.ctx && b.2.1 == a.key)).length < 4 then
        some (answerShape { s with shape := { s.shape with banked := s.shape.banked ++ [(a.ctx, a.key, a.count)] } } a.core none)
      else some (answerShape s a.core (some 1))

/-- Every count waiting, in the order in which they reached the shape home. Counts, verdicts and dispatches pass between dies that are left without
a route too: they are firmware's traffic, no access (spec/01 R18; log entry 77: DESIGN CHOICE, unsafe). -/
def serveAsks (s : State) : List Asked → List Asked → State
  | [], kept => { s with shape := { s.shape with asked := kept } }
  | a :: r, kept =>
    match serveAsk s (kept.filter (fun k => k.held)) a with
    | some s1 => serveAsks s1 r kept
    | none => serveAsks s r (kept ++ [{ a with held := a.held || greenOf s a.core }])

/-- A predictor entry after a resolution (R314). -/
def pushCount (p : Pred) (c : Nat) : Pred :=
  { p with
    nh := if p.nh.toNat < 4 then p.nh + 1 else 4
    h := [(0, BitVec.ofNat 32 c), (1, tabGet p.h 0 0), (2, tabGet p.h 1 0), (3, tabGet p.h 2 0)] }

/-- The predictor updates that a die's stoker has received, in order (R314). -/
def updatePredictors (s : State) (die : Nat) : State :=
  s.shape.resolved.foldl (fun s u =>
    match tabFind s.launches u with
    | none => s
    | some l =>
      if l.predDie ≠ die ∨ l.updated = true then s
      else
        let key := l.rcd.key.toNat
        let s1 := modDie s die fun d => { d with pred := tabSet d.pred key (pushCount (tabGet d.pred key {}) (l.count.getD 0)) }
        let s2 := modLaunch s1 u fun l => { l with updated := true }
        { s2 with shape := { s2.shape with resolved := s2.shape.resolved.filter (fun k => k != u) } }) s

/-- The tasks of resolved launches on a die receive their verdicts (R316, R317). -/
def giveVerdicts (s : State) (die : Nat) : State :=
  s.tasks.foldl (fun s e =>
    let t := e.2
    if taskDie s t ≠ die ∨ t.green = false ∨ t.ended = true then s
    else
      match tabFind s.launches t.launch with
      | none => s
      | some l =>
        if l.green then s
        else
          let yes := !l.shapeFault && t.idx < l.count.getD 0
          applyVerdict (modTask s e.1 fun t => { t with verdict := some yes }) e.1) s

/-! ## Dispatch (R297-R299) -/

/-- The next task of a launch put in a place; it starts when its loads are made. -/
def spawnTask (s : State) (u : Nat) (l : Launch) (p : Place) : State :=
  let r := l.rcd
  let t : Task := {
    launch := l.tailOf.getD u, idx := l.next, ctx := r.ctx.toNat, hearth := p.hearth, size := gangSize r, first := p.first, part := partSize r
    qstart := p.qstart, banks := r.banks.toNat, slot := p.slot, green := l.green, gridn := BitVec.ofNat 32 (gridOf l)
    start := BitVec.ofNat 32 (gridOf l), level := r.level.toNat, seqNo := s.nextUid }
  let s1 := { s with tasks := tabSet s.tasks s.nextUid t, nextUid := s.nextUid + 1 }
  let s2 := modCtx s1 t.ctx fun c => { c with slots := c.slots ++ [p.slot] }
  let s3 := modLaunch s2 u fun l => { l with next := l.next + 1, lastDie := some (p.hearth / 24), aged := 0 }
  if l.n ≤ l.next + 1 then leaveTurns s3 (0, u)
  else if launchLevel l ≠ launchLevel { l with aged := 0 } then toTail s3 [(0, u)] else s3

/-- A member that holds the turn placed; the members passed go behind it. -/
def placeMember (s : State) (k u : Nat) (p : Place) (passed : List (Nat × Nat)) : State :=
  let s1 := if passed.isEmpty then s else toTail s passed
  if k = 0 then
    match tabFind s1.launches u with
    | some l => spawnTask s1 u l p
    | none => leaveTurns s1 (0, u)
  else resumeTask s1 u

/-- The placements of a frame. -/
def dispatch (die : Nat) : Nat → State → State
  | 0, s => s
  | n + 1, s =>
    match nextPlacement s die [3, 2, 1, 0] with
    | none => s
    | some (k, u, p, passed) => if k = 1 ∧ resumeWaits s u = true then s else dispatch die n (placeMember s k u p passed)

/-- Launches left without a healthy die (R299): their tasks not yet dispatched complete with class 6. -/
def dropHomeless (s : State) (die : Nat) : State :=
  s.launches.foldl (fun s e =>
    let l := e.2
    if l.done = false ∧ l.next < l.n ∧ homeOf s l = die ∧ (healthyDies s l.rcd).isEmpty = true then
      let low := ([0, 1, 2, 3].find? (fun d => l.rcd.diemask.getLsbD d)).getD 0
      let s1 := launchError s (l.tailOf.getD e.1) ⟨6, 2, BitVec.ofNat 14 low, 0, 0⟩
      leaveTurns (modLaunch s1 e.1 fun l => { l with next := l.n }) (0, e.1)
    else s) s

/-! ## Pre-emption asked for (R301) -/

/-- Whether a member has a victim on its way out. -/
def hasVictim (s : State) (m : Nat × Nat) : Bool :=
  let v := if m.1 = 0 then (tabFind s.launches m.2).bind (fun l => l.victim) else (tabFind s.tasks m.2).bind (fun t => t.victim)
  match v.bind (tabFind s.tasks) with
  | some t => t.preempt
  | none => false

/-- The effective level of a running task's launch, a tail launch's own of its tasks (spec/14 R320). -/
def runningLevel (s : State) (t : Task) : Nat := match levelLaunch s t with | some l => launchLevel l | none => t.level

/-- The better victim of two: the lower level, then the later start. -/
def betterVictim (s : State) (a b : Nat × Task) : Nat × Task :=
  let la := runningLevel s a.2
  let lb := runningLevel s b.2
  if lb < la ∨ (lb = la ∧ a.2.seqNo < b.2.seqNo) then b else a

/-- The victim on a die whose place a waiting member would take; each stoker compares the tasks of its own die (R295, R301; log entry 85: DESIGN
CHOICE, unsafe). -/
def findVictim (s : State) (die : Nat) (long : List Nat) (m : Nat × Nat) : Option Nat :=
  let lv := memberLevel s m
  let ok := s.tasks.filter (fun e => e.2.hearth / 24 == die && gangRuns e.2 && (e.2.st == 1 || e.2.st == 2) && !e.2.preempt && long.contains e.1
    && decide (runningLevel s e.2 < lv) && memberFits s [e.1] e.2.hearth m)
  match ok with
  | [] => none
  | v :: r => some (r.foldl (betterVictim s) v).1

/-- The requests of a frame, from the highest level down. -/
def askPreemption (s : State) (die : Nat) (long : List Nat) : State :=
  ([3, 2, 1].flatMap (ringAt s)).foldl (fun s m =>
    if (memberPlace s [] m (fun _ => true)).isSome ∨ hasVictim s m = true then s
    else
      match findVictim s die long m with
      | none => s
      | some v =>
        let s1 := modTask s v fun t => { t with preempt := true }
        if m.1 = 0 then modLaunch s1 m.2 fun l => { l with victim := some v } else modTask s1 m.2 fun t => { t with victim := some v }) s

/-! ## Launches complete (R300; spec/14 R322) -/

/-- Whether nothing of a task is left: halted and confirmed, or fettled, stopped and its allocations retracted, every write of it performed and, on
another device, acknowledged (spec/11 R257). -/
def taskOver (s : State) (u : Nat) (t : Task) : Bool :=
  t.st == 5 && t.saved.isEmpty && (t.ended || !t.green) && t.held.isEmpty && t.frees.isEmpty
  && (getCtx s t.ctx).allocs.all (fun a => a.2.2 != some u) && (gangOf t).all (fun i =>
    let c := getCore s i
    c.acc.all (fun a => a.task != some u) && !ackOut s i (some u) (fun _ => true) && c.chan.all (fun h => h.2.run.all (fun r => r.e.task != u) && h.2.queue.all (fun e => e.task != u)))

/-- Whether a launch has ended. -/
def launchOver (s : State) (u : Nat) (l : Launch) : Bool :=
  !l.green && decide (l.n ≤ l.next) && s.tasks.all (fun e => e.2.launch != u || taskOver s e.1 e.2)
    && (match l.tail.bind (tabFind s.launches) with | some t => decide (t.n ≤ t.next) | none => true)

/-- The launches of a die that have ended complete; a tail launch's end is its launch's (R322). -/
def completeLaunches (s : State) (die : Nat) : State :=
  s.launches.foldl (fun s e =>
    match tabFind s.launches e.1 with
    | none => s
    | some l =>
      if l.done = true ∨ l.tailOf.isSome = true ∨ homeOf s l ≠ die ∨ launchOver s e.1 l = false then s
      else
        let s1 := modLaunch s e.1 fun l => { l with done := true }
        let s2 := match l.tail with | some t => modLaunch s1 t fun l => { l with done := true } | none => s1
        let s3 := { s2 with tasks := s2.tasks.filter (fun t => t.2.launch != e.1) }
        writeEntry s3 die l.rcd.ctx.toNat l.rcd.cea.toNat l.rcd.setev.toNat (entryOf l)) s

/-! ## The frame -/

/-- A context command completes with a result (spec/16 R354). -/
def endCommand (s : State) (res : BitVec 2) : State :=
  { s with ctxBlock := { s.ctxBlock with busy := false, waits := [], res := res, donecnt := s.ctxBlock.donecnt + 1 } }

/-- An invalidation whose accesses have all performed completes (spec/16 R360). -/
def finishCommand (s : State) : State :=
  if s.ctxBlock.busy && s.ctxBlock.waits.all (fun w => (getCore s w.1).acc.all (fun a => a.id != w.2)) then endCommand s 0 else s

/-- A frozen voltage controller reported, with the lower class of the counters that reached their thresholds before (spec/17 R379, R393). -/
def postFreeze (s : State) (die : Nat) : State :=
  match (getDie s die).avs.named with
  | some (cls, inst, point) =>
    post (modDie s die fun d => { d with avs := { d.avs with named := none } }) (mkReport 6 0 2 (BitVec.ofNat 14 die) 0 0 die point.toNat cls inst)
  | none => s

/-- STOKER_FRAME (R295): the slots of a die's frame, in an order that the manual leaves open (log entry 88: DESIGN CHOICE, unsafe). `longRunning`
names the tasks that have run for at least 100 µs (R301; log entry 36: DESIGN CHOICE, unsafe). -/
def execStokerFrame (die : Nat) (longRunning : List Nat) (s : State) : Out :=
  .next (
    if s.boot.phase ≠ .normal ∨ fenced s die = true ∨ 4 ≤ die then s
    else
      let s1 := (s.tasks.filter (fun e => taskDie s e.2 == die)).foldl (fun s e => accDone s (some e.1)) (postFreeze s die)
      let s2 := if hostChain s1 die then ((List.range 64).filter (fun q => (getQueue s1 q).die.toNat == die)).foldl serveQueue s1 else s1
      let s3 := markEligible (takePort die 16 s2) die
      let s4 := if leadDie s3 = die then serveAsks (finishCommand s3) s3.shape.asked [] else s3
      let s5 := updatePredictors (giveVerdicts s4 die) die
      let s6 := askPreemption (dispatch die 512 (dropHomeless s5 die)) die longRunning
      completeLaunches s6 die)

/-- PRIORITY_AGING (R296): 4 ms more of waiting; a member that reaches a higher level joins its ring at the tail. -/
def execPriorityAging (who : AgingWho) (s : State) : Out :=
  .next (match who with
    | .launch u =>
      match tabFind s.launches u with
      | none => s
      | some l =>
        if s.turns.contains (0, u) = false then s
        else
          let s1 := modLaunch s u fun l => { l with aged := l.aged + 1 }
          if launchLevel l < 3 then toTail s1 [(0, u)] else s1
    | .task u =>
      match tabFind s.tasks u with
      | none => s
      | some t =>
        if t.st ≠ 3 ∨ s.turns.contains (1, u) = false then s
        else
          let s1 := modTask s u fun t => { t with aged := t.aged + 1 }
          if savedLevel t < 3 then toTail s1 [(1, u)] else s1)

end Sys2Proof.Machine
end

