-- ==== Sys2Proof/Machine/Host.lean ====
section
/-! DEFINITION. What the host does to the device: writes and reads of its registers (spec/13 R293, R294, R307, R308; spec/16 R354;
spec/17 R372, R376, R377, R379-R381, R386, R392; spec/18 R399), context commands, fencing a die (spec/16 R368), invalidations of
host translations (R363), and writes to device memory (spec/11 R257). -/

namespace Sys2Proof.Machine

open Sys2Proof

/-! ## Registers -/

/-- Whether the register blocks of BAR0 answer: the device runs and a host port is up (spec/13 R293, spec/17 R392). -/
def barOpen (s : State) : Bool := s.boot.phase == .normal && (hostPort s).isSome

/-- `s` when the registers do not answer, else the effect. -/
def onBar (s : State) (f : State → State) : Out := .next (if barOpen s then f s else s)

/-- The effect of a command on a die: none where no chain of healthy dies leads from the host to it (spec/01 R16). -/
def onDie (s : State) (d : Nat) (f : State → State) : State := if hostChain s d then f s else s

/-- QCTL written (spec/13 R293, R294): EN from 0 to 1 sets HEAD to TAIL and clears the flags; CFG is set when DIE names a fenced die, or
CTX a context that is not live while EN is 1. -/
def writeQctl (s : State) (q : BitVec 6) (v : W64) : State :=
  modQueue s q.toNat fun x =>
    let die := v.extractLsb' 1 2
    let ctx := v.extractLsb' 3 6
    let y := { x with en := v.getLsbD 0, die := die, ctx := ctx }
    let unusable := fenced s die.toNat || (v.getLsbD 0 && !(getCtx s ctx.toNat).live)
    if v.getLsbD 0 = true ∧ x.en = false then { y with head := x.tail, ovf := false, rerr := false, cfg := unusable }
    else { y with cfg := x.cfg || unusable }

/-- Nominal set point of the core supply in mV (spec/18 R395). -/
def nominalPoint : BitVec 10 := 750

/-- The lowest set point of a die (spec/17 R379): values of FLOOR below 600 count as 600. -/
def floorOf (a : Avs) : BitVec 10 := if a.floor < 600 then 600 else a.floor

/-- POINT raised by 10 mV, within the set points of spec/18 R395 (log entry 18: DEDUCED, unsafe). -/
def raisePoint (a : Avs) : Avs := { a with point := if 790 < a.point then 800 else a.point + 10 }

/-- AVSCTL written (R379): EN = 0 returns the die to its nominal point at once, and a freeze is reported before the controller resumes. -/
def writeAvs (s : State) (d : Nat) (v : W64) : State :=
  if 4 ≤ d then s else
  onDie s d fun s => modDie (if (v.extractLsb' 22 2).toNat = 2 then postFreeze s d else s) d fun x =>
    let a := { x.avs with en := v.getLsbD 0, floor := v.extractLsb' 2 10 }
    let b := if a.en then a else { a with point := nominalPoint }
    let c := match (v.extractLsb' 22 2).toNat with
      | 1 => raisePoint b
      | 2 => { b with frozen := false }
      | _ => b
    { x with avs := c }

/-- The key of a corrected-error counter. -/
def eccKey (cls inst : Nat) : Nat := cls * 4096 + inst

/-- Instances of an array class (spec/17 R376). -/
def eccInstances (cls : Nat) : Nat :=
  match cls with
  | 0 => 96 | 1 => 96 | 2 => 384 | 3 => 768 | 4 => 384 | 5 => 1536 | 6 => 4 | 7 => 8 | 8 => 8
  | _ => 0

/-- Class and instance that ECCSEL names. -/
def eccChosen (s : State) : Nat × Nat := ((s.recovery.eccsel.extractLsb' 0 4).toNat, (s.recovery.eccsel.extractLsb' 4 12).toNat)

/-- The die of an array instance. -/
def eccDie (cls inst : Nat) : Nat :=
  match cls with
  | 0 => inst / 24 | 1 => inst / 24 | 2 => inst / 96 | 3 => inst / 192 | 4 => inst / 96 | 5 => inst / 384 | 6 => inst | _ => inst / 2

/-- The selected counter cleared and its report armed again (R376). -/
def clearEcc (s : State) : State :=
  let k := eccKey (eccChosen s).1 (eccChosen s).2
  onDie s (eccDie (eccChosen s).1 (eccChosen s).2) fun s => { s with recovery := { s.recovery with ecc := tabErase s.recovery.ecc k, eccFired := s.recovery.eccFired.filter (fun x => x != k) } }

/-- The counter that MCSEL names, cleared (R377). -/
def clearMatrixCounter (s : State) : State :=
  let core := (s.recovery.mcsel.extractLsb' 0 9).toNat
  if 384 ≤ core then s else
  onDie s (dieOf core) fun s => modCore s core fun c => { c with mu :=
    match (s.recovery.mcsel.extractLsb' 9 2).toNat with
    | 0 => { c.mu with dis0 := 0 }
    | 1 => { c.mu with dis1 := 0 }
    | 2 => { c.mu with unres := 0 }
    | _ => { c.mu with abandon := 0 } }

/-- A host register written; read-only registers ignore the write. -/
def writeReg (s : State) (r : HostReg) (v : W64) : State :=
  match r with
  | .qbase q => modQueue s q.toNat fun x => { x with base := v.setWidth 57 }
  | .qsize q => modQueue s q.toNat fun x => { x with size := v.setWidth 5 }
  | .qhead _ => s
  | .qctl q => writeQctl s q v
  | .qstat _ => s
  | .ctxtab => { s with ctxBlock := { s.ctxBlock with tab := v.setWidth 52 &&& ~~~127 } }
  | .ctxarg => { s with ctxBlock := { s.ctxBlock with npg := v.setWidth 12, vpn := v.extractLsb' 12 45 } }
  | .ctxstat => s
  | .diestat => s
  | .devnum => { s with ctxBlock := { s.ctxBlock with devnum := v.setWidth 9 } }
  | .rbase => { s with ring := { s.ring with base := v &&& ~~~63, mirror := hostPort s == some 1 } }
  | .rbaseMirror => if s.hostUp.getLsbD 1 && !fenced s 1 then { s with ring := { s.ring with base := v &&& ~~~63, mirror := true } } else s
  | .rsize => { s with ring := { s.ring with log2 := v.setWidth 5 } }
  | .rtail => s
  | .rhead => { s with ring := { s.ring with head := v.setWidth 32 } }
  | .rstat => if v.setWidth 32 = (0 : W32) then { s with ring := { s.ring with lost := 0 } } else s
  | .rmsi => { s with ring := { s.ring with msi := v.getLsbD 0 } }
  | .thresh a => if 9 ≤ a then s else { s with recovery := { s.recovery with thresh := tabSet s.recovery.thresh a (v.setWidth 32) } }
  | .eccsel => { s with recovery := { s.recovery with eccsel := v.setWidth 16 } }
  | .ecccnt => if v.setWidth 32 = (0 : W32) then clearEcc s else s
  | .mcsel => { s with recovery := { s.recovery with mcsel := v.setWidth 11 } }
  | .mccnt => if v.setWidth 32 = (0 : W32) then clearMatrixCounter s else s
  | .avsctl d => writeAvs s d v
  | .dispmask d => if 4 ≤ d then s else onDie s d fun s => modDie s d fun x => { x with dispmask := v.setWidth 24 }
  | .iftstat => s
  | .sealrd => { s with recovery := { s.recovery with sealRd := v.setWidth 19 } }
  | .sealword => s
  | .therm _ => s
  | .pstat _ => s
  | .pcnt _ => s
  | .bootstat => s

/-- PSTAT of a port (spec/17 R386). -/
def pstatOf (x : Port) : W64 :=
  BitVec.ofNat 64 (x.state.toNat + 4 * x.w8.toNat + 8 * x.lanes.toNat + 2 ^ 20 * x.failed.toNat)

/-- BOOTSTAT (spec/17 R392). -/
def bootstatOf (s : State) : W64 :=
  let b := s.boot
  BitVec.ofNat 64 (b.outcome.toNat + 4 * b.count.toNat + 16 * b.reason0.toNat + 2 ^ 12 * b.reason1.toNat + 2 ^ 20 * b.reason2.toNat
    + 2 ^ 28 * b.bisqueDie.toNat)

/-- The selected matrix counter; counters of a fenced die read 0 (R377). -/
def readMatrixCounter (s : State) : W64 :=
  let core := (s.recovery.mcsel.extractLsb' 0 9).toNat
  if 384 ≤ core ∨ fenced s (dieOf core) = true then 0 else
  let m := (getCore s core).mu
  (match (s.recovery.mcsel.extractLsb' 9 2).toNat with
   | 0 => m.dis0 | 1 => m.dis1 | 2 => m.unres | _ => m.abandon).setWidth 64

/-- A host register as the host reads it. -/
def readReg (s : State) (r : HostReg) : W64 :=
  match r with
  | .qbase q => (getQueue s q.toNat).base.setWidth 64
  | .qsize q => (getQueue s q.toNat).size.setWidth 64
  | .qhead q => (getQueue s q.toNat).head.setWidth 64
  | .qctl q => let x := getQueue s q.toNat; BitVec.ofNat 64 (x.en.toNat + 2 * x.die.toNat + 8 * x.ctx.toNat)
  | .qstat q => let x := getQueue s q.toNat; BitVec.ofNat 64 (x.ovf.toNat + 2 * x.cfg.toNat + 4 * x.rerr.toNat)
  | .ctxtab => s.ctxBlock.tab.setWidth 64
  | .ctxarg => BitVec.ofNat 64 (s.ctxBlock.npg.toNat + 4096 * s.ctxBlock.vpn.toNat)
  | .ctxstat => BitVec.ofNat 64 (s.ctxBlock.busy.toNat + 2 * s.ctxBlock.res.toNat + 2 ^ 32 * s.ctxBlock.donecnt.toNat)
  | .diestat => diestatOf s
  | .devnum => s.ctxBlock.devnum.setWidth 64
  | .rbase => s.ring.base
  | .rbaseMirror => s.ring.base
  | .rsize => s.ring.log2.setWidth 64
  | .rtail => s.ring.tail.setWidth 64
  | .rhead => s.ring.head.setWidth 64
  | .rstat => s.ring.lost.setWidth 64
  | .rmsi => BitVec.ofNat 64 s.ring.msi.toNat
  | .thresh a => (tabGet s.recovery.thresh a 0).setWidth 64
  | .eccsel => s.recovery.eccsel.setWidth 64
  | .ecccnt =>
    let (cls, inst) := eccChosen s
    if eccInstances cls ≤ inst then 0 else (tabGet s.recovery.ecc (eccKey cls inst) 0).setWidth 64
  | .mcsel => s.recovery.mcsel.setWidth 64
  | .mccnt => readMatrixCounter s
  | .avsctl d => let a := (getDie s d).avs; BitVec.ofNat 64 (a.en.toNat + 2 * a.frozen.toNat + 4 * a.floor.toNat + 2 ^ 12 * a.point.toNat)
  | .dispmask d => (getDie s d).dispmask.setWidth 64
  | .iftstat => BitVec.ofNat 64 (s.recovery.iftBusy.toNat + 2 * s.recovery.iftRes.toNat + 2 ^ 32 * s.recovery.iftDone.toNat)
  | .sealrd => s.recovery.sealRd.setWidth 64
  | .sealword =>
    let v := s.recovery.sealRd
    sealWord (tabGet (getHearth s (v.extractLsb' 0 7).toNat).seals (v.extractLsb' 7 10).toNat {}) (v.extractLsb' 17 2).toNat
  | .therm d =>
    let x := getDie s d
    BitVec.ofNat 64 (x.tj.toNat + 2 ^ 8 * x.thbm.toNat + 2 ^ 16 * x.clk.toNat + 2 ^ 27 * (decide (x.clk < 1600)).toNat)
  | .pstat p => pstatOf (getPort s p)
  | .pcnt p => (getPort s p).crcerr ++ (getPort s p).replays
  | .bootstat => bootstatOf s

/-- QTAIL as the host reads it (spec/13 R293). -/
def readQtail (s : State) (q : BitVec 6) : W64 := (getQueue s q.toNat).tail.setWidth 64
/-- GDOOR as the host reads it: 0 (spec/13 R293). -/
def readGdoor (_s : State) (_q : BitVec 6) : W64 := 0
/-- GPATCH as the host reads it: PATCH in [31:0] and ACK in [63:32] (spec/13 R293). -/
def readGpatch (s : State) (q : BitVec 6) : W64 := (getQueue s q.toNat).ack ++ (getQueue s q.toNat).patch
/-- DIECTL as the host reads it: the fenced mask (spec/16 R354). -/
def readDiectl (s : State) : W64 := BitVec.ofNat 64 (((List.range 4).filter (fenced s)).foldl (fun m d => m + 2 ^ d) 0)
/-- CTXCMD as the host reads it: the last command written (spec/16 R354). -/
def readCtxcmd (s : State) : W64 := s.ctxBlock.cmd.setWidth 64
/-- PCMD as the host reads it: 0 (spec/17 R386). -/
def readPcmd (_s : State) (_p : Nat) : W64 := 0

/-- REGISTER_WRITE (spec/13 R293 and the tables of the other blocks). -/
def execRegisterWrite (r : HostReg) (v : W64) (s : State) : Out := onBar s fun s => writeReg s r v

/-- QTAIL_WRITE (spec/13 R294). -/
def execQtailWrite (q : BitVec 6) (v : W64) (s : State) : Out := onBar s fun s => modQueue s q.toNat fun x => { x with tail := v.setWidth 32 }

/-- QUEUE_ENABLE (R294): QCTL written with EN = 1. -/
def execQueueEnable (q : BitVec 6) (v : W64) (s : State) : Out := onBar s fun s => writeQctl s q (v ||| 1)

/-- QUEUE_DISABLE (R294): QCTL written with EN = 0. -/
def execQueueDisable (q : BitVec 6) (v : W64) (s : State) : Out := onBar s fun s => writeQctl s q (v &&& ~~~1)

/-- GDOOR_WRITE (R307): one replay asked for. -/
def execGdoorWrite (q : BitVec 6) (v : W64) (s : State) : Out :=
  onBar s fun s => modQueue s q.toNat fun x => { x with doors := x.doors ++ [v.toNat % 2 ^ 57] }

/-- GPATCH_WRITE (R308): what the host has written into the queue's graphs so far is the patch of this number. -/
def execGpatchWrite (q : BitVec 6) (v : W64) (s : State) : Out :=
  onBar s fun s => modQueue s q.toNat fun x =>
    { x with patch := v.setWidth 32, patchDue := true, old := x.old.map (fun o => (o.1, o.2.1, true)) }

/-! ## Context commands (spec/16 R353, R354, R360) -/

/-- A command written to CTXCMD, ignored while another runs; the register keeps OP and CTX. -/
def onCommand (s : State) (op : BitVec 3) (c : BitVec 6) (f : State → State) : Out :=
  onBar s fun s => if s.ctxBlock.busy then s else f { s with ctxBlock := { s.ctxBlock with cmd := c ++ op } }

/-- Whether a descriptor passes the checks of R353. -/
def descriptorOk (s : State) (d : Tab W64) : Bool :=
  let root := (tabGet d 0 0).toNat
  let aplen := (tabGet d 6 0).toNat % 2 ^ 32
  let apva := (tabGet d 4 0).toNat % 2 ^ 57
  let appa := (tabGet d 5 0).toNat % 2 ^ 52
  root % 4096 == 0 && decide (root < 2 ^ 52) && tableOk s (leadDie s) root
    && (tabGet d 2 0).toNat % 4096 == 0 && (tabGet d 3 0).toNat % 65536 != 0
    && aplen % 512 == 0 && (aplen == 0 || (apva % 2 ^ 21 == 0 && appa % 2 ^ 21 == 0 && tableOk s (leadDie s) appa))
    && (tabGet d 8 0).getLsbD 0 && (tabGet d 9 0).toNat % 4096 == 0

/-- The address of a context's descriptor. -/
def descriptorPa (s : State) (c : Nat) : Nat := s.ctxBlock.tab.toNat + 128 * c

/-- The 16 words of a descriptor in this device's HBM, if the lead die can read them. -/
def readDescriptor (s : State) (c : Nat) : Option (Tab W64) :=
  let pa := descriptorPa s c
  if tableOk s (leadDie s) pa = false ∨ (eccHits s (memKey s pa) 128).isEmpty = false then none
  else some ((doubleWords 16 (cellsGet s.mem (memKey s pa) 128)).zipIdx.map (fun w => (w.2, w.1)))

/-- A range of memory that a unit of a die reads or has to merge with: the uncorrected errors met there are reported, each code word once
(spec/17 R378). -/
def postRange (s : State) (die ctx pa n : Nat) : State :=
  (eccHits s (memKey s pa) n).foldl (fun s b => postEcc s 2 (BitVec.ofNat 14 die) ctx (pa + (b.key - memKey s pa))) s

/-- CREATE (R354). -/
def createCtx (s : State) (c : Nat) : State :=
  if (getCtx s c).live then endCommand s 1 else
  match readDescriptor s c with
  | none => endCommand (if tableOk s (leadDie s) (descriptorPa s c) then postRange s (leadDie s) c (descriptorPa s c) 128 else s) 2
  | some d =>
    if descriptorOk s d = false then endCommand s 2
    else
      let s1 := invalidateAll s c
      endCommand { s1 with ctxs := tabSet s1.ctxs c { live := true, desc := d } } 0

/-- CREATE (log entry 38: DESIGN CHOICE, unsafe). -/
def execCreate (c : BitVec 6) (s : State) : Out := onCommand s 1 c fun s => createCtx s c.toNat

/-- Whether a context still has work that keeps it from being destroyed (R354). -/
def ctxBusy (s : State) (c : Nat) : Bool :=
  s.launches.any (fun l => l.2.rcd.ctx.toNat == c && !l.2.done) || s.tasks.any (fun t => t.2.ctx == c && t.2.st == 3)
    || s.queues.any (fun q => q.2.en && q.2.ctx.toNat == c)

/-- DESTROY (R354). -/
def destroyCtx (s : State) (c : Nat) : State :=
  if ctxBusy s c then endCommand s 1
  else
    let s1 := (getCtx s c).allocs.foldl (fun s a => release s ((hostPort s).getD 0) c a.1) s
    let s2 := invalidateAll s1 c
    endCommand { s2 with ctxs := tabErase s2.ctxs c, colls := s2.colls.filter (fun x => x.ctx != c) } 0

/-- DESTROY. -/
def execDestroy (c : BitVec 6) (s : State) : Out := onCommand s 2 c fun s => destroyCtx s c.toNat

/-- The outstanding accesses of a context that a translation made. -/
def accessesOf (s : State) (c : Nat) : List (Nat × Nat) :=
  s.cores.flatMap (fun e => (e.2.acc.filter (fun a => a.n != 0 && !a.win && accCtx s a == c)).map (fun a => (e.1, a.id)))

/-- An invalidation that waits for the accesses in flight (R360). -/
def endInvalidation (s : State) (c : Nat) : State :=
  match accessesOf s c with
  | [] => endCommand s 0
  | l => { s with ctxBlock := { s.ctxBlock with busy := true, waits := l } }

/-- INVASID (R360). -/
def execInvasid (c : BitVec 6) (s : State) : Out := onCommand s 3 c fun s => endInvalidation (invalidateAll s c.toNat) c.toNat

/-- INVRANGE (R360): NPG + 1 pages from VPN. -/
def execInvrange (c : BitVec 6) (s : State) : Out :=
  onCommand s 4 c fun s => endInvalidation (invalidateRange s c.toNat s.ctxBlock.vpn.toNat (s.ctxBlock.npg.toNat + 1)) c.toNat

/-- CTXCMD_BAD_COMMAND (R354): codes 5 to 7 give RES 3; code 0 is no command. -/
def execCtxcmdBadCommand (op : BitVec 3) (c : BitVec 6) (s : State) : Out := onCommand s op c fun s => if 5 ≤ op then endCommand s 3 else s

/-! ## Fencing a die (R368) -/

/-- The error that fencing takes into a completion entry. -/
def fenceError (d : Nat) : ErrInfo := ⟨6, 2, BitVec.ofNat 14 d, 0, 0⟩

/-- A task of a fenced die ends without saving. -/
def fenceTask (s : State) (d u : Nat) : State :=
  match tabFind s.tasks u with
  | none => s
  | some t =>
    if t.st = 5 then modTask s u fun t => { t with saved := [] } else
    let s1 := modTask (noteError s u (fenceError d)) u fun t => { t with st := 5, saved := [], held := [], frees := [], preempt := false }
    let s2 := modCtx s1 t.ctx fun c => { c with slots := c.slots.filter (fun i => i != t.slot) }
    leaveTurns s2 (1, u)

/-- A core of a fenced die: it holds nothing any more. -/
def fenceCore (c : Core) : Core := { halted := true, nextId := c.nextId, bundleNo := c.bundleNo }

/-- The collectives that have a member on a fenced die end in error for their other members (spec/12 R286). -/
def fenceColls (s : State) (d : Nat) : State :=
  s.colls.foldl (fun s x =>
    let x1 := { x with joined := x.joined.filter (fun j => dieOf j.2.1 != d) }
    let group := match (x.joined.findSome? (fun j => (chanOf (getCore s j.2.1) j.2.2).run)).map (fun r => (groupOf s r.e).1) with
      | some (.ok l) => l
      | _ => []
    match lostMember s x1 group with
    | some (cls, a) => killColl (modColl s x fun _ => x1) x1 group cls a
    | none => s) s

/-- Modified lines homed on a die are lost, each reported with its address, and every other die gives up its copies of them (spec/10
R238). What the fenced die itself holds goes: its modified lines whose homes are healthy dies, and those of a die whose route to their home is
cut, stand at their homes as if written back, and no loss is reported (log entry 72: DESIGN CHOICE, unsafe). -/
def loseLines (s : State) (d : Nat) : State :=
  let gone := fun (i k : Nat) => k < 2 ^ 38 && (homeDie (32 * k) == d || cutOff s i (homeDie (32 * k)))
  let lost := (s.dies.flatMap (fun x => if x.1 = d then [] else (x.2.dirty.filter (fun k => k < 2 ^ 38 && homeDie (32 * k) == d)).map (fun k => k / 4))).dedup
  let s1 := { s with dies := tabMap s.dies (fun i x =>
    if i = d then { x with rdc := [], rdcBad := [], clean := [], dirty := [] }
    else { x with clean := x.clean.filter (fun k => !gone i k), dirty := x.dirty.filter (fun k => !gone i k), rdcBad := x.rdcBad.filter (fun k => !gone i k) }) }
  lost.foldl (fun s l => post s (mkReport 8 6 2 (BitVec.ofNat 14 d) 0 (localPa s (128 * l)) d 0 0 0)) s1

/-- The stalls of so many changes of a port's lanes, the earliest first: each runs from its own detection to the same packet, so an earlier one is
longer, by how much is the link's (R384). -/
def stallsOf (s : State) (p stall : Nat) : Nat → List Nat
  | 0 => []
  | n + 1 =>
    match stallsOf s p stall n with
    | [] => [stall]
    | d :: r => (d + (Config.freeData s.tick (2 ^ 51 + 1024 * p + n)).toNat % 2 ^ 32) :: d :: r

/-- The changes of a port's lanes that no report has given yet (spec/17 R384): a change is reported with PSTAT before it and after it. -/
def postLanes (s : State) (p : Nat) (stall : Nat) : State :=
  let x := getPort s p
  let stalls := stallsOf s p stall x.before.length
  let after := (x.before.map Prod.fst).tail ++ [pstatOf x]
  let s1 := { s with ports := tabSet s.ports p { x with before := [] } }
  (List.zip (List.zip x.before after) stalls).foldl (fun s b =>
    post s (mkReport 5 14 1 (BitVec.ofNat 14 p) 0 0 b.1.1.1.toNat b.1.2.toNat b.1.1.2 b.2)) s1

/-- The changes reported of a port whose retraining does not end: no packet ends the stall, whose length is then open (log entry 53: DESIGN
CHOICE, safe). -/
def dropLanes (s : State) (p : Nat) : State := postLanes s p ((Config.freeData s.tick (2 ^ 50 + p)).toNat % 2 ^ 32)

/-- The shape home's state when its die is fenced (spec/14 R330). -/
def fenceShape (s : State) (d : Nat) : State :=
  let s1 := s.shape.regs.foldl (fun s r => dropLaunch s r.2.2 (fenceError d)) s
  { s1 with shape := { s1.shape with regs := [], banked := [] } }

/-- A die fenced by the host (log entry 22: DEDUCED, unsafe). -/
def fenceDie (s : State) (d : Nat) : State :=
  if fenced s d then s else
  let home := leadDie s
  let s0 := (fabricPorts d).foldl dropLanes s
  let s1 := (s0.tasks.filter (fun e => e.2.hearth / 24 == d)).foldl (fun s e => fenceTask s d e.1) s0
  let s2 := if home = d then fenceShape s1 d else s1
  let s3 := fenceColls (modDie s2 d fun x => { x with state := 3, port := [] }) d
  let s4 := { s3 with
    cores := tabMap s3.cores (fun i c => if dieOf i = d then fenceCore c else c)
    oreqs := s3.oreqs.filter (fun r => dieOf r.core != d)
    shape := { s3.shape with asked := s3.shape.asked.filter (fun a => dieOf a.core != d) }
    queues := tabMap s3.queues (fun _ q => if q.en && q.die.toNat == d then { q with cfg := true } else q)
    ports := (fabricPorts d).foldl (fun t p => tabSet t p { tabGet t p {} with state := 0, training := false, replay := [], later := [], sent := [], resend := [], before := [] }) s3.ports
    hostUp := if d < 2 then s3.hostUp &&& ~~~(BitVec.ofNat 2 (2 ^ d)) else s3.hostUp
    recovery := if s3.recovery.iftBusy && s3.recovery.iftHearth / 24 == d then { s3.recovery with iftBusy := false, iftRes := 3 } else s3.recovery }
  let s5 := loseLines s4 d
  post s5 (mkReport 8 6 2 (BitVec.ofNat 14 d) 0 0 d 0 0 0)

/-- DIE_FENCE: a write of DIECTL (R354, R368); zero bits have no effect. -/
def execDieFence (v : W64) (s : State) : Out :=
  onBar s fun s => ([0, 1, 2, 3].filter (fun d => v.getLsbD d)).foldl fenceDie s

/-! ## Host memory and host writes -/

/-- Whether an outstanding access goes to a page of host memory. -/
def hostPageInUse (s : State) (port page : Nat) : Bool :=
  s.cores.any (fun c => c.2.acc.any (fun a => a.mt == 2 && a.n != 0 && a.pa / 4096 == hostPa port (page * 4096) / 4096))

/-- ATS_INVALIDATE_REQUEST (R363): the translations of an I/O page leave the port's cache after the accesses that used them. -/
def execAtsInvalidateRequest (port page : Nat) (s : State) : Out :=
  .next (
    let hit := fun (e : Nat × Nat × Nat) => e.1 == port && e.2.1 % 2 ^ 52 == page
    if (s.ats.filter hit).any (fun e => hostPageInUse s port (e.2.2 / 4)) then s
    else { s with ats := s.ats.filter (fun e => !hit e) })

/-- Whether a byte of memory belongs to a descriptor of a graph that a queue has replayed (spec/13 R307). -/
def inGraph (s : State) (q graph key : Nat) : Bool :=
  let x := getQueue s q
  let w := whoStoker x.die.toNat x.ctx.toNat
  let n := match (readGraph s q graph 2).1 with | .ok h => min 4096 (natOfBytes h) | .error _ => 0
  let stop := graph + 64 + 128 * n
  (List.range ((64 + 128 * n) / 4096 + 2)).any (fun k =>
    let va := if k = 0 then graph else (graph / 4096 + k) * 4096
    match translate s w.hearth w.ctx 0 0 va { r := true, sup := true } false with
    | .ok pa mt _ => mt != 2 && decide (va < stop) && decide (memKey s pa ≤ key) && decide (key < memKey s pa + min (4096 - va % 4096) (stop - va))
    | _ => false)

/-- What a byte of a queue's graphs held before a patch that has no number yet, kept until the stoker acknowledges the patch (R308). What stands in a
descriptor when its first GDOOR is written is the graph, not a patch (log entry 87: DEDUCED, unsafe). -/
def keepOld (s : State) (key : Nat) : State :=
  (s.queues.map Prod.fst).foldl (fun s q =>
    let x := getQueue s q
    if x.old.any (fun o => o.1 == key && !o.2.2) || !(x.graphs ++ x.doors).any (fun g => inGraph s q g key) then s
    else modQueue s q fun x => { x with old := x.old ++ (cellsGet s.mem key 1).map (fun b => (key, b, false)) }) s

/-- Bytes written to device memory from outside the package through a port of a die: posted writes, performed at their home. One that
meets a hole, a die without a route, a footprint (spec/06 R124) or an uncorrected error that it would have to merge with (spec/17 R378) performs
nothing and is reported (R370), by the port's die (log entry 89: DESIGN CHOICE, unsafe). -/
def outsideWrite (s : State) (die ctx mt pa : Nat) (b : List Byte) : State :=
  let lost := fun (s : State) (cls a : Nat) => post s (mkReport 0 cls 2 (BitVec.ofNat 14 die) ctx a 1 0 0 0)
  match footHit s mt pa b.length with
  | some i => lost s 13 (pa + i)
  | none =>
    match writePa s die mt pa b with
    | .ok s1 => s1
    | .error c => lost (if c = 3 then postRange s die ctx pa b.length else s) c pa

/-- Whether a byte of memory lies in a level-0 table that covers the pool of a live context: firmware alone writes those leaves (spec/16 R361). -/
def inPoolTable (s : State) (key : Nat) : Bool :=
  s.ctxs.any (fun c => c.2.live && (List.range ((poolOf s c.1).2.2 / 512)).any (fun k =>
    match ctxLeaf s (leadDie s) c.1 ((poolOf s c.1).1 + k * 2 ^ 21) with
    | some a => memKey s a / 4096 == key / 4096
    | none => false))

/-- What a write of the host leaves of its bytes: of a leaf that it must not write, for which the manual names no consequence, an indeterminate byte,
the previous one or the new one (spec/00 R6, R7; spec/16 R361; log entry 46: DEDUCED, safe). -/
def hostBytes (s : State) (pa : Nat) (b : List Byte) : List Byte :=
  b.zipIdx.map (fun x =>
    let key := memKey s (pa + x.2)
    if inPoolTable s key && Config.freeKeep s.tick key then ((cellsGet s.mem key 1).head?).getD x.1 else x.1)

/-- HOST_WRITES_TO_DEVICE_MEMORY (spec/11 R257): posted writes at a package offset. -/
def execHostWritesToDeviceMemory (addr : Nat) (bytes : List Byte) (s : State) : Out :=
  onBar s fun s =>
    let pa := localPa s addr
    let kept := if s.queues.all (fun q => q.2.graphs.isEmpty && q.2.doors.isEmpty) then s
      else (List.range bytes.length).foldl (fun s i => keepOld s (memKey s (pa + i))) s
    outsideWrite kept ((hostPort s).getD 0) 0 0 pa (hostBytes s pa bytes)

/-! ## BAR0 (spec/13 R293; spec/16 R354; spec/17 R372, R376, R377, R379-R381, R386, R392; spec/18 R399) -/

/-- A register of the recovery block that is read and written under its own name, by its offset in the block. -/
def recoveryReg (off : Nat) : Option HostReg :=
  match off with
  | 0x00 => some .rbase | 0x08 => some .rsize | 0x10 => some .rtail | 0x18 => some .rhead | 0x20 => some .rstat | 0x28 => some .rmsi
  | 0x90 => some .eccsel | 0x98 => some .ecccnt
  | 0xE8 => some .iftstat | 0xF0 => some .sealrd | 0xF8 => some .sealword | 0x100 => some .bootstat
  | 0x130 => some .mcsel | 0x138 => some .mccnt
  | _ =>
    if 0x40 ≤ off ∧ off < 0x88 then some (.thresh ((off - 0x40) / 8))
    else if 0xA0 ≤ off ∧ off < 0xC0 then some (.avsctl ((off - 0xA0) / 8))
    else if 0xC0 ≤ off ∧ off < 0xE0 then some (.dispmask ((off - 0xC0) / 8))
    else if 0x110 ≤ off ∧ off < 0x130 then some (.therm ((off - 0x110) / 8))
    else none

/-- A register of a queue's block that is read and written under its own name. -/
def queueReg (q : BitVec 6) (off : Nat) : Option HostReg :=
  match off with
  | 0x00 => some (.qbase q) | 0x08 => some (.qsize q) | 0x18 => some (.qhead q) | 0x20 => some (.qctl q) | 0x28 => some (.qstat q)
  | _ => none

/-- The event that a write of an 8-byte register of the context block is. -/
noncomputable def contextWrite (off : Nat) (v : W64) : Option Instr :=
  let c := v.extractLsb' 3 6
  match off with
  | 0x00 => some (.registerWrite .ctxtab v)
  | 0x08 =>
    match (v.extractLsb' 0 3).toNat with
    | 1 => some (.create c) | 2 => some (.destroy c) | 3 => some (.invasid c) | 4 => some (.invrange c)
    | _ => some (.ctxcmdBadCommand (v.extractLsb' 0 3) c)
  | 0x10 => some (.registerWrite .ctxarg v)
  | 0x18 => some (.registerWrite .ctxstat v)
  | 0x20 => some (.dieFence v)
  | 0x28 => some (.registerWrite .diestat v)
  | 0x30 => some (.registerWrite .devnum v)
  | _ => none

/-- The event that a naturally aligned 8-byte write of BAR0 is, through either host port; none where no register takes it, and none for a
write of another size or alignment, which the blocks do not take (R293). `bad` names the lanes that would not train now, `view` what
the boot ROMs would find. In bisque mode BAR0 holds the boot registers alone (R392). -/
noncomputable def barWrite (s : State) (off size : Nat) (v : W64) (bad : BitVec 17) (view : StartView) : Option Instr :=
  if size ≠ 8 ∨ off % 8 ≠ 0 then none
  else if s.boot.phase = .bisque then (if off = 0x108 ∧ v.getLsbD 0 = true then some (.restart view) else none)
  else if 0x1000 ≤ off ∧ off < 0x2000 then contextWrite (off - 0x1000) v
  else if off = 0x20E0 then some (.iftStart v)
  else if off = 0x2108 then (if v.getLsbD 0 then some (.restart view) else none)
  else if 0x2000 ≤ off ∧ off < 0x3000 then (recoveryReg (off - 0x2000)).map (fun r => .registerWrite r v)
  else if 0x3000 ≤ off ∧ off < 0x3000 + 32 * 18 then
    let p := (off - 0x3000) / 32
    match (off - 0x3000) % 32, (v.extractLsb' 0 2).toNat with
    | 0x10, 1 => some (.retrain p bad)
    | 0x10, 2 => some (.up p)
    | 0x10, 3 => some (.down p)
    | _, _ => none
  else if 0x100000 ≤ off ∧ off < 0x100000 + 64 * 64 then
    let q := BitVec.ofNat 6 ((off - 0x100000) / 64)
    match (off - 0x100000) % 64 with
    | 0x10 => some (.qtailWrite q v)
    | 0x30 => some (.gdoorWrite q v)
    | 0x38 => some (.gpatchWrite q v)
    | o => (queueReg q o).map (fun r => .registerWrite r v)
  else none

/-- The event of a write of BAR0 through a host port: through die 1's, RBASE stands in the mirror (spec/17 R372, R390). -/
noncomputable def barWriteAt (s : State) (port off size : Nat) (v : W64) (bad : BitVec 17) (view : StartView) : Option Instr :=
  match barWrite s off size v bad view with
  | some (.registerWrite .rbase v) => some (.registerWrite (if port = 1 then .rbaseMirror else .rbase) v)
  | i => i

/-- A naturally aligned 8-byte read of BAR0; none for another size or alignment and where no register stands. Commands read 0 (IFTCMD and
BOOTCTL: log entry 54: DESIGN CHOICE, unsafe). -/
def barRead (s : State) (off size : Nat) : Option W64 :=
  if size ≠ 8 ∨ off % 8 ≠ 0 then none
  else if s.boot.phase = .bisque then (if s.hostUp = 0 then none else if off = 0x100 then some (bootstatOf s) else if off = 0x108 then some 0 else none)
  else if barOpen s = false then none
  else if 0x1000 ≤ off ∧ off < 0x2000 then
    match off - 0x1000 with
    | 0x00 => some (readReg s .ctxtab) | 0x08 => some (readCtxcmd s) | 0x10 => some (readReg s .ctxarg) | 0x18 => some (readReg s .ctxstat)
    | 0x20 => some (readDiectl s) | 0x28 => some (readReg s .diestat) | 0x30 => some (readReg s .devnum)
    | _ => none
  else if off = 0x20E0 ∨ off = 0x2108 then some 0
  else if 0x2000 ≤ off ∧ off < 0x3000 then (recoveryReg (off - 0x2000)).map (readReg s)
  else if 0x3000 ≤ off ∧ off < 0x3000 + 32 * 18 then
    let p := (off - 0x3000) / 32
    match (off - 0x3000) % 32 with
    | 0x00 => some (readReg s (.pstat p)) | 0x08 => some (readReg s (.pcnt p)) | 0x10 => some (readPcmd s p)
    | _ => some 0
  else if 0x100000 ≤ off ∧ off < 0x100000 + 64 * 64 then
    let q := BitVec.ofNat 6 ((off - 0x100000) / 64)
    match (off - 0x100000) % 64 with
    | 0x10 => some (readQtail s q)
    | 0x30 => some (readGdoor s q)
    | 0x38 => some (readGpatch s q)
    | o => (queueReg q o).map (readReg s)
  else none

end Sys2Proof.Machine
end

