-- ==== Sys2Proof/Machine/Legal.lean ====
section
/-! DEFINITION. Bundle legality (spec/03 R49, R51, R52): the reason bits of a bundle and the words that offend. -/

namespace Sys2Proof.Machine

open Sys2Proof

/-- The pair 2m, 2m + 1 that a compare names (R47). -/
def pairOf (file : Nat) (d : BitVec 5) : List (Nat × Nat) := [(file, 2 * (d.toNat % 8)), (file, 2 * (d.toNat % 8) + 1)]
/-- The carry pair of a guard field (R43). -/
def carryOf (file : Nat) (g : BitVec 4) : List (Nat × Nat) := [(file, g.toNat), (file, g.toNat + 1)]
/-- A produced token; n0 is none (R47). -/
def tokenOf (t : BitVec 6) : List (Nat × Nat) := if t = 0 then [] else [(9, t.toNat)]

/-- The registers an operation names as destinations (R51, reason bit 6), as file and number: 0 to 7 the data files of R47 in the
codes of f3, 8 predicates, 9 tokens, 10 parameters, 11 stride sets, 12 copy sets. -/
def destsOf : Instr → List (Nat × Nat)
  | .cmpeq o | .cmplt o | .cmpltu o | .cmple o | .cmpleu o | .pand o | .por o | .pxor o | .cmpeqi o | .cmplti o | .cmpltui o
  | .cmplei o | .cmpleui o => pairOf 8 o.d
  | .addc o | .subb o => (o.u.toNat, o.d.toNat) :: carryOf 8 o.g
  | .movx o => [(o.b.toNat % 8, o.d.toNat)]
  | .movp o => [(10, o.d.toNat % 8)]
  | .gset o => [(11, o.d.toNat % 8)]
  | .hset o => [(12, o.d.toNat % 8)]
  | .guard _ => []
  | .add o | .sub o | .mul o | .mulh o | .mulhu o | .div o | .divu o | .rem o | .remu o | .and o | .or o | .xor o | .andn o
  | .shl o | .shr o | .sar o | .ror o | .min o | .max o | .minu o | .maxu o | .clz o | .ctz o | .popc o | .sext o | .zext o
  | .movfp o | .gget o | .hget o | .rdvc o | .addi o | .andi o | .ori o | .xori o | .shli o | .shri o | .sari o | .rori o
  | .muli o | .tokl o | .movi o | .movsh o => [(o.u.toNat, o.d.toNat)]
  | .vcmpeq o | .vcmplt o | .vcmple o | .vcmpltu o | .vcmpleu o => pairOf 7 o.d
  | .vadc o | .vsbc o => (o.u.toNat, o.d.toNat) :: carryOf 7 o.g
  | .vmovx o | .vbcast o | .vext o => [(o.b.toNat % 8, o.d.toNat)]
  | .kand o | .kor o | .kxor o | .kmov o => [(7, o.d.toNat)]
  | .vadd o | .vsub o | .vmul o | .vfma o | .vfms o | .vfnma o | .vmin o | .vmax o | .vabs o | .vneg o | .vdiv o | .vsqrt o
  | .vand o | .vor o | .vxor o | .vandn o | .vshl o | .vshr o | .vsar o | .vshli o | .vshri o | .vsari o | .vmulhi o
  | .vmulhiu o | .vmacw o | .vclass o | .vsel o | .vmov o | .vperm o | .viota o | .vredadd o | .vredmax o | .vredmin o
  | .vcvt o | .vqnt o | .vdqnt o | .vpack o | .vunpk o | .vclz o | .vpopc o | .vscan o | .kpopc o | .kfirst o => [(o.u.toNat, o.d.toNat)]
  | .fexp2 o | .flog2 o | .frcp o | .frsq o | .fsinpi o | .fcospi o | .ftanh o | .fsigm o | .ferf o | .frand o | .dmom o
  | .dqnt o | .dcdf o | .dsupp o => [(5, o.d.toNat)]
  | .dpt o | .dfrom o | .dadd o | .dsub o | .dmul o | .dmax o | .dmin o | .daff o | .dmap o | .dtag o | .dtags o | .dcanon o
  | .dmov o => [(6, o.d.toNat)]
  | .fmovx o => [(o.b.toNat % 8, o.d.toNat)]
  | .ldB o | .ldBz o | .ldH o | .ldHz o | .ldW o | .ldWz o | .ldD o | .ldv256 o | .ldv512 o | .ldv1024 o | .ldk o | .ldd o
  | .ldxD o | .ldxW o | .vgather o | .ldaW o | .ldaD o => [(o.f3.toNat, o.d.toNat)]
  | .ldQ o => (o.f3.toNat, o.d.toNat) :: if o.f3 ≤ 1 then [(o.f3.toNat, o.d.toNat + 1)] else []
  | .aaddW o | .aandW o | .aorW o | .axorW o | .aminW o | .amaxW o | .aminuW o | .amaxuW o | .aswpW o | .acasW o | .afaddW o
  | .aaddD o | .aandD o | .aorD o | .axorD o | .aminD o | .amaxD o | .aminuD o | .amaxuD o | .aswpD o | .acasD o => if o.m4.getLsbD 3 then [(o.f3.toNat, o.d.toNat)] else []
  | .oadd o | .oswp o | .ocas o => [(o.f3.toNat, o.d.toNat)]
  | .copy o | .copy2 o | .send o | .fetch o | .scopy o | .coll o | .czero o | .cflush o | .mcall o | .mclr o | .mstat o
  | .msig o | .mload o => tokenOf o.tok
  | .bcall _ | .bcallx _ => [(0, 31)]
  | .tpoll o => (8, 2 * o.m.toNat) :: (8, 2 * o.m.toNat + 1) :: if o.d = 0 then [] else [(0, o.d.toNat)]
  | .mfs o => [(o.file.toNat, o.r.toNat)]
  | _ => []

/-- The ports of the data files an operation uses (R49): 0 load-write, 1 store-read, 2 cross-copy write, with the file. `TPOLL` with d = x0
sends nothing through x's port and is no user of it (spec/12 R275; log entry 58: DEDUCED, unsafe). -/
def portsOf : Instr → List (Nat × Nat)
  | .movx o => [(2, o.b.toNat % 8)]
  | .vmovx o | .vext o => [(2, o.b.toNat % 8)]
  | .vbcast o => if o.b.toNat % 8 = o.u.toNat then [] else [(2, o.b.toNat % 8)]
  | .fmovx o => [(2, o.b.toNat % 8)]
  | .ldB o | .ldBz o | .ldH o | .ldHz o | .ldW o | .ldWz o | .ldD o | .ldv256 o | .ldv512 o | .ldv1024 o | .ldk o | .ldd o
  | .ldxD o | .ldxW o | .vgather o | .ldaW o | .ldaD o | .ldQ o => [(0, o.f3.toNat)]
  | .stB o | .stH o | .stW o | .stD o | .stQ o | .stv256 o | .stv512 o | .stv1024 o | .stk o | .std o | .stxD o | .stxW o
  | .vscatter o | .stlW o | .stlD o => [(1, o.f3.toNat)]
  | .aaddW o | .aandW o | .aorW o | .axorW o | .aminW o | .amaxW o | .aminuW o | .amaxuW o | .aswpW o | .acasW o | .afaddW o
  | .aaddD o | .aandD o | .aorD o | .axorD o | .aminD o | .amaxD o | .aminuD o | .amaxuD o | .aswpD o | .acasD o =>
    (1, o.f3.toNat) :: if o.m4.getLsbD 3 then [(0, o.f3.toNat)] else []
  | .oadd o | .oswp o | .ocas o => [(0, o.f3.toNat), (1, o.f3.toNat)]
  | .bcall _ | .bcallx _ => [(2, 0)]
  | .tpoll o => if o.d = 0 then [] else [(2, 0)]
  | .mfs o => [(2, o.file.toNat)]
  | _ => []

/-- Whether an operation reads at its bundle's issue what other slots of the bundle change: loads (spec/11 R245), samples and system
reads come before the rest. -/
def readsFirst : Instr → Bool
  | .ldB _ | .ldBz _ | .ldH _ | .ldHz _ | .ldW _ | .ldWz _ | .ldD _ | .ldv256 _ | .ldv512 _ | .ldv1024 _ | .ldk _ | .ldd _
  | .ldxD _ | .ldxW _ | .vgather _ | .ldaW _ | .ldaD _ | .ldQ _
  | .tpoll _ | .twait _ | .mfs _ => true
  | _ => false

/-- A mask with a bit for each word that satisfies a test. -/
def markWords {α : Type} (l : List α) (p : Nat → α → Bool) : Nat :=
  (l.zipIdx.filter (fun x => p x.2 x.1)).foldl (fun m x => m + 2 ^ x.2) 0

/-- The words that share an item with another word. -/
def sharedWords (l : List (List (Nat × Nat))) : Nat :=
  markWords l (fun i x => l.zipIdx.any (fun y => y.2 != i && x.any (fun a => y.1.contains a)))

/-- Bits a V word adds to the width of its bundle (R51, reason bit 8). -/
def wordWidth (w : W32) : Nat :=
  if 2 ≤ unitOf w ∧ unitOf w ≤ 4 ∧ w.extractLsb' 15 2 ≠ 3 then 256 * 2 ^ (w.extractLsb' 15 2).toNat else 0

/-- Whether a word has the reserved width of a V word (R50, R51). -/
def badWidth (w : W32) : Bool := decide (2 ≤ unitOf w) && decide (unitOf w ≤ 4) && w.extractLsb' 15 2 == 3

/-- The words marked by each reason bit of R51, bit 0 first; `ended` says that a stop bit was found. A word with a reserved field value (bit
5) counts for bits 6 and 7 with the destinations and ports that its fields name as they stand (log entry 59: DEDUCED, unsafe). -/
noncomputable def offences (words : List W32) (ended : Bool) : List Nat :=
  let ops := words.map decodeOp
  let names := fun (f : Instr → List (Nat × Nat)) => ops.map (fun r => match r with | .ok i => f i | .error _ => [])
  let units := words.map unitOf
  [ if ended then 0 else 2 ^ (max 1 words.length) - 1,
    markWords units (fun _ u => decide (12 ≤ u)),
    markWords units (fun i u => units.zipIdx.any (fun y => y.2 != i && y.1 == u)),
    markWords units (fun i u => i != 0 && decide (u < (units[i - 1]?).getD 0)),
    markWords words (fun _ w => decodeOp w == .error .reservedOpcode),
    markWords words (fun _ w => decode w == .error .reservedField || badWidth w),
    sharedWords ((names destsOf).map (fun l => l.filter (fun d => d != (0, 0) && d != (1, 0)))),
    sharedWords (names portsOf),
    if 2048 < (words.map wordWidth).sum then markWords words (fun _ w => wordWidth w != 0) else 0 ]

/-- TSLOTS of an illegal bundle with its cause, or none for a legal one (R52). A bundle past word 65,535 counts as one word. -/
noncomputable def illegal (words : List W32) (ended : Bool) : Option (Nat × BitVec 21) :=
  let o := offences words ended
  if o.all (fun m => m == 0) then none
  else
    let marks := o.foldl (fun a m => a ||| m) 0
    let reasons := markWords o (fun _ m => m != 0)
    some (if (o[1]?).getD 0 = 0 then 0x01 else 0x02, BitVec.ofNat 21 (marks + 256 * max 1 words.length + 4096 * reasons))

end Sys2Proof.Machine
end

