-- ==== Sys2Proof/Machine/Recovery.lean ====
section
/-! DEFINITION. Recovery (spec/17 R371-R393): corrected and uncorrected errors, voltage service, in-field test, the fabric link and the
removal of ports, starts and bisque mode; authentication and the SPDM responder (spec/16 R366, R367); heat and power (spec/18 R395,
R398). -/

namespace Sys2Proof.Machine

open Sys2Proof

/-! ## Counters and memory errors (R376-R378) -/

/-- ECC_COUNTER_CLEAR (R376). -/
def execEccCounterClear (s : State) : Out := onBar s clearEcc

/-- MATRIX_COUNTER_CLEAR (R377). -/
def execMatrixCounterClear (s : State) : Out := onBar s clearMatrixCounter

/-- KIND 2 with the die as unit (spec/15 R346) (log entry 9: DEDUCED, unsafe). -/
def dieReport (sub cls die addr d0 d1 d2 d3 : Nat) : Report := mkReport sub cls 2 (BitVec.ofNat 14 die) 0 addr d0 d1 d2 d3

/-- The voltage controller of a die freezes at the present point (R379). The report follows before its next step, at the latest in the next
frame of its stoker, with the lower class of the counters that reached their thresholds until then (R393; log entry 60: DEDUCED, unsafe). -/
def freezeAvs (s : State) (die cls inst : Nat) : State :=
  let a := (getDie s die).avs
  match a.named with
  | some (c, _, point) => if cls < c then modDie s die fun d => { d with avs := { d.avs with named := some (cls, inst, point) } } else s
  | none =>
    if a.en = true ∧ a.frozen = false then modDie s die fun d => { d with avs := { d.avs with frozen := true, named := some (cls, inst, a.point) } }
    else s

/-- CORRECTED_ECC_ERROR (R376, R379). -/
def execCorrectedEccError (cls inst : Nat) (s : State) : Out :=
  .next (
    if s.boot.phase ≠ .normal ∨ eccInstances cls ≤ inst then s else
    let k := eccKey cls inst
    let n := satInc (tabGet s.recovery.ecc k 0)
    let t := tabGet s.recovery.thresh cls 0
    let s1 := { s with recovery := { s.recovery with ecc := tabSet s.recovery.ecc k n } }
    if t ≠ 0 ∧ t ≤ n ∧ s.recovery.eccFired.contains k = false then
      let s2 := { s1 with recovery := { s1.recovery with eccFired := s1.recovery.eccFired ++ [k] } }
      let die := eccDie cls inst
      freezeAvs (post s2 (dieReport 3 0 die 0 cls inst n.toNat t.toNat)) die cls inst
    else s1)

/-- A report of SUB 4 (R378). -/
def eccReport (die addr cls inst : Nat) : Report := dieReport 4 3 die addr cls inst 0 0

/-- A code word marked, in place of what the marks said of it: what meets it reports it (R378). -/
def markBad (s : State) (b : BadWord) : State := { s with eccBad := b :: s.eccBad.filter (fun x => x.key != b.key) }

/-- A byte of the scratchpads or of HBM in error (R378). -/
def eccMem (s : State) (addr : Nat) : State :=
  let w := addr / codeWord addr * codeWord addr
  if isScratchKey addr then markBad s ⟨w, 8, 0, (addr - apertureBase) / 2 ^ 24⟩
  else if addr < 0x6000000000 then markBad s ⟨w, 32, 7, stackOf (addr / 0x1800000000) (addr % 0x1800000000)⟩
  else s

/-- Whether a package offset is one of a line that L2 slices hold: HBM or second-tier memory (spec/10 R235). -/
def inSlices (addr : Nat) : Bool := addr < 0x6000000000 || (0x20000000000 ≤ addr && addr < 0x40000000000)

/-- A code word of a line in its home L2 slice in error. -/
def eccSlice (s : State) (addr : Nat) : State :=
  if inSlices addr then markBad s ⟨addr / 8 * 8, 8, 5, homeSlice s (localPa s addr)⟩ else s

/-- A code word of a sector in a die's remote-data cache in error: the only copy of a modified one of this device, or a copy. `addr` is a
domain physical address. -/
def eccCache (s : State) (die addr : Nat) : State :=
  let d := getDie s die
  let k := sectorOf s addr
  if d.dirty.contains k then markBad s ⟨paOff addr / 8 * 8, 8, 6, die⟩
  else if (tabFind d.rdc k).isSome || d.clean.contains k then modDie s die fun d => { d with rdcBad := k :: d.rdcBad.filter (fun x => x != k) }
  else s

/-- The first row of a list marked. -/
def badRow : List HeldRow → List HeldRow
  | [] => []
  | r :: l => { r with bad := true } :: l

/-- A held row of a tile in error: of its open epoch, or of what a provisional task retains of it. -/
def eccHeld (s : State) (core tile : Nat) : State :=
  let x := tileOf (getCore s core) tile
  let h := hearthOf core
  match x.epoch with
  | some e =>
    match e.held with
    | [] => s
    | r :: _ => post (modTileAt s core tile fun x => { x with epoch := some { e with held := badRow e.held } }) (eccReport (h / 24) r.pa 1 h)
  | none =>
    match (getCore s core).task, taskOf s core with
    | some u, some t =>
      match findIdxFrom (fun (k : HeldStore) => k.core == core && k.tile == some tile) t.held 0 with
      | some (i, k) =>
        post (modTask s u fun t => { t with held := modifyAt t.held i (fun k => { k with rows := badRow k.rows }) })
          (eccReport (h / 24) (((k.rows.head?).map (fun r => r.pa)).getD 0) 1 h)
      | none => s
    | _, _ => s

/-- The n-th held store of a core's task in error in the saggar: it performs nothing when it is released (log entry 56: DEDUCED, unsafe). -/
def eccStore (s : State) (core n : Nat) : State :=
  let h := hearthOf core
  match (getCore s core).task, taskOf s core with
  | some u, some t =>
    match t.held[n]? with
    | some k =>
      if k.tile.isSome then s else
      post (modTask s u fun t => { t with held := modifyAt t.held n (fun k => { k with rows := badRow k.rows }) })
        (eccReport (h / 24) (((k.rows.head?).map (fun r => r.pa)).getD 0) 1 h)
    | none => s
  | _, _ => s

/-- A register file (class 2) or the instruction and microprogram memory (class 4) of a core in error: its task ends in error at that
bundle (spec/04 R90). -/
def eccCore (s : State) (core cls : Nat) : State :=
  let s1 := post s (eccReport (dieOf core) 0 cls core)
  match (getCore s core).task with
  | some u => settleCore (endInError s1 u 3 0 (coreUnit core 3) 0 0) core
  | none => s1

/-- UNCORRECTED_ECC_ERROR (R378): it is reported, and acts on what meets it. -/
def execUncorrectedEccError (site : EccSite) (s : State) : Out :=
  .next (
    if s.boot.phase ≠ .normal then s else
    match site with
    | .mem addr => eccMem s addr
    | .held core tile => if 384 ≤ core ∨ 8 ≤ tile then s else eccHeld s core tile
    | .tile core engine t =>
      if 384 ≤ core ∨ 2 ≤ engine ∨ 8 ≤ t then s else
      post (modTileAt s core t fun x => { x with bad := x.bad ||| BitVec.ofNat 2 (2 ^ engine) })
        (eccReport (dieOf core) 0 3 (2 * core + engine))
    | .slice addr => eccSlice s addr
    | .cache die addr => if 4 ≤ die then s else eccCache s die addr
    | .store core n => if 384 ≤ core then s else eccStore s core n
    | .file core => if 384 ≤ core then s else eccCore (modCore s core fun c => { c with fileBad := true }) core 2
    | .imem core => if 384 ≤ core then s else eccCore s core 4)

/-! ## Voltage service (R379) -/

/-- AVS_ENABLE: AVSCTL written with EN = 1. -/
def execAvsEnable (die : Nat) (v : W64) (s : State) : Out := onBar s fun s => writeAvs s die (v ||| 1)
/-- AVS_DISABLE: AVSCTL written with EN = 0. -/
def execAvsDisable (die : Nat) (v : W64) (s : State) : Out := onBar s fun s => writeAvs s die (v &&& ~~~1)
/-- AVS_RAISE_POINT: CMD 1. -/
def execAvsRaisePoint (die : Nat) (s : State) : Out := onBar s fun s => onDie s die fun s => modDie s die fun d => { d with avs := raisePoint d.avs }
/-- AVS_RESUME: CMD 2, after the report of the freeze (log entry 60: DEDUCED, unsafe). -/
def execAvsResume (die : Nat) (s : State) : Out :=
  onBar s fun s => onDie s die fun s => modDie (postFreeze s die) die fun d => { d with avs := { d.avs with frozen := false } }

/-- POINT lowered by 5 mV, never below FLOOR. -/
def lowerPoint (a : Avs) : Avs :=
  let f := floorOf a
  if a.point ≤ f then a else { a with point := if a.point - 5 < f then f else a.point - 5 }

/-- AVS_STEP: 10 ms of a service that is on and not frozen. -/
def execAvsStep (die : Nat) (s : State) : Out :=
  .next (let a := (getDie s die).avs
    if s.boot.phase = .normal ∧ fenced s die = false ∧ a.en = true ∧ a.frozen = false then
      modDie (postFreeze s die) die fun d => { d with avs := lowerPoint d.avs }
    else postFreeze s die)

/-! ## In-field test (R381) -/

/-- Whether a hearth holds a task or the state of a pre-empted one. -/
def hearthUsed (s : State) (h : Nat) : Bool := s.tasks.any (fun t => t.2.hearth == h && t.2.st != 5)

/-- IFT_START (R381) (log entry 21: DEDUCED, unsafe). -/
def execIftStart (v : W64) (s : State) : Out :=
  onBar s fun s =>
    let h := (v.extractLsb' 0 7).toNat
    if v.getLsbD 7 = false ∨ s.recovery.iftBusy = true ∨ (h < 96 ∧ hostChain s (h / 24) = false) then s
    else if 96 ≤ h ∨ fenced s (h / 24) = true ∨ (getDie s (h / 24)).dispmask.getLsbD (h % 24) = true ∨ hearthUsed s h = true then
      { s with recovery := { s.recovery with iftRes := 1 } }
    else { s with recovery := { s.recovery with iftBusy := true, iftHearth := h } }

/-- The scratchpad of a hearth set to zero. -/
def zeroScratch (s : State) (h : Nat) : State :=
  let k := scratchOff h 0
  { s with mem := s.mem.filter (fun c => c.1 < k || k + 2 ^ 24 ≤ c.1), eccBad := s.eccBad.filter (fun c => c.key < k || k + 2 ^ 24 ≤ c.key) }

/-- The seals of a hearth recorded at or after a time, oldest first, as entry numbers. -/
def sealsSince (x : Hearth) (t : W64) : List Nat :=
  ((List.range 1024).map (fun i => (x.sealNext + i) % 1024)).filter
    (fun i => match tabFind x.seals i with | some e => e.valid && decide (t ≤ e.time) | none => false)

/-- The data words of a failed test (R381). -/
def iftData (x : Hearth) (failing : BitVec 7) : Nat × Nat × Nat × Nat :=
  let l := sealsSince x x.lastPass
  let lost := decide (1024 < x.sealNext) && decide (x.passSeals < x.sealNext)
  (failing.toNat, x.lastPass.toNat, l.length, l.head?.getD 0 + 1024 * lost.toNat)

/-- IFT_COMPLETE (R381). -/
def execIftComplete (failing : BitVec 7) (s : State) : Out :=
  .next (
    if s.recovery.iftBusy = false then s else
    let h := s.recovery.iftHearth
    let done := fun (s : State) (res : BitVec 2) =>
      { s with recovery := { s.recovery with iftBusy := false, iftRes := res, iftDone := s.recovery.iftDone + 1 } }
    let s1 := zeroScratch s h
    if failing = 0 then
      let s2 := modHearth s1 h fun x => { x with lastPass := Config.freeTime s.tick, passSeals := x.sealNext }
      post (done s2 0) (mkReport 7 0 0 (coreUnit (4 * h) 3) 0 0 0 0 0 0)
    else
      let (d0, d1, d2, d3) := iftData (getHearth s h) failing
      post (done s1 2) (mkReport 7 16 0 (coreUnit (4 * h) 3) 0 0 d0 d1 d2 d3))

/-! ## The fabric link (R382-R386) -/

/-- The state with a port changed. -/
def modPort (s : State) (p : Nat) (f : Port → Port) : State := { s with ports := tabSet s.ports p (f (getPort s p)) }

/-- Whether a sequence number is at or below another, modulo 65,536. -/
def seqLe (a b : BitVec 16) : Bool := decide ((b - a).toNat < 32768)

/-- Bytes in ranges of neighbouring addresses. -/
def writeRuns : List (Nat × Byte) → List (Nat × List Byte)
  | [] => []
  | (a, b) :: r =>
    match writeRuns r with
    | (c, l) :: t => if c = a + 1 then (a, b :: l) :: t else (a, [b]) :: (c, l) :: t
    | [] => [(a, [b])]

/-- Where a write of a packet performs: at a package offset of this device, or, for an operation that runs in a context here, where the
context's tables translate its address, if the context is live and lets operations in (IMPORT) and the address is none of the window
(spec/16 R362). Its level is the task's (log entry 55: DESIGN CHOICE, unsafe). -/
def packetPlace (s : State) (die : Nat) (ctx : Option Nat) (a : Nat) : Option (Nat × Nat) :=
  match ctx with
  | none => some (localPa s (paOff a), 0)
  | some c =>
    if !(getCtx s c).live || !(tabGet (getCtx s c).desc 8 0).getLsbD 1 || windowBase ≤ a % 2 ^ 57 then none else
    match translate s (24 * die) c 0 0 a { w := true } false with
    | .ok pa mt _ => some (pa, mt)
    | _ => none

/-- What an operation of another device leaves of the translation of an address here: an uncorrected error in a page table is reported
(spec/16 R359), and an answer of the host's IOMMU is kept (R363). -/
def packetNote (s : State) (die : Nat) (ctx : Option Nat) (a : Nat) : State :=
  match ctx with
  | none => s
  | some c =>
    if !(getCtx s c).live || !(tabGet (getCtx s c).desc 8 0).getLsbD 1 || windowBase ≤ a % 2 ^ 57 then s
    else noteHost (postWalk s 2 (BitVec.ofNat 14 die) c a) (24 * die) c a

/-- The writes of an accepted packet performed, sector by sector (R383); one refused by its home performs nothing. -/
def packetWrites (s : State) (die : Nat) (k : Packet) : State :=
  (writeRuns k.writes).foldl (fun s w =>
    (parts w.1 w.2.length).foldl (fun s p =>
      let s1 := packetNote s die k.ctx p.1
      match packetPlace s die k.ctx p.1 with
      | some (pa, mt) => outsideWrite s1 die (k.ctx.getD 0) mt pa ((w.2.drop p.2.1).take p.2.2)
      | none => s1) s) s

/-- The die of a fabric port (spec/01 R14). -/
def portDie (p : Nat) : Nat := if p < 5 then 0 else if p < 10 then 1 else if p < 14 then 2 else 3

/-- Whether a port takes traffic: up, on a device with a number (R354). -/
def portTakes (s : State) (p : Nat) : Bool := s.boot.phase == .normal && (getPort s p).state == 2 && decide (ownDev s < 432)

/-- A negative acknowledgement. -/
def sendNak (x : Port) : Port := { x with acksSent := x.acksSent ++ [(false, x.recvLast)] }

/-- A packet accepted: an acknowledgement goes out after every fourth. -/
def acceptPacket (x : Port) (seq : BitVec 16) : Port :=
  if 3 ≤ x.unacked then { x with recvLast := seq, unacked := 0, acksSent := x.acksSent ++ [(true, seq)] }
  else { x with recvLast := seq, unacked := x.unacked + 1 }

/-- FABRIC_PACKET_RECEIVE (R382, R383). -/
def execFabricPacketReceive (p : Nat) (k : Packet) (s : State) : Out :=
  .next (
    if portTakes s p = false then s else
    let x := getPort s p
    if k.crcOk = false then modPort s p fun x => sendNak { x with crcerr := satInc x.crcerr }
    else if k.seq = x.recvLast + 1 then packetWrites (modPort s p fun x => acceptPacket x k.seq) (portDie p) k
    else if seqLe k.seq x.recvLast then s
    else modPort s p sendNak)

/-- Packets at or below a number leave the replay buffer, their stores are acknowledged, and packets that waited for room go. -/
def freePackets (x : Port) (seq : BitVec 16) : Port :=
  admitLater x.later.length { x with
    replay := x.replay.filter (fun k => !seqLe k.seq seq), resend := x.resend.filter (fun k => !seqLe k.seq seq)
    sent := x.sent.filter (fun k => !seqLe k.seq seq) }

/-- The packets still unacknowledged go out again. -/
def startReplay (x : Port) : Port :=
  if x.replay.isEmpty then x else { x with resend := x.replay, replays := satInc x.replays }

/-- A write of an engine that has been acknowledged: a runner's write pointer goes on over it (spec/12 R288), and a matrix unit's record is
complete with its last (spec/11 R250). -/
def ackWrite (s : State) (x : Sent) : State :=
  match x.kind, x.task with
  | .runner ch, _ => settleCount s x.core ch
  | .record tok, some u =>
    if ackOut s x.core x.task (fun k => k == .record tok) then s else settleTask (ownerTok s x.core u tok .ok) u
  | _, _ => s

/-- The packets of a port up to a number acknowledged. -/
def ackPackets (s : State) (p : Nat) (seq : BitVec 16) : State :=
  ((getPort s p).sent.filter (fun k => seqLe k.seq seq)).foldl ackWrite (modPort s p fun x => freePackets x seq)

/-- FABRIC_ACK_RECEIVE (R382). -/
def execFabricAckReceive (p : Nat) (seq : BitVec 16) (s : State) : Out := .next (if portTakes s p then ackPackets s p seq else s)

/-- FABRIC_NAK_RECEIVE (R382). -/
def execFabricNakReceive (p : Nat) (seq : BitVec 16) (s : State) : Out :=
  .next (if portTakes s p then modPort (ackPackets s p seq) p startReplay else s)

/-- ACK_IDLE_TIMER (R382). -/
def execAckIdleTimer (p : Nat) (s : State) : Out :=
  .next (if portTakes s p ∧ (getPort s p).unacked ≠ 0 then
      modPort s p fun x => { x with unacked := 0, acksSent := x.acksSent ++ [(true, x.recvLast)] }
    else s)

/-! ## Removal of ports (R387-R390) -/

/-- An outstanding access ends in error through a removal (R388): a store's outcome is unknown. -/
def removeAcc (s : State) (core n : Nat) (e : Acc) : State :=
  let s0 := dropOrdered s core e
  let s1 :=
    if returnsValue e.kind then finishAcc s0 core n e true (.error 5) (orderedData e.kind)
    else accessError (modCore s0 core fun c => dropAcc c n) core e.task false 5 e.pa 2 0
  accDone s1 e.task

/-- Every outstanding access of a core that a test admits ends through a removal; the entries are tried from the last to the first. -/
def removeAccs (s : State) (core : Nat) (hit : Nat → Acc → Bool) : State :=
  (List.range (getCore s core).acc.length).reverse.foldl (fun s n =>
    match (getCore s core).acc[n]? with
    | some e => if e.n ≠ 0 ∧ e.got = false ∧ hit n e = true then removeAcc s core n e else s
    | none => s) s

/-- Where the next source byte and the next destination byte of a running operation lie by its context's own tables, its last ones when all
have been written. -/
def runnerAt (s : State) (r : RRun) : List Placed :=
  let e := r.e
  let pos := min r.done (runnerTotal r - 1)
  let at_ := fun (write : Bool) (va : Nat) => match placeNear s e write va 1 with | .ok _ p => [p] | .fault _ _ _ _ => []
  if e.op == .cflush || runnerTotal r == 0 then []
  else (if isStaged e || e.op == .czero || farSource s e then [] else at_ false (sourceAddr e pos))
    ++ (if farDest s e then [] else at_ true (destAddr e pos))

/-- Whether a running operation of a channel goes to another device, by its DEV field, its group or a translation of its context (R388). -/
def runnerRemote (s : State) (r : RRun) : Bool :=
  farDest s r.e || farSource s r.e || (runnerAt s r).any (fun p => isRemote s p.pa && p.mt != 2)
    || (r.e.op == .coll && (match (groupOf s r.e).1 with | .ok l => l.any (fun w => w.toNat % 512 != ownDev s) | .fault _ _ _ => false))

/-- A running operation that went through a removed port, as a test says, ends (R388); a collective that can no longer be completed ends for
every member of the device (spec/12 R286). -/
def removeRunner (s : State) (core ch : Nat) (hit : RRun → Bool) : State :=
  match (chanOf (getCore s core) ch).run with
  | none => s
  | some r =>
    if hit r = false then s else
    match s.colls.find? (fun x => x.joined.any (fun j => j.2.1 == core && j.2.2 == ch)) with
    | some x => killColl s x (match (groupOf s r.e).1 with | .ok l => l | .fault _ _ _ => []) 5 (runnerStuck s core ch r).1
    | none => failRunner s core ch r 5 5 (runnerStuck s core ch r).1 (runnerStuck s core ch r).2

/-- Whether the n-th item under way of a core went through a removed port of its die: all did when no other port is left, else which
ones the manual leaves open (log entry 3: DESIGN CHOICE, safe). -/
def wentThrough (s : State) (core n : Nat) : Bool :=
  (upPorts s (dieOf core)).isEmpty || Config.freeEarly s.tick (core * 65536 + n)

/-- Whether the running operation of a channel went through a removed port of its die. -/
def runnerThrough (s : State) (core ch p : Nat) : Bool :=
  match ((chanOf (getCore s core) ch).run).bind (fun r => r.port) with
  | some q => q == p
  | none => wentThrough s core (32768 + ch)

/-- The writes of a port whose acknowledgements are still out when it goes end in error: they may or may not have performed (R388). The operations
of runners among them end with it. -/
def loseSent (s : State) (p : Nat) : State :=
  let lost := (getPort s p).sent
  let s1 := lost.foldl (fun s x => match x.kind with
    | .runner ch => if (unackedOf s x.core ch).isEmpty then s else removeRunner s x.core ch (fun _ => true)
    | _ => s) s
  lost.foldl loseWrite (modPort s1 p fun x => { x with sent := [] })

/-- What is left of a port that goes down: nothing is kept, what it sent is lost. -/
def emptyPort (s : State) (p : Nat) (state : BitVec 2) : State :=
  modPort (loseSent s p) p fun x => { x with state := state, training := false, replay := [], later := [], resend := [], before := [] }

/-- A fabric port removed: its replay buffer goes, and what was outstanding through it ends in error; a report of SUB 5 with PSTAT
`before`. The lane changes of a retraining that does not end are reported first. -/
def removeFabric (s0 : State) (p lane : Nat) (before : W64) : State :=
  let s1 := emptyPort (dropLanes s0 p) p 3
  let s2 := post s1 (mkReport 5 5 1 (BitVec.ofNat 14 p) 0 0 before.toNat (pstatOf (getPort s1 p)).toNat lane 0)
  ((List.range 384).filter (fun c => dieOf c == portDie p)).foldl (fun s c =>
    let a := removeAccs s c (fun n e => isRemote s e.pa && e.mt != 2 && wentThrough s c n)
    [0, 1].foldl (fun s ch => if runnerThrough s c ch p then removeRunner s c ch (runnerRemote s) else s) a) s2

/-- PARTNER_TIMEOUT (R387). -/
def execPartnerTimeout (p : Nat) (s : State) : Out :=
  .next (if s.boot.phase = .normal ∧ ((getPort s p).state = 1 ∨ (getPort s p).state = 2) then removeFabric s p 0 (pstatOf (getPort s p)) else s)

/-- Whether a physical address of this device lies in the window of a CXL port (spec/10 R231). -/
def inCxl (s : State) (p pa : Nat) : Bool :=
  !isRemote s pa && 0x20000000000 ≤ paOff pa && paOff pa < 0x40000000000 && (paOff pa - 0x20000000000) / 2 ^ 39 == p

/-- The accesses and running operations of every core that go to the addresses behind a removed CXL.mem or host port end (R388). -/
def endThrough (s : State) (hit : State → Nat → Nat → Bool) : State :=
  (List.range 384).foldl (fun s c =>
    let a := removeAccs s c (fun _ e => hit s e.mt e.pa)
    [0, 1].foldl (fun s ch => removeRunner s c ch (fun r => (runnerAt s r).any (fun p => hit s p.mt p.pa))) a) s

/-- CXL_CONTAINMENT (R387, R388). -/
def execCxlContainment (p : Nat) (s : State) : Out :=
  .next (
    if s.boot.phase ≠ .normal ∨ s.cxlRemoved.contains p = true then s else
    endThrough { s with cxlRemoved := p :: s.cxlRemoved } (fun s mt pa => mt != 2 && inCxl s p pa))

/-- HOST_LINK_DOWN (R387, R388, R390). -/
def execHostLinkDown (p : Nat) (s : State) : Out :=
  .next (
    if s.boot.phase ≠ .normal ∨ s.hostUp.getLsbD p = false then s else
    let s1 := { s with hostUp := s.hostUp &&& ~~~(BitVec.ofNat 2 (2 ^ p)), ats := s.ats.filter (fun e => e.1 != p) }
    endThrough s1 (fun _ mt pa => mt == 2 && pa / 2 ^ 60 == p))

/-! ## Lanes (R384-R386) -/

/-- The lanes that are not among the unfit ones, rising. -/
def healthyLanes (unfit : BitVec 17) : List Nat := (List.range 17).filter (fun n => !unfit.getLsbD n)

/-- A set of lanes as a mask. -/
def laneMask (l : List Nat) : BitVec 17 := l.foldl (fun m n => m ||| BitVec.ofNat 17 (2 ^ n)) 0

/-- The lanes a port trains on after a failure (R384): 16 while 16 are healthy and it has not narrowed, else the lowest eight. -/
def chooseLanes (x : Port) : Port :=
  let h := healthyLanes x.unfit
  if x.w8 = false ∧ 16 ≤ h.length then { x with lanes := laneMask (h.take 16) }
  else { x with w8 := true, lanes := laneMask (h.take 8) }

/-- LANE_FAILURE (R384). A lane that is not in use only enters FAILED; one that a RETRAIN found healthy may fail again (log entry 23: DESIGN
CHOICE, unsafe). -/
def execLaneFailure (p lane : Nat) (s : State) : Out :=
  .next (
    let x := getPort s p
    if s.boot.phase ≠ .normal ∨ (x.state ≠ 1 ∧ x.state ≠ 2) ∨ x.unfit.getLsbD lane = true then s else
    let bit := BitVec.ofNat 17 (2 ^ lane)
    let y := { x with failed := x.failed ||| bit, unfit := x.unfit ||| bit }
    if x.lanes.getLsbD lane = false then modPort s p fun _ => y
    else if (healthyLanes y.unfit).length < 8 then
      removeFabric (modPort (dropLanes s p) p fun z => { z with failed := y.failed, unfit := y.unfit }) p lane (pstatOf x)
    else
      modPort s p fun _ => { chooseLanes y with
        state := 1, training := true, before := x.before ++ [(pstatOf x, lane)] })

/-- RETRAIN_COMPLETE (R384): the port is up, its changes are reported, and replay starts from the last acknowledged number. -/
def execRetrainComplete (p stall : Nat) (s : State) : Out :=
  .next (
    let x := getPort s p
    if x.training = false then s else
    postLanes (modPort s p fun x => startReplay { x with state := 2, training := false }) p stall)

/-- RETRAIN (R385), also while a failed lane's retraining runs (R393): `bad` names the lanes that do not train now. With fewer than 16 healthy
lanes nothing changes. -/
def execRetrain (p : Nat) (bad : BitVec 17) (s : State) : Out :=
  onBar s fun s =>
    let x := getPort s p
    let h := healthyLanes bad
    if (x.state ≠ 1 ∧ x.state ≠ 2) ∨ h.length < 16 ∨ hostChain s (portDie p) = false then s
    else
      modPort s p fun x => { x with
        w8 := false, lanes := laneMask (h.take 16), unfit := bad, state := 1, training := true
        before := x.before ++ (if x.w8 then [(pstatOf x, 0)] else []) }

/-- UP (R389): a down or removed port trains, on 16 lanes only if it had not narrowed (R385); a port with fewer than eight healthy lanes is
taken to have been mended (log entry 23: DESIGN CHOICE, unsafe). Sequences start from 0 and ordered flows restart. Ports 18 to 21 are the CXL ports, 22
and 23 the host ports (spec/15 R346) (log entry 29: DESIGN CHOICE, unsafe). -/
def execUp (p : Nat) (s : State) : Out :=
  onBar s fun s =>
    if p < 18 then
      let x := getPort s p
      if fenced s (portDie p) = true ∨ (x.state ≠ 0 ∧ x.state ≠ 3) ∨ hostChain s (portDie p) = false then s
      else modPort s p fun x => chooseLanes {
        state := 1, training := true, replays := x.replays, crcerr := x.crcerr, acksSent := x.acksSent, w8 := x.w8
        unfit := if (healthyLanes x.unfit).length < 8 then 0 else x.unfit }
    else if p < 22 then
      if fenced s (p - 18) = true ∨ hostChain s (p - 18) = false ∨ s.cxlRemoved.contains (p - 18) = false then s
      else { s with cxlRemoved := s.cxlRemoved.filter (fun k => k != p - 18)
                    cxlCap := tabSet s.cxlCap (p - 18) (Config.cxlCapacity s.tick (p - 18)) }
    else if fenced s (p - 22) then s
    else { s with hostUp := s.hostUp ||| BitVec.ofNat 2 (2 ^ (p - 22)) }

/-- DOWN (R386); stores whose acknowledgements are out end as on a removal. -/
def execDown (p : Nat) (s : State) : Out :=
  onBar s fun s =>
    if (getPort s p).state = 3 ∨ hostChain s (portDie p) = false then s
    else emptyPort (dropLanes s p) p 0

/-! ## Starts (R391, R392; spec/16 R366) -/

/-- What is left of memory after a new start: the manual says nothing of it (log entry 3: DESIGN CHOICE, safe). -/
def freeMemory (s : State) : List Host.Cell :=
  (s.mem.map (fun c => (c.1, (Config.freeData s.tick c.1).setWidth 8))).filter (fun c => c.2 != 0)

/-- The dies at the ends of a boundary. -/
def boundary (i : Nat) : Nat × Nat := match i with | 0 => (0, 1) | 1 => (0, 2) | 2 => (1, 3) | _ => (2, 3)

/-- Whether boundary i passed between two dies that have not failed. -/
def passes (v : StartView) (bad : BitVec 4) (i : Nat) : Bool :=
  v.bound.getLsbD i && !bad.getLsbD (boundary i).1 && !bad.getLsbD (boundary i).2

/-- The dies reached over passing boundaries, widened step by step. -/
def reachDies (v : StartView) (bad : BitVec 4) : Nat → BitVec 4 → BitVec 4
  | 0, r => r
  | n + 1, r =>
    reachDies v bad n ([0, 1, 2, 3].foldl (fun r i =>
      let b := boundary i
      if passes v bad i && (r.getLsbD b.1 || r.getLsbD b.2) then r ||| BitVec.ofNat 4 (2 ^ b.1 + 2 ^ b.2) else r) r)

/-- One round of R366: dies out of reach, then the higher die of a failed boundary. -/
def isolate (v : StartView) (lead : Nat) (bad : BitVec 4) : BitVec 4 :=
  let r := reachDies v bad 4 (BitVec.ofNat 4 (2 ^ lead))
  let bad1 := bad ||| ~~~r
  [0, 1, 2, 3].foldl (fun b i =>
    let d := boundary i
    if !v.bound.getLsbD i && !b.getLsbD d.1 && !b.getLsbD d.2 then b ||| BitVec.ofNat 4 (2 ^ d.2) else b) bad1

/-- The dies that do not take part, and the lead die (R366). -/
def bootView (v : StartView) : Option Nat × BitVec 4 :=
  let lead := if v.rom.getLsbD 0 then some 0 else if v.rom.getLsbD 1 then some 1 else none
  match lead with
  | none => (none, BitVec.allOnes 4)
  | some d => (lead, isolate v d (isolate v d (isolate v d (isolate v d (~~~v.rom)))))

/-- The state of a die after the boot ROMs have run. -/
def bootState (v : StartView) (bad : BitVec 4) (d : Nat) : BitVec 4 :=
  if !v.rom.getLsbD d then 1 else if bad.getLsbD d then 2 else 0

/-- The device as a start finds it: everything at its reset value but what outlasts it. -/
def cleared (s : State) : State :=
  { State.reset with
    agenda := s.agenda, tick := s.tick, mem := freeMemory s, hostMem := s.hostMem, unreachable := s.unreachable, faults := s.faults
    boot := { s.boot with begun := false, phase := .starting, tripped := false } }

/-- A start begins (R391). -/
def beginStart (s : State) (v : StartView) : State :=
  let s1 := cleared s
  let (lead, bad) := bootView v
  { s1 with
    dies := [0, 1, 2, 3].map (fun d => (d, { state := bootState v bad d }))
    boot := { s1.boot with begun := true, lead := lead, rom := v.rom } }

/-- The device in bisque mode (R392): the bisque die's host port alone. The dies keep the states that the boot ROMs gave them (spec/16
R366, R367). -/
def enterBisque (s : State) (rom : BitVec 4) (st : Nat → BitVec 4) : State :=
  let s1 := cleared s
  let die : Option Nat := if rom.getLsbD 0 then some 0 else if rom.getLsbD 1 then some 1 else none
  { s1 with
    dies := [0, 1, 2, 3].map (fun d => (d, { state := st d }))
    hostUp := match die with | some d => BitVec.ofNat 2 (2 ^ d) | none => 0
    boot := { s1.boot with begun := true, phase := .bisque, outcome := 2, bisqueDie := BitVec.ofNat 1 (die.getD 0), lead := die, rom := rom } }

/-- A failed start counted with its reason (R391, R392). -/
def countFailure (b : Boot) (reason : BitVec 8) : Boot :=
  { b with count := if b.count = 3 then 3 else b.count + 1, reason0 := reason, reason1 := b.reason0, reason2 := b.reason1 }

/-- A start that ends without an outcome: it is counted, and the device waits, or enters bisque mode at the third in a row. -/
def failBoot (s : State) (reason : BitVec 8) : State :=
  let s1 := { s with boot := countFailure s.boot reason }
  if s1.boot.count = 3 then enterBisque s1 s.boot.rom (fun d => (getDie s d).state)
  else { cleared s1 with boot := { s1.boot with begun := false, phase := .delay } }

/-- POWER_ON (R391): the rails come up; a device that stands in bisque mode stays there (R392) (log entry 24: DEDUCED, unsafe). -/
def execPowerOn (v : StartView) (s : State) : Out :=
  .next (
    let s1 := { s with boot := { s.boot with power := true } }
    if s.boot.power = true ∧ s.boot.begun = true then s
    else if s.boot.phase = .bisque then enterBisque s1 v.rom (bootState v (bootView v).2)
    else if s.boot.phase = .delay ∧ s.boot.power = true then s
    else beginStart s1 v)

/-- HOST_RESET (R391, R393): an interrupted start counts as failed with reason 0x07. -/
def execHostReset (v : StartView) (s : State) : Out :=
  .next (match s.boot.phase with
    | .bisque => s
    | .starting =>
      if s.boot.begun then
        let s1 := failBoot s 7
        if s1.boot.phase = .bisque then s1 else beginStart s1 v
      else beginStart s v
    | _ => beginStart s v)

/-- START_COMPLETE (R391): a healthy or degraded outcome, where a die and a host port are left and some stack trained. -/
def execStartComplete (e : StartEnd) (s : State) : Out :=
  .next (
    let up : BitVec 2 := e.hostPorts &&& BitVec.ofNat 2 ((decide ((getDie s 0).state = 0)).toNat + 2 * (decide ((getDie s 1).state = 0)).toNat)
    if s.boot.phase ≠ .starting ∨ s.boot.begun = false ∨ s.boot.tripped = true ∨ s.boot.lead = none ∨ up = 0 ∨ e.absent = 0xFF then s
    else
      let healthy := [0, 1, 2, 3].all (fun d => !fenced s d) && e.absent == 0
      let s1 := { s with
        hostUp := up
        cxlCap := [0, 1, 2, 3].map (fun p => (p, Config.cxlCapacity s.tick p))
        ports := ((List.range 18).filter (fun p => fenced s (portDie p))).map (fun p => (p, { state := 0 }))
        boot := { s.boot with phase := .normal, count := 0, outcome := if healthy then 0 else 1, absent := e.absent } }
      post s1 (mkReport 9 0 3 0 0 0 (bootstatOf s1).toNat (diestatOf s1).toNat e.absent.toNat 0))

/-- The reason of a failed start: 0x01 without a lead die; an unknown code counts as 0x07. -/
def startReason (s : State) (r : BitVec 8) : BitVec 8 := if s.boot.lead = none then 1 else if 2 ≤ r ∧ r ≤ 7 then r else 7

/-- START_TIMEOUT (R391, R392). -/
def execStartTimeout (reason : BitVec 8) (s : State) : Out :=
  .next (if s.boot.phase = .starting ∧ s.boot.begun = true then failBoot s (startReason s reason) else s)

/-- RESTART_DELAY (R391): 100 ms after a failed start the device starts again. -/
def execRestartDelay (v : StartView) (s : State) : Out :=
  .next (if s.boot.phase = .delay ∧ s.boot.tripped = false then beginStart s v else s)

/-- RESTART (R392): BOOTCTL written with 1, in normal operation or in bisque mode. -/
def execRestart (v : StartView) (s : State) : Out :=
  .next (
    if (s.boot.phase = .normal ∨ s.boot.phase = .bisque) ∧ s.hostUp ≠ 0 then
      let s1 := beginStart s v
      { s1 with boot := { s1.boot with count := 0 } }
    else s)

/-! ## The SPDM responder (spec/16 R367) -/

/-- The die that answers: the bisque die, or the lead die. -/
def spdmDie (s : State) : Nat := if s.boot.phase = .bisque then s.boot.bisqueDie.toNat else leadDie s

/-- Whether the responder answers: its die's own host port is up. -/
def spdmUp (s : State) : Bool := (s.boot.phase == .normal || s.boot.phase == .bisque) && s.hostUp.getLsbD (spdmDie s)

/-- A response given. -/
def respond (s : State) (r : State → Spdm) : Out := .next (if spdmUp s then { s with spdm := r s } else s)

/-- ERROR with UnsupportedRequest; its code is that of SPDM 1.2 (log entry 19: PRESUMED, unsafe). -/
def unsupported : Spdm := .error 7

/-- GET_VERSION. -/
def execGetVersion (s : State) : Out := respond s fun _ => .version
/-- GET_CAPABILITIES. -/
def execGetCapabilities (s : State) : Out := respond s fun _ => .capabilities
/-- NEGOTIATE_ALGORITHMS. -/
def execNegotiateAlgorithms (s : State) : Out := respond s fun _ => .algorithms
/-- GET_DIGESTS: the SHA-384 digest of slot 0. -/
def execGetDigests (s : State) : Out := respond s fun s => .digests ((List.range 48).map (Config.identityByte (spdmDie s)))
/-- GET_CERTIFICATE: a part of the chain of slot 0; another slot is no supported request (log entry 28: DEDUCED, unsafe). -/
def execGetCertificate (slot off len : Nat) (s : State) : Out :=
  respond s fun s =>
    if slot ≠ 0 then unsupported
    else
      let d := spdmDie s
      .certificate ((List.range (min len (Config.chainLength d - off))).map (fun i => Config.identityByte (8 + d) (off + i)))
/-- CHALLENGE: an ECDSA P-384 signature of slot 0. -/
def execChallenge (slot : Nat) (nonce : BitVec 256) (s : State) : Out :=
  respond s fun s => if slot ≠ 0 then unsupported else .challengeAuth ((List.range 96).map (Config.freshByte s.tick nonce.toNat))

/-- A measurement block: the firmware digest of a die (zero for a die in STATE 1 or 2), the ROM digest, DIESTAT. -/
def measurement (s : State) (i : Nat) : List Byte :=
  if i = 6 then bytesOf (diestatOf s).toNat 8
  else if i = 5 then (List.range 48).map (Config.identityByte 20)
  else
    let st := (getDie s (i - 1)).state
    if st = 1 ∨ st = 2 then List.replicate 48 0 else (List.range 48).map (Config.identityByte (16 + (i - 1)))

/-- GET_MEASUREMENTS: one block, none (the count alone) for 0, or all for 0xFF. -/
def execGetMeasurements (block : Nat) (s : State) : Out :=
  respond s fun s =>
    if block = 0 then .measurements []
    else if block = 255 then .measurements ([1, 2, 3, 4, 5, 6].map (fun i => (i, measurement s i)))
    else if block ≤ 6 then .measurements [(block, measurement s block)]
    else unsupported

/-- SPDM_UNSUPPORTED_REQUEST. -/
def execSpdmUnsupportedRequest (_code : BitVec 8) (s : State) : Out := respond s fun _ => unsupported

/-! ## Heat and power (spec/18 R395, R398) -/

/-- Readings of a die's sensors. -/
def readSensors (s : State) (die tj thbm : Nat) : State :=
  modDie s die fun d => { d with tj := BitVec.ofNat 8 tj, thbm := BitVec.ofNat 8 thbm }

/-- THERMTRIP (R398): the line is driven low and the current start ends; a start without an outcome counts as failed. -/
def execThermtrip (die tj thbm : Nat) (s : State) : Out :=
  .next (
    if 4 ≤ die ∨ (tj < 115 ∧ thbm < 100) then s else
    let s1 := readSensors s die tj thbm
    let s2 := if s.boot.phase = .starting ∧ s.boot.begun = true then failBoot s1 7 else s1
    { s2 with boot := { s2.boot with tripped := true } })

/-- The clock of a die after 1 ms at its present readings (R398). -/
def stepClock (d : Die) : BitVec 11 :=
  if 100 < d.tj ∨ 90 < d.thbm then (if d.clk < 500 then 400 else d.clk - 100)
  else if d.tj < 95 ∧ d.thbm < 85 then (if 1500 < d.clk then 1600 else d.clk + 100)
  else d.clk

/-- THERMAL_CLOCK_STEP (R398). -/
def execThermalClockStep (die tj thbm : Nat) (s : State) : Out :=
  .next (if 4 ≤ die then s else modDie (readSensors s die tj thbm) die fun d => { d with clk := stepClock d })

/-- POWER_LOSS (R395): the rails go; without VSTBY the failed-start counter and bisque mode are lost. A start without an outcome counts
as failed. -/
def execPowerLoss (standby : Bool) (s : State) : Out :=
  .next (
    let s0 := if s.boot.phase = .starting ∧ s.boot.begun = true ∧ s.boot.power = true then failBoot s 7 else s
    let s1 := cleared s0
    if standby then
      { s1 with boot := { s1.boot with power := false, phase := if s0.boot.phase = .bisque then .bisque else .starting } }
    else { s1 with boot := { power := false } })

end Sys2Proof.Machine
end

