-- ==== Sys2Proof/Machine/Dispatch.lean ====
section
/-! DEFINITION. One arm per instruction, micro-op and event: a direct call of its meaning. -/

namespace Sys2Proof.Machine

open Sys2Proof

/-- The meaning of an instruction. -/
def exec (i : Instr) (s : State) : Host.Outcome State Fault Refusal :=
  match i with
  | .add o => Sys2Proof.Machine.execAdd o s
  | .sub o => Sys2Proof.Machine.execSub o s
  | .mul o => Sys2Proof.Machine.execMul o s
  | .mulh o => Sys2Proof.Machine.execMulh o s
  | .mulhu o => Sys2Proof.Machine.execMulhu o s
  | .div o => Sys2Proof.Machine.execDiv o s
  | .divu o => Sys2Proof.Machine.execDivu o s
  | .rem o => Sys2Proof.Machine.execRem o s
  | .remu o => Sys2Proof.Machine.execRemu o s
  | .and o => Sys2Proof.Machine.execAnd o s
  | .or o => Sys2Proof.Machine.execOr o s
  | .xor o => Sys2Proof.Machine.execXor o s
  | .andn o => Sys2Proof.Machine.execAndn o s
  | .shl o => Sys2Proof.Machine.execShl o s
  | .shr o => Sys2Proof.Machine.execShr o s
  | .sar o => Sys2Proof.Machine.execSar o s
  | .ror o => Sys2Proof.Machine.execRor o s
  | .min o => Sys2Proof.Machine.execMin o s
  | .max o => Sys2Proof.Machine.execMax o s
  | .minu o => Sys2Proof.Machine.execMinu o s
  | .maxu o => Sys2Proof.Machine.execMaxu o s
  | .clz o => Sys2Proof.Machine.execClz o s
  | .ctz o => Sys2Proof.Machine.execCtz o s
  | .popc o => Sys2Proof.Machine.execPopc o s
  | .sext o => Sys2Proof.Machine.execSext o s
  | .zext o => Sys2Proof.Machine.execZext o s
  | .addc o => Sys2Proof.Machine.execAddc o s
  | .subb o => Sys2Proof.Machine.execSubb o s
  | .cmpeq o => Sys2Proof.Machine.execCmpeq o s
  | .cmplt o => Sys2Proof.Machine.execCmplt o s
  | .cmpltu o => Sys2Proof.Machine.execCmpltu o s
  | .cmple o => Sys2Proof.Machine.execCmple o s
  | .cmpleu o => Sys2Proof.Machine.execCmpleu o s
  | .pand o => Sys2Proof.Machine.execPand o s
  | .por o => Sys2Proof.Machine.execPor o s
  | .pxor o => Sys2Proof.Machine.execPxor o s
  | .movx o => Sys2Proof.Machine.execMovx o s
  | .movp o => Sys2Proof.Machine.execMovp o s
  | .movfp o => Sys2Proof.Machine.execMovfp o s
  | .gset o => Sys2Proof.Machine.execGset o s
  | .gget o => Sys2Proof.Machine.execGget o s
  | .hset o => Sys2Proof.Machine.execHset o s
  | .hget o => Sys2Proof.Machine.execHget o s
  | .guard o => Sys2Proof.Machine.execGuard o s
  | .rdvc o => Sys2Proof.Machine.execRdvc o s
  | .addi o => Sys2Proof.Machine.execAddi o s
  | .andi o => Sys2Proof.Machine.execAndi o s
  | .ori o => Sys2Proof.Machine.execOri o s
  | .xori o => Sys2Proof.Machine.execXori o s
  | .shli o => Sys2Proof.Machine.execShli o s
  | .shri o => Sys2Proof.Machine.execShri o s
  | .sari o => Sys2Proof.Machine.execSari o s
  | .rori o => Sys2Proof.Machine.execRori o s
  | .muli o => Sys2Proof.Machine.execMuli o s
  | .cmpeqi o => Sys2Proof.Machine.execCmpeqi o s
  | .cmplti o => Sys2Proof.Machine.execCmplti o s
  | .cmpltui o => Sys2Proof.Machine.execCmpltui o s
  | .cmplei o => Sys2Proof.Machine.execCmplei o s
  | .cmpleui o => Sys2Proof.Machine.execCmpleui o s
  | .tokl o => Sys2Proof.Machine.execTokl o s
  | .movi o => Sys2Proof.Machine.execMovi o s
  | .movsh o => Sys2Proof.Machine.execMovsh o s
  | .vadd o => Sys2Proof.Machine.execVadd o s
  | .vsub o => Sys2Proof.Machine.execVsub o s
  | .vmul o => Sys2Proof.Machine.execVmul o s
  | .vfma o => Sys2Proof.Machine.execVfma o s
  | .vfms o => Sys2Proof.Machine.execVfms o s
  | .vfnma o => Sys2Proof.Machine.execVfnma o s
  | .vmin o => Sys2Proof.Machine.execVmin o s
  | .vmax o => Sys2Proof.Machine.execVmax o s
  | .vabs o => Sys2Proof.Machine.execVabs o s
  | .vneg o => Sys2Proof.Machine.execVneg o s
  | .vdiv o => Sys2Proof.Machine.execVdiv o s
  | .vsqrt o => Sys2Proof.Machine.execVsqrt o s
  | .vand o => Sys2Proof.Machine.execVand o s
  | .vor o => Sys2Proof.Machine.execVor o s
  | .vxor o => Sys2Proof.Machine.execVxor o s
  | .vandn o => Sys2Proof.Machine.execVandn o s
  | .vshl o => Sys2Proof.Machine.execVshl o s
  | .vshr o => Sys2Proof.Machine.execVshr o s
  | .vsar o => Sys2Proof.Machine.execVsar o s
  | .vshli o => Sys2Proof.Machine.execVshli o s
  | .vshri o => Sys2Proof.Machine.execVshri o s
  | .vsari o => Sys2Proof.Machine.execVsari o s
  | .vmulhi o => Sys2Proof.Machine.execVmulhi o s
  | .vmulhiu o => Sys2Proof.Machine.execVmulhiu o s
  | .vadc o => Sys2Proof.Machine.execVadc o s
  | .vsbc o => Sys2Proof.Machine.execVsbc o s
  | .vmacw o => Sys2Proof.Machine.execVmacw o s
  | .vcmpeq o => Sys2Proof.Machine.execVcmpeq o s
  | .vcmplt o => Sys2Proof.Machine.execVcmplt o s
  | .vcmple o => Sys2Proof.Machine.execVcmple o s
  | .vcmpltu o => Sys2Proof.Machine.execVcmpltu o s
  | .vcmpleu o => Sys2Proof.Machine.execVcmpleu o s
  | .vclass o => Sys2Proof.Machine.execVclass o s
  | .vsel o => Sys2Proof.Machine.execVsel o s
  | .vmov o => Sys2Proof.Machine.execVmov o s
  | .vmovx o => Sys2Proof.Machine.execVmovx o s
  | .vbcast o => Sys2Proof.Machine.execVbcast o s
  | .vext o => Sys2Proof.Machine.execVext o s
  | .vperm o => Sys2Proof.Machine.execVperm o s
  | .viota o => Sys2Proof.Machine.execViota o s
  | .vredadd o => Sys2Proof.Machine.execVredadd o s
  | .vredmax o => Sys2Proof.Machine.execVredmax o s
  | .vredmin o => Sys2Proof.Machine.execVredmin o s
  | .vcvt o => Sys2Proof.Machine.execVcvt o s
  | .vqnt o => Sys2Proof.Machine.execVqnt o s
  | .vdqnt o => Sys2Proof.Machine.execVdqnt o s
  | .vpack o => Sys2Proof.Machine.execVpack o s
  | .vunpk o => Sys2Proof.Machine.execVunpk o s
  | .vclz o => Sys2Proof.Machine.execVclz o s
  | .vpopc o => Sys2Proof.Machine.execVpopc o s
  | .vscan o => Sys2Proof.Machine.execVscan o s
  | .kand o => Sys2Proof.Machine.execKand o s
  | .kor o => Sys2Proof.Machine.execKor o s
  | .kxor o => Sys2Proof.Machine.execKxor o s
  | .kmov o => Sys2Proof.Machine.execKmov o s
  | .kpopc o => Sys2Proof.Machine.execKpopc o s
  | .kfirst o => Sys2Proof.Machine.execKfirst o s
  | .fexp2 o => Sys2Proof.Machine.execFexp2 o s
  | .flog2 o => Sys2Proof.Machine.execFlog2 o s
  | .frcp o => Sys2Proof.Machine.execFrcp o s
  | .frsq o => Sys2Proof.Machine.execFrsq o s
  | .fsinpi o => Sys2Proof.Machine.execFsinpi o s
  | .fcospi o => Sys2Proof.Machine.execFcospi o s
  | .ftanh o => Sys2Proof.Machine.execFtanh o s
  | .fsigm o => Sys2Proof.Machine.execFsigm o s
  | .ferf o => Sys2Proof.Machine.execFerf o s
  | .frand o => Sys2Proof.Machine.execFrand o s
  | .fmovx o => Sys2Proof.Machine.execFmovx o s
  | .dpt o => Sys2Proof.Machine.execDpt o s
  | .dfrom o => Sys2Proof.Machine.execDfrom o s
  | .dadd o => Sys2Proof.Machine.execDadd o s
  | .dsub o => Sys2Proof.Machine.execDsub o s
  | .dmul o => Sys2Proof.Machine.execDmul o s
  | .dmax o => Sys2Proof.Machine.execDmax o s
  | .dmin o => Sys2Proof.Machine.execDmin o s
  | .daff o => Sys2Proof.Machine.execDaff o s
  | .dmap o => Sys2Proof.Machine.execDmap o s
  | .dtag o => Sys2Proof.Machine.execDtag o s
  | .dtags o => Sys2Proof.Machine.execDtags o s
  | .dcanon o => Sys2Proof.Machine.execDcanon o s
  | .dmom o => Sys2Proof.Machine.execDmom o s
  | .dqnt o => Sys2Proof.Machine.execDqnt o s
  | .dcdf o => Sys2Proof.Machine.execDcdf o s
  | .dmov o => Sys2Proof.Machine.execDmov o s
  | .dsupp o => Sys2Proof.Machine.execDsupp o s
  | .mcall o => Sys2Proof.Machine.execMcall o s
  | .mclr o => Sys2Proof.Machine.execMclr o s
  | .mstat o => Sys2Proof.Machine.execMstat o s
  | .msig o => Sys2Proof.Machine.execMsig o s
  | .mabort o => Sys2Proof.Machine.execMabort o s
  | .mload o => Sys2Proof.Machine.execMload o s
  | .ldB o => Sys2Proof.Machine.execLdB o s
  | .ldBz o => Sys2Proof.Machine.execLdBz o s
  | .ldH o => Sys2Proof.Machine.execLdH o s
  | .ldHz o => Sys2Proof.Machine.execLdHz o s
  | .ldW o => Sys2Proof.Machine.execLdW o s
  | .ldWz o => Sys2Proof.Machine.execLdWz o s
  | .ldD o => Sys2Proof.Machine.execLdD o s
  | .ldQ o => Sys2Proof.Machine.execLdQ o s
  | .ldv256 o => Sys2Proof.Machine.execLdv256 o s
  | .ldv512 o => Sys2Proof.Machine.execLdv512 o s
  | .ldv1024 o => Sys2Proof.Machine.execLdv1024 o s
  | .ldk o => Sys2Proof.Machine.execLdk o s
  | .ldd o => Sys2Proof.Machine.execLdd o s
  | .ldxD o => Sys2Proof.Machine.execLdxD o s
  | .ldxW o => Sys2Proof.Machine.execLdxW o s
  | .stB o => Sys2Proof.Machine.execStB o s
  | .stH o => Sys2Proof.Machine.execStH o s
  | .stW o => Sys2Proof.Machine.execStW o s
  | .stD o => Sys2Proof.Machine.execStD o s
  | .stQ o => Sys2Proof.Machine.execStQ o s
  | .stv256 o => Sys2Proof.Machine.execStv256 o s
  | .stv512 o => Sys2Proof.Machine.execStv512 o s
  | .stv1024 o => Sys2Proof.Machine.execStv1024 o s
  | .stk o => Sys2Proof.Machine.execStk o s
  | .std o => Sys2Proof.Machine.execStd o s
  | .stxD o => Sys2Proof.Machine.execStxD o s
  | .stxW o => Sys2Proof.Machine.execStxW o s
  | .vgather o => Sys2Proof.Machine.execVgather o s
  | .vscatter o => Sys2Proof.Machine.execVscatter o s
  | .ldaW o => Sys2Proof.Machine.execLdaW o s
  | .ldaD o => Sys2Proof.Machine.execLdaD o s
  | .stlW o => Sys2Proof.Machine.execStlW o s
  | .stlD o => Sys2Proof.Machine.execStlD o s
  | .fence o => Sys2Proof.Machine.execFence o s
  | .drain o => Sys2Proof.Machine.execDrain o s
  | .pref o => Sys2Proof.Machine.execPref o s
  | .aaddW o => Sys2Proof.Machine.execAaddW o s
  | .aandW o => Sys2Proof.Machine.execAandW o s
  | .aorW o => Sys2Proof.Machine.execAorW o s
  | .axorW o => Sys2Proof.Machine.execAxorW o s
  | .aminW o => Sys2Proof.Machine.execAminW o s
  | .amaxW o => Sys2Proof.Machine.execAmaxW o s
  | .aminuW o => Sys2Proof.Machine.execAminuW o s
  | .amaxuW o => Sys2Proof.Machine.execAmaxuW o s
  | .aswpW o => Sys2Proof.Machine.execAswpW o s
  | .acasW o => Sys2Proof.Machine.execAcasW o s
  | .afaddW o => Sys2Proof.Machine.execAfaddW o s
  | .aaddD o => Sys2Proof.Machine.execAaddD o s
  | .aandD o => Sys2Proof.Machine.execAandD o s
  | .aorD o => Sys2Proof.Machine.execAorD o s
  | .axorD o => Sys2Proof.Machine.execAxorD o s
  | .aminD o => Sys2Proof.Machine.execAminD o s
  | .amaxD o => Sys2Proof.Machine.execAmaxD o s
  | .aminuD o => Sys2Proof.Machine.execAminuD o s
  | .amaxuD o => Sys2Proof.Machine.execAmaxuD o s
  | .aswpD o => Sys2Proof.Machine.execAswpD o s
  | .acasD o => Sys2Proof.Machine.execAcasD o s
  | .oadd o => Sys2Proof.Machine.execOadd o s
  | .oswp o => Sys2Proof.Machine.execOswp o s
  | .ocas o => Sys2Proof.Machine.execOcas o s
  | .copy o => Sys2Proof.Machine.execCopy o s
  | .copy2 o => Sys2Proof.Machine.execCopy2 o s
  | .send o => Sys2Proof.Machine.execSend o s
  | .fetch o => Sys2Proof.Machine.execFetch o s
  | .scopy o => Sys2Proof.Machine.execScopy o s
  | .coll o => Sys2Proof.Machine.execColl o s
  | .czero o => Sys2Proof.Machine.execCzero o s
  | .cflush o => Sys2Proof.Machine.execCflush o s
  | .bprep o => Sys2Proof.Machine.execBprep o s
  | .bcall o => Sys2Proof.Machine.execBcall o s
  | .bprepx o => Sys2Proof.Machine.execBprepx o s
  | .bcallx o => Sys2Proof.Machine.execBcallx o s
  | .ret o => Sys2Proof.Machine.execRet o s
  | .loop o => Sys2Proof.Machine.execLoop o s
  | .loopi o => Sys2Proof.Machine.execLoopi o s
  | .trap o => Sys2Proof.Machine.execTrap o s
  | .syscall o => Sys2Proof.Machine.execSyscall o s
  | .eret o => Sys2Proof.Machine.execEret o s
  | .eretS o => Sys2Proof.Machine.execEretS o s
  | .twait o => Sys2Proof.Machine.execTwait o s
  | .tpoll o => Sys2Proof.Machine.execTpoll o s
  | .waitwp o => Sys2Proof.Machine.execWaitwp o s
  | .setfmt o => Sys2Proof.Machine.execSetfmt o s
  | .setbank o => Sys2Proof.Machine.execSetbank o s
  | .sync o => Sys2Proof.Machine.execSync o s
  | .mfs o => Sys2Proof.Machine.execMfs o s
  | .mts o => Sys2Proof.Machine.execMts o s
  | .ifence o => Sys2Proof.Machine.execIfence o s
  | .ovl o => Sys2Proof.Machine.execOvl o s
  | .launch o => Sys2Proof.Machine.execLaunch o s
  | .launchg o => Sys2Proof.Machine.execLaunchg o s
  | .shape o => Sys2Proof.Machine.execShape o s
  | .predict o => Sys2Proof.Machine.execPredict o s
  | .alloc o => Sys2Proof.Machine.execAlloc o s
  | .free o => Sys2Proof.Machine.execFree o s
  | .yield o => Sys2Proof.Machine.execYield o s
  | .halt o => Sys2Proof.Machine.execHalt o s
  | .evset o => Sys2Proof.Machine.execEvset o s
  | .evsetClear o => Sys2Proof.Machine.execEvsetClear o s
  | .evwait o => Sys2Proof.Machine.execEvwait o s
  | .endR o => Sys2Proof.Machine.execEndR o s
  | .lda o => Sys2Proof.Machine.execLda o s
  | .ldb o => Sys2Proof.Machine.execLdb o s
  | .ldsa o => Sys2Proof.Machine.execLdsa o s
  | .ldsb o => Sys2Proof.Machine.execLdsb o s
  | .mma o => Sys2Proof.Machine.execMma o s
  | .zero o => Sys2Proof.Machine.execZero o s
  | .tld o => Sys2Proof.Machine.execTld o s
  | .epi o => Sys2Proof.Machine.execEpi o s
  | .stt o => Sys2Proof.Machine.execStt o s
  | .sigchk o => Sys2Proof.Machine.execSigchk o s
  | .loopMicroOp o => Sys2Proof.Machine.execLoopMicroOp o s
  | .endl o => Sys2Proof.Machine.execEndl o s
  | .gadv o => Sys2Proof.Machine.execGadv o s
  | .setp o => Sys2Proof.Machine.execSetp o s
  | .powerOn v => Sys2Proof.Machine.execPowerOn v s
  | .hostReset v => Sys2Proof.Machine.execHostReset v s
  | .startComplete v => Sys2Proof.Machine.execStartComplete v s
  | .startTimeout reason => Sys2Proof.Machine.execStartTimeout reason s
  | .restartDelay v => Sys2Proof.Machine.execRestartDelay v s
  | .restart v => Sys2Proof.Machine.execRestart v s
  | .getVersion => Sys2Proof.Machine.execGetVersion s
  | .getCapabilities => Sys2Proof.Machine.execGetCapabilities s
  | .negotiateAlgorithms => Sys2Proof.Machine.execNegotiateAlgorithms s
  | .getDigests => Sys2Proof.Machine.execGetDigests s
  | .getCertificate slot off len => Sys2Proof.Machine.execGetCertificate slot off len s
  | .challenge slot nonce => Sys2Proof.Machine.execChallenge slot nonce s
  | .getMeasurements block => Sys2Proof.Machine.execGetMeasurements block s
  | .spdmUnsupportedRequest code => Sys2Proof.Machine.execSpdmUnsupportedRequest code s
  | .thermtrip die tj thbm => Sys2Proof.Machine.execThermtrip die tj thbm s
  | .thermalClockStep die tj thbm => Sys2Proof.Machine.execThermalClockStep die tj thbm s
  | .registerWrite r v => Sys2Proof.Machine.execRegisterWrite r v s
  | .qtailWrite q v => Sys2Proof.Machine.execQtailWrite q v s
  | .queueEnable q v => Sys2Proof.Machine.execQueueEnable q v s
  | .queueDisable q v => Sys2Proof.Machine.execQueueDisable q v s
  | .gdoorWrite q v => Sys2Proof.Machine.execGdoorWrite q v s
  | .gpatchWrite q v => Sys2Proof.Machine.execGpatchWrite q v s
  | .create c => Sys2Proof.Machine.execCreate c s
  | .destroy c => Sys2Proof.Machine.execDestroy c s
  | .invasid c => Sys2Proof.Machine.execInvasid c s
  | .invrange c => Sys2Proof.Machine.execInvrange c s
  | .ctxcmdBadCommand op c => Sys2Proof.Machine.execCtxcmdBadCommand op c s
  | .dieFence v => Sys2Proof.Machine.execDieFence v s
  | .eccCounterClear => Sys2Proof.Machine.execEccCounterClear s
  | .matrixCounterClear => Sys2Proof.Machine.execMatrixCounterClear s
  | .avsEnable die v => Sys2Proof.Machine.execAvsEnable die v s
  | .avsDisable die v => Sys2Proof.Machine.execAvsDisable die v s
  | .avsRaisePoint die => Sys2Proof.Machine.execAvsRaisePoint die s
  | .avsResume die => Sys2Proof.Machine.execAvsResume die s
  | .avsStep die => Sys2Proof.Machine.execAvsStep die s
  | .iftStart v => Sys2Proof.Machine.execIftStart v s
  | .iftComplete failing => Sys2Proof.Machine.execIftComplete failing s
  | .retrain p bad => Sys2Proof.Machine.execRetrain p bad s
  | .up p => Sys2Proof.Machine.execUp p s
  | .down p => Sys2Proof.Machine.execDown p s
  | .atsInvalidateRequest port page => Sys2Proof.Machine.execAtsInvalidateRequest port page s
  | .stokerFrame die longRunning => Sys2Proof.Machine.execStokerFrame die longRunning s
  | .priorityAging who => Sys2Proof.Machine.execPriorityAging who s
  | .taskStart task => Sys2Proof.Machine.execTaskStart task s
  | .virtualCycleAdvance task => Sys2Proof.Machine.execVirtualCycleAdvance task s
  | .resultLanding core => Sys2Proof.Machine.execResultLanding core s
  | .fmtWriteEffect core => Sys2Proof.Machine.execFmtWriteEffect core s
  | .preparedTransferTrigger core => Sys2Proof.Machine.execPreparedTransferTrigger core s
  | .loopEndTest core => Sys2Proof.Machine.execLoopEndTest core s
  | .accessComplete core n => Sys2Proof.Machine.execAccessComplete core n s
  | .pageWalkComplete core => Sys2Proof.Machine.execPageWalkComplete core s
  | .overlayFetchComplete core bank => Sys2Proof.Machine.execOverlayFetchComplete core bank s
  | .spillRefillComplete core => Sys2Proof.Machine.execSpillRefillComplete core s
  | .remoteAccessTimeout core w => Sys2Proof.Machine.execRemoteAccessTimeout core w s
  | .preemption task => Sys2Proof.Machine.execPreemption task s
  | .lazyClaim core => Sys2Proof.Machine.execLazyClaim core s
  | .tokenWaitEnd core => Sys2Proof.Machine.execTokenWaitEnd core s
  | .writePointerWaitEnd core => Sys2Proof.Machine.execWritePointerWaitEnd core s
  | .barrierComplete task => Sys2Proof.Machine.execBarrierComplete task s
  | .eventWaitEnd core => Sys2Proof.Machine.execEventWaitEnd core s
  | .greenShareSpaceAvailable core => Sys2Proof.Machine.execGreenShareSpaceAvailable core s
  | .matrixEntryStart core => Sys2Proof.Machine.execMatrixEntryStart core s
  | .assayComplete hearth => Sys2Proof.Machine.execAssayComplete hearth s
  | .runnerOperationStart core ch => Sys2Proof.Machine.execRunnerOperationStart core ch s
  | .runnerOperationComplete core ch => Sys2Proof.Machine.execRunnerOperationComplete core ch s
  | .scopyFarWrite core ch flip => Sys2Proof.Machine.execScopyFarWrite core ch flip s
  | .collectiveComplete ctx group => Sys2Proof.Machine.execCollectiveComplete ctx group s
  | .orderedAtomicRequest n => Sys2Proof.Machine.execOrderedAtomicRequest n s
  | .orderedAtomicResend n => Sys2Proof.Machine.execOrderedAtomicResend n s
  | .fabricPacketReceive p pkt => Sys2Proof.Machine.execFabricPacketReceive p pkt s
  | .fabricAckReceive p seq => Sys2Proof.Machine.execFabricAckReceive p seq s
  | .fabricNakReceive p seq => Sys2Proof.Machine.execFabricNakReceive p seq s
  | .ackIdleTimer p => Sys2Proof.Machine.execAckIdleTimer p s
  | .laneFailure p lane => Sys2Proof.Machine.execLaneFailure p lane s
  | .retrainComplete p stall => Sys2Proof.Machine.execRetrainComplete p stall s
  | .partnerTimeout p => Sys2Proof.Machine.execPartnerTimeout p s
  | .cxlContainment p => Sys2Proof.Machine.execCxlContainment p s
  | .hostLinkDown p => Sys2Proof.Machine.execHostLinkDown p s
  | .correctedEccError cls inst => Sys2Proof.Machine.execCorrectedEccError cls inst s
  | .uncorrectedEccError site => Sys2Proof.Machine.execUncorrectedEccError site s
  | .handlerCountAdvance core => Sys2Proof.Machine.execHandlerCountAdvance core s
  | .powerLoss standby => Sys2Proof.Machine.execPowerLoss standby s
  | .hostWritesToDeviceMemory addr bytes => Sys2Proof.Machine.execHostWritesToDeviceMemory addr bytes s

end Sys2Proof.Machine
end

