-- ==== Sys2Proof/Machine/Bundle.lean ====
section
/-! DEFINITION. The issue of a bundle: framing and the state of its banks (spec/03 R40; spec/04 R79), legality (R51, R52), its slots
against the sources of its issue (R41), the one trap it reports (R53), blocks and pauses (spec/02 R36, R433), its commit; and the
next micro-op of a matrix unit (spec/07 R149). -/

namespace Sys2Proof.Machine

open Sys2Proof

/-! ## What a bundle sees -/

/-- The registers as a bundle sees them at its issue: of a write in flight either the value before it or the value it writes shows (spec/02
R35, R433). -/
def seenRegs (s : State) (c : Core) : Regs :=
  (pendingLands c).foldl (fun r p =>
    match p.2 with
    | .d i m v t =>
      landRegs r (.d i (if Config.freeEarly s.tick p.1 then m else 0) v (if Config.freeEarly s.tick (2 ^ 20 + p.1) then t else none))
    | l => if Config.freeEarly s.tick p.1 then landRegs r l else r) c.regs

/-- The state in which the slots of a core's bundle read: a bundle that blocked reads what it read at its first attempt, and sees nothing of what
is in flight, which still keeps a handler busy (spec/04 R89). -/
def issueView (s : State) (core : Nat) : State :=
  let c := getCore s core
  match c.blocked with
  | some b => modCore { s with cur := core } core fun c => { c with
      regs := b.regs, flight := c.flight.map (fun f => { f with val := .known [] }), sys := { c.sys with fmt := b.fmt } }
  | none => { s with cur := core }

/-- Whether the bundle of a core returned from an exception: nothing else clears ESTATE.INH while a bundle executes. -/
def returnedIn (c d : Core) : Bool := c.sys.estate.getLsbD 2 && !d.sys.estate.getLsbD 2

/-- The register files of a core after its bundle executed on an earlier reading: as they stand now, a bank that its `SETBANK` entered as that
left it (spec/04 R76). FMT is the one in force, also for a return from an exception, which samples the conditions of its triggers now (R89; log
entry 76: DESIGN CHOICE, unsafe). -/
def restoreView (s t : State) (core : Nat) : State :=
  let c := getCore s core
  if c.blocked.isSome then
    modCore t core fun k => { k with
      regs := ((c.enter.filter (fun b => !k.enter.contains b)).foldl (enterBank s.tick) c).regs, flight := c.flight, sys := { k.sys with fmt := c.sys.fmt }
      ctl := if returnedIn c k then
          { k.ctl with post := k.ctl.post.map (fun p => { p with conds := [0, 1, 2, 3].map (fun e => (e, seeQ s c (tabGet p.old e {}).cond.toNat)) }) }
        else k.ctl }
  else t

/-- One slot executed. -/
def runSlot (s : State) (i : Instr) : State :=
  match exec i (modMe s fun c => { c with mark := .none }) with
  | .next t => t
  | _ => s

/-- What the last operation executed on a core did besides its effect. -/
def markOf (s : State) (core : Nat) : Mark := (getCore s core).mark

/-! ## Fetch (spec/04 R79) -/

/-- The bank states a bundle meets, word by word: the first bank that is not resident, with the word address. -/
def bankOf (c : Core) (pc n : Nat) : Option (Nat × IBank) :=
  (List.range n).findSome? (fun i =>
    match tabGet c.ibank ((pc + i) / 8192) .empty with
    | .image => none
    | .resident _ => none
    | b => some (pc + i, b))

/-- The trap of an empty or failed bank: TAUX[39:32] the segment, [41:40] 0 empty or 1 failed, [49:42] the class (R85). The words examined
are those up to the first of the bank, and no slot offends (log entry 25: DEDUCED, unsafe). -/
def bankTrap (s : State) (addr : Nat) (b : IBank) : State :=
  let taux := match b with
    | .failed seg cls => 2 ^ 32 * seg.toNat + 2 ^ 40 + 2 ^ 42 * cls.toNat
    | .failedImage cls => 2 ^ 40 + 2 ^ 42 * cls.toNat
    | _ => 0
  takeTrap s 0x0B (BitVec.ofNat 21 (256 * (addr - (me s).ctl.pc + 1))) (BitVec.ofNat 64 addr) (BitVec.ofNat 64 taux)

/-! ## Outcomes of a bundle -/

/-- What an `MFS` of a bundle reads at the bundle's issue. -/
def mfsOf (s : State) (ops : List Instr) : Option W64 :=
  ops.findSome? (fun i => match i with | .mfs o => some (sysRead s o.idx.toNat) | _ => none)

/-- What the slots of a bundle read at its issue, the first attempt (R433). -/
def sourcesOf (s : State) (core : Nat) (ops : List Instr) : Blocked :=
  let c := getCore s core
  match c.blocked with
  | some b => b
  | none => { regs := seenRegs s c, fmt := c.sys.fmt, vc := vccOf s core, tok := c.tok, mfs := mfsOf { s with cur := core } ops }

/-- The writes of vector registers that are known of a list of results. -/
def bankWrites (l : List Flight) : List Land :=
  (l.flatMap (fun f => (flightLands f.val).getD [])).filter (fun w => match w with | .v _ _ _ => true | _ => false)

/-- A bundle that one of its slots keeps from committing while its gang pauses: nothing but the hold is left. Before a `SETBANK` moves banks,
what the other slots read is kept, and what they write into banks: they use the old window (spec/04 R76). -/
def heldBy (s t : State) (core : Nat) (ops : List Instr) (each : List (Mark × State)) : State :=
  let h := (getCore t core).hold
  let own := each.flatMap (fun x => bankWrites (getCore x.2 core).fresh)
  let keep := match h with | .spill _ => some { sourcesOf s core ops with lands := own } | _ => (getCore s core).blocked
  modCore s core fun k => { k with hold := h, blocked := keep }

/-- A part put among others by its place in its access. -/
def insertPlace (p : Placed) : List Placed → List Placed
  | [] => [p]
  | q :: r => if p.off < q.off then p :: q :: r else q :: insertPlace p r

/-- Where the access of a slot of a core goes, by what the slot did to a state: the entries it left, and the stores it left held for its task. -/
def placesOf (v t : State) (core : Nat) : List Placed :=
  let new := ((getCore t core).acc.drop (getCore v core).acc.length).map (fun a => (⟨a.va, a.off, a.n, a.pa, a.mt, a.win⟩ : Placed))
  let held := match taskOf v core, taskOf t core with
    | some a, some b => (b.held.drop a.held.length).flatMap (fun (h : HeldStore) => h.rows.map (fun (r : HeldRow) => (⟨r.va, r.off, r.bytes.length, r.pa, r.mt, false⟩ : Placed)))
    | _, _ => []
  held.foldl (fun l p => insertPlace p l) new

/-- A bundle that blocked (R433): it waits, with what its slots read and where their accesses go, which have passed their checks (spec/15
R336). -/
def blockedBy (s t : State) (core : Nat) (ops : List Instr) (v : State) (each : List (Mark × State)) : State :=
  modCore { s with shape := t.shape } core fun k => { k with
    wait := (getCore t core).wait, blocked := some { sourcesOf s core ops with places := each.map (fun x => placesOf v x.2 core) } }

/-- Whether a slot trapped with a cause that is detected at issue: 0x03 or 0x09. -/
def trappedWith (cause : BitVec 8) (x : Mark × State) : Bool := x.1 == .trapped cause

/-- Whether a slot trapped, or may still trap once its pause has ended. -/
def stopsBundle (x : Mark × State) : Bool := match x.1 with | .trapped _ => true | .held => true | _ => false

/-- The slot that decides what becomes of a bundle that does not commit (R53): a cause detected at issue first, then the slot with the lowest
U that traps or is held, then one that blocks: a trap beside a blocked slot comes at the first attempt (log entry 73: DESIGN CHOICE, unsafe).
`LOOP` raises its 0x01 while the bundle executes, so it ranks by U (log entry 57: DEDUCED, unsafe). -/
def decidingSlot (l : List (Mark × State)) : Option (Mark × State) :=
  (l.find? (trappedWith 0x03)).or ((l.find? (trappedWith 0x09)).or ((l.find? stopsBundle).or (l.find? (fun x => x.1 == .blocked))))

/-- Slots executed one after the other while none of them is kept from committing; the flag says that all were. -/
def runSlots (core : Nat) : List Instr → State → State × Bool
  | [], s => (s, true)
  | i :: r, s =>
    let t := runSlot s i
    match markOf t core with
    | .held => (t, false)
    | .blocked => (t, false)
    | _ => runSlots core r t

/-- The order in which the slots of a bundle take effect: what reads first, then the others by unit. -/
def slotOrder (l : List Instr) : List Instr := l.filter readsFirst ++ l.filter (fun i => !readsFirst i)

/-- Results without the writes into banks that a `SETBANK` of their bundle has moved (spec/04 R76): a spilled bank took them with it, a refilled
one discards them (log entry 31: DEDUCED, unsafe). -/
def dropMoved (moved : List Nat) (l : List Flight) : List Flight :=
  if l.all (fun f => (bankWrites [f]).all (fun w => !moved.any (fun k => landInBank k w))) then l
  else l.map (fun f => match f.val with
    | .known w => { f with val := .known (w.filter (fun x => !moved.any (fun k => landInBank k x))) }
    | .load _ _ _ _ _ => f)

/-- The banks that results of a bundle land in no more: those moved for its `SETBANK`, and when it changes the window those spilled before that no
logical bank stands in. -/
def movedBanks (c : Core) (fresh : List Flight) : List Nat :=
  let sets := fresh.any (fun f => match f.val with | .known l => l.any (fun w => match w with | .sys 0x018 _ => true | _ => false) | _ => false)
  (match c.blocked with | some b => b.moved | none => []) ++ (if sets then c.enter else [])

/-- The bookkeeping of a commit: results join those in flight, and the trigger and loop test of spec/04 R65 and R70 become due, also for a
bundle that halts its core. A bundle that returned from an exception leaves the next bundle to the return (R89): what its handler's own entries
and loops would trigger there is not made (log entry 76: DESIGN CHOICE, unsafe). -/
def commitBundle (s : State) (core pc len : Nat) (old : Tab Target) (conds : Tab Bool) (t : State) : State :=
  let u := restoreView s t core
  let done := modCore u core fun c =>
    let base := { c with
      mark := .none, flight := c.flight ++ dropMoved (movedBanks (getCore s core) c.fresh) c.fresh, fresh := [], bundleNo := c.bundleNo + 1, decided := true, blocked := none
      walkFault := none }
    let base := followSpills (getCore s core) base s.tick
    if returnedIn (getCore s core) c then base
    else
      let post : Post := {
        addr := pc, seqNext := pc + len, next := c.ctl.skip.getD (pc + len), old := old, armed := c.ctl.armed, conds := conds }
      { base with ctl := { base.ctl with armed := none, skip := none, post := some post } }
  settleCore done core

/-- The slots of a legal bundle: the trap they report, a hold, a block, or the commit. -/
def runBundle (s : State) (core : Nat) (ops : List Instr) (len : Nat) : State :=
  let c := getCore s core
  let v := issueView s core
  let each := ops.map (fun i => let t := runSlot v i; (markOf t core, t))
  match decidingSlot each with
  | some (.held, t) => heldBy s t core ops each
  | some (.blocked, t) => blockedBy s t core ops v each
  | some (_, t) => settleCore (restoreView s (modCore t core fun k => { k with mark := .none }) core) core
  | none =>
    match runSlots core (slotOrder ops) v with
    | (t, true) =>
      let conds := [0, 1, 2, 3].map (fun e => (e, seeQ v (getCore v core) (tabGet c.ctl.tgt e {}).cond.toNat))
      commitBundle s core c.ctl.pc len c.ctl.tgt conds t
    | (t, false) => if markOf t core = .held then heldBy s t core ops each else blockedBy s t core ops v each

/-- The instructions of the words of a legal bundle. -/
noncomputable def slotsOf (words : List W32) : List Instr := words.filterMap (fun w => (decode w).toOption)

/-- Whether another core of a confirmed gang has a bundle that blocked in an earlier vc and has yet to go on: blocked operations go on in issue
order (spec/14 R318); before confirmation each goes on as its own cause ends (R323). -/
def blockedBefore (s : State) (core : Nat) (t : Task) : Bool :=
  match (getCore s core).blocked with
  | none => false
  | some b => !t.green && (gangOf t).any (fun i =>
      i != core && (getCore s i).wait != .shape && (match (getCore s i).blocked with | some k => decide (k.vc < b.vc) | none => false))

/-- Whether a core may issue a bundle in the current vc (spec/02 R34-R38): it belongs to a gang that makes its issue decisions, does not wait,
is not held, no other core of its gang is (R36), and it has made no decision. A handler issues only while its task runs on; its pauses are its
own core's (spec/04 R87). -/
def mayIssue (s : State) (core : Nat) : Bool :=
  let c := getCore s core
  match c.task, taskOf s core with
  | some u, some t => heldGang s u t && gangIssues t && !coreDecided c && c.hold == .none && c.ctl.post.isNone
      && (if c.handler then gangRuns t else !c.trapped && (gangOf t).all (fun i => (getCore s i).hold == .none)) && !blockedBefore s core t
  | _, _ => false

/-- A task whose core has issued: the vc that its VCC counts is one in which its gang did, unless a handler's bundle it was (R38), and after a
resumption it is the first (R33). -/
def noteIssued (s : State) (core : Nat) (handler : Bool) : State :=
  let c := getCore s core
  match c.task with
  | some u => if coreDecided c then modTask s u fun t =>
      { t with st := if t.st = 4 then 1 else t.st, issued := t.issued || (c.decided && !handler) } else s
  | none => s

/-- A store that a footprint refused after its bundle traps the next bundle outside a handler, in which no slot offends (spec/06 R124; log entry
51: DEDUCED, unsafe). -/
def lateTrap (s : State) (core : Nat) (n : Nat) (row : W64 × Nat) : State :=
  let s1 := modCore s core fun c => { c with late := c.late.tail, hitTile := row.2 }
  settleCore (modCore (takeTrap s1 0x0A (BitVec.ofNat 21 (256 * n)) row.1 0) core fun c => { c with mark := .none }) core

/-- The bundle at the program counter of a core that may issue. The banks of its words come before the legality of those that are resident:
R53 does not rank 0x0B (log entry 74: DESIGN CHOICE, unsafe). -/
noncomputable def issueNow (s0 : State) (core : Nat) : State :=
  let c := getCore s0 core
  let (words, ended) := frameOf c
  match if c.handler then none else c.late.head? with
  | some row => lateTrap s0 core words.length row
  | none =>
  match bankOf c c.ctl.pc words.length with
  | some (addr, .loading _) => modCore s0 core fun c => { c with hold := .fetch (addr / 8192) }
  | some (addr, b) => settleCore (modCore (bankTrap s0 addr b) core fun c => { c with mark := .none }) core
  | none =>
    match illegal words ended with
    | some (cause, tslots) => settleCore (modCore (takeTrap s0 cause tslots 0 0) core fun c => { c with mark := .none }) core
    | none => runBundle s0 core (slotsOf words) words.length

/-- The bundle at the program counter of a core issued, if the core may issue. -/
noncomputable def issueBundle (s : State) (core : Nat) : State :=
  if mayIssue s core = false then s else noteIssued (issueNow { s with cur := core } core) core (getCore s core).handler

/-! ## The next micro-op (spec/07 R149) -/

/-- The micro-op that a running routine reaches: none where no micro-op stands, past the store, and at its last word but for `END`. -/
noncomputable def microAt (m : MUnit) (upc : Nat) : Option Instr :=
  if 4096 ≤ upc then none else
  match decodeUop (tabGet m.store upc 0) with
  | none => none
  | some (.endR o) => some (.endR o)
  | some i => if upc = 4095 then none else some i

/-- Whether the running routine of a core stands at a suspend point that it may not leave: its task stands pre-empted, or is about to (R162,
R163). -/
def staysSuspended (s : State) (core : Nat) : Bool :=
  (getCore s core).mu.suspended && (match (getCore s core).task, taskOf s core with | some u, some t => mustStop s u t | _, _ => true)

/-- The next micro-op of the running routine of the unit that a core's task sees; where there is none the routine ends with
`Fault(token, 7)`. It waits until the rows that a `SIGCHK` released to other devices are acknowledged (spec/06 R120, spec/11 R250). -/
noncomputable def microStep (s : State) (core : Nat) : State :=
  let m := (getCore s core).mu
  match m.run with
  | none => s
  | some r =>
    if staysSuspended s core || ackOut s core (getCore s core).task isMatrixSent then s else
    let s1 := if m.suspended then modCore s core fun c => { c with mu := { c.mu with suspended := false } } else s
    match microAt m r.upc with
    | none => settleCore (microAbort s1) core
    | some i => settleCore (runSlot s1 i) core

/-- The matrix region of a pre-empted task's image written again once its routine has stopped (R162). -/
def keepUnit (s : State) (core u : Nat) : State :=
  match tabFind s.tasks u with
  | some t => if t.st ≠ 3 ∨ t.error.isSome = true ∨ (victimOn s core).isSome = true then s else saveImage s u core (coreImage t core + 0x6000) (matrixRegion s core) none
  | none => s

/-- The next micro-op of a core performed: of a pre-empted task's routine that has not reached its suspend point yet (R162), else of the routine
of the core's own task. -/
noncomputable def microMove (s : State) (core : Nat) : State :=
  match victimOn s core with
  | some u => keepUnit (onUnit s core u (fun s => microStep s core)) core u
  | none => microStep { s with cur := core } core

end Sys2Proof.Machine
end

