-- ==== Sys2Proof/Machine/Moves.lean ====
section
/-! DEFINITION. Who moves next. The manual orders nothing between agents beyond the rules of each event, so the next move is the head
of `State.agenda`, or, when nothing is listed, a free choice among what is under way (log entry 1: DESIGN CHOICE, safe); and the placement of one word
where the next step fetches it. -/

namespace Sys2Proof.Machine

open Sys2Proof

/-! ## What may happen next -/

/-- A list when a condition holds. -/
def listIf {α : Type} (b : Bool) (l : List α) : List α := if b then l else []

/-- A free choice of the model at a step, told apart from the others by a number. -/
def freeNat (s : State) (n : Nat) : Nat := (Config.freeData s.tick (2 ^ 40 + n)).toNat

/-- What a start finds (spec/16 R366): the outside world's. -/
def freeView (s : State) : StartView := ⟨BitVec.ofNat 4 (freeNat s 0), BitVec.ofNat 4 (freeNat s 1)⟩

/-- The moves of the start sequence (spec/17 R391, R392). -/
noncomputable def bootMoves (s : State) : List Move :=
  let b := s.boot
  listIf (b.phase == .starting && !b.begun) [.event (.powerOn (freeView s))]
    ++ listIf (b.phase == .starting && b.begun)
      [.event (.startComplete ⟨BitVec.ofNat 8 (freeNat s 2), BitVec.ofNat 2 (freeNat s 3)⟩), .event (.startTimeout (BitVec.ofNat 8 (freeNat s 4)))]
    ++ listIf (b.phase == .delay) [.event (.restartDelay (freeView s))]

/-- The moves that end a wait of a core (spec/02 R37). -/
noncomputable def waitMoves (i : Nat) (w : Wait) : List Move :=
  match w with
  | .none => []
  | .token _ => [.event (.tokenWaitEnd i)]
  | .pointer _ _ => [.event (.writePointerWaitEnd i)]
  | .sync => []
  | .event _ => [.event (.eventWaitEnd i)]
  | .green => [.event (.greenShareSpaceAvailable i)]
  | .shape => []

/-- The moves that end a pause of a core (spec/02 R36). -/
noncomputable def holdMoves (i : Nat) (h : Hold) : List Move :=
  match h with
  | .none => []
  | .walk _ _ => [.event (.pageWalkComplete i)]
  | .claimBank _ => [.event (.lazyClaim i)]
  | .claimBlock _ _ => [.event (.lazyClaim i)]
  | .spill _ => [.event (.spillRefillComplete i)]
  | .fetch _ => []

/-- The moves of a runner channel (spec/12 R276). -/
noncomputable def chanMoves (s : State) (i ch : Nat) (c : Core) : List Move :=
  let q := chanOf c ch
  match q.run with
  | none => listIf (!q.queue.isEmpty) [.event (.runnerOperationStart i ch)]
  | some r =>
    [.runner i ch (freeNat s (5 + ch) % 65536 + 1), .ahead i ch (freeNat s (10 + ch)) (freeNat s (12 + ch) % 32 + 1),
      .event (.runnerOperationComplete i ch)]
      ++ listIf (r.e.op == .scopy && !r.ready) [.event (.scopyFarWrite i ch 0)]

/-- The moves of a core that a task owns. -/
noncomputable def ownedMoves (i : Nat) (c : Core) : List Move :=
  [.issue i, .event (.resultLanding i)]
    ++ listIf (!c.sys.fmtPend.isEmpty) [.event (.fmtWriteEffect i)]
    ++ (match c.ctl.post with
      | some p => [if p.triggered then .event (.loopEndTest i) else .event (.preparedTransferTrigger i)]
      | none => [])
    ++ listIf (c.trapped || c.handler) [.event (.handlerCountAdvance i)]
    ++ waitMoves i c.wait ++ holdMoves i c.hold ++ c.fetch.map (fun f => .event (.overlayFetchComplete i f.1))
    ++ (match c.mu.run with
      | some _ => [.micro i]
      | none => listIf (!c.mu.queue.isEmpty) [.event (.matrixEntryStart i)])

/-- The moves of an outstanding entry: it performs, or a store becomes visible before (spec/11 R244). -/
noncomputable def accMoves (i n : Nat) (a : Acc) : List Move :=
  [.event (.accessComplete i n)] ++ listIf (a.kind == .store) [.show_ i n]

/-- The moves of a core. -/
noncomputable def coreMoves (s : State) (i : Nat) (c : Core) : List Move :=
  listIf c.task.isSome (ownedMoves i c) ++ c.acc.zipIdx.flatMap (fun a => accMoves i a.2 a.1)
    ++ chanMoves s i 0 c ++ chanMoves s i 1 c ++ listIf (victimOn s i).isSome [.micro i]

/-- The moves of a task. -/
noncomputable def taskMoves (u : Nat) (t : Task) : List Move :=
  listIf (t.st == 0) [.event (.taskStart u)] ++ listIf t.preempt [.event (.preemption u)]
    ++ listIf (gangIssues t) [.event (.virtualCycleAdvance u), .event (.barrierComplete u)]

/-- The moves of a fabric port. -/
noncomputable def portMoves (s : State) (p : Nat) (x : Port) : List Move :=
  listIf (!x.replay.isEmpty) [.event (.fabricAckReceive p (BitVec.ofNat 16 (freeNat s 7)))]
    ++ listIf (x.unacked != 0) [.event (.ackIdleTimer p)]
    ++ listIf x.training [.event (.retrainComplete p (freeNat s 8))]

/-- What is under way in the device. -/
noncomputable def candidates (s : State) : List Move :=
  bootMoves s ++ s.cores.flatMap (fun e => coreMoves s e.1 e.2) ++ s.tasks.flatMap (fun e => taskMoves e.1 e.2)
    ++ s.ports.flatMap (fun e => portMoves s e.1 e.2)
    ++ s.hearths.flatMap (fun e => listIf (!e.2.assay.isEmpty) [.event (.assayComplete e.1)])
    ++ s.colls.map (fun x => .event (.collectiveComplete x.ctx x.group))
    ++ (List.range s.oreqs.length).flatMap (fun n => [.event (.orderedAtomicRequest n), .event (.orderedAtomicResend n)])
    ++ listIf s.recovery.iftBusy [.event (.iftComplete 0)]
    ++ listIf (s.boot.phase == .normal)
      ([0, 1, 2, 3].map (fun d => .event (.stokerFrame d ((s.tasks.map Prod.fst).filter (fun u => freeNat s (16 + u) % 2 == 1)))))

/-- The free choice among what is under way. -/
noncomputable def chosenMove (s : State) : Option Move :=
  let l := candidates s
  l[freeNat s 9 % l.length]?

/-! ## One move -/

/-- Whether a move is one of a device whose rails are off: a `POWER_ON`, or the loss of the standby rail too (spec/18 R395). -/
def isPower (m : Move) : Bool := match m with | .event (.powerOn _) => true | .event (.powerLoss false) => true | _ => false

/-- Whether a move neither reads nor writes memory but as the order of a core's accesses lets it: the stores that hearths see stay as they stand
(log entry 62: DEDUCED, unsafe). -/
def isQuiet (s : State) (m : Move) : Bool :=
  match m with
  | .issue _ => true
  | .show_ _ _ => true
  | .event (.accessComplete _ _) => true
  | .event (.remoteAccessTimeout _ _) => true
  | .event (.virtualCycleAdvance u) => match tabFind s.tasks u with | some t => t.verdict.isNone | none => true
  | .event (.resultLanding _) => true
  | .event (.fmtWriteEffect _) => true
  | .event (.preparedTransferTrigger _) => true
  | .event (.loopEndTest _) => true
  | .event (.handlerCountAdvance _) => true
  | .event (.tokenWaitEnd _) => true
  | .event (.writePointerWaitEnd _) => true
  | .event (.eventWaitEnd _) => true
  | .event (.greenShareSpaceAvailable _) => true
  | .event (.barrierComplete _) => true
  | _ => false

/-- A move of an engine of a core made, unless the core's units read nothing for now (spec/11 R254). -/
def engineMove (s : State) (core : Nat) (f : State → State) : State := if owes s core then s else f s

/-- A move made; one that is not quiet comes after the stores that hearths see (spec/11 R254-R256). -/
noncomputable def runMove (s0 : State) (m : Move) : Out :=
  let s := if isQuiet s0 m then s0 else homeShown s0
  match m with
  | .issue core => .next (issueBundle s core)
  | .micro core => .next (engineMove s core fun s => microMove s core)
  | .runner core ch n => .next (engineMove s core fun s => runnerMove core ch n s)
  | .ahead core ch off n => .next (engineMove s core fun s => runnerAhead core ch off n s)
  | .show_ core n => .next (showStore s core n)
  | .event i => exec i s

/-- Whether no core of a gang can issue: each unhalted core is in a wait, or the VCC is paused (spec/02 R31); while handlers run, each of their
cores is in a wait or paused (spec/04 R87) and none is about to enter its own. -/
def gangWaits (s : State) (t : Task) : Bool :=
  let cs := (gangOf t).map (getCore s)
  if cs.any (fun c => c.handler) then
    cs.all (fun c => if c.handler then c.wait != .none || pausedHandler c else !c.trapped)
  else pausedTask s t || cs.all (fun c => c.halted || c.wait != .none)

/-- Whether a gang has made its last decision of the current vc: a trap has struck it (spec/02 R38), or its VCC is paused by a result that is due
(R36). -/
def vcClosed (s : State) (t : Task) : Bool :=
  let cs := (gangOf t).map (getCore s)
  cs.any coreTrapped || (cs.all coreDecided && cs.any (fun c => !arrivedBy c (t.vcc + 1)))

/-- A core that waits while its gang, or its handler, has made its last decision of the vc: it issues again in the next one (R36, R38; spec/04
R87). -/
def closeWait (closed : Bool) (c : Core) : Core :=
  if c.wait != .none && (if c.handler then !arrivedBy c (c.ctl.hcount + 1) else closed) then { c with decided := true } else c

/-- The decisions of every gang closed as its pauses and traps say. -/
def closeWaits (s : State) : State :=
  s.tasks.foldl (fun s e => if (e.2.st = 1 ∨ e.2.st = 2) ∧ heldGang s e.1 e.2 = true ∧ (gangOf e.2).any (fun i => (getCore s i).wait != .none) = true then
      let closed := vcClosed s e.2
      (gangOf e.2).foldl (fun s i => modCore s i (closeWait closed)) s
    else s) s

/-- The states issuing and waiting of every task as its cores stand (R33), and the decisions of the gangs. -/
def noteStates (s0 : State) : State :=
  let s := closeWaits s0
  { s with tasks := tabMap s.tasks (fun _ t => if t.st = 1 ∨ t.st = 2 then { t with st := if gangWaits s t then 2 else 1 } else t) }

/-- What a move leads to, with the states of the tasks noted. -/
def noteOut (o : Out) : Out := match o with | .next t => .next (noteStates t) | x => x

/-- The state that a move finds: the step is counted, and a listed move leaves the agenda. -/
def beforeMove (s : State) : State := { s with tick := s.tick + 1, agenda := s.agenda.tail }

/-- The next move: the head of the agenda, or the free choice. -/
noncomputable def nextMove (s : State) : Option Move :=
  match s.agenda with
  | m :: _ => some m
  | [] => chosenMove s

/-- A step with a move made known: without supply only `POWER_ON` and the loss of standby power happen (spec/17 R391, R395), and where nothing is
under way the device waits. -/
noncomputable def stepWith (s : State) (m : Option Move) : Out :=
  match m with
  | none => .next (beforeMove s)
  | some m => if s.boot.power = false ∧ isPower m = false then .fault .poweredOff else noteOut (runMove (beforeMove s) m)

/-! ## One word placed where the next step fetches it -/

/-- The record of the launch of a placed word: its own program of one word. -/
def placedRec : Rec := { parseRec [] with plen := 1, banks := 1, diemask := 1 }

/-- The task of a placed word: a gang of one on core 0. -/
def placedTask : Task := { launch := 0, idx := 0, ctx := 0, hearth := 0, size := 1, first := 0, part := 16384, qstart := 0, banks := 1, slot := 0, st := 1 }

/-- Core 0 with nothing that keeps it from issuing. -/
def readyCore (c : Core) : Core :=
  { c with task := some 0, pos := 0, halted := false, decided := false, wait := .none, hold := .none, blocked := none, handler := false
           trapped := false, retPend := none, late := [], ctl := { c.ctl with post := none } }

/-- The running task of a placed word put on core 0, supply on. -/
def placeTask (s : State) : State :=
  { s with
    boot := { s.boot with power := true }
    launches := tabSet s.launches 0 { rcd := placedRec, die := 0, n := 1, next := 1, eligible := true }
    tasks := tabSet s.tasks 0 placedTask
    nextUid := if s.nextUid = 0 then 1 else s.nextUid }

/-- A slot word, as a bundle of its own, at core 0's program counter. -/
def placeSlot (s : State) (w : Nat) : State :=
  let s1 := modCore (placeTask s) 0 fun c =>
    let k := readyCore c
    { k with imem := tabSet k.imem k.ctl.pc (BitVec.ofNat 32 w ||| 0x80000000), ibank := tabSet k.ibank (k.ctl.pc / 8192) .image }
  { s1 with agenda := [.issue 0] }

/-- The queue entry under which a placed micro-op runs. -/
def placedEntry : MEntry := { kind := .call 0, tok := 0, list := 0, fmt := 0, p := [], g := [], no := 0, priv := 0 }

/-- A micro-op at the position that a routine of core 0 has reached. -/
def placeMicro (s : State) (w : Nat) : State :=
  let s1 := modCore (placeTask s) 0 fun c =>
    let k := readyCore c
    let r : MRun := k.mu.run.getD { entry := placedEntry, upc := 0 }
    { k with mu := { k.mu with run := some r, suspended := false, store := tabSet k.mu.store r.upc (BitVec.ofNat 64 w) } }
  { s1 with agenda := [.micro 0] }

/-- The state with an instruction of the opcode table placed: a micro-op has 64 bits, a slot word 32. -/
def placeWord (s : State) (nbits w : Nat) : State := if 32 < nbits then placeMicro s w else placeSlot s w

end Sys2Proof.Machine
end

