-- ==== Sys2Proof/Machine/Step.lean ====
section
/-! DEFINITION. The step of the device, and the placement of one instruction where the next step fetches it. -/

namespace Sys2Proof.Machine

open Sys2Proof

/-- One move of the device: the head of the agenda, or, when nothing is listed, a free choice among what is under way (log entry 1: DESIGN CHOICE, safe). -/
noncomputable def step (s : State) : Host.Outcome State Fault Refusal := stepWith s (nextMove s)

/-- The state with an instruction placed where `step` fetches its next one (log entry 20: DESIGN CHOICE, safe). -/
def State.withFetchWord (s : State) (nbits w : Nat) : State := placeWord s nbits w

end Sys2Proof.Machine
end

