-- ==== Sys2Proof/Safety.lean ====
section
/-! DEFINITION. What counts as a safe run of the device: both memories in their canonical form, and no stop. -/

namespace Sys2Proof

open Sys2Proof.Machine

/-- Device and host memory are in canonical form. -/
def MemOk (s : State) : Prop := Memory.wf s.mem = true ∧ Memory.wf s.hostMem = true

/-- `n` steps that neither fault nor refuse. -/
def RunsFor : Nat → State → Prop
  | 0, _ => True
  | n + 1, s => ∃ t, step s = .next t ∧ RunsFor n t

/-- A device that has power and keeps both memories canonical. -/
def Safe (s : State) : Prop := MemOk s ∧ s.boot.power = true

/-- No bank that the window of one of these V files names still holds the state of a pre-empted task (spec/13 R304). -/
def BanksReady (s : State) (files : List Nat) : Prop := ∀ f ∈ files, bankForeign s (me s) (bankKey (me s) f) = false

/-- The element type of a V slot is `t`, and the banks that it binds are at hand. -/
def VReady (o : VOp) (s : State) (t : ETy) (extra : List Nat) : Prop :=
  etyOf (vCode (me s) (vFile o.u)) = some t ∧ BanksReady s (vFile o.u :: extra)

/-- A term of a sum without a denominator: what every number format holds, and the products of such. -/
def Dyadic (x : Ex) : Prop :=
  match x with
  | .fin _ _ d _ => d = 1
  | _ => True

/-- Whether a `SIGCHK` of a core waits for the assay path (spec/06 R121). -/
def checkingIn (c : Core) : Bool := c.mu.tiles.any (fun x => x.2.epoch.any (fun e => e.checking))

/-- The executing core runs a routine of its task, and no `SIGCHK` of it is in assay (spec/07 R149). -/
def MicroReady (s : State) (r : MRun) (u : Nat) (t : Task) : Prop :=
  (me s).mu.run = some r ∧ (me s).task = some u ∧ tabFind s.tasks u = some t ∧ checkingIn (me s) = false

/-- What a store of a provisional task does with its parts (spec/12 R262, spec/06 R119, spec/14 R323): those through the window stand outstanding,
the others join what the task holds as one store, or the bundle waits while the green share has no room for them. `s` is the state with the
blocks that the store touches first. -/
def GreenStore (s : State) (rel : Option Nat) (data : List Byte) (p : List Placed) (o : Out) : Prop :=
  ∀ u t, (me s).task = some u → tabFind s.tasks u = some t → greenOf s s.cur = true →
    let out := p.filter (fun q => !q.win)
    let size := (out.map (fun q => q.n)).sum
    let full := size ≠ 0 ∧ 262144 < greenUsed s (hearthOf s.cur) + size
    (full → o = .next (modMe s fun c => { c with wait := .green, mark := .blocked })) ∧
    (¬ full → ∃ z, o = .next z ∧ z.mem = s.mem ∧ z.hostMem = s.hostMem ∧ (me z).regs = (me s).regs ∧
      (me z).acc = (me s).acc ++ mkAccs (me s) s.tick .store none rel data (p.filter (fun q => q.win)) ∧
      (tabFind z.tasks u).map (fun x => x.held) = some (t.held ++ if out.isEmpty then [] else
        [{ core := s.cur, release := rel.isSome, no := (me s).bundleNo, rows := out.map (fun q =>
            { va := q.va, pa := q.pa, mt := q.mt, bytes := (data.drop q.off).take q.n, sup := isSup (me s), off := q.off }) }]))

/-- No task is pre-empted, so no tile, bank or block holds a victim's state (spec/07 R162, spec/13 R304). -/
def NoVictims (s : State) : Prop := ∀ e ∈ s.tasks, e.2.st ≠ 3

/-- A task goes on: a core of its gang has still to execute `HALT`, and it has not ended in error (spec/02 R31). -/
def StaysOn (s : State) (t : Task) : Prop := t.error = none ∧ ∃ i ∈ gangOf t, (getCore s i).halted = false

/-- The guard of an instruction that is guarded as a whole (spec/03 R43, R44): every S operation but the carry chains, every F, L, M and
C operation, and every B operation but the four that prepare a transfer, whose G is a condition. The V operations are guarded by
element, and micro-ops and events have no guard. -/
def guardOf (i : Instr) : Option (BitVec 4) :=
  match i with
  | .add o | .sub o | .mul o | .mulh o | .mulhu o | .div o | .divu o | .rem o | .remu o | .and o | .or o | .xor o | .andn o
  | .shl o | .shr o | .sar o | .ror o | .min o | .max o | .minu o | .maxu o | .clz o | .ctz o | .popc o | .sext o | .zext o
  | .cmpeq o | .cmplt o | .cmpltu o | .cmple o | .cmpleu o | .pand o | .por o | .pxor o | .movx o | .movp o | .movfp o | .gset o
  | .gget o | .hset o | .hget o | .guard o | .rdvc o | .addi o | .andi o | .ori o | .xori o | .shli o | .shri o | .sari o
  | .rori o | .muli o | .cmpeqi o | .cmplti o | .cmpltui o | .cmplei o | .cmpleui o | .tokl o | .movi o | .movsh o | .fexp2 o
  | .flog2 o | .frcp o | .frsq o | .fsinpi o | .fcospi o | .ftanh o | .fsigm o | .ferf o | .frand o | .fmovx o | .dpt o
  | .dfrom o | .dadd o | .dsub o | .dmul o | .dmax o | .dmin o | .daff o | .dmap o | .dtag o | .dtags o | .dcanon o | .dmom o
  | .dqnt o | .dcdf o | .dmov o | .dsupp o | .ldB o | .ldBz o | .ldH o | .ldHz o | .ldW o | .ldWz o | .ldD o | .ldQ o | .ldv256 o
  | .ldv512 o | .ldv1024 o | .ldk o | .ldd o | .ldxD o | .ldxW o | .stB o | .stH o | .stW o | .stD o | .stQ o | .stv256 o
  | .stv512 o | .stv1024 o | .stk o | .std o | .stxD o | .stxW o | .vgather o | .vscatter o | .ldaW o | .ldaD o | .stlW o
  | .stlD o | .drain o | .pref o | .aaddW o | .aandW o | .aorW o | .axorW o | .aminW o | .amaxW o | .aminuW o | .amaxuW o
  | .aswpW o | .acasW o | .afaddW o | .aaddD o | .aandD o | .aorD o | .axorD o | .aminD o | .amaxD o | .aminuD o | .amaxuD o
  | .aswpD o | .acasD o | .oadd o | .oswp o | .ocas o | .mcall o | .mclr o | .mstat o | .msig o | .mabort o | .mload o | .fence o
  | .copy o | .copy2 o | .send o | .fetch o | .scopy o | .coll o | .czero o | .cflush o | .ret o | .loop o | .loopi o | .trap o
  | .syscall o | .eret o | .eretS o | .twait o | .tpoll o | .waitwp o | .setfmt o | .setbank o | .sync o | .mfs o | .mts o
  | .ifence o | .ovl o | .launch o | .launchg o | .shape o | .predict o | .alloc o | .free o | .yield o | .halt o | .evset o
  | .evsetClear o | .evwait o => some o.g
  | _ => none

/-- Whether an instruction is a micro-op of a matrix unit, encoded in 64 bits (spec/07 R149). -/
def isMicroOp : Instr → Bool
  | .endR _ | .lda _ | .ldb _ | .ldsa _ | .ldsb _ | .mma _ | .zero _ | .tld _ | .epi _ | .stt _ | .sigchk _ | .loopMicroOp _ | .endl _
  | .gadv _ | .setp _ => true
  | _ => false

/-- Whether a row of the opcode table is an event, which has no encoding. -/
def isEvent : Instr → Bool
  | .powerOn _ | .hostReset _ | .startComplete _ | .startTimeout _ | .restartDelay _ | .restart _ | .getVersion | .getCapabilities
  | .negotiateAlgorithms | .getDigests | .getCertificate _ _ _ | .challenge _ _ | .getMeasurements _ | .spdmUnsupportedRequest _
  | .thermtrip _ _ _ | .thermalClockStep _ _ _ | .registerWrite _ _ | .qtailWrite _ _ | .queueEnable _ _ | .queueDisable _ _
  | .gdoorWrite _ _ | .gpatchWrite _ _ | .create _ | .destroy _ | .invasid _ | .invrange _ | .ctxcmdBadCommand _ _ | .dieFence _
  | .eccCounterClear | .matrixCounterClear | .avsEnable _ _ | .avsDisable _ _ | .avsRaisePoint _ | .avsResume _ | .avsStep _ | .iftStart _
  | .iftComplete _ | .retrain _ _ | .up _ | .down _ | .atsInvalidateRequest _ _ | .stokerFrame _ _ | .priorityAging _ | .taskStart _
  | .virtualCycleAdvance _ | .resultLanding _ | .fmtWriteEffect _ | .preparedTransferTrigger _ | .loopEndTest _ | .accessComplete _ _
  | .pageWalkComplete _ | .overlayFetchComplete _ _ | .spillRefillComplete _ | .remoteAccessTimeout _ _ | .preemption _ | .lazyClaim _
  | .tokenWaitEnd _ | .writePointerWaitEnd _ | .barrierComplete _ | .eventWaitEnd _ | .greenShareSpaceAvailable _ | .matrixEntryStart _
  | .assayComplete _ | .runnerOperationStart _ _ | .runnerOperationComplete _ _ | .scopyFarWrite _ _ _ | .collectiveComplete _ _
  | .orderedAtomicRequest _ | .orderedAtomicResend _ | .fabricPacketReceive _ _ | .fabricAckReceive _ _ | .fabricNakReceive _ _
  | .ackIdleTimer _ | .laneFailure _ _ | .retrainComplete _ _ | .partnerTimeout _ | .cxlContainment _ | .hostLinkDown _
  | .correctedEccError _ _ | .uncorrectedEccError _ | .handlerCountAdvance _ | .powerLoss _ | .hostWritesToDeviceMemory _ _ => true
  | _ => false

/-- The integer element types: width and whether signed (spec/05 R103). -/
def intKinds : List (Nat × Bool) := [(8, true), (8, false), (16, true), (16, false), (32, true), (32, false), (64, true)]

/-- The outcome of an element-wise operation: its result in flight with a bound, at every enabled element within the width. -/
def vPut (o : VOp) (s : State) (t : ETy) (bound : Nat) (val : Nat → Nat) : Out :=
  .next (emit s bound [elemLand (vDest o s) (etyBits t / 8) (vBits o.w / etyBits t) (fun e => enabledAt s o.g (e * (etyBits t / 8))) val])

/-- The outcome of a vector compare: the mask pair of d[2:0] in flight. -/
def vMask (o : VOp) (s : State) (t : ETy) (c : Nat → Bool) : Out :=
  .next (emit s 2 (maskPairLands (2 * o.d.toNat) (etyBits t / 8) (vBits o.w / etyBits t) (fun e => enabledAt s o.g (e * (etyBits t / 8))) c))

/-- What VPACK narrows to (spec/08 R199). -/
def packPairs : List (ETy × ETy) :=
  [(.int 64 true, .int 32 true), (.int 32 true, .int 16 true), (.int 32 false, .int 16 false), (.int 16 true, .int 8 true),
   (.int 16 false, .int 8 false), (.flt fp32, .flt bf16)]

/-- What VUNPK widens to (spec/08 R199). -/
def unpackPairs : List (ETy × ETy) :=
  [(.int 32 true, .int 64 true), (.int 32 false, .int 64 true), (.int 16 true, .int 32 true), (.int 16 false, .int 32 false),
   (.int 8 true, .int 16 true), (.int 8 false, .int 16 false), (.flt bf16, .flt fp32), (.flt fp16, .flt fp32)]

end Sys2Proof
end

