-- ==== Sys2Proof/Certificates/Slice0/Obligations.lean ====
section
/-! DEFINITION. The statements for the provers. Each names the rules of spec/ it formalises. Unless it says otherwise a statement about
a slot operation holds for the executing core `s.cur`, with the operands as the bundle sees them at its issue. -/

open Sys2Proof Sys2Proof.Machine


/-! ## The S slots (spec/03, spec/05, spec/08) -/

/-- (1) R166, two operands: the value of each operation lands one vc later (MUL 3, DIV 20), for both scalar files.

(2) R166, logic, shifts, rotation and selection; a count is b[5:0].

(3) R166 and R167, one operand: counts of bits, and extension of the low n bits. -/
def Obligations.ScalarOperations : Prop :=
  (
    ∀ (o : SROp) (s : State), guardOn s o.g = true →
      let a := seeS s (isY o.u) o.a
      let b := seeS s (isY o.u) o.b
      let put := fun (bound : Nat) (v : W64) => (Host.Outcome.next (emit s bound [landS (isY o.u) o.d v]) : Out)
      exec (.add o) s = put 1 (BitVec.ofNat 64 (a.toNat + b.toNat)) ∧
      exec (.sub o) s = put 1 (BitVec.ofInt 64 ((a.toNat : Int) - b.toNat)) ∧
      exec (.mul o) s = put 3 (BitVec.ofNat 64 (a.toNat * b.toNat)) ∧
      exec (.mulh o) s = put 3 (BitVec.ofInt 64 (a.toInt * b.toInt / 2 ^ 64)) ∧
      exec (.mulhu o) s = put 3 (BitVec.ofNat 64 (a.toNat * b.toNat / 2 ^ 64)) ∧
      exec (.div o) s = put 20 (if b = 0 then BitVec.allOnes 64 else BitVec.ofInt 64 (a.toInt.tdiv b.toInt)) ∧
      exec (.divu o) s = put 20 (if b = 0 then BitVec.allOnes 64 else BitVec.ofNat 64 (a.toNat / b.toNat)) ∧
      exec (.rem o) s = put 20 (if b = 0 then a else BitVec.ofInt 64 (a.toInt.tmod b.toInt)) ∧
      exec (.remu o) s = put 20 (if b = 0 then a else BitVec.ofNat 64 (a.toNat % b.toNat))) ∧
  (
    ∀ (o : SROp) (s : State), guardOn s o.g = true →
      let a := seeS s (isY o.u) o.a
      let b := seeS s (isY o.u) o.b
      let n := b.toNat % 64
      let put := fun (v : W64) => (Host.Outcome.next (emit s 1 [landS (isY o.u) o.d v]) : Out)
      exec (.and o) s = put (a &&& b) ∧
      exec (.or o) s = put (a ||| b) ∧
      exec (.xor o) s = put (a ^^^ b) ∧
      exec (.andn o) s = put (a &&& ~~~b) ∧
      exec (.shl o) s = put (BitVec.ofNat 64 (a.toNat * 2 ^ n)) ∧
      exec (.shr o) s = put (BitVec.ofNat 64 (a.toNat / 2 ^ n)) ∧
      exec (.sar o) s = put (BitVec.ofInt 64 (a.toInt / 2 ^ n)) ∧
      exec (.ror o) s = put (BitVec.ofNat 64 (a.toNat / 2 ^ n + a.toNat % 2 ^ n * 2 ^ (64 - n))) ∧
      exec (.min o) s = put (BitVec.ofInt 64 (min a.toInt b.toInt)) ∧
      exec (.max o) s = put (BitVec.ofInt 64 (max a.toInt b.toInt)) ∧
      exec (.minu o) s = put (BitVec.ofNat 64 (min a.toNat b.toNat)) ∧
      exec (.maxu o) s = put (BitVec.ofNat 64 (max a.toNat b.toNat))) ∧
  (
    ∀ (o : SROp) (s : State), guardOn s o.g = true →
      let a := seeS s (isY o.u) o.a
      let w := 8 * 2 ^ o.b.toNat
      let put := fun (v : W64) => (Host.Outcome.next (emit s 1 [landS (isY o.u) o.d v]) : Out)
      (∃ n, n ≤ 64 ∧ a.toNat < 2 ^ (64 - n) ∧ (n < 64 → 2 ^ (63 - n) ≤ a.toNat) ∧ exec (.clz o) s = put (BitVec.ofNat 64 n)) ∧
      (∃ n, n ≤ 64 ∧ a.toNat % 2 ^ n = 0 ∧ (n < 64 → a.getLsbD n = true) ∧ exec (.ctz o) s = put (BitVec.ofNat 64 n)) ∧
      exec (.popc o) s = put (BitVec.ofNat 64 ((List.range 64).filter (fun i => a.getLsbD i)).length) ∧
      (o.b.toNat ≤ 2 → exec (.zext o) s = put (BitVec.ofNat 64 (a.toNat % 2 ^ w))) ∧
      (o.b.toNat ≤ 2 → exec (.sext o) s =
        put (if a.getLsbD (w - 1) then BitVec.ofInt 64 ((a.toNat % 2 ^ w : Nat) - 2 ^ w) else BitVec.ofNat 64 (a.toNat % 2 ^ w))))

/-- (1) R170: ADDC and SUBB, whatever the predicates hold; the pair at G takes the carry or borrow and its complement.

(2) R171 and R172: a compare or a predicate operation writes the pair 2m, 2m + 1 with its condition and the complement. -/
def Obligations.CarriesComparesAndPredicates : Prop :=
  (
    ∀ (o : SROp) (s : State),
      let a := (seeS s (isY o.u) o.a).toNat
      let b := (seeS s (isY o.u) o.b).toNat
      let c := if seeQ s (me s) o.g.toNat then 1 else 0
      exec (.addc o) s = .next (emit s 1 [landS (isY o.u) o.d (BitVec.ofNat 64 ((a + b + c) % 2 ^ 64)),
        .q o.g.toNat (decide (2 ^ 64 ≤ a + b + c)), .q (o.g.toNat + 1) (!decide (2 ^ 64 ≤ a + b + c))]) ∧
      exec (.subb o) s = .next (emit s 1 [landS (isY o.u) o.d (BitVec.ofInt 64 ((a : Int) - (b + c : Nat))),
        .q o.g.toNat (decide (a < b + c)), .q (o.g.toNat + 1) (!decide (a < b + c))])) ∧
  (
    ∀ (o : SROp) (s : State), guardOn s o.g = true →
      let a := seeS s (isY o.u) o.a
      let b := seeS s (isY o.u) o.b
      let p := seeQ s (me s) o.a.toNat
      let q := seeQ s (me s) o.b.toNat
      let put := fun (c : Bool) => (Host.Outcome.next (emit s 1 [.q (2 * o.d.toNat) c, .q (2 * o.d.toNat + 1) (!c)]) : Out)
      exec (.cmpeq o) s = put (decide (a.toNat = b.toNat)) ∧
      exec (.cmplt o) s = put (decide (a.toInt < b.toInt)) ∧
      exec (.cmpltu o) s = put (decide (a.toNat < b.toNat)) ∧
      exec (.cmple o) s = put (decide (a.toInt ≤ b.toInt)) ∧
      exec (.cmpleu o) s = put (decide (a.toNat ≤ b.toNat)) ∧
      exec (.pand o) s = put (p && q) ∧
      exec (.por o) s = put (p || q) ∧
      exec (.pxor o) s = put (p != q))

/-- R168, R169 and R175: the operations with an immediate. -/
def Obligations.ScalarImmediates : Prop :=
  (∀ (o : SIOp) (s : State), guardOn s o.g = true →
    let a := seeS s (isY o.u) o.a
    let i := o.imm.signExtend 64
    let n := o.imm.toNat % 64
    let put := fun (bound : Nat) (v : W64) => (Host.Outcome.next (emit s bound [landS (isY o.u) o.d v]) : Out)
    let pair := fun (c : Bool) => (Host.Outcome.next (emit s 1 [.q (2 * o.d.toNat) c, .q (2 * o.d.toNat + 1) (!c)]) : Out)
    exec (.addi o) s = put 1 (BitVec.ofInt 64 (a.toInt + o.imm.toInt)) ∧
    exec (.andi o) s = put 1 (a &&& i) ∧
    exec (.ori o) s = put 1 (a ||| i) ∧
    exec (.xori o) s = put 1 (a ^^^ i) ∧
    exec (.muli o) s = put 3 (BitVec.ofInt 64 (a.toInt * o.imm.toInt)) ∧
    exec (.cmpeqi o) s = pair (decide (a.toInt = o.imm.toInt)) ∧
    exec (.cmplti o) s = pair (decide (a.toInt < o.imm.toInt)) ∧
    exec (.cmpltui o) s = pair (decide (a.toNat < i.toNat)) ∧
    exec (.cmplei o) s = pair (decide (a.toInt ≤ o.imm.toInt)) ∧
    exec (.cmpleui o) s = pair (decide (a.toNat ≤ i.toNat)) ∧
    (o.imm.toNat < 64 →
      exec (.shli o) s = put 1 (BitVec.ofNat 64 (a.toNat * 2 ^ n)) ∧
      exec (.shri o) s = put 1 (BitVec.ofNat 64 (a.toNat / 2 ^ n)) ∧
      exec (.sari o) s = put 1 (BitVec.ofInt 64 (a.toInt / 2 ^ n)) ∧
      exec (.rori o) s = put 1 (BitVec.ofNat 64 (a.toNat / 2 ^ n + a.toNat % 2 ^ n * 2 ^ (64 - n))) ∧
      exec (.tokl o) s = put 1 (BitVec.ofNat 64 (a.toNat % 2 ^ 14 * 128 + (if n = 0 then 0 else 64 + n))))) ∧
  (∀ (o : SKOp) (s : State), guardOn s o.g = true →
    let put := fun (v : W64) => (Host.Outcome.next (emit s 1 [landS (isY o.u) o.d v]) : Out)
    exec (.movi o) s = put (BitVec.ofInt 64 o.imm.toInt) ∧
    exec (.movsh o) s = put (BitVec.ofNat 64 ((seeS s (isY o.u) o.d).toNat * 2 ^ 15 + o.imm.toNat)))

/-- R173, R174, R176, R130 and R177: parameters, stride and copy sets, RDVC, a GUARD (one whose operands differ traps with 0x07 and
their XOR), and MOVX into a scalar or w register, or into a vector register whose bank is at hand. -/
def Obligations.SetsParametersAndCopies : Prop :=
  ∀ (o : SROp) (s : State), guardOn s o.g = true →
    let a := seeS s (isY o.u) o.a
    let put := fun (v : W64) => (Host.Outcome.next (emit s 1 [landS (isY o.u) o.d v]) : Out)
    exec (.movp o) s = .next (emit s 1 [.p (o.d.toNat % 8) a]) ∧
    exec (.movfp o) s = put (seeP s (me s) (o.a.toNat % 8)) ∧
    exec (.gset o) s = .next (emit s 1 [.g (o.d.toNat % 8) o.b.toNat a]) ∧
    (let g := seeG s (me s) (o.a.toNat % 8)
     (o.b = 0 → exec (.gget o) s = put (g.base.setWidth 64)) ∧
     (o.b = 1 → exec (.gget o) s = put (g.str0.signExtend 64)) ∧
     (o.b = 2 → exec (.gget o) s = put (g.str1.signExtend 64)) ∧
     (o.b = 3 → exec (.gget o) s = put (g.ext0.setWidth 64)) ∧
     (o.b = 4 → exec (.gget o) s = put (g.ext1.setWidth 64))) ∧
    exec (.hset o) s = .next (emit s 1 [.h (o.d.toNat % 8) o.b.toNat a]) ∧
    (let h := seeH s (me s) (o.a.toNat % 8)
     (o.b = 0 → exec (.hget o) s = put (h.src.setWidth 64)) ∧
     (o.b = 1 → exec (.hget o) s = put (h.dst.setWidth 64)) ∧
     (o.b = 2 → exec (.hget o) s = put (h.len.setWidth 64)) ∧
     (o.b = 3 → exec (.hget o) s = put (h.sstr.signExtend 64)) ∧
     (o.b = 4 → exec (.hget o) s = put (h.dstr.signExtend 64)) ∧
     (o.b = 5 → exec (.hget o) s = put (h.rows.setWidth 64)) ∧
     (o.b = 6 → exec (.hget o) s = put (h.type.setWidth 64)) ∧
     (o.b = 7 → exec (.hget o) s = put (h.dev.setWidth 64)) ∧
     (o.b = 8 → exec (.hget o) s = put (h.group.setWidth 64))) ∧
    (seeX s (me s) o.a.toNat = seeY s (me s) o.b.toNat → exec (.guard o) s = .next s) ∧
    (seeX s (me s) o.a.toNat ≠ seeY s (me s) o.b.toNat →
      exec (.guard o) s = .next (slotTrap s 0 0x07 (seeX s (me s) o.a.toNat ^^^ seeY s (me s) o.b.toNat) 0) ∧
      ((me s).sys.trapvec.getLsbD 16 = true → (me s).sys.estate.getLsbD 2 = false → ∃ t, exec (.guard o) s = .next t ∧
        (me t).sys.tcause = 0x07 ∧ (me t).sys.taddr = seeX s (me s) o.a.toNat ^^^ seeY s (me s) o.b.toNat ∧ (me t).sys.taux.toNat / 2 ^ 32 = 0 ∧
        (me t).ctl.pc = ((me s).sys.trapvec.extractLsb' 0 16).toNat ∧ (me t).sys.epc.toNat = (me s).ctl.pc % 65536 ∧ t.mem = s.mem)) ∧
    ((me s).blocked = none → exec (.rdvc o) s = put (BitVec.ofNat 64 (vccOf s s.cur))) ∧
    (o.b = 0 → exec (.movx o) s = .next (emit s 2 [.x o.d.toNat a])) ∧
    (o.b = 1 → exec (.movx o) s = .next (emit s 2 [.y o.d.toNat a])) ∧
    (o.b = 5 → exec (.movx o) s = .next (emit s 2 [.w o.d.toNat (BitVec.allOnes 1024) (a.setWidth 1024)])) ∧
    (∀ f, f < 3 → o.b.toNat = f + 2 → BanksReady s [f] →
      exec (.movx o) s = .next (emit s 2 [.v (vSlot (me s) f o.d.toNat) (BitVec.allOnes 1024) (a.setWidth 1024)]))

/-! ## The V slots (spec/08) -/

/-- (1) R182 and R184, float types: one rounding of the exact value for every enabled element; the fused forms read d as third source.

(2) R182 and R187, integer types: results wrap to the element; the high halves take their signedness from the mnemonic. -/
def Obligations.VectorArithmetic : Prop :=
  (
    ∀ (o : VOp) (s : State) (f : FFmt), f ∈ [fp32, bf16, fp16] → VReady o s (.flt f) [] →
      let fmt := (me s).sys.fmt
      let w := 1 + f.e + f.m
      let x := fun (r : BitVec 5) (e : Nat) => decodeF f (elemAt (vReg o s r) w e)
      let rnd := roundF f (rmOf fmt) (satOf fmt)
      let sum := fun (l : List Ex) => exSum l (rmOf fmt)
      exec (.vadd o) s = vPut o s (.flt f) 4 (fun e => rnd (sum [x o.a e, x o.b e])) ∧
      exec (.vsub o) s = vPut o s (.flt f) 4 (fun e => rnd (sum [x o.a e, exNeg (x o.b e)])) ∧
      exec (.vmul o) s = vPut o s (.flt f) 4 (fun e => rnd (exMul (x o.a e) (x o.b e))) ∧
      exec (.vfma o) s = vPut o s (.flt f) 4 (fun e => rnd (sum [exMul (x o.a e) (x o.b e), x o.d e])) ∧
      exec (.vfms o) s = vPut o s (.flt f) 4 (fun e => rnd (sum [exMul (x o.a e) (x o.b e), exNeg (x o.d e)])) ∧
      exec (.vfnma o) s = vPut o s (.flt f) 4 (fun e => rnd (sum [x o.d e, exNeg (exMul (x o.a e) (x o.b e))])) ∧
      exec (.vdiv o) s = vPut o s (.flt f) 16 (fun e => rnd (exDiv (x o.a e) (x o.b e))) ∧
      exec (.vsqrt o) s = vPut o s (.flt f) 16 (fun e => rnd (exSqrt (x o.a e)))) ∧
  (
    ∀ (o : VOp) (s : State) (w : Nat) (sg : Bool), (w, sg) ∈ intKinds → VReady o s (.int w sg) [] →
      let x := fun (r : BitVec 5) (e : Nat) => elemAt (vReg o s r) w e
      let put := fun (v : Nat → Int) => vPut o s (.int w sg) 2 (fun e => ((v e) % (2 ^ w : Int)).toNat)
      exec (.vadd o) s = put (fun e => (x o.a e : Int) + x o.b e) ∧
      exec (.vsub o) s = put (fun e => (x o.a e : Int) - x o.b e) ∧
      exec (.vmul o) s = put (fun e => (x o.a e : Int) * x o.b e) ∧
      exec (.vfma o) s = put (fun e => (x o.a e : Int) * x o.b e + x o.d e) ∧
      exec (.vfms o) s = put (fun e => (x o.a e : Int) * x o.b e - x o.d e) ∧
      exec (.vfnma o) s = put (fun e => (x o.d e : Int) - x o.a e * x o.b e) ∧
      exec (.vmulhi o) s = put (fun e => toInt w (x o.a e) * toInt w (x o.b e) / (2 ^ w : Int)) ∧
      exec (.vmulhiu o) s = put (fun e => (x o.a e : Int) * x o.b e / (2 ^ w : Int)))

/-- (1) R183 and R191: minimum, maximum, absolute value, negation and class.

(2) R50 and R192 to R194: selection, moves, permutation, indices and copies between files. -/
def Obligations.VectorSelectionAndMoves : Prop :=
  (
    (∀ (o : VOp) (s : State) (f : FFmt), f ∈ [fp32, bf16, fp16] → VReady o s (.flt f) [] →
      let w := 1 + f.e + f.m
      let x := fun (r : BitVec 5) (e : Nat) => elemAt (vReg o s r) w e
      let k := fun (r : BitVec 5) (e : Nat) => orderKey f (x r e)
      let put := vPut o s (.flt f) 2
      let two := fun (v : Nat → Nat) (e : Nat) => if isNaN f (x o.a e) ∨ isNaN f (x o.b e) then nanOf f else v e
      let one := fun (v : Nat → Nat) (e : Nat) => if isNaN f (x o.a e) then nanOf f else v e
      exec (.vmin o) s = put (two fun e => if k o.a e ≤ k o.b e then x o.a e else x o.b e) ∧
      exec (.vmax o) s = put (two fun e => if k o.b e ≤ k o.a e then x o.a e else x o.b e) ∧
      exec (.vabs o) s = put (one fun e => x o.a e % 2 ^ (w - 1)) ∧
      exec (.vneg o) s = put (one fun e => (x o.a e + 2 ^ (w - 1)) % 2 ^ w) ∧
      exec (.vclass o) s = put (fun e => 2 ^ classBit f (x o.a e))) ∧
    (∀ (o : VOp) (s : State) (w : Nat) (sg : Bool), (w, sg) ∈ intKinds → VReady o s (.int w sg) [] →
      let x := fun (r : BitVec 5) (e : Nat) => elemAt (vReg o s r) w e
      let v := fun (r : BitVec 5) (e : Nat) => intVal w sg (x r e)
      let put := vPut o s (.int w sg) 2
      exec (.vmin o) s = put (fun e => if v o.a e ≤ v o.b e then x o.a e else x o.b e) ∧
      exec (.vmax o) s = put (fun e => if v o.b e ≤ v o.a e then x o.a e else x o.b e) ∧
      exec (.vneg o) s = put (fun e => (2 ^ w - x o.a e) % 2 ^ w) ∧
      exec (.vabs o) s = put (fun e => if sg then ((v o.a e).natAbs % 2 ^ w) else x o.a e))) ∧
  (
    ∀ (o : VOp) (s : State) (t : ETy), VReady o s t (copyBanks o.b.toNat) →
      let w := etyBits t
      let n := vBits o.w / w
      let x := fun (r : BitVec 5) (e : Nat) => elemAt (vReg o s r) w e
      let en := fun (e : Nat) => enabledAt s o.g (e * (w / 8))
      let m := BitVec.ofNat 1024 (elemMask w ((List.range n).filter en))
      let low := lowMask 1024 (vBits o.w)
      let copy := fun (f : Nat) (v : W1024) =>
        (Host.Outcome.next (emit s 2 [if f = 5 then .w o.d.toNat (m ||| ~~~low) v else .v (vSlot (me s) (f - 2) o.d.toNat) m v]) : Out)
      exec (.vsel o) s = .next (emit s 2 [elemLand (vDest o s) (w / 8) n (fun _ => true) (fun e => if en e then x o.a e else x o.b e)]) ∧
      exec (.vmov o) s = vPut o s t 2 (x o.a) ∧
      exec (.vperm o) s = vPut o s t 2 (fun e => x o.a (x o.b e % n)) ∧
      (∀ f, t = .flt f → f ∈ [fp32, bf16, fp16] →
        exec (.viota o) s = vPut o s t 2 (fun e => roundF f (rmOf (me s).sys.fmt) (satOf (me s).sys.fmt) (exInt e))) ∧
      (∀ k sg, t = .int k sg → o.w ≠ 3 → exec (.viota o) s = vPut o s t 2 (fun e => e)) ∧
      (2 ≤ o.b.toNat → o.b.toNat ≤ 5 → exec (.vmovx o) s = copy o.b.toNat (seeVR s (vFile o.u) o.a &&& low)) ∧
      (2 ≤ o.b.toNat → o.b.toNat ≤ 5 →
        exec (.vbcast o) s = copy o.b.toNat (BitVec.ofNat 1024 (packElems w ((List.range n).map (fun _ => x o.a 0))))) ∧
      (let v : W64 := match t with
         | .flt _ => BitVec.ofNat 64 (x o.a 0)
         | .int k sg => BitVec.ofInt 64 (intVal k sg (x o.a 0))
       (enabledAt s o.g 0 = false → exec (.vext o) s = .next s) ∧
       (enabledAt s o.g 0 = true → o.b = 0 → exec (.vext o) s = .next (emit s 2 [.x o.d.toNat v])) ∧
       (enabledAt s o.g 0 = true → o.b = 1 → exec (.vext o) s = .next (emit s 2 [.y o.d.toNat v]))))

/-- (1) R185 and R186: bitwise operations and shifts; a count is taken modulo the element's width in bits.

(2) R188 and R189: carry chains of every element within the width through the pair at G, and sums of narrow products in 32-bit lanes. -/
def Obligations.VectorBitsCarriesAndLanes : Prop :=
  (
    (∀ (o : VOp) (s : State) (t : ETy), arithTypes.has t = true → VReady o s t [] →
      let x := fun (r : BitVec 5) (e : Nat) => elemAt (vReg o s r) (etyBits t) e
      let put := vPut o s t 2
      exec (.vand o) s = put (fun e => x o.a e &&& x o.b e) ∧
      exec (.vor o) s = put (fun e => x o.a e ||| x o.b e) ∧
      exec (.vxor o) s = put (fun e => x o.a e ^^^ x o.b e) ∧
      exec (.vandn o) s = put (fun e => x o.a e &&& (2 ^ etyBits t - 1 - x o.b e))) ∧
    (∀ (o : VOp) (s : State) (w : Nat) (sg : Bool), (w, sg) ∈ intKinds → VReady o s (.int w sg) [] →
      let x := fun (r : BitVec 5) (e : Nat) => elemAt (vReg o s r) w e
      let n := fun (e : Nat) => x o.b e % w
      let i := o.b.toNat % w
      let put := vPut o s (.int w sg) 2
      exec (.vshl o) s = put (fun e => x o.a e * 2 ^ n e % 2 ^ w) ∧
      exec (.vshr o) s = put (fun e => x o.a e / 2 ^ n e) ∧
      exec (.vsar o) s = put (fun e => (toInt w (x o.a e) / (2 ^ n e : Int) % (2 ^ w : Int)).toNat) ∧
      exec (.vshli o) s = put (fun e => x o.a e * 2 ^ i % 2 ^ w) ∧
      exec (.vshri o) s = put (fun e => x o.a e / 2 ^ i) ∧
      exec (.vsari o) s = put (fun e => (toInt w (x o.a e) / (2 ^ i : Int) % (2 ^ w : Int)).toNat) ∧
      (∃ z : Nat → Nat, (∀ e, z e ≤ w ∧ x o.a e < 2 ^ (w - z e) ∧ (z e < w → 2 ^ (w - 1 - z e) ≤ x o.a e)) ∧ exec (.vclz o) s = put z) ∧
      exec (.vpopc o) s = put (fun e => ((List.range w).filter (fun b => (x o.a e).testBit b)).length))) ∧
  (
    (∀ (o : VOp) (s : State) (w : Nat) (sg : Bool), (w, sg) ∈ intKinds → VReady o s (.int w sg) [] →
      let sz := w / 8
      let n := vBits o.w / w
      let x := fun (r : BitVec 5) (e : Nat) => elemAt (vReg o s r) w e
      let c := fun (e : Nat) => if enabledAt s o.g (e * sz) then 1 else 0
      let put := fun (d : Nat → Nat) (out : Nat → Bool) =>
        (Host.Outcome.next (emit s 2 (elemLand (vDest o s) sz n (fun _ => true) d :: maskPairLands o.g.toNat sz n (fun _ => true) out)) : Out)
      exec (.vadc o) s = put (fun e => (x o.a e + x o.b e + c e) % 2 ^ w) (fun e => decide (2 ^ w ≤ x o.a e + x o.b e + c e)) ∧
      exec (.vsbc o) s = put (fun e => (((x o.a e : Int) - (x o.b e + c e : Nat)) % (2 ^ w : Int)).toNat)
        (fun e => decide (x o.a e < x o.b e + c e))) ∧
    (∀ (o : VOp) (s : State) (w : Nat) (sg : Bool), (w, sg) ∈ [(8, true), (8, false), (16, true), (16, false)] → VReady o s (.int w sg) [] →
      let r := 32 / w
      let term := fun (e j : Nat) => intVal w sg (elemAt (vReg o s o.a) w (e * r + j)) * intVal w sg (elemAt (vReg o s o.b) w (e * r + j))
      exec (.vmacw o) s = .next (emit s 4 [elemLand (vDest o s) 4 (vBits o.w / 32) (fun e => enabledAt s o.g (4 * e))
        (fun e => (((elemAt (vReg o s o.d) 32 e : Int) + ((List.range r).map (term e)).sum) % (2 ^ 32 : Int)).toNat)])) ∧
    (∀ (o : VOp) (s : State) (f : FFmt), f ∈ [bf16, fp16] → VReady o s (.flt f) [] →
      let fmt := (me s).sys.fmt
      let term := fun (e j : Nat) =>
        exMul (decodeF f (elemAt (vReg o s o.a) 16 (e * 2 + j))) (decodeF f (elemAt (vReg o s o.b) 16 (e * 2 + j)))
      exec (.vmacw o) s = .next (emit s 4 [elemLand (vDest o s) 4 (vBits o.w / 32) (fun e => enabledAt s o.g (4 * e))
        (fun e => roundF fp32 (rmOf fmt) (satOf fmt) (exSum [decodeF fp32 (elemAt (vReg o s o.d) 32 e), term e 0, term e 1] (rmOf fmt)))])))

/-- (1) R190: a compare writes the mask pair 2m, 2m + 1 at every byte of each enabled element; by value for floats, NaN false.

(2) R201 and R202: masks combined, moved and counted, within the width and where k(G) is 1. -/
def Obligations.VectorComparesAndMasks : Prop :=
  (
    (∀ (o : VOp) (s : State) (f : FFmt), f ∈ [fp32, bf16, fp16] → VReady o s (.flt f) [] →
      let w := 1 + f.e + f.m
      let x := fun (r : BitVec 5) (e : Nat) => elemAt (vReg o s r) w e
      let k := fun (r : BitVec 5) (e : Nat) => valueKey f (x r e)
      let put := fun (c : Nat → Bool) => vMask o s (.flt f) (fun e => !isNaN f (x o.a e) && !isNaN f (x o.b e) && c e)
      exec (.vcmpeq o) s = put (fun e => decide (k o.a e = k o.b e)) ∧
      exec (.vcmplt o) s = put (fun e => decide (k o.a e < k o.b e)) ∧
      exec (.vcmple o) s = put (fun e => decide (k o.a e ≤ k o.b e))) ∧
    (∀ (o : VOp) (s : State) (w : Nat) (sg : Bool), (w, sg) ∈ intKinds → VReady o s (.int w sg) [] →
      let x := fun (r : BitVec 5) (e : Nat) => elemAt (vReg o s r) w e
      let v := fun (r : BitVec 5) (e : Nat) => intVal w sg (x r e)
      let put := vMask o s (.int w sg)
      exec (.vcmpeq o) s = put (fun e => decide (x o.a e = x o.b e)) ∧
      exec (.vcmplt o) s = put (fun e => decide (v o.a e < v o.b e)) ∧
      exec (.vcmple o) s = put (fun e => decide (v o.a e ≤ v o.b e)) ∧
      exec (.vcmpltu o) s = put (fun e => decide (x o.a e < x o.b e)) ∧
      exec (.vcmpleu o) s = put (fun e => decide (x o.a e ≤ x o.b e)))) ∧
  (
    ∀ (o : VOp) (s : State) (t : ETy), VReady o s t [] →
      let n := vBits o.w / 8
      let k := fun (r : BitVec 5) => seeK s (me s) r.toNat
      let g := seeK s (me s) o.g.toNat
      let put := fun (v : W128) => (Host.Outcome.next (emit s 2 [.k o.d.toNat (g &&& lowMask 128 n) v]) : Out)
      let on := (List.range n).filter (fun i => (k o.a).getLsbD i && g.getLsbD i)
      let count := fun (c : Nat) => (Host.Outcome.next (emit s 2 [.v (vDest o s) (lowMask 1024 (vBits o.w)) (BitVec.ofNat 1024 c)]) : Out)
      exec (.kand o) s = put (k o.a &&& k o.b) ∧
      exec (.kor o) s = put (k o.a ||| k o.b) ∧
      exec (.kxor o) s = put (k o.a ^^^ k o.b) ∧
      exec (.kmov o) s = put (k o.a) ∧
      (o.w ≠ 3 → exec (.kpopc o) s = count on.length ∧ exec (.kfirst o) s = count (on.headD n)))

/-- (1) R195 and R196, integer types: the sum of the enabled elements, the extreme of them, and the running sums, whatever the tree's order.

(2) R195 and R196, float types: the fixed pairwise tree, each level rounded; the empty results; running sums rounded one by one. -/
def Obligations.VectorReductions : Prop :=
  (
    ∀ (o : VOp) (s : State) (w : Nat) (sg : Bool), (w, sg) ∈ intKinds → o.w ≠ 3 → VReady o s (.int w sg) [] →
      let n := vBits o.w / w
      let x := fun (e : Nat) => elemAt (vReg o s o.a) w e
      let v := fun (e : Nat) => intVal w sg (x e)
      let on := (List.range n).filter (fun e => enabledAt s o.g (e * (w / 8)))
      let root := fun (r : Nat) => (Host.Outcome.next (emit s 6 [.v (vDest o s) (lowMask 1024 (vBits o.w)) (BitVec.ofNat 1024 r)]) : Out)
      exec (.vredadd o) s = root ((on.map x).sum % 2 ^ w) ∧
      (on ≠ [] → ∃ e ∈ on, (∀ i ∈ on, v i ≤ v e) ∧ exec (.vredmax o) s = root (x e)) ∧
      (on ≠ [] → ∃ e ∈ on, (∀ i ∈ on, v e ≤ v i) ∧ exec (.vredmin o) s = root (x e)) ∧
      (on = [] → exec (.vredmax o) s = root (ofInt w (intMin w sg)) ∧ exec (.vredmin o) s = root (ofInt w (intMax w sg))) ∧
      exec (.vscan o) s = .next (emit s 6 [elemLand (vDest o s) (w / 8) n (fun e => enabledAt s o.g (e * (w / 8)))
        (fun e => if e < n ∧ enabledAt s o.g (e * (w / 8)) then ((on.filter (fun i => i ≤ e)).map x).sum % 2 ^ w else 0)])) ∧
  (
    ∀ (o : VOp) (s : State) (f : FFmt), f ∈ [fp32, bf16, fp16] → VReady o s (.flt f) [] →
      let w := 1 + f.e + f.m
      let n := vBits o.w / w
      let fmt := (me s).sys.fmt
      let rnd := roundF f (rmOf fmt) (satOf fmt)
      let x := fun (e : Nat) => elemAt (vReg o s o.a) w e
      let leaves := (List.range n).map (fun e => if enabledAt s o.g (e * (w / 8)) then some (rnd (decodeF f (x e))) else none)
      let add := fun (a b : Nat) => rnd (exSum [decodeF f a, decodeF f b] (rmOf fmt))
      let pick := fun (less : Bool) (a b : Nat) => vPick (.flt f) less a b
      let root := fun (c : Nat → Nat → Nat) (empty : Nat) => (Host.Outcome.next (emit s 6 [.v (vDest o s) (lowMask 1024 (vBits o.w))
        (BitVec.ofNat 1024 ((treeRoot c (Nat.log2 n) leaves).getD empty % 2 ^ w))]) : Out)
      exec (.vredadd o) s = root add (if rmOf fmt = 3 then 2 ^ (w - 1) else 0) ∧
      exec (.vredmax o) s = root (pick false) (2 ^ (w - 1) + (2 ^ f.e - 1) * 2 ^ f.m) ∧
      exec (.vredmin o) s = root (pick true) ((2 ^ f.e - 1) * 2 ^ f.m) ∧
      (∀ sums : Nat → Option Nat, sums 0 = none →
        (∀ e, sums (e + 1) = if enabledAt s o.g (e * (w / 8)) then
          some (match sums e with | none => rnd (decodeF f (x e)) | some y => add y (x e)) else sums e) →
        exec (.vscan o) s = .next (emit s 6 [elemLand (vDest o s) (w / 8) n (fun e => enabledAt s o.g (e * (w / 8)))
          (fun e => if e < n ∧ enabledAt s o.g (e * (w / 8)) then (sums (e + 1)).getD 0 else 0)])))

/-- R197 to R199: conversions between types, quantisation and its inverse, packing and unpacking. -/
def Obligations.VectorConversions : Prop :=
  ∀ (o : VOp) (s : State) (t : ETy), VReady o s t [] →
    let fmt := (me s).sys.fmt
    let w := etyBits t
    let n := vBits o.w / w
    let x := fun (r : BitVec 5) (k e : Nat) => elemAt (vReg o s r) k e
    let cv := fun (u : ETy) (v : Nat) => convert t u (rmOf fmt) (satOf fmt) v
    let put := fun (sz cnt unit : Nat) (v : Nat → Nat) =>
      (Host.Outcome.next (emit s 4 [elemLand (vDest o s) sz cnt (fun e => enabledAt s o.g (e * unit)) v]) : Out)
    (∀ u, etyOf o.b.toNat = some u → o.b.toNat < 12 →
      let l := max w (etyBits u)
      exec (.vcvt o) s = put (etyBits u / 8) (vBits o.w / l) (l / 8) (fun e => cv u (x o.a w e))) ∧
    (∀ f, t = .flt f → f ∈ [e4m3, e5m2] →
      exec (.vqnt o) s = put 1 (vBits o.w / 32) 4 (fun e => roundF f (rmOf fmt) (satOf fmt)
        (exDiv (decodeF fp32 (x o.a 32 e)) (decodeF fp32 (x o.b 32 e)))) ∧
      exec (.vdqnt o) s = put 4 (vBits o.w / 32) 4 (fun e => roundF fp32 (rmOf fmt) (satOf fmt)
        (exMul (decodeF f (x o.a 8 e)) (decodeF fp32 (x o.b 32 e))))) ∧
    (∀ u, (t, u) ∈ packPairs → exec (.vpack o) s = put (w / 16) (2 * n) (w / 16) (fun e => cv u (if e < n then x o.a w e else x o.b w (e - n)))) ∧
    (∀ u, (t, u) ∈ unpackPairs →
      exec (.vunpk o) s = put (w / 4) (n / 2) (w / 4) (fun e => cv u (x o.a w (o.b.toNat % 2 * (n / 2) + e))))

/-- R53, R93 and R179: a V operation whose element type its list does not name raises TCAUSE 0x09 with the type code, whatever its mask: the
codes 12 to 15 for every operation, integer types for the float operations, float types for the integer ones, FP8 for the arithmetic; of the
conversions VQNT and VDQNT take FP8 alone (R198), VMACW, VPACK and VUNPK the types of their own tables (R189, R199). -/
def Obligations.VectorTypeTraps : Prop :=
  ∀ (o : VOp) (s : State),
    let code := vCode (me s) (vFile o.u)
    let traps := fun (i : Instr) => exec i s = .next (slotTrap s o.u.toNat 0x09 0 (BitVec.ofNat 32 code))
    let float : List Instr := [.vdiv o, .vsqrt o, .vclass o]
    let int : List Instr := [.vshl o, .vshr o, .vsar o, .vshli o, .vshri o, .vsari o, .vmulhi o, .vmulhiu o, .vadc o, .vsbc o, .vcmpltu o,
      .vcmpleu o, .vclz o, .vpopc o]
    let arith : List Instr := [.vadd o, .vsub o, .vmul o, .vfma o, .vfms o, .vfnma o, .vmin o, .vmax o, .vabs o, .vneg o, .vand o, .vor o, .vxor o,
      .vandn o, .vcmpeq o, .vcmplt o, .vcmple o, .vredadd o, .vredmax o, .vredmin o, .vscan o]
    let conv : List Instr := [.viota o, .vmacw o, .vcvt o, .vqnt o, .vdqnt o, .vpack o, .vunpk o]
    let any : List Instr := [.vsel o, .vmov o, .vmovx o, .vbcast o, .vext o, .vperm o, .kand o, .kor o, .kxor o, .kmov o, .kpopc o, .kfirst o]
    (12 ≤ code → ∀ i ∈ float ++ int ++ arith ++ conv ++ any, traps i) ∧
    (∀ w sg, etyOf code = some (.int w sg) → ∀ i ∈ float, traps i) ∧
    (∀ f, etyOf code = some (.flt f) → ∀ i ∈ int, traps i) ∧
    (∀ f, etyOf code = some (.flt f) → f ∈ [e4m3, e5m2] → ∀ i ∈ float ++ int ++ arith ++ [.viota o], traps i) ∧
    (code ∈ [0, 3, 4, 9, 10, 11] → traps (.vmacw o)) ∧ (code < 9 ∨ code = 11 → traps (.vqnt o) ∧ traps (.vdqnt o)) ∧
    (code ∈ [1, 2, 7, 8, 9, 10] → traps (.vpack o)) ∧ (code ∈ [0, 9, 10, 11] → traps (.vunpk o))

/-! ## The F slot (spec/08, spec/09) -/

/-- (1) R203: every special function rounds its exact value once, for all 1,024 bits of w[a] as elements of FT, with bound 14; under a reserved code of
FT, 3 to 7, each raises TCAUSE 0x09 with that code (spec/05 R92).

(2) R204 and R206: FRAND writes eight blocks of the counter's generator and advances the counter by one; FMOVX copies w[a] into a
scalar or a vector register. -/
def Obligations.SpecialFunctionsAndRandomBits : Prop :=
  (
    ∀ (o : FOp) (s : State), guardOn s o.g = true →
      let fmt := (me s).sys.fmt
      let code := (fmt.extractLsb' 20 3).toNat
      (code = 0 → ftOf fmt = some fp32) ∧ (code = 1 → ftOf fmt = some bf16) ∧ (code = 2 → ftOf fmt = some fp16) ∧
      (3 ≤ code → ∀ i ∈ [Instr.fexp2 o, .flog2 o, .frcp o, .frsq o, .fsinpi o, .fcospi o, .ftanh o, .fsigm o, .ferf o],
        exec i s = .next (slotTrap s 10 0x09 0 (BitVec.ofNat 32 code))) ∧
      ∀ f : FFmt, ftOf fmt = some f →
      let w := 1 + f.e + f.m
      let x := fun (e : Nat) => elemAt (seeW s (me s) o.a.toNat).toNat w e
      let put := fun (fn : Fn) => (Host.Outcome.next (emit s 14 [.w o.d.toNat (BitVec.allOnes 1024)
        (BitVec.ofNat 1024 (packElems w ((List.range (1024 / w)).map (fun e => fnRound fn f (rmOf fmt) (satOf fmt) (x e)))))]) : Out)
      exec (.fexp2 o) s = put .exp2 ∧ exec (.flog2 o) s = put .log2 ∧ exec (.frcp o) s = put .rcp ∧ exec (.frsq o) s = put .rsq ∧
      exec (.fsinpi o) s = put .sinpi ∧ exec (.fcospi o) s = put .cospi ∧ exec (.ftanh o) s = put .tanh ∧
      exec (.fsigm o) s = put .sigm ∧ exec (.ferf o) s = put .erf) ∧
  (
    ∀ (o : FOp) (s : State), guardOn s o.g = true →
      let y := (me s).sys
      let a := seeW s (me s) o.a.toNat
      exec (.frand o) s = .next (emit (emit s 4 [.w o.d.toNat (BitVec.allOnes 1024)
        (BitVec.ofNat 1024 (packElems 128 ((List.range 8).map (philoxBlock y.rngCtr y.rngKey))))]) 1 [.sys 0x021 (y.rngCtr + 1)]) ∧
      (o.b = 0 → exec (.fmovx o) s = .next (emit s 2 [.x o.d.toNat (BitVec.ofNat 64 a.toNat)])) ∧
      (o.b = 1 → exec (.fmovx o) s = .next (emit s 2 [.y o.d.toNat (BitVec.ofNat 64 a.toNat)])) ∧
      (∀ f, f < 3 → o.b.toNat = f + 2 → BanksReady s [f] →
        exec (.fmovx o) s = .next (emit s 2 [.v (vSlot (me s) f o.d.toNat) (BitVec.allOnes 1024) a])))

/-- (1) R213, R217, R218 and R219: the binary operations pair all points, or rank with rank when the tag sets meet; the tag sets unite.
DAFF and DMAP map one operand point by point.

(2) R215, R216 and R220: point masses with no tags, elements built from samples with the others and the tags kept, and copies of an
image that set its tags.

(3) R221 to R224: moments, quantiles, probabilities and the raw parts, read out into a w register; an empty element reads NaN. -/
def Obligations.DistributionOperations : Prop :=
  (
    ∀ (o : FOp) (s : State), guardOn s o.g = true →
      let c := me s
      let rm := rmOf c.sys.fmt
      let sat := satOf c.sys.fmt
      let el := fun (r : BitVec 5) (e : Nat) => canon rm sat (seeD s c r.toNat).toNat e
      let ta := seeTag s c o.a.toNat
      let tb := seeTag s c o.b.toNat
      let rank := ta &&& tb != 0
      let whole := fun (bound : Nat) (l : Nat → Option (List Point)) (tag : BitVec 16) =>
        (Host.Outcome.next (emit s bound [.d o.d.toNat (BitVec.allOnes 6144) (imageOf ((List.range 16).map l)) (some tag)]) : Out)
      let bin := fun (op : Ex → Ex → Ex) => whole 28 (fun e =>
        (el o.a e).bind (fun p => (el o.b e).map (fun q =>
          condense rm sat (if rank then 32768 else 2 ^ 30) (pairing rank op p q)))) (ta ||| tb)
      let k := fun (e : Nat) => decodeF fp32 (elemAt (seeW s c o.b.toNat).toNat 32 e)
      exec (.dadd o) s = bin (fun a b => exSum [a, b] rm) ∧
      exec (.dsub o) s = bin (fun a b => exSum [a, exNeg b] rm) ∧
      exec (.dmul o) s = bin exMul ∧
      exec (.dmax o) s = bin (exPick false) ∧
      exec (.dmin o) s = bin (exPick true) ∧
      exec (.daff o) s = whole 12 (fun e => (el o.a e).map (fun p =>
        condense rm sat (32768) (p.map (fun q => (exSum [exMul (k e) (ptEx q), k (16 + e)] rm, q.2))))) ta ∧
      exec (.dmap o) s = whole 28 (fun e => (el o.a e).map (fun p =>
        mergeRuns (stableSort (fun a b => decide (orderKey fp32 a.1 < orderKey fp32 b.1))
          (p.map (fun q => (mapFn o.b.toNat rm sat q.1, q.2)))))) ta) ∧
  (
    ∀ (o : FOp) (s : State), guardOn s o.g = true →
      let c := me s
      let rm := rmOf c.sys.fmt
      let sat := satOf c.sys.fmt
      let img := seeD s c o.a.toNat
      let w := fun (r : BitVec 5) (e : Nat) => elemAt (seeW s c r.toNat).toNat 32 e
      let put := fun (bound : Nat) (mask v : DImage) (tag : Option (BitVec 16)) =>
        (Host.Outcome.next (emit s bound [.d o.d.toNat mask v tag]) : Out)
      let all := BitVec.allOnes 6144
      exec (.dpt o) s = put 4 all (imageOf ((List.range 16).map (fun e =>
        some [(if isNaN fp32 (w o.a e) then nan32 else w o.a e, 32768)]))) (some 0) ∧
      (∀ m f n : Nat, m = 2 ^ (o.b.toNat % 8 + 1) → n = 32 / m → f = o.b.toNat / 8 * n →
        exec (.dfrom o) s = put 28 (BitVec.ofNat 6144 (onesAt (256 * f) (256 * n) ||| onesAt (4096 + 128 * f) (128 * n)))
          (imageOf ((List.range 16).map (fun e => if f ≤ e ∧ e < f + n then
            some (condense rm sat (32768) ((List.range m).map (fun i => (decodeF fp32 (w o.a ((e - f) * m + i)), 32768 / m)))) else none)))
          none) ∧
      exec (.dtag o) s = put 2 all img (some (BitVec.ofNat 16 (2 ^ (o.b.toNat % 16)))) ∧
      exec (.dtags o) s = put 2 all img (some (BitVec.ofNat 16 (seeW s c o.b.toNat).toNat)) ∧
      exec (.dcanon o) s = put 12 all (imageOf ((List.range 16).map (canon rm sat img.toNat))) (some (seeTag s c o.a.toNat)) ∧
      exec (.dmov o) s = put 2 all img (some (seeTag s c o.a.toNat))) ∧
  (
    ∀ (o : FOp) (s : State), guardOn s o.g = true →
      let c := me s
      let rm := rmOf c.sys.fmt
      let sat := satOf c.sys.fmt
      let img := seeD s c o.a.toNat
      let b := fun (e : Nat) => elemAt (seeW s c o.b.toNat).toNat 32 e
      let read := fun (h : Nat) (f : Nat → List Point → Nat) =>
        (Host.Outcome.next (emit s 12 [.w o.d.toNat (BitVec.ofNat 1024 (onesAt (512 * h) 512))
          (BitVec.ofNat 1024 (packElems 32 ((List.range 16).map (fun e => ((canon rm sat img.toNat e).map (f e)).getD nan32)) <<< (512 * h)))]) : Out)
      let raw := fun (v : W1024) => (Host.Outcome.next (emit s 2 [.w o.d.toNat (BitVec.allOnes 1024) v]) : Out)
      exec (.dmom o) s = read (o.b.toNat / 4 % 2) (fun _ p => moment (o.b.toNat % 4) rm sat p) ∧
      exec (.dqnt o) s = read 0 (fun e p => quantile (b e) p) ∧
      exec (.dcdf o) s = read 0 (fun e p => cdfAt (b e) p) ∧
      (o.b.toNat < 8 → exec (.dsupp o) s = raw (img.extractLsb' (1024 * (o.b.toNat % 8)) 1024)) ∧
      (8 ≤ o.b.toNat → o.b.toNat < 16 → exec (.dsupp o) s = raw (img.extractLsb' (4096 + 1024 * (o.b.toNat % 8)) 1024)) ∧
      (o.b.toNat = 16 → exec (.dsupp o) s = raw (BitVec.ofNat 1024 (seeTag s c o.a.toNat).toNat)))

/-- R211: whatever its candidates, Condense gives between one and eight points in ascending order of value, each mass a positive
multiple of 4,096, and the masses sum to 32,768; so what a binary operation, DFROM or DAFF writes is a populated element. -/
def Obligations.CondenseGivesAPopulatedElement : Prop :=
  ∀ (rm : BitVec 2) (sat : Bool) (t : Nat) (c : List (Ex × Nat)),
    let p := condense rm sat t c
    1 ≤ p.length ∧ p.length ≤ 8 ∧ (p.map Prod.snd).sum = 32768 ∧ (∀ q ∈ p, 0 < q.2 ∧ q.2 % 4096 = 0) ∧
    p.Pairwise (fun a b => orderKey fp32 a.1 ≤ orderKey fp32 b.1)

/-! ## The L slots and memory (spec/10 to spec/12) -/

/-- (1) R259 and R260, loads into a scalar register: base plus scaled displacement or index modulo 2^57, bound 8 in the window and 40
elsewhere; the parts become outstanding.

(2) R260, loads into a scalar pair or a vector, w, mask or distribution register. -/
def Obligations.LoadsAtIssue : Prop :=
  (
    ∀ (o : LOp) (s : State), guardOn s o.g = true → BanksReady s (fileBanks o.f3) →
      let base : Int := (seeS s (isY o.u) o.a).toNat
      let off := fun (k : Int) => ((base + o.m4.toInt * k) % (2 ^ 57 : Int)).toNat
      let idx := fun (k : Int) => ((base + (seeS s (isY o.u) (o.m4.setWidth 5)).toInt * k) % (2 ^ 57 : Int)).toNat
      let runs := fun (i : Instr) (a n : Nat) (signed : Bool) => ∀ p, checkAll s { r := true } (parts a n) = .ok p →
        exec i s = .next (issueLoad (touchAll s p) (if 2 ^ 56 ≤ a ∧ a < 2 ^ 56 + 2 ^ 24 then 8 else 40)
          (.scalar (o.f3 == 1) o.d.toNat n signed) none p)
      runs (.ldB o) (off 1) 1 true ∧ runs (.ldBz o) (off 1) 1 false ∧ runs (.ldH o) (off 2) 2 true ∧ runs (.ldHz o) (off 2) 2 false ∧
      runs (.ldW o) (off 4) 4 true ∧ runs (.ldWz o) (off 4) 4 false ∧ runs (.ldD o) (off 8) 8 false ∧
      runs (.ldxD o) (idx 8) 8 false ∧ runs (.ldxW o) (idx 4) 4 true) ∧
  (
    ∀ (o : LOp) (s : State), guardOn s o.g = true → BanksReady s (fileBanks o.f3) →
      let base : Int := (seeS s (isY o.u) o.a).toNat
      let off := fun (k : Int) => ((base + o.m4.toInt * k) % (2 ^ 57 : Int)).toNat
      let runs := fun (i : Instr) (n : Nat) (d : LoadDest) => ∀ p, checkAll s { r := true } (parts (off n) n) = .ok p →
        exec i s = .next (issueLoad (touchAll s p) (if 2 ^ 56 ≤ off n ∧ off n < 2 ^ 56 + 2 ^ 24 then 8 else 40) d none p)
      let wide := fun (bits : Nat) => if o.f3 = 5 then LoadDest.wreg o.d.toNat bits else .vec (vSlot (me s) (o.f3.toNat - 2) o.d.toNat) bits
      runs (.ldQ o) 16 (if o.f3.toNat < 2 then .pair (o.f3 == 1) o.d.toNat else wide 128) ∧
      runs (.ldv256 o) 32 (wide 256) ∧ runs (.ldv512 o) 64 (wide 512) ∧ runs (.ldv1024 o) 128 (wide 1024) ∧
      runs (.ldk o) 16 (.kreg o.d.toNat) ∧ runs (.ldd o) 768 (.dreg o.d.toNat))

/-- (1) R260 and R262, stores: the bytes read at issue stand outstanding, in little-endian order, at the address computed; nothing performs yet.
A provisional task's stand outstanding where they go through the window and are held otherwise (log entry 84 on the aperture).

(2) R264: a gather and a scatter access every enabled element at the base plus the element of the offset register; a scatter of a
provisional task is held as its stores are (R262). -/
def Obligations.StoresAndScatterAtIssue : Prop :=
  (
    ∀ (o : LOp) (s : State), guardOn s o.g = true → BanksReady s (fileBanks o.f3) →
      let base : Int := (seeS s (isY o.u) o.a).toNat
      let off := fun (k : Int) => ((base + o.m4.toInt * k) % (2 ^ 57 : Int)).toNat
      let idx := fun (k : Int) => ((base + (seeS s (isY o.u) (o.m4.setWidth 5)).toInt * k) % (2 ^ 57 : Int)).toNat
      let runs := fun (i : Instr) (a n v : Nat) => ∀ p, checkAll s { w := true } (parts a n) = .ok p →
        (greenOf s s.cur = true → GreenStore (touchAll s p) none (bytesOf v n) p (exec i s)) ∧
        (greenOf s s.cur = false → exec i s = .next (modMe (invalidateAt (touchAll s p) p) fun c => { c with
          acc := c.acc ++ p.map (fun q => { id := c.nextId, kind := .store, win := q.win, mt := q.mt, pa := q.pa, n := q.n, off := q.off
                                            data := ((bytesOf v n).drop q.off).take q.n, no := c.bundleNo, task := c.task
                                            va := q.va, stamp := s.tick })
          nextId := c.nextId + 1 }))
      let x := (seeS s (o.f3 == 1) o.d).toNat
      let wide := if o.f3 = 5 then (seeW s (me s) o.d.toNat).toNat else (seeVR s (o.f3.toNat - 2) o.d).toNat
      runs (.stB o) (off 1) 1 x ∧ runs (.stH o) (off 2) 2 x ∧ runs (.stW o) (off 4) 4 x ∧ runs (.stD o) (off 8) 8 x ∧
      runs (.stQ o) (off 16) 16 (if o.f3.toNat < 2 then x + 2 ^ 64 * (seeS s (o.f3 == 1) (o.d + 1)).toNat else wide) ∧
      runs (.stv256 o) (off 32) 32 wide ∧ runs (.stv512 o) (off 64) 64 wide ∧ runs (.stv1024 o) (off 128) 128 wide ∧
      runs (.stk o) (off 16) 16 (seeK s (me s) o.d.toNat).toNat ∧ runs (.std o) (off 768) 768 (seeD s (me s) o.d.toNat).toNat ∧
      runs (.stxD o) (idx 8) 8 x ∧ runs (.stxW o) (idx 4) 4 x) ∧
  (
    ∀ (o : LOp) (s : State) (w : Nat), guardOn s o.g = true → BanksReady s (fileBanks o.f3) →
      (w = 32 ∧ vCode (me s) (o.f3.toNat - 2) ∈ [0, 3, 4] ∨ w = 64 ∧ vCode (me s) (o.f3.toNat - 2) = 11) →
      let offs := (seeVR s (o.f3.toNat - 2) (o.d + 1)).toNat
      let on := (List.range (1024 / w)).filter (fun e => enabledAt s o.m4 (e * (w / 8)))
      let ea := fun (e : Nat) => ((((seeS s (isY o.u) o.a).toNat : Int) + toInt w (elemAt offs w e)) % (2 ^ 57 : Int)).toNat
      let l := gatherParts w (on.map (fun e => (e, ea e)))
      (∀ p, checkAll s { r := true } l = .ok p →
        exec (.vgather o) s = .next (issueLoad (touchAll s p)
          (if on.all (fun e => decide (2 ^ 56 ≤ ea e ∧ ea e < 2 ^ 56 + 2 ^ 24)) then 8 else 40)
          (.gather (vSlot (me s) (o.f3.toNat - 2) o.d.toNat) (w / 8) (BitVec.ofNat 1024 (elemMask w on))) none p)) ∧
      (∀ p, greenOf s s.cur = true → checkAll s { w := true } l = .ok p →
        GreenStore (touchAll s p) none (bytesOf (seeVR s (o.f3.toNat - 2) o.d).toNat 128) p (exec (.vscatter o) s)) ∧
      (∀ p, greenOf s s.cur = false → checkAll s { w := true } l = .ok p →
        exec (.vscatter o) s = .next (modMe (invalidateAt (touchAll s p) p) fun c => { c with
          acc := c.acc ++ mkAccs c s.tick .store none none (bytesOf (seeVR s (o.f3.toNat - 2) o.d).toNat 128) p, nextId := c.nextId + 1 })))

/-- (1) R247 and R240: an aligned acquire load and release store, with the scope of m4[2:0], a release of a provisional task held as its stores
are (R262); a misaligned one raises TCAUSE 0x06 with its address, whatever its translation and permission: the model's choice (log entry 13,
DEDUCED).

(2) R249, R252, R263 and R323: FENCE and DRAIN join the outstanding accesses, or wait while the task is provisional and holds stores; PREF
changes no register and no byte of memory. -/
def Obligations.OrderingInstructions : Prop :=
  (
    ∀ (o : LOp) (s : State), guardOn s o.g = true →
      let a := (seeS s (isY o.u) o.a).toNat % 2 ^ 57
      let loads := fun (i : Instr) (n : Nat) (signed : Bool) =>
        (∀ p, BanksReady s (fileBanks o.f3) → a % n = 0 → checkAll s { r := true } (parts a n) = .ok p →
          exec i s = .next (issueLoad (touchAll s p) 40 (.scalar (o.f3 == 1) o.d.toNat n signed) (some (o.m4.toNat % 8)) p)) ∧
        (a % n ≠ 0 → exec i s = .next (slotTrap s o.u.toNat 0x06 (BitVec.ofNat 64 a) 0))
      let stores := fun (i : Instr) (n : Nat) =>
        (∀ p, BanksReady s (fileBanks o.f3) → greenOf s s.cur = true → a % n = 0 → checkAll s { w := true } (parts a n) = .ok p →
          GreenStore (touchAll s p) (some (o.m4.toNat % 8)) (bytesOf (seeS s (o.f3 == 1) o.d).toNat n) p (exec i s)) ∧
        (∀ p, BanksReady s (fileBanks o.f3) → greenOf s s.cur = false → a % n = 0 → checkAll s { w := true } (parts a n) = .ok p →
          exec i s = .next (modMe (invalidateAt (touchAll s p) p) fun c => { c with
            acc := c.acc ++ mkAccs c s.tick .store none (some (o.m4.toNat % 8)) (bytesOf (seeS s (o.f3 == 1) o.d).toNat n) p
            nextId := c.nextId + 1 })) ∧
        (a % n ≠ 0 → exec i s = .next (slotTrap s o.u.toNat 0x06 (BitVec.ofNat 64 a) 0))
      loads (.ldaW o) 4 true ∧ loads (.ldaD o) 8 false ∧ stores (.stlW o) 4 ∧ stores (.stlD o) 8) ∧
  (
    (∀ (o : FenceOp) (s : State), guardOn s o.g = true →
      let entry := (Host.Outcome.next (modMe s fun c => { c with
        acc := c.acc ++ [{ id := c.nextId, kind := .fence o.pred o.succ o.scope.toNat, no := c.bundleNo, task := c.task, stamp := s.tick }]
        nextId := c.nextId + 1 }) : Out)
      (holdsStore s = false → exec (.fence o) s = entry) ∧
      (o.pred.getLsbD 1 = false → o.pred.getLsbD 5 = false → exec (.fence o) s = entry) ∧
      (holdsStore s = true → o.pred.getLsbD 1 = true ∨ o.pred.getLsbD 5 = true →
        exec (.fence o) s = .next (modMe s fun c => { c with wait := .green, mark := .blocked }))) ∧
    (∀ (o : LOp) (s : State), guardOn s o.g = true →
      (holdsStore s = false → exec (.drain o) s = .next (modMe s fun c => { c with
        acc := c.acc ++ [{ id := c.nextId, kind := .drain, no := c.bundleNo, task := c.task, stamp := s.tick }], nextId := c.nextId + 1 })) ∧
      (holdsStore s = true → exec (.drain o) s = .next (modMe s fun c => { c with wait := .green, mark := .blocked })) ∧
      (∃ t, exec (.pref o) s = .next t ∧ t.cores = s.cores ∧ t.tasks = s.tasks ∧ t.mem = s.mem ∧ t.hostMem = s.hostMem)))

/-- (1) R267, R268 and R240: an aligned atomic of a task that is not provisional becomes outstanding with its operands, acquire and release
of its scope, and returns the old value when m4[3] is set; a provisional task waits, a misaligned address traps. That a misaligned one of a
provisional task waits, and that the trap comes whatever the translation, are the model's choices (log entries 64, DESIGN CHOICE, and 13,
DEDUCED).

(2) R269 and R270: an ordered atomic takes the next sequence number of its flow, returns the old value, and awaits its home slice; it waits
and traps as the other atomics do (log entries 64 and 13). -/
def Obligations.AtomicsAtIssue : Prop :=
  (
    ∀ (o : LOp) (s : State), guardOn s o.g = true →
      let a := (seeS s (isY o.u) o.a).toNat % 2 ^ 57
      let ro := o.m4.getLsbD 3
      let sc := some (o.m4.toNat % 8)
      let runs := fun (i : Instr) (n : Nat) (op : AtomOp) =>
        (∀ p, greenOf s s.cur = false → a % n = 0 → checkAll s { r := true, w := true } (parts a n) = .ok p →
          exec i s = .next (modMe (invalidateAt (touchAll s p) p) fun c => { c with
            fresh := if ro then c.fresh ++ [⟨nowOf s s.cur + 64, .load c.nextId p.length (.scalar (o.f3 == 1) o.d.toNat n false) 0 0⟩] else c.fresh
            acc := c.acc ++ mkAccs c s.tick (.atomic op (seeS s (o.f3 == 1) o.d) (if op = .cas then seeS s (o.f3 == 1) (o.d + 1) else 0) ro (me s).sys.fmt) sc sc [] p
            nextId := c.nextId + 1 })) ∧
        (greenOf s s.cur = true → exec i s = .next (modMe s fun c => { c with wait := .green, mark := .blocked })) ∧
        (greenOf s s.cur = false → a % n ≠ 0 → exec i s = .next (slotTrap s o.u.toNat 0x06 (BitVec.ofNat 64 a) 0))
      runs (.aaddW o) 4 .add ∧ runs (.aandW o) 4 .and ∧ runs (.aorW o) 4 .or ∧ runs (.axorW o) 4 .xor ∧ runs (.aminW o) 4 .min ∧
      runs (.amaxW o) 4 .max ∧ runs (.aminuW o) 4 .minu ∧ runs (.amaxuW o) 4 .maxu ∧ runs (.aswpW o) 4 .swap ∧ runs (.acasW o) 4 .cas ∧
      runs (.afaddW o) 4 .fadd ∧
      runs (.aaddD o) 8 .add ∧ runs (.aandD o) 8 .and ∧ runs (.aorD o) 8 .or ∧ runs (.axorD o) 8 .xor ∧ runs (.aminD o) 8 .min ∧
      runs (.amaxD o) 8 .max ∧ runs (.aminuD o) 8 .minu ∧ runs (.amaxuD o) 8 .maxu ∧ runs (.aswpD o) 8 .swap ∧ runs (.acasD o) 8 .cas) ∧
  (
    ∀ (o : LOp) (s : State) (p : List Placed), guardOn s o.g = true →
      let a := (seeS s (isY o.u) o.a).toNat % 2 ^ 57
      let f := o.m4.toNat
      let q := tabGet (me s).sys.seq f 0
      let runs := fun (i : Instr) (op : AtomOp) =>
       (greenOf s s.cur = true → exec i s = .next (modMe s fun c => { c with wait := .green, mark := .blocked })) ∧
       (greenOf s s.cur = false → a % 8 ≠ 0 → exec i s = .next (slotTrap s o.u.toNat 0x06 (BitVec.ofNat 64 a) 0)) ∧
       (greenOf s s.cur = false → a % 8 = 0 → checkAll s { r := true, w := true } (parts a 8) = .ok p →
        ∃ t, exec i s = .next t ∧ tabGet (me t).sys.seq f 0 = q + 1 ∧ (∀ g, g ≠ f → tabGet (me t).sys.seq g 0 = tabGet (me s).sys.seq g 0) ∧
          (me t).regs = (me s).regs ∧
          (me t).fresh = (me s).fresh ++ [⟨nowOf s s.cur + 64, .load (me s).nextId p.length (.scalar (o.f3 == 1) o.d.toNat 8 false) 0 0⟩] ∧
          (me t).acc = (me s).acc ++ mkAccs (me s) s.tick
            (.ordered op (seeS s (o.f3 == 1) o.d) (if op = .cas then seeS s (o.f3 == 1) (o.d + 1) else 0) f q false) none none [] p)
      runs (.oadd o) .add ∧ runs (.oswp o) .swap ∧ runs (.ocas o) .cas)

/-- R124, R261, R262 and R359: a load or store traps at the first of its parts that does not translate, with the cause and that part's
address, and a store of which a byte lies in a footprint of this device's open epochs traps with TCAUSE 0x0A and the address of that row,
the epoch's tile noted for the entry of a task that ends so (spec/15 R346); neither performs
any part of the access. One whose translation walks or whose block must be claimed holds its bundle back. The last two clauses leave out an
access that passed its checks when its bundle's count was accepted (spec/15 R336). -/
def Obligations.AccessesThatTrap : Prop :=
  ∀ (o : LOp) (s : State), guardOn s o.g = true → BanksReady s (fileBanks o.f3) →
    let base : Int := (seeS s (isY o.u) o.a).toNat
    let off := fun (n : Nat) => ((base + o.m4.toInt * (n : Int)) % (2 ^ 57 : Int)).toNat
    let idx := fun (n : Nat) => ((base + (seeS s (isY o.u) (o.m4.setWidth 5)).toInt * (n : Int)) % (2 ^ 57 : Int)).toNat
    let loads : List (Instr × Nat × Nat) := [(.ldB o, off 1, 1), (.ldBz o, off 1, 1), (.ldH o, off 2, 2), (.ldHz o, off 2, 2), (.ldW o, off 4, 4),
      (.ldWz o, off 4, 4), (.ldD o, off 8, 8), (.ldQ o, off 16, 16), (.ldv256 o, off 32, 32), (.ldv512 o, off 64, 64),
      (.ldv1024 o, off 128, 128), (.ldk o, off 16, 16), (.ldd o, off 768, 768), (.ldxD o, idx 8, 8), (.ldxW o, idx 4, 4)]
    let stores : List (Instr × Nat × Nat) := [(.stB o, off 1, 1), (.stH o, off 2, 2), (.stW o, off 4, 4), (.stD o, off 8, 8), (.stQ o, off 16, 16),
      (.stv256 o, off 32, 32), (.stv512 o, off 64, 64), (.stv1024 o, off 128, 128), (.stk o, off 16, 16), (.std o, off 768, 768),
      (.stxD o, idx 8, 8), (.stxW o, idx 4, 4)]
    (∀ x ∈ loads, ∀ c a hi, checkAll s { r := true } (parts x.2.1 x.2.2) = .trap c a hi →
      exec x.1 s = .next (slotTrap s o.u.toNat c (BitVec.ofNat 64 a) hi)) ∧
    (∀ x ∈ stores, ∀ c a hi, checkAll s { w := true } (parts x.2.1 x.2.2) = .trap c a hi →
      exec x.1 s = .next (slotTrap (if c = 0x0A then noteHit s (parts x.2.1 x.2.2) else s) o.u.toNat c (BitVec.ofNat 64 a) hi)) ∧
    (∀ x ∈ loads, ∀ h, checkAll s { r := true } (parts x.2.1 x.2.2) = .hold h → exec x.1 s = .next (holdFor s h)) ∧
    (∀ x ∈ stores, ∀ h, checkAll s { w := true } (parts x.2.1 x.2.2) = .hold h → exec x.1 s = .next (holdFor s h)) ∧
    (∀ x ∈ loads ++ stores, ∀ need, need = (if x ∈ loads then { r := true } else { w := true } : Need) →
      ∀ l1 va q n l2 c ecc, parts x.2.1 x.2.2 = l1 ++ (va, q, n) :: l2 → keptPlaces s (parts x.2.1 x.2.2) = none →
        (∀ y ∈ l1, ∃ pa mt win, translateMe s y.1 need = .ok pa mt win) → translateMe s va need = .fault c ecc →
        exec x.1 s = .next (slotTrap s o.u.toNat c (BitVec.ofNat 64 va) ((if need.w then 1 else 0) + (if ecc then 2 else 0)))) ∧
    (∀ x ∈ stores, ∀ (p1 p2 : List Placed) (q : Placed) (i : Nat),
      (p1 ++ q :: p2).map (fun y => (y.va, y.off, y.n)) = parts x.2.1 x.2.2 → keptPlaces s (parts x.2.1 x.2.2) = none →
      (∀ y ∈ p1 ++ q :: p2, translateMe s y.va { w := true } = .ok y.pa y.mt y.win) →
      (∀ y ∈ p1, isRemote s y.pa = true ∨ footHit s y.mt y.pa y.n = none) → isRemote s q.pa = false → footHit s q.mt q.pa q.n = some i →
      exec x.1 s = .next (slotTrap (modMe s fun c => { c with hitTile := footTile s (q.pa + i) }) o.u.toNat 0x0A (BitVec.ofNat 64 ((q.va + i) % 2 ^ 57 / 128 * 128)) 0))

/-- (1) R9 and R260: once its bytes are there, a scalar load lands the little-endian number they make, extended by its sign or by zeros;
after an error in any byte every bit of the register is 1 (R97).

(2) A store that performs puts its bytes at its address, lowest byte first, and every other byte of memory reads as before; a store to
host memory leaves device memory alone. Registers of every core are as before but for the entry taken off. The store meets no open
footprint; a byte that a resident segment was fetched from or that lies in a pre-empted task's image, which its context must not store to
(spec/04 R79, spec/13 R303), is left out: what it then holds is free (log entry 46).

(3) R267 and R268: an atomic at its home reads the old value and writes the result of its operation, as one change of memory; at no byte
that a resident segment was fetched from or that lies in a pre-empted task's image (spec/04 R79, spec/13 R303, log entry 46).

(4) R36, R244 to R252: an outstanding access that nothing keeps back performs, with the memory and registers that its performing gives,
that of a task that runs and has no held store to follow it; one that is kept back stays. One that reads or writes for more than its hearth lets
the stores that hearths see before their homes perform first (the model's reading, log entry 62). -/
def Obligations.AccessesAtTheirHome : Prop :=
  (
    ∀ (y : Bool) (r size : Nat) (signed : Bool) (b : List Byte), size ∈ [1, 2, 4, 8] → b.length = size →
      let n : Nat := ((b.zipIdx).map (fun p => p.1.toNat * 256 ^ p.2)).sum
      let v : W64 := if signed ∧ 2 ^ (8 * size - 1) ≤ n then BitVec.ofInt 64 ((n : Int) - 2 ^ (8 * size)) else BitVec.ofNat 64 n
      loadLands (.scalar y r size signed) (BitVec.ofNat 6144 (natOfBytes b)) 0 = [if y then .y r v else .x r v] ∧
      (∀ bad : DImage, bad ≠ 0 → loadLands (.scalar y r size signed) (BitVec.ofNat 6144 (natOfBytes b)) bad =
        [if y then .y r (BitVec.allOnes 64) else .x r (BitVec.allOnes 64)])) ∧
  (
    ∀ (s t : State) (core n : Nat) (e : Acc), MemOk s → (getCore s core).acc[n]? = some e → e.kind = .store →
      footHit s e.mt e.pa e.n = none →
      (∀ i, i < e.data.length → inImage s (accCtx s e) (e.va + i) = false ∧ (e.mt = 2 ∨ inResident s (accCtx s e) (e.pa + i) = false)) →
      (writePa s (dieOf core) e.mt e.pa e.data).toOption = some t →
      let u := performAcc s core n
      (e.mt ≠ 2 → ∀ a, cellGet u.mem a = if memKey s e.pa ≤ a ∧ a < memKey s e.pa + e.data.length then e.data.getD (a - memKey s e.pa) 0 else cellGet s.mem a) ∧
      (e.mt = 2 → u.mem = s.mem ∧ ∀ a, cellGet u.hostMem a =
        if e.pa % 2 ^ 60 ≤ a ∧ a < e.pa % 2 ^ 60 + e.data.length then e.data.getD (a - e.pa % 2 ^ 60) 0 else cellGet s.hostMem a) ∧
      (∀ c, (getCore u c).regs = (getCore s c).regs) ∧ (getCore u core).acc = (getCore s core).acc.eraseIdx n) ∧
  (
    ∀ (s t : State) (die : Nat) (e : Acc) (op : AtomOp) (v new : W64) (fmt : W32) (old : Nat), MemOk s → e.n ∈ [4, 8] → e.mt ≠ 2 →
      (∀ i, i < e.n → inImage s (accCtx s e) (e.va + i) = false ∧ inResident s (accCtx s e) (e.pa + i) = false) → (atomicAt s die e op v new fmt).toOption = some (old, t) →
      let w := 8 * e.n
      let k := memKey s e.pa
      let x := v.toNat % 2 ^ w
      let now := natOfBytes (cellsGet t.mem k e.n)
      old = natOfBytes (cellsGet s.mem k e.n) ∧ (∀ a, a < k ∨ k + e.n ≤ a → cellGet t.mem a = cellGet s.mem a) ∧
      (op = .add → now = (old + x) % 2 ^ w) ∧ (op = .swap → now = x) ∧
      (op = .and → now = old &&& x) ∧ (op = .or → now = old ||| x) ∧ (op = .xor → now = old ^^^ x) ∧
      (op = .minu → now = min old x) ∧ (op = .maxu → now = max old x) ∧
      (op = .min → toInt w now = min (toInt w old) (toInt w x)) ∧ (op = .max → toInt w now = max (toInt w old) (toInt w x)) ∧
      (op = .cas → now = if old = x then new.toNat % 2 ^ w else old)) ∧
  (
    ∀ (s : State) (core n : Nat) (e : Acc), (getCore s core).acc[n]? = some e →
      let direct := flushes s core e = false ∨ (allShown s = [] ∧ entryAt s core e = some n)
      (canPerform s core n = false → exec (.accessComplete core n) s = .next s) ∧
      (canPerform s core n = true → direct → accGone s e = false → (∀ u k, e.task = some u → tabFind s.tasks u = some k →
          k.held = [] ∧ k.frees = [] ∧ k.ended = false ∧ isSuspended s u = false) → (∀ g, e.kind ≠ .signal g) → ∃ t, exec (.accessComplete core n) s = .next t ∧
        t.mem = (performAcc s core n).mem ∧ t.hostMem = (performAcc s core n).hostMem ∧
        ∀ c, (getCore t c).regs = (getCore (performAcc s core n) c).regs ∧ (getCore t c).acc = (getCore (performAcc s core n) c).acc) ∧
      (∀ k, canPerform s core n = true → flushes s core e = true → entryAt (homeShown s) core e = some k →
        exec (.accessComplete core n) s = .next (completeAcc (homeShown s) core k e)) ∧
      (∀ i on u k, canPerform s core n = true → direct → accGone s e = false → e.kind = .signal (.event i on) → i ≠ 0 → e.task = some u → tabFind s.tasks u = some k →
        k.held = [] → k.frees = [] → k.ended = false → isSuspended s u = false →
        ∃ t, exec (.accessComplete core n) s = .next t ∧ eventSet t k.ctx i = on ∧ (getCore t core).acc = (getCore s core).acc.eraseIdx n ∧
          (∀ j, j ≠ i → eventSet t k.ctx j = eventSet s k.ctx j)))

/-- R245 to R249: what outstanding order demands. A window access waits for the earlier window accesses of its task, an access that shares
a byte for the earlier one, every later access for an acquire, a release for every earlier access that has not performed at its
scope (at core scope a store counts as performed, the model's reading, log entry 62), and a fence's successors for the
fence. -/
def Obligations.OrderOfOutstandingAccesses : Prop :=
  ∀ (s : State) (core m n : Nat) (p e : Acc), (getCore s core).acc[m]? = some p → (getCore s core).acc[n]? = some e → m < n → p.task = e.task →
    p.kind ∈ [.load, .store] → e.kind ∈ [.load, .store] → p.no < e.no →
    (p.win = true → e.win = true → p.id ≠ e.id → canPerform s core n = false) ∧
    (p.mt = e.mt → p.pa < e.pa + e.n → e.pa < p.pa + p.n → canPerform s core n = false) ∧
    (p.acq.isSome = true → canPerform s core n = false) ∧
    (∀ sc, e.rel = some sc → releasedAt p sc = false → canPerform s core n = false) ∧
    (∀ q f pred succ scope, (getCore s core).acc[q]? = some f → q < n → f.task = e.task → f.kind = .fence pred succ scope → f.no < e.no →
      succ.getLsbD (if e.kind = .load then 0 else 1) = true → canPerform s core n = false)

/-- (1) The byte list of a memory stays canonical under a write, reads back what was written, and reads as before elsewhere.

(2) R364: a task's first access to a scratchpad block finds it zero and makes it the task's; every byte outside the blocks it reaches
anew reads as before. -/
def Obligations.MemoryReadAfterWrite : Prop :=
  (
    ∀ (m : List Host.Cell) (a : Nat) (b : List Byte), Memory.wf m = true →
      Memory.wf (cellsSet m a b) = true ∧
      (∀ i, i < b.length → cellGet (cellsSet m a b) (a + i) = b.getD i 0) ∧
      (∀ x, x < a ∨ a + b.length ≤ x → cellGet (cellsSet m a b) x = cellGet m x)) ∧
  (
    ∀ (s : State) (u hearth block : Nat), MemOk s → block < 4096 → blockOwnerOf s hearth block ≠ some u →
      let t := touchBlock s u hearth block
      let k := 2 ^ 40 + hearth * 2 ^ 24 + block * 4096
      (∀ a, cellGet t.mem a = if k ≤ a ∧ a < k + 4096 then 0 else cellGet s.mem a) ∧
      blockOwnerOf t hearth block = some u ∧ touchBlock t u hearth block = t ∧
      (∀ h b, (h, b) ≠ (hearth, block) → blockOwnerOf t h b = blockOwnerOf s h b))

/-! ## The B slot: control, traps, system registers (spec/04) -/

/-- (1) R62 to R64: a preparing operation arms its entry with its condition, distance and target modulo 65,536, and changes nothing else.

(2) R68 and R69: a loop pushes its level below a depth of four; a count of 0 skips the body; the fifth level is an illegal bundle. That the
three addresses wrap modulo 65,536 is the model's reading (log entry 70), and the length of a skipped end bundle that its words give whatever
the state of their bank is its choice (log entry 52).

(3) R65 and R66: at a committed bundle every entry that was armed before it counts down, but for one that the bundle arms itself; one at its end
is disarmed, and the lowest that was at its end with its condition true transfers, a call with its link in x31, also when the bundle arms that
entry anew.

(4) R70 and R71: after the trigger the loops that end at the bundle count down from the innermost on, each from the count written for it, 0 as 1,
where one is: one whose count has come to its end leaves its level, the first that has passes left repeats its body, and where none has, or the
next level out ends elsewhere, the program goes on; a transfer taken overrides the choice. -/
def Obligations.TransfersAndLoops : Prop :=
  (
    ∀ (s : State),
      let pc := (me s).ctl.pc
      let armed := fun (e : Nat) (call : Bool) (cond count : BitVec 4) (target : BitVec 16) =>
        (Host.Outcome.next (modMe s fun c => { c with ctl := { c.ctl with
          tgt := tabSet c.ctl.tgt e { armed := true, call := call, cond := cond, count := count, target := target }, armed := some e } }) : Out)
      (∀ o : PrepOp, exec (.bprep o) s = armed o.entry.toNat false o.g o.dist (BitVec.ofInt 16 (pc + o.off.toInt)) ∧
        exec (.bcall o) s = armed o.entry.toNat true o.g o.dist (BitVec.ofInt 16 (pc + o.off.toInt))) ∧
      (∀ o : PrepXOp, exec (.bprepx o) s = armed o.entry.toNat false o.g o.dist ((seeX s (me s) o.a.toNat).extractLsb' 0 16) ∧
        exec (.bcallx o) s = armed o.entry.toNat true o.g o.dist ((seeX s (me s) o.a.toNat).extractLsb' 0 16)) ∧
      (∀ o : RetOp, guardOn s o.g = true →
        exec (.ret o) s = armed o.entry.toNat false 0 o.dist ((seeX s (me s) 31).extractLsb' 0 16))) ∧
  (
    ∀ (s : State),
      let c := me s
      let len := (frameOf c).1.length
      let opens := fun (i : Instr) (n : BitVec 32) (off : Nat) =>
        (c.ctl.loops.length ≠ 4 → n ≠ 0 → exec i s = .next (modMe s fun c => { c with ctl := { c.ctl with
          loops := c.ctl.loops ++ [{ lc := n, start := (c.ctl.pc + len) % 65536, stop := (c.ctl.pc + off) % 65536 }] } })) ∧
        (c.ctl.loops.length ≠ 4 → n = 0 → exec i s = .next (modMe s fun c => { c with ctl := { c.ctl with
          skip := some (((c.ctl.pc + off) % 65536 + (frameFrom c.imem ((c.ctl.pc + off) % 65536) 8).1.length) % 65536) } })) ∧
        (c.ctl.loops.length = 4 → exec i s = .next (takeTrap s 0x01 (BitVec.ofNat 21 (2 ^ (slotOf c 11).1 + 256 * len)) 0 0))
      (∀ o : LoopOp, guardOn s o.g = true → opens (.loop o) ((seeX s c o.a.toNat).extractLsb' 0 32) o.off.toNat) ∧
      (∀ o : LoopIOp, guardOn s o.g = true → opens (.loopi o) (BitVec.ofNat 32 o.count.toNat) o.off.toNat)) ∧
  (
    ∀ (s : State) (core : Nat) (p : Post), (getCore s core).ctl.post = some p → p.triggered = false →
      let cur := (getCore s core).ctl.tgt
      let fires := fun (e : Nat) => (tabGet p.old e {}).armed && decide ((tabGet p.old e {}).count ≤ 1) && tabGet p.conds e false
      ∃ t, exec (.preparedTransferTrigger core) s = .next t ∧ t.mem = s.mem ∧ (getCore t core).regs = (getCore s core).regs ∧
        (∀ e, e < 4 → (tabGet p.old e {}).armed = false ∨ p.armed = some e → tabGet (getCore t core).ctl.tgt e {} = tabGet cur e {}) ∧
        (∀ e, e < 4 → (tabGet p.old e {}).armed = true → p.armed ≠ some e → (tabGet p.old e {}).count ≤ 1 →
          (tabGet (getCore t core).ctl.tgt e {}).armed = false) ∧
        (∀ e, e < 4 → (tabGet p.old e {}).armed = true → p.armed ≠ some e → 1 < (tabGet p.old e {}).count →
          tabGet (getCore t core).ctl.tgt e {} = { tabGet cur e {} with count := (tabGet p.old e {}).count - 1 }) ∧
        ((∀ e, e < 4 → fires e = false) → (getCore t core).ctl.post = some { p with triggered := true }) ∧
        (∀ e, e < 4 → fires e = true → (∀ f, f < e → fires f = false) →
          (getCore t core).ctl.post = some { p with triggered := true, taken := true, next := (tabGet p.old e {}).target.toNat } ∧
          (getCore t core).flight = (getCore s core).flight ++ (if (tabGet p.old e {}).call then
            [⟨nowOf s core + 1, .known [.x 31 (BitVec.ofNat 64 (p.seqNext % 65536))]⟩] else []))) ∧
  (
    ∀ (s : State) (core : Nat) (p : Post), (getCore s core).ctl.post = some p → p.triggered = true →
      let c := getCore s core
      let count := fun (v : LoopLvl) => match v.pend with | some w => if w = 0 then 1 else w | none => v.lc
      let goes := fun (loops : List LoopLvl) (pc : Nat) => exec (.loopEndTest core) s = .next (settleCore (modCore s core fun c => { c with
        ctl := { c.ctl with loops := loops, pc := if p.taken then p.next else pc, post := none } }) core)
      (c.ctl.loops = [] → goes [] p.next) ∧
      (∀ l m v, c.ctl.loops = l ++ v :: m → m.length ≤ 3 → (∀ x ∈ m, x.stop = p.addr ∧ count x = 1) → v.stop = p.addr → count v ≠ 1 →
        goes (l ++ [{ v with lc := count v - 1, pend := none }]) v.start) ∧
      (∀ l m, c.ctl.loops = l ++ m → m.length ≤ 4 → (∀ x ∈ m, x.stop = p.addr ∧ count x = 1) → (∀ v, l.getLast? = some v → v.stop ≠ p.addr) →
        goes l p.next))

/-- (1) R84, R85 and R88: TRAP and SYSCALL take their exception when traps are enabled and no handler runs: the record, the level, the
shadows and the handler's address, and nothing of registers, memory or other cores.

(2) R90: with traps disabled, or inside a handler, a trap ends its task in error with the class of its cause, and for a footprint's with the
tile of its epoch (spec/15 R346). That the record is written then
too, and PRIV, the control state and the registers stay, is the model's reading (log entry 6).

(3) R89: a return at supervisor level inside a handler, with nothing of the handler in flight, restores the level, the target buffer and
the loop stack and goes on at EPC; ERET.S leaves the bundle at EPC to be counted as committed. Elsewhere it is privileged. -/
def Obligations.TrapsAndReturns : Prop :=
  (
    ∀ (o : CodeOp) (s : State), guardOn s o.g = true → (me s).sys.trapvec.getLsbD 16 = true → (me s).sys.estate.getLsbD 2 = false →
      ∀ ic ∈ [(Instr.trap o, 0x0C), (Instr.syscall o, 0x0D)], ∃ t, exec ic.1 s = .next t ∧
        let c := me s
        let d := me t
        d.sys.epc = BitVec.ofNat 16 c.ctl.pc ∧ d.sys.tcause = BitVec.ofNat 8 ic.2 ∧ d.sys.taddr = 0 ∧
        d.sys.taux = BitVec.ofNat 64 (slotOf c 11).2.toNat ∧
        d.sys.tslots = BitVec.ofNat 21 (2 ^ (slotOf c 11).1 + 256 * (frameOf c).1.length) ∧
        d.sys.priv = 1 ∧ d.sys.estate.extractLsb' 0 2 = c.sys.priv ∧ d.sys.estate.getLsbD 2 = true ∧
        d.ctl.pc = (c.sys.trapvec.extractLsb' 0 16).toNat ∧ d.ctl.tgt = [] ∧ d.ctl.loops = [] ∧
        d.ctl.shTgt = c.ctl.tgt ∧ d.ctl.shLoops = c.ctl.loops ∧ d.trapped = true ∧
        d.regs = c.regs ∧ t.mem = s.mem ∧ t.hostMem = s.hostMem ∧ t.tasks = s.tasks ∧ (∀ k, k ≠ s.cur → getCore t k = getCore s k)) ∧
  (
    ∀ (s : State) (cause u : Nat) (tslots : BitVec 21) (taddr taux : W64) (k : Task),
      ((me s).sys.trapvec.getLsbD 16 = false ∨ (me s).sys.estate.getLsbD 2 = true) → (me s).task = some u →
      tabFind s.tasks u = some k → k.error = none →
      let t := takeTrap s cause tslots taddr taux
      (tabFind t.tasks u).bind (fun k => k.error) =
        some ⟨BitVec.ofNat 8 (causeClass cause), 0, BitVec.ofNat 14 (s.cur + 1536), taddr,
          BitVec.ofNat 16 (if cause = 0x0A then cause + 256 * (me s).hitTile else cause)⟩ ∧
      (me t).sys.epc = BitVec.ofNat 16 (me s).ctl.pc ∧ (me t).sys.tcause = BitVec.ofNat 8 cause ∧ (me t).sys.taddr = taddr ∧
      (me t).sys.taux = taux ∧ (me t).sys.priv = (me s).sys.priv ∧ (me t).ctl = (me s).ctl ∧ (me t).regs = (me s).regs) ∧
  (
    ∀ (o : PlainOp) (s : State), guardOn s o.g = true →
      let c := me s
      let ready := c.sys.priv = 1 ∧ c.sys.estate.getLsbD 2 = true
      (ready → c.flight = [] → c.fresh = [] → c.sys.fmtPend = [] → c.ctl.post = none →
        (∀ is ∈ [(Instr.eret o, false), (Instr.eretS o, true)], ∃ t, exec is.1 s = .next t ∧
          let d := me t
          d.sys.priv = c.sys.estate.extractLsb' 0 2 ∧ d.sys.estate.getLsbD 2 = false ∧ d.sys.estate.extractLsb' 4 4 = 0 ∧
          d.ctl.pc = c.sys.epc.toNat ∧ d.ctl.tgt = c.ctl.shTgt ∧ d.ctl.loops = c.ctl.shLoops ∧ d.handler = false ∧
          (d.ctl.post.isSome = is.2) ∧ d.regs = c.regs ∧ t.mem = s.mem ∧ (∀ k, k ≠ s.cur → getCore t k = getCore s k))) ∧
      (ready → c.flight ≠ [] →
        exec (.eret o) s = .next (modMe s fun c => { c with retPend := some 0 }) ∧
        exec (.eretS o) s = .next (modMe s fun c => { c with retPend := some 1 })) ∧
      (¬ ready → exec (.eret o) s = .next (slotTrap s 11 0x03 0 0) ∧ exec (.eretS o) s = .next (slotTrap s 11 0x03 0 0)))

/-- R56, R84, R86 and R89: what a trap saves its return puts back: level, program counter, target buffer, loop stack, and every FMT
write still within its delay, due one vc later when the trapping bundle issues again, and as before when it counts as issued (the latter
is the model's reading, log entry 37). -/
def Obligations.TrapAndReturnRoundTrip : Prop :=
  ∀ (s : State) (cause : Nat) (tslots : BitVec 21) (taddr taux : W64) (skip : Bool),
    let c := me s
    c.sys.trapvec.getLsbD 16 = true → c.sys.estate.getLsbD 2 = false → c.handler = false → c.ctl.pc < 65536 →
    c.sys.fmtPend.Pairwise (fun a b => a.1 < b.1) → (∀ p ∈ c.sys.fmtPend, nowOf s s.cur < p.1 ∧ p.1 ≤ nowOf s s.cur + 3) →
    let d := me (finishReturn (takeTrap s cause tslots taddr taux) s.cur skip)
    d.ctl.pc = c.ctl.pc ∧ d.ctl.tgt = c.ctl.tgt ∧ d.ctl.loops = c.ctl.loops ∧ d.sys.priv = c.sys.priv ∧
    d.sys.fmtPend = c.sys.fmtPend.map (fun p => (if skip then p.1 else p.1 + 1, p.2)) ∧ d.sys.fmt = c.sys.fmt ∧ d.regs = c.regs ∧ d.flight = c.flight ∧
    d.sys.estate.getLsbD 2 = false

/-- (1) R81 to R83, R55 and R92: SETFMT and MTS of FMT take effect four vc later, without FMT's reserved bits; MTS writes what its level may
write and drops the rest, MFS reads every register as its bundle found it at its issue (spec/02 R433), and an index from 0x200 on is
privileged. EVCLR clears an event as EVSET with op 1 does (spec/16 R355).

(2) R8, R72 and R83: a write of a system register that lands keeps the bits the register has, and one to a read-only or unassigned index
changes nothing. LOOPD pops the levels from its value on (R72). PPRIV of ESTATE takes 0 and 1 (R86); that it stays where 2 or 3 is written, and
that SPILLBASE keeps its low 12 bits, are the model's choices (log entries 41 and 42). -/
def Obligations.SystemRegisters : Prop :=
  (
    ∀ (o : SysOp) (s : State), guardOn s o.g = true →
      let i := o.idx.toNat
      let c := me s
      let y := c.sys
      let v := seeS s (o.file == 1) o.r
      let put := fun (v : W64) => (Host.Outcome.next (emit s 2 [landS (o.file == 1) o.r v]) : Out)
      let reads := fun (k n : Nat) => i = k → c.blocked = none → exec (.mfs o) s = put (BitVec.ofNat 64 n)
      let task := fun (v : W64) => (Host.Outcome.next (emit s 1 [.sys i v]) : Out)
      let fmtWrite := fun (v : W64) => (Host.Outcome.next (modMe s fun c => { c with sys := { c.sys with
        fmtPend := c.sys.fmtPend ++ [(nowOf s s.cur + 4, v.extractLsb' 0 32 &&& 0x07FFFFFF)] } }) : Out)
      (reads 0x000 y.fmt.toNat ∧ reads 0x001 (vccOf s s.cur) ∧
        (∀ k, taskOf s s.cur = some k → reads 0x002 k.idx ∧ reads 0x003 k.gridn.toNat ∧ reads 0x006 k.ctx ∧
          reads 0x004 (s.cur % 4 - k.first + 4 * (if k.size = 4 then 2 else if k.size = 2 then 1 else 0) + 16 * (s.cur % 4) + 64 * k.hearth) ∧
          reads 0x005 (1 + 8 * (if k.green then 1 else 0))) ∧
        reads 0x007 y.priv.toNat ∧ reads 0x008 y.lderr.toNat ∧
        (∀ n l, n < 4 → c.ctl.loops[n]? = some l → reads (0x010 + n) l.lc.toNat) ∧ (∀ n, n < 4 → c.ctl.loops.length ≤ n → reads (0x010 + n) 0) ∧
        reads 0x014 c.ctl.loops.length ∧ reads 0x018 (packThree y.window).toNat ∧ reads 0x01D (packThree y.spilled).toNat ∧
        reads 0x040 (wptrOf (chanOf c 0)).toNat ∧ reads 0x041 (wptrOf (chanOf c 1)).toNat ∧
        reads 0x087 ((tabGet y.efmt 0 0).toNat + 2 ^ 32 * (tabGet y.efmt 1 0).toNat) ∧
        reads 0x088 ((tabGet y.efmt 2 0).toNat + 2 ^ 32 * (tabGet y.efmt 3 0).toNat) ∧ reads 0x019 y.bankLo.toNat ∧
        reads 0x01A y.bankHi.toNat ∧ reads 0x01B y.spillBase.toNat ∧ reads 0x01C y.spillLim.toNat ∧ reads 0x020 y.rngKey.toNat ∧
        reads 0x021 y.rngCtr.toNat ∧ reads 0x080 y.trapvec.toNat ∧ reads 0x081 y.epc.toNat ∧ reads 0x082 y.tcause.toNat ∧
        reads 0x083 y.tslots.toNat ∧ reads 0x084 y.taddr.toNat ∧ reads 0x085 y.taux.toNat ∧ reads 0x086 y.estate.toNat) ∧
      (∀ k ∈ [0x009, 0x00F, 0x015, 0x01E, 0x022, 0x042, 0x07F, 0x089, 0x1FF], reads k 0) ∧
      (∀ n, n < 16 → reads (0x030 + n) (tabGet y.seq n 0).toNat) ∧
      (0x200 ≤ i → y.priv ≠ 1 → exec (.mfs o) s = .next (slotTrap s 11 0x03 0 0) ∧ exec (.mts o) s = .next (slotTrap s 11 0x03 0 0)) ∧
      (0x200 ≤ i → y.priv = 1 → c.blocked = none → exec (.mfs o) s = put (sysHigh s i)) ∧
      (i < 0x200 ∨ y.priv = 1 → c.blocked = none → exec (.mfs o) s = put (sysRead s i)) ∧
      (∀ b w, i < 0x200 ∨ y.priv = 1 → c.blocked = some b → b.mfs = some w → exec (.mfs o) s = put w) ∧
      (i = 0 → exec (.mts o) s = fmtWrite v) ∧
      (i ∈ [0x008, 0x014, 0x020, 0x021] → exec (.mts o) s = task v) ∧
      (0x010 ≤ i → i < 0x014 → exec (.mts o) s = .next (modMe s fun c => { c with ctl := { c.ctl with
        loops := c.ctl.loops.modify (i - 0x010) (fun l => { l with pend := some (v.extractLsb' 0 32) }) } })) ∧
      (y.priv ≠ 1 → i < 0x200 → i ∉ [0x000, 0x008, 0x010, 0x011, 0x012, 0x013, 0x014, 0x020, 0x021] → exec (.mts o) s = .next s) ∧
      (y.priv = 1 → i ∉ [0x000, 0x010, 0x011, 0x012, 0x013, 0x214] → exec (.mts o) s = task v) ∧
      (y.priv = 1 → i = 0x214 → let n := v.toNat % 4096
        (n = 0 → exec (.mts o) s = .next s) ∧
        (n ≠ 0 → greenOf s s.cur = true → exec (.mts o) s = .next (modMe s fun c => { c with wait := .green, mark := .blocked })) ∧
        (n ≠ 0 → greenOf s s.cur = false → exec (.mts o) s = .next (modMe s fun c => { c with
          acc := c.acc ++ [{ id := c.nextId, kind := .signal (.event n false), no := c.bundleNo, task := c.task, stamp := s.tick }]
          nextId := c.nextId + 1 }))) ∧
      (∀ r : RegOp, guardOn s r.g = true → exec (.setfmt r) s = fmtWrite (seeX s c r.a.toNat))) ∧
  (
    ∀ (c : Core) (i : Nat) (v : W64),
      (i ∉ [0x008, 0x014, 0x018, 0x019, 0x01A, 0x01B, 0x01C, 0x01D, 0x020, 0x021, 0x080, 0x081, 0x082, 0x083, 0x084, 0x085, 0x086, 0x087, 0x088,
        0x210, 0x212] → ¬ (0x030 ≤ i ∧ i ≤ 0x03F) → landSys c i v = c) ∧
      (landSys c 0x008 v).sys.lderr = (v.extractLsb' 0 16 &&& 0xFF03) ∧
      (landSys c 0x080 v).sys.trapvec = v.extractLsb' 0 17 ∧ (landSys c 0x081 v).sys.epc = v.extractLsb' 0 16 ∧
      (landSys c 0x082 v).sys.tcause = v.extractLsb' 0 8 ∧ (landSys c 0x084 v).sys.taddr = v ∧ (landSys c 0x085 v).sys.taux = v ∧
      (∀ f, f < 3 → tabGet (landSys c 0x018 v).sys.window f 0 = v.extractLsb' (16 * f) 16 ∧
        tabGet (landSys c 0x01D v).sys.spilled f 0 = v.extractLsb' (16 * f) 16) ∧
      (landSys c 0x019 v).sys.bankLo = v.extractLsb' 0 6 ∧ (landSys c 0x01A v).sys.bankHi = v.extractLsb' 0 6 ∧
      (landSys c 0x01B v).sys.spillBase = v.extractLsb' 0 57 ∧ (landSys c 0x01C v).sys.spillLim = v.extractLsb' 0 16 ∧
      (landSys c 0x083 v).sys.tslots = v.extractLsb' 0 21 ∧ (landSys c 0x210 v).sys.sealSel = v.extractLsb' 0 12 ∧
      (landSys c 0x212 v).sys.predSel = v.extractLsb' 0 10 ∧
      (∀ n, n < 2 → tabGet (landSys c 0x087 v).sys.efmt n 0 = (v.extractLsb' (32 * n) 32 &&& 0x07FFFFFF) ∧
        tabGet (landSys c 0x087 v).sys.efmt (2 + n) 0 = tabGet c.sys.efmt (2 + n) 0 ∧
        tabGet (landSys c 0x088 v).sys.efmt (2 + n) 0 = (v.extractLsb' (32 * n) 32 &&& 0x07FFFFFF) ∧
        tabGet (landSys c 0x088 v).sys.efmt n 0 = tabGet c.sys.efmt n 0) ∧
      (c.ctl.loops.length ≤ 4 → (landSys c 0x014 v).ctl.loops =
        if (v.extractLsb' 0 3).toNat < c.ctl.loops.length then c.ctl.loops.take (v.extractLsb' 0 3).toNat else c.ctl.loops) ∧
      (v.getLsbD 1 = true → (landSys c 0x086 v).sys.estate = ((v.extractLsb' 0 8 &&& 0xF4) ||| (c.sys.estate &&& 0x03))) ∧
      (v.getLsbD 1 = false → (landSys c 0x086 v).sys.estate = (v.extractLsb' 0 8 &&& 0xF7)) ∧ (landSys c 0x020 v).sys.rngKey = v ∧ (landSys c 0x021 v).sys.rngCtr = v ∧
      (∀ n, n < 16 → tabGet (landSys c (0x030 + n) v).sys.seq n 0 = v.extractLsb' 0 16) ∧ (landSys c i v).regs = c.regs)

/-- (1) R74 and R75: SETBANK moves the window by its signed step while the bank it reaches is resident; a window below bank 0, or past the
banks when S has reached NMAX, raises TCAUSE 0x08 with the file; otherwise the bundle is held while the bank that must spill or refill is
moved, its access checked as a store or a load. A logical bank entered for the first time in a physical bank that was spilled is
zero or holds what stood there, the model's reading (log entry 31).

(2) R77 to R80 and R87: OVL starts the fetch of its segment into its bank, without effect for an unused entry and privileged in a
handler; IFENCE joins the outstanding accesses. -/
def Obligations.BanksOverlaysAndInstructionFences : Prop :=
  (
    ∀ (o : SetBankOp) (s : State), guardOn s o.g = true →
      let c := me s
      let f := o.f.toNat
      let w : Int := (tabGet c.sys.window f 0).toNat + o.delta.toInt
      let sp := (tabGet c.sys.spilled f 0).toNat
      let n : Int := c.sys.bankHi.toNat - c.sys.bankLo.toNat + 1
      (c.sys.bankLo ≤ c.sys.bankHi → 0 ≤ w → sp ≤ w → w ≤ sp + n - 1 →
        (bankAt c f w.toNat ∉ c.enter →
          exec (.setbank o) s = .next (emit s 1 [.sys 0x018 (packThree (tabSet c.sys.window f (BitVec.ofInt 16 w)))])) ∧
        exec (.setbank o) s = .next (emit (modMe s fun c => enterBank s.tick c (bankAt c f w.toNat)) 1
          [.sys 0x018 (packThree (tabSet c.sys.window f (BitVec.ofInt 16 w)))])) ∧
      (w < 0 → exec (.setbank o) s = .next (slotTrap s 11 0x08 0 (BitVec.ofNat 32 (1 + 2 * f)))) ∧
      (c.sys.bankLo ≤ c.sys.bankHi → sp + n - 1 < w → 0 ≤ w → c.sys.spillLim.toNat = sp →
        exec (.setbank o) s = .next (slotTrap s 11 0x08 0 (BitVec.ofNat 32 (2 * f)))) ∧
      (∀ p, c.sys.bankLo ≤ c.sys.bankHi → sp + n - 1 < w → 0 ≤ w → c.sys.spillLim.toNat ≠ sp → bankForeign s c (bankAt c f sp) = false →
        checkAll s { w := true } (parts (spillAddr c f sp) 4096) = .ok p → exec (.setbank o) s = .next (holdFor (touchAll s p) (.spill f))) ∧
      (∀ p, c.sys.bankLo ≤ c.sys.bankHi → 0 ≤ w → w < sp → w ≤ sp + n - 1 → bankForeign s c (bankAt c f (sp - 1)) = false →
        checkAll s { r := true } (parts (spillAddr c f (sp - 1)) 4096) = .ok p →
        exec (.setbank o) s = .next (holdFor (touchAll s p) (.spill f)))) ∧
  (
    ∀ (s : State),
      let c := me s
      (∀ o : PlainOp, guardOn s o.g = true → exec (.ifence o) s = .next (modMe s fun c => { c with
        acc := c.acc ++ [{ id := c.nextId, kind := .signal .ifence, no := c.bundleNo, task := c.task, stamp := s.tick }], nextId := c.nextId + 1 })) ∧
      (∀ o : OvlOp, guardOn s o.g = true →
        (c.handler = true → exec (.ovl o) s = .next (slotTrap s 11 0x03 0 0)) ∧
        (∀ k, c.handler = false → taskOf s s.cur = some k → tabFind k.segs o.n.toNat = none → exec (.ovl o) s = .next s) ∧
        (∀ k src len bank, c.handler = false → taskOf s s.cur = some k → tabFind k.segs o.n.toNat = some (src, len, bank) →
          ∃ t, exec (.ovl o) s = .next t ∧ tabGet (me t).ibank bank .empty = .loading o.n ∧
            (∃ sn, tabFind (me t).fetch bank = some { seg := o.n, src := src, len := len, no := c.bundleNo, snap := sn, stamp := s.tick }) ∧
            (∀ b, b ≠ bank → tabGet (me t).ibank b .empty = tabGet c.ibank b .empty) ∧ (me t).imem = c.imem ∧
            (me t).regs = c.regs ∧ t.mem = s.mem ∧ (∀ k, k ≠ s.cur → getCore t k = getCore s k))))

/-- R274, R275, R289, R342 and R343: a wait whose condition holds goes on at once; otherwise the core waits for what it names. TPOLL reads its
token as its bundle found it at its issue (spec/02 R433). -/
def Obligations.WaitsAtIssue : Prop :=
  ∀ (s : State),
    let c := me s
    let waits := fun (w : Wait) => (Host.Outcome.next (modMe s fun c => { c with wait := w }) : Out)
    (∀ o : TWaitOp, guardOn s o.g = true →
      (tokOf c o.tok.toNat ≠ .pending → exec (.twait o) s = .next s) ∧
      (tokOf c o.tok.toNat = .pending → exec (.twait o) s = waits (.token o.tok.toNat))) ∧
    (∀ o : TPollOp, guardOn s o.g = true →
      let put := fun (done err : Bool) (code : Nat) => (Host.Outcome.next (emit s 2
        [.q (2 * o.m.toNat) done, .q (2 * o.m.toNat + 1) err, .x o.d.toNat (BitVec.ofNat 64 code)]) : Out)
      let k := match c.blocked with
        | some b => if o.tok = 0 then Tok.ok else tabGet b.tok o.tok.toNat .ok
        | none => tokOf c o.tok.toNat
      (k = .ok → exec (.tpoll o) s = put true false 0) ∧
      (k = .pending → exec (.tpoll o) s = put false false 0) ∧
      (∀ e, k = .err e → exec (.tpoll o) s = put true true e.toNat)) ∧
    (∀ o : WaitWpOp, guardOn s o.g = true →
      let v := (seeX s c o.a.toNat).toNat % 2 ^ 48
      (v ≤ (chanOf c o.ch.toNat).count.toNat → exec (.waitwp o) s = .next s) ∧
      ((chanOf c o.ch.toNat).count.toNat < v → exec (.waitwp o) s = waits (.pointer o.ch.toNat v))) ∧
    (∀ o : EventOp, guardOn s o.g = true →
      let i := (seeX s c o.a.toNat).toNat % 4096
      (i = 0 → exec (.evwait o) s = .next s) ∧
      (i ≠ 0 → eventSet s (ctxOf s s.cur) i = true → eventDue c i = false → exec (.evwait o) s = .next s) ∧
      (i ≠ 0 → eventSet s (ctxOf s s.cur) i = false → exec (.evwait o) s = waits (.event i))) ∧
    (∀ o : PlainOp, guardOn s o.g = true →
      (∀ k, c.handler = false → taskOf s s.cur = some k → 1 < k.size →
        exec (.sync o) s = .next (modMe s fun c => { c with syncs := c.syncs + 1, wait := .sync })) ∧
      (∀ k, c.handler = false → taskOf s s.cur = some k → k.size ≤ 1 → exec (.sync o) s = .next (modMe s fun c => { c with
        syncs := c.syncs + 1, nextId := c.nextId + 1
        acc := c.acc ++ [{ id := c.nextId, kind := .signal (.barrier [(s.cur, c.bundleNo)]), no := c.bundleNo, task := c.task, stamp := s.tick }] })) ∧
      (c.handler = true → exec (.sync o) s = .next (slotTrap s 11 0x03 0 0)))

/-- (1) R335 and R87: an aligned record that translates is handed over as an outstanding access; a provisional task waits, a misaligned
record traps, a handler may not launch.

(2) R336, R337 and R87: SHAPE puts its count before the shape home and waits until it is accepted, then goes on; a refused count raises
TCAUSE 0x0F with the count, the key and why. PREDICT sets mode and hint of its predictor entry and keeps its history.

(3) R338, R339, R341, R344, R345 and R323: allocation and its return, events, YIELD and HALT of a task that is not provisional. -/
def Obligations.LaunchAndEventInstructions : Prop :=
  (
    ∀ (g : BitVec 4) (e : BitVec 1) (a : BitVec 5) (key : BitVec 8) (s : State), guardOn s g = true →
      let c := me s
      let ea := (seeX s c a.toNat).toNat % 2 ^ 57
      ∀ ik ∈ [(Instr.launch { e := e, g := g, a := a }, none), (Instr.launchg { e := e, g := g, a := a, key := key }, some key)],
        (c.handler = true → exec ik.1 s = .next (slotTrap s 11 0x03 0 0)) ∧
        (c.handler = false → greenOf s s.cur = true → exec ik.1 s = .next (modMe s fun c => { c with wait := .green, mark := .blocked })) ∧
        (c.handler = false → greenOf s s.cur = false → ea % 128 ≠ 0 →
          exec ik.1 s = .next (slotTrap s 11 0x06 (BitVec.ofNat 64 ea) 0)) ∧
        (∀ p l, c.handler = false → greenOf s s.cur = false → ea % 128 = 0 → checkAll s { r := true } (parts ea 128) = .ok (p :: l) →
          exec ik.1 s = .next (modMe (touchAll s (p :: l)) fun c => { c with
            acc := c.acc ++ [{ id := c.nextId, kind := .signal (.launch ik.2), win := p.win, mt := p.mt, pa := p.pa, n := 128, no := c.bundleNo
                               task := c.task, va := p.va, stamp := s.tick }]
            nextId := c.nextId + 1 }))) ∧
  (
    (∀ (o : KeyOp) (s : State), guardOn s o.g = true →
      let c := me s
      let n := (seeX s c o.a.toNat).toNat % 2 ^ 32
      (c.handler = true → exec (.shape o) s = .next (slotTrap s 11 0x03 0 0)) ∧
      (c.handler = false → c.blocked = none → greenOf s s.cur = false → ∃ t, exec (.shape o) s = .next t ∧
        ({ core := s.cur, ctx := ctxOf s s.cur, key := o.key.toNat, count := n } : Asked) ∈ t.shape.asked ∧ (me t).wait = .shape ∧
        (me t).mark = .blocked ∧ (me t).regs = c.regs ∧ t.mem = s.mem) ∧
      (∀ b, c.handler = false → c.blocked = some b → b.accepted = true → exec (.shape o) s = .next s) ∧
      (∀ b w, c.handler = false → c.blocked = some b → b.accepted = false → b.refused = some w →
        exec (.shape o) s = .next (slotTrap s 11 0x0F (BitVec.ofNat 64 n) (BitVec.ofNat 32 (o.key.toNat + 256 * w.toNat))))) ∧
    (∀ (o : PredictOp) (s : State), guardOn s o.g = true → ∃ t, exec (.predict o) s = .next t ∧
      (let p := tabGet (getDie s (dieOf s.cur)).pred o.key.toNat {}
       let q := tabGet (getDie t (dieOf s.cur)).pred o.key.toNat {}
       q.mode = o.mode ∧ q.hint = (seeX s (me s) o.a.toNat).extractLsb' 0 32 ∧ q.nh = p.nh ∧ q.h = p.h) ∧
      (∀ d k, (d, k) ≠ (dieOf s.cur, o.key.toNat) → tabGet (getDie t d).pred k {} = tabGet (getDie s d).pred k {}) ∧
      t.cores = s.cores ∧ t.mem = s.mem)) ∧
  (
    ∀ (s : State),
      let c := me s
      let marker := fun (g : Signal) => (Host.Outcome.next (modMe s fun c => { c with
        acc := c.acc ++ [{ id := c.nextId, kind := .signal g, no := c.bundleNo, task := c.task, stamp := s.tick }], nextId := c.nextId + 1 }) : Out)
      let blocks := (Host.Outcome.next (modMe s fun c => { c with wait := .green, mark := .blocked }) : Out)
      (∀ (o : AllocOp) (k : Task) (p : Placed) (l : List Placed), guardOn s o.g = true → taskOf s s.cur = some k →
        let r := (seeX s c o.b.toNat).toNat % 2 ^ 57
        (r % 8 ≠ 0 → exec (.alloc o) s = .next (slotTrap s 11 0x06 (BitVec.ofNat 64 r) 0)) ∧
        (r % 8 = 0 → inPart k r 8 = false → exec (.alloc o) s = .next (slotTrap s 11 0x05 (BitVec.ofNat 64 r) 1)) ∧
        (r % 8 = 0 → inPart k r 8 = true → checkAll s { w := true } (parts r 8) = .ok (p :: l) →
          exec (.alloc o) s = .next (modMe (touchAll s (p :: l)) fun c => { c with
            acc := c.acc ++ [{ id := c.nextId, kind := .signal (.alloc (seeX s (me s) o.a.toNat)), win := p.win, mt := p.mt, pa := p.pa, n := 8
                               no := c.bundleNo, task := c.task, va := p.va, stamp := s.tick }]
            nextId := c.nextId + 1 }))) ∧
      (∀ (o : RegOp) (u : Nat) (k : Task), guardOn s o.g = true → c.task = some u → tabFind s.tasks u = some k →
        let base := (seeX s c o.a.toNat).toNat % 2 ^ 57
        (k.green = false → exec (.free o) s = marker (.free (BitVec.ofNat 64 base))) ∧
        (k.green = true → exec (.free o) s = .next { s with tasks := tabSet s.tasks u { k with frees := k.frees ++ [(s.cur, c.bundleNo, base)] } })) ∧
      (∀ (o : EventOp) (on : Bool), guardOn s o.g = true →
        let i := (seeX s c o.a.toNat).toNat % 4096
        let op := if on then Instr.evset o else .evsetClear o
        (greenOf s s.cur = true → exec op s = blocks) ∧
        (greenOf s s.cur = false → i = 0 → exec op s = .next s) ∧
        (greenOf s s.cur = false → i ≠ 0 → exec op s = marker (.event i on))) ∧
      (∀ (o : PlainOp) (u : Nat) (k : Task), guardOn s o.g = true → c.task = some u → tabFind s.tasks u = some k →
        (c.handler = true → exec (.yield o) s = .next (slotTrap s 11 0x03 0 0)) ∧
        (c.handler = false → yieldsTo s u k = true →
          exec (.yield o) s = .next { s with tasks := tabSet s.tasks u { k with preempt := true, yielded := true } }) ∧
        (c.handler = false → yieldsTo s u k = false → exec (.yield o) s = .next s) ∧
        (c.handler = false → exec (.halt o) s = .next (modMe s fun c => { c with halted := true })) ∧
        (c.handler = true → k.error = none → ∃ t, exec (.halt o) s = .next t ∧ (tabFind t.tasks u).bind (fun k => k.error) =
          some ⟨BitVec.ofNat 8 (causeClass c.cause.toNat), 0, BitVec.ofNat 14 (s.cur + 1536), c.sys.taddr,
            BitVec.ofNat 16 (c.sys.tcause.toNat + if c.cause = 0x0A then 256 * c.hitTile else 0)⟩)))

/-! ## The matrix unit and the runners (spec/06, spec/07, spec/12) -/

/-- R98: a value that the format holds is what its rounding gives, in every mode, for every format. -/
def Obligations.RoundingKeepsRepresentableValues : Prop :=
  ∀ (f : FFmt) (rm : BitVec 2) (sat : Bool) (x : Nat), f ∈ [fp32, bf16, fp16, e4m3, e5m2] → x < 2 ^ (1 + f.e + f.m) → isNaN f x = false →
    roundF f rm sat (decodeF f x) = x

/-- (1) R105, R106 and R113: element (i, j) of a step is one rounding of the accumulator plus 128 products, or for integers that sum modulo
2^32; the overflow is told exactly when some element's sum leaves the INT32 range.

(2) R113: the order in which the terms of a sum are added has no effect, infinities, zeros and NaN among them. -/
def Obligations.MatrixStepsAreExactAndOrderFree : Prop :=
  (
    ∀ (fmt : W32) (a b : Stage) (acc : List W32) (i j : Nat), i < 128 → j < 128 →
      a.elems.length = 16384 → b.elems.length = 16384 → acc.length = 16384 →
      let x := fun (r k : Nat) => ((a.elems[128 * r + k]?).getD 0).toNat
      let y := fun (k c : Nat) => ((b.elems[128 * k + c]?).getD 0).toNat
      let z := (acc[128 * i + j]?).getD 0
      let sum : Nat → Nat → Int := fun r c => ((acc[128 * r + c]?).getD 0).toInt +
        ((List.range 128).map (fun k => intVal 8 (aCode fmt == 4) (x r k) * intVal 8 (bCode fmt == 4) (y k c))).sum
      (∀ f g, accCode fmt ≠ 1 → matFmt (aCode fmt) = .flt f → matFmt (bCode fmt) = .flt g →
        (stepElems fmt a b none none acc).1[128 * i + j]? = some (BitVec.ofNat 32 (roundF fp32 (rmOf fmt) (satOf fmt)
          (exSum (decodeF fp32 z.toNat :: (List.range 128).map (fun k => exMul (decodeF f (x i k)) (decodeF g (y k j)))) (rmOf fmt))))) ∧
      (∀ sa sb : Stage, ∀ f g, accCode fmt ≠ 1 → matFmt (aCode fmt) = .flt f → matFmt (bCode fmt) = .flt g →
        (stepElems fmt a b (some sa) (some sb) acc).1[128 * i + j]? = some (BitVec.ofNat 32 (roundF fp32 (rmOf fmt) (satOf fmt)
          (exSum (decodeF fp32 z.toNat :: (List.range 128).map (fun k =>
            exMul (exMul (scaleAt sa i k) (decodeF f (x i k))) (exMul (scaleAt sb k j) (decodeF g (y k j))))) (rmOf fmt))))) ∧
      (accCode fmt = 1 →
        (stepElems fmt a b none none acc).1[128 * i + j]? = some (BitVec.ofInt 32 (sum i j)) ∧
        (sum i j < -(2 ^ 31) ∨ 2 ^ 31 ≤ sum i j → (stepElems fmt a b none none acc).2 = true) ∧
        ((∀ r c, r < 128 → c < 128 → -(2 ^ 31) ≤ sum r c ∧ sum r c < 2 ^ 31) → (stepElems fmt a b none none acc).2 = false)) ∧
      (accCode fmt ≠ 1 → (stepElems fmt a b none none acc).2 = false)) ∧
  (
    ∀ (l m : List Ex) (rm : BitVec 2), l.Perm m → (∀ x ∈ l, Dyadic x) → exSum l rm = exSum m rm)

/-- (1) R138 to R147: an M operation whose token is free joins the queue with its snapshot and makes its token pending; a pending token, a
full queue and (for MCALL) an undefined combination of formats trap, and MLOAD is privileged.

(2) R146 and R163: MABORT empties the queue and, while no SIGCHK is in assay, stops the running routine and abandons every open epoch;
the tokens of what it stopped are done-error with code 7.

(3) R138, R142 and R162: the head of the queue starts when nothing runs, no routine of a pre-empted task still runs on the core, its consumed
tokens are done without error, no fence holds it, what it reads waits for no earlier write (spec/10 R237), every write of the entries before it is
acknowledged (spec/11 R250) and its task has not to stop; a routine begins at sixteen words times its number, with the token still pending. A
failed consumed token ends it with code 7. -/
def Obligations.MatrixQueue : Prop :=
  (
    ∀ (s : State),
      let c := me s
      let queues := fun (i : Instr) (g : BitVec 4) (tok : BitVec 6) (ok : Prop) (kind : MKind) (list : W64) => guardOn s g = true → ok →
        (tokOf c tok.toNat ≠ .pending → queueDepth c.mu < 16 → ∃ t, exec i s = .next t ∧
          (let e : MEntry :=
             { kind := kind, tok := tok.toNat, list := list, fmt := c.sys.fmt, p := (List.range 8).map (fun r => (r, seeP s c r)),
               g := (List.range 8).map (fun r => (r, seeG s c r)), no := c.bundleNo, priv := c.sys.priv, stamp := s.tick }
           (me t).mu = { c.mu with queue := c.mu.queue ++ [e] }) ∧
          (tok ≠ 0 → tokOf (me t) tok.toNat = .pending) ∧ (∀ n, n ≠ tok.toNat → tokOf (me t) n = tokOf c n) ∧
          (me t).regs = c.regs ∧ t.mem = s.mem ∧ (∀ k, k ≠ s.cur → getCore t k = getCore s k)) ∧
        (tokOf c tok.toNat = .pending → exec i s = .next (slotTrap s 5 0x10 0 (BitVec.ofNat 32 tok.toNat))) ∧
        (tokOf c tok.toNat ≠ .pending → 16 ≤ queueDepth c.mu → exec i s = .next (slotTrap s 5 0x10 0 0))
      (∀ o : MCallOp, queues (.mcall o) o.g o.tok (combOk c.sys.fmt = true) (.call o.routine.toNat) (seeX s c o.list.toNat)) ∧
      (∀ o : MClrOp, queues (.mclr o) o.g o.tok True (.clr o.mask) 0) ∧
      (∀ o : MStatOp, queues (.mstat o) o.g o.tok True (.stat (seeX s c o.a.toNat).toNat) 0) ∧
      (∀ o : MSigOp, queues (.msig o) o.g o.tok True (.sig o.tile.toNat (seeX s c o.a.toNat).toNat) 0) ∧
      (∀ o : MLoadOp, queues (.mload o) o.g o.tok (c.sys.priv = 1) (.load (seeX s c o.a.toNat).toNat (seeX s c o.b.toNat)) 0) ∧
      (∀ o : MCallOp, guardOn s o.g = true → combOk c.sys.fmt = false →
        exec (.mcall o) s = .next (slotTrap s 5 0x09 0 (BitVec.ofNat 32 (aCode c.sys.fmt)))) ∧
      (∀ o : MLoadOp, guardOn s o.g = true → c.sys.priv ≠ 1 → exec (.mload o) s = .next (slotTrap s 5 0x03 0 0))) ∧
  (
    ∀ (o : MAbortOp) (s : State), guardOn s o.g = true → checkingIn (me s) = false → ∃ t, exec (.mabort o) s = .next t ∧
      let c := me s
      let d := getCore t s.cur
      d.mu.queue = [] ∧ d.mu.run = none ∧ (∀ i, i < 8 → (tileOf d i).epoch = none) ∧
      (∀ e ∈ c.mu.queue, e.tok ≠ 0 → tokOf d e.tok = .err 7) ∧ (∀ r, c.mu.run = some r → r.entry.tok ≠ 0 → tokOf d r.entry.tok = .err 7) ∧
      (∀ i, i < 8 → ∀ e, (tileOf c i).epoch = some e → (tileOf d i).last =
        { cope := signature e.held, drag := signature e.drag, assay := 0, outcome := 5 }) ∧
      ((∀ u k, c.task = some u → tabFind s.tasks u = some k → k.st ≠ 3) → d.regs = c.regs) ∧ t.mem = s.mem) ∧
  (
    ∀ (s : State) (core u : Nat) (k : Task) (e : MEntry) (rest : List MEntry),
      let c := getCore s core
      c.mu.run = none → c.mu.queue = e :: rest → c.task = some u → tabFind s.tasks u = some k → listDone c e.list = true →
      engineHeld c c.task 0x30 e.no = false → mustStop s u k = false → victimOn s core = none → entryWaits s u k e = false →
      ackOut s core c.task isMatrixSent = false → ∃ t, exec (.matrixEntryStart core) s = .next t ∧
        (StaysOn s k → (getCore t core).mu.queue = rest) ∧
        (∀ i, e.kind = .call i → listFailed c e.list = false →
          (StaysOn s k → (getCore t core).mu.run = some { entry := e, upc := 16 * i }) ∧ (getCore t core).tok = c.tok ∧ t.mem = s.mem) ∧
        (listFailed c e.list = true → e.tok ≠ 0 → tokOf (getCore t core) e.tok = .err 7 ∧ (getCore t core).mu.run = none))

/-- (1) R151 to R153: an operand load stages the elements of its 128 rows, lowest byte first, a scale load its 128 entries in block order;
the rows join the footprints, and the routine goes on.

(2) R154 to R156: ZERO and TLD open an epoch on both engines; MMA steps both copies from the staged operands; EPI makes both images.
The other tiles, the registers and memory stay as they are. -/
def Obligations.MatrixLoadsAndTiles : Prop :=
  (
    ∀ (o : UOp) (s : State) (r : MRun) (u : Nat) (t : Task), MicroReady s r u t →
      let rows := fun (g : BitVec 3) => (List.range 128).map (fun i =>
        ((((setOf r g).base.toNat : Int) + i * (setOf r g).str0.toInt) % (2 ^ 57 : Int)).toNat)
      let next := fun (s1 : State) (pas : List Nat) (f : MRun → MRun) =>
        (Host.Outcome.next (modRun (modRun (addFootprint s1 pas) f) (fun r => { r with upc := r.upc + 1 })) : Out)
      (∀ s1 b pas, stageBytes s t u (rows o.gA) (128 * opSize (aCode r.entry.fmt)) 128 = .ok s1 b pas → exec (.lda o) s =
        next s1 pas (fun r => { r with a := some { elems := elemsOf (opSize (aCode r.entry.fmt)) 16384 b, grp := groupsOf pas, rows := pas } })) ∧
      (∀ s1 b pas, stageBytes s t u (rows o.gB) (128 * opSize (bCode r.entry.fmt)) 128 = .ok s1 b pas → exec (.ldb o) s =
        next s1 pas (fun r => { r with b := some { elems := elemsOf (opSize (bCode r.entry.fmt)) 16384 b, grp := groupsOf pas, rows := pas } })) ∧
      (∀ s1 b pas, extOk (setOf r o.gA) = true → stageBytes s t u [(setOf r o.gA).base.toNat] 512 512 = .ok s1 b pas → exec (.ldsa o) s =
        next s1 pas (fun r' => { r' with sa := some {
          elems := (List.range 128).map (fun k => ((elemsOf 4 128 b)[k % 8 * 16 + k / 8]?).getD 0), grp := groupsOf pas, rows := pas,
          ext0 := (setOf r o.gA).ext0.toNat, ext1 := (setOf r o.gA).ext1.toNat } })) ∧
      (∀ s1 b pas, extOk (setOf r o.gB) = true → stageBytes s t u [(setOf r o.gB).base.toNat] 512 512 = .ok s1 b pas → exec (.ldsb o) s =
        next s1 pas (fun r' => { r' with sb := some {
          elems := (List.range 128).map (fun k => ((elemsOf 4 128 b)[k % 8 * 16 + k / 8]?).getD 0), grp := groupsOf pas, rows := pas,
          ext0 := (setOf r o.gB).ext0.toNat, ext1 := (setOf r o.gB).ext1.toNat } }))) ∧
  (
    ∀ (o : UOp) (s : State) (r : MRun) (u : Nat) (t : Task), MicroReady s r u t → NoVictims s →
      let i := o.t.toNat
      let x := tileOf (me s) i
      let fmt := r.entry.fmt
      let int := accCode fmt == 1
      let on := { r with upc := r.upc + 1 }
      let goes := fun (op : Instr) (r' : MRun) (y : Tile → Prop) => ∃ v, exec op s = .next v ∧ y (tileOf (me v) i) ∧
        (me v).mu.run = some r' ∧ (∀ k, k ≠ i → tileOf (me v) k = tileOf (me s) k) ∧
        (me v).regs = (me s).regs ∧ (me v).tok = (me s).tok ∧ v.mem = s.mem
      goes (.zero o) (noteMine i on) (fun y => tileElems y.cope = List.replicate 16384 0 ∧ tileElems y.drag = List.replicate 16384 0 ∧ y.valid = true ∧
        y.dirty = false ∧ y.ovf = false ∧ y.accint = int ∧ y.image = none ∧ ∃ e, y.epoch = some e ∧ e.held = [] ∧ e.drag = [] ∧ e.foot = []) ∧
      (∀ s1 b pas, stageBytes s t u ((List.range 128).map (rowAddr (setOf r o.gA))) 512 128 = .ok s1 b pas → MicroReady s1 r u t → NoVictims s1 →
        ∃ v, exec (.tld o) s = .next v ∧
        (let y := tileOf (me v) i
         y.cope = elemsOf 4 16384 b ∧ y.drag = elemsOf 4 16384 b ∧ y.valid = true ∧ y.dirty = false ∧ y.ovf = false ∧ y.accint = int ∧
         ∃ e, y.epoch = some e ∧ e.held = [] ∧ ∀ q ∈ pas, paOff q / 128 ∈ e.foot) ∧
        (me v).mu.run = some (noteMine i on) ∧ v.mem = s1.mem) ∧
      (∀ a b e, r.a = some a → r.b = some b → x.epoch = some e → x.bad = 0 → x.accint = int → s.faults = [] →
        a.grp.any (fun g => b.grp.contains g) = false →
        ((scaleOf fmt = false ∨ isFp8 fmt = false) → goes (.mma o) on (fun y =>
          y.cope = (stepElems fmt a b none none x.cope).1 ∧ y.drag = (stepElems fmt a b none none x.drag).1 ∧ y.dirty = true ∧
          y.ovf = (x.ovf || (stepElems fmt a b none none x.cope).2))) ∧
        (∀ sa sb, scaleOf fmt = true → isFp8 fmt = true → r.sa = some sa → r.sb = some sb → goes (.mma o) on (fun y =>
          y.cope = (stepElems fmt a b (some sa) (some sb) x.cope).1 ∧ y.drag = (stepElems fmt a b (some sa) (some sb) x.drag).1 ∧ y.dirty = true))) ∧
      (∀ e ty, x.epoch = some e → x.bad = 0 → outFmt (o.imm.toNat % 16) = some ty →
        (o.imm.getLsbD 4 = true → int = false ∧ o.imm.toNat % 16 < 5) →
        let scale := (paramOf r o.p).extractLsb' 0 32
        let f := epiElem fmt x.accint ty (o.imm.getLsbD 4) (o.imm.getLsbD 5) scale
        goes (.epi o) on (fun y => y.dirty = false ∧ y.cope = x.cope ∧ y.drag = x.drag ∧
          y.image = some ⟨etyBits ty / 8, (tileElems x.cope).map f, (tileElems x.drag).map f⟩)))

/-- (1) R119, R120, R157 and R158: STT holds its rows in the saggar and writes no memory. A SIGCHK whose engines differ waits for the assay
path; one whose engines agree closes the epoch, and of a confirmed task, when the epoch's own footprint is gone, its rows are released:
memory is what the release of each row in turn leaves. Nothing is written where a row's place lies in the footprint of another open epoch (the
outcome is then 6) or a row holds an uncorrected error; that the latter goes first is the model's choice (log entry 80). A check of an epoch
without stores is no suspend point (R127).

(2) R127 and R159 to R161: loops, base and parameter updates of a routine, and its end. At ENDL a routine of a task that is to give way, or has
given way, suspends unless an open epoch of the routine holds rows; that of a gang that has halted or ended in error goes on
(R163).

(3) R120 and R121: a dispute ends with the engine that the assay path agrees with, cope (2) or drag (3); cope's rows or the assay path's own
are then released, and memory is what the release of each row in turn leaves, unless a row's place lies in the footprint of another open epoch:
then nothing is written and the outcome is 6 (an erroneous row goes first, log entry 80). Where the path agrees with neither, nothing is released (4).

(4) R123 and R358: a row is released as one write of its bytes at the place its address has now, at the level it was stored at, and its
footprint check looks there (R124); one that translates no longer writes nothing and ends with class 4. The translation at the release is the
model's reading (log entry 48, DEDUCED). Bytes that its context must not store to are left out (log entry 46), and what the model chooses for a
remote write without acknowledgement. -/
def Obligations.MatrixStoresChecksAndControl : Prop :=
  (
    ∀ (o : UOp) (s : State) (r : MRun) (u : Nat) (t : Task), MicroReady s r u t → NoVictims s →
      let i := o.t.toNat
      let x := tileOf (me s) i
      let n := if o.imm.toNat % 256 = 0 then 128 else o.imm.toNat % 256
      (∀ e im l, x.epoch = some e → x.image = some im → n ≤ 128 → t.green = false →
        (∀ k, k < n → rowAddr (setOf r o.gA) k % im.size = 0) →
        placeFor s (whoTask u t (r.entry.priv == 1)) { w := true } (rowParts ((List.range n).map (rowAddr (setOf r o.gA))) (128 * im.size)) = .ok l →
        (∀ p ∈ l, footHit s p.mt p.pa p.n = none) → heldBytes (me s) + n * 128 * im.size ≤ 65536 →
        ∃ v, exec (.stt o) s = .next v ∧ v.mem = s.mem ∧ (me v).mu.run = some (noteMine i { r with upc := r.upc + 1 }) ∧
          ∃ e', (tileOf (me v) i).epoch = some e' ∧ (tileOf (me v) i).inflight = true ∧ e'.foot = e.foot ∧
            e'.held = e.held ++ rowsHeld (r.entry.priv == 1) l ((List.range n).flatMap (imageRow im.size im.cope)) ∧
            e'.drag = e.drag ++ rowsHeld (r.entry.priv == 1) l ((List.range n).flatMap (imageRow im.size im.drag))) ∧
      (∀ e, x.epoch = some e → signature e.held ≠ signature e.drag → ∃ v, exec (.sigchk o) s = .next v ∧ v.mem = s.mem ∧
        (getHearth v (s.cur / 4)).assay = (getHearth s (s.cur / 4)).assay ++ [(s.cur, i, u)] ∧
        (∃ e', (tileOf (me v) i).epoch = some e' ∧ e'.checking = true ∧ e'.held = e.held) ∧ (me v).mu.run = some r) ∧
      (∀ e, x.epoch = some e → e.held = [] → e.drag = [] → r.stop = false → ∃ v, exec (.sigchk o) s = .next v ∧
        v.mem = s.mem ∧ (tileOf (me v) i).epoch = none ∧ (tileOf (me v) i).last.outcome = 1 ∧
        (me v).mu.run = some { r with upc := r.upc + 1 } ∧ (me v).mu.suspended = (me s).mu.suspended) ∧
      (∀ e, x.epoch = some e → StaysOn s t → signature e.held = signature e.drag → ∃ v, exec (.sigchk o) s = .next v ∧ (tileOf (me v) i).epoch = none ∧
        (let s1 := closeEpoch s u s.cur i { cope := signature e.held, drag := signature e.drag, assay := 0, outcome := 1 }
         ((∃ q ∈ e.held, q.bad = true) → (tileOf (me v) i).last.outcome = 1 ∧ v.mem = s.mem) ∧
         ((∀ q ∈ e.held, q.bad = false) → rowHit s1 u e.held ≠ none → (tileOf (me v) i).last.outcome = 6 ∧ v.mem = s.mem) ∧
         ((∀ q ∈ e.held, q.bad = false) → rowHit s1 u e.held = none → t.green = false →
           (tileOf (me v) i).last.outcome = 1 ∧ v.mem = (releaseImage s1 u s.cur t.ctx 0 e.held).1.mem)))) ∧
  (
    ∀ (o : UOp) (s : State) (r : MRun) (u : Nat) (t : Task), MicroReady s r u t →
      let off := o.imm.toNat / 2 ^ 20
      let n := if o.imm.toNat % 2 ^ 20 = 0 then (paramOf r o.p).toNat % 2 ^ 32 else o.imm.toNat % 2 ^ 20
      let sets := fun (f : MRun) => (Host.Outcome.next (modMe s fun c => { c with mu := { c.mu with run := some f } }) : Out)
      (∃ v, exec (.endR o) s = .next v ∧ (getCore v s.cur).mu.run = none ∧ (r.entry.tok ≠ 0 → tokOf (getCore v s.cur) r.entry.tok = .ok) ∧
        (t.st ≠ 3 → (getCore v s.cur).regs = (me s).regs) ∧ v.mem = s.mem) ∧
      (off ≠ 0 → r.loops.length ≠ 4 → n ≠ 0 → exec (.loopMicroOp o) s = sets { r with loops := r.loops ++ [(n, r.upc + 1)], upc := r.upc + 1 }) ∧
      (off ≠ 0 → r.loops.length ≠ 4 → n = 0 → exec (.loopMicroOp o) s = sets { r with upc := r.upc + off + 1 }) ∧
      (∀ l k top, 1 ≤ k → r.loops = l ++ [(k, top)] →
        let r' := if k = 1 then { r with loops := l, upc := r.upc + 1 } else { r with loops := l ++ [(k - 1, top)], upc := top }
        (mustStop s u t = false → exec (.endl o) s = sets r') ∧ (t.preempt = false → t.st ≠ 3 → exec (.endl o) s = sets r') ∧
        (routineHolds (me s) = true → exec (.endl o) s = sets r') ∧
        (mustStop s u t = true → routineHolds (me s) = false → exec (.endl o) s =
          .next (modMe s fun c => { c with mu := { c.mu with run := some r', suspended := true } }))) ∧
      (let g := setOf r o.gA
       exec (.gadv o) s = sets { r with upc := r.upc + 1, entry := { r.entry with
         g := tabSet r.entry.g o.gA.toNat { g with base := BitVec.ofInt 57 (g.base.toNat + o.imm.toInt * g.str1.toInt) } } }) ∧
      exec (.setp o) s = sets { r with upc := r.upc + 1, entry := { r.entry with
        p := tabSet r.entry.p o.p.toNat (BitVec.ofNat 64 ((paramOf r o.p).toNat / 2 ^ 32 * 2 ^ 32 + o.imm.toNat)) } }) ∧
  (
    ∀ (s : State) (hearth core tile u : Nat) (k : Task) (rest : List (Nat × Nat × Nat)) (e : Epoch),
      (getHearth s hearth).assay = (core, tile, u) :: rest → (getCore s core).task = some u → tabFind s.tasks u = some k →
      (tileOf (getCore s core) tile).epoch = some e → e.checking = true → StaysOn s k →
      ∃ t, exec (.assayComplete hearth) s = .next t ∧ (getHearth t hearth).assay = rest ∧
        (let s0 := { s with cur := core, hearths := tabSet s.hearths hearth { getHearth s hearth with assay := rest } }
         let a := assayRun s0 u core tile e
         let c := signature e.held
         let g := signature a.rows
         let d := tileOf (getCore t core) tile
         let ends := fun (engine src o : Nat) (rows : List HeldRow) =>
           let s1 := closeEpoch (dispute s0 u core k.ctx tile engine (firstAddr e.held) c (signature e.drag) g) u core tile
             { cope := c, drag := signature e.drag, assay := g, outcome := BitVec.ofNat 8 o }
           ((∃ q ∈ rows, q.bad = true) → d.last.outcome = BitVec.ofNat 8 o ∧ t.mem = s.mem) ∧
           ((∀ q ∈ rows, q.bad = false) → rowHit s1 u rows ≠ none → d.last.outcome = 6 ∧ t.mem = s.mem) ∧
           ((∀ q ∈ rows, q.bad = false) → rowHit s1 u rows = none → k.green = false →
             d.last.outcome = BitVec.ofNat 8 o ∧ t.mem = (releaseImage s1 u core k.ctx src rows).1.mem)
         d.epoch = none ∧
         (a.bad = none → g = c → ends 1 0 2 e.held) ∧
         (a.bad = none → g ≠ c → g = signature e.drag → ends 0 2 3 a.rows) ∧
         (a.bad = none → g ≠ c → g ≠ signature e.drag → t.mem = s.mem ∧ d.last.outcome = 4))) ∧
  (
    ∀ (s t : State) (u : Nat) (k : Task) (core : Nat) (r : HeldRow) (p : Placed), MemOk s → tabFind s.tasks u = some k → k.st ≠ 3 →
      (placeRow s k r = none → releaseRow s u k core r = (s, some 4)) ∧
      (placeRow s k r = some p → isRemote s p.pa = false → p.mt ≠ 2 → ownBlock s u p = false →
        (rowHit s u [r] = if footHit s p.mt p.pa p.n = none then none else some p.pa)) ∧
      (∀ l, rowHit s u (r :: l) = (rowHit s u [r]).or (rowHit s u l)) ∧
      (placeRow s k r = some p → isRemote s p.pa = false → p.mt ≠ 2 → ownBlock s u p = false → mayBreach s k.ctx = false →
        (writePa s (dieOf core) p.mt p.pa r.bytes).toOption = some t → releaseRow s u k core r = (t, none) ∧
        ∀ a, cellGet t.mem a = if memKey s p.pa ≤ a ∧ a < memKey s p.pa + r.bytes.length then r.bytes.getD (a - memKey s p.pa) 0 else cellGet s.mem a))

/-- (1) R276, R277 and R290: a C operation whose token is free joins its channel's queue with its snapshots and makes its token pending; a
pending token and a full channel trap, and what a provisional task may not do waits.

(2) R250, R276, R278, R279, R281, R282, R284 and R285: the head of a channel starts when nothing runs, its consumed tokens are done and no fence
holds it. SEND and FETCH of a device number from 432 on end with code 5. SCOPY starts with the bytes that its seal's CRC confirms, and ends with
code 3 where it finds no seal or another CRC. COLL joins the collective of its group under its rank, and ends with code 7 where its channel is no
member. An operation completes when every byte is written and no write to another device waits for its acknowledgement, with its token done; a
sealed copy and a collective once their bytes may be written and are, CFLUSH once its range is flushed. That the reads of SCOPY are one step is
the model's choice (log entry 50).

(3) R278 and R288: a runner writes its destination in order, at most up to the end of a 32-byte sector at a time: zeros for CZERO, the run of a
sealed copy or a collective that is ready, and else the source bytes at the same place of the same row. The write pointer counts the bytes written
up to the first whose write to another device is not acknowledged, and every other byte of memory reads as before. The progress piece by piece, and that a piece's reads are one step, is the model's choice (log
entries 40, 50). -/
def Obligations.RunnerOperations : Prop :=
  (
    ∀ (o : COp) (s : State), guardOn s o.g = true →
      let c := me s
      let ch := if isY o.u then 1 else 0
      let q := chanOf c ch
      let h := seeH s c o.h.toNat
      let depth := q.queue.length + (if q.run.isSome then 1 else 0)
      ∀ io ∈ [(Instr.copy o, ROp.copy), (.copy2 o, .copy2), (.send o, .send), (.fetch o, .fetch), (.scopy o, .scopy), (.coll o, .coll),
          (.czero o, .czero), (.cflush o, .cflush)],
        (tokOf c o.tok.toNat = .pending → exec io.1 s = .next (slotTrap s o.u.toNat 0x10 0 (BitVec.ofNat 32 o.tok.toNat))) ∧
        (tokOf c o.tok.toNat ≠ .pending → 16 ≤ depth → exec io.1 s = .next (slotTrap s o.u.toNat 0x10 0 0)) ∧
        (∀ k, tokOf c o.tok.toNat ≠ .pending → depth < 16 → taskOf s s.cur = some k → k.green = true → greenWaits k (ownDev s) io.2 h o.aux = true →
          exec io.1 s = .next (modMe s fun c => { c with wait := .green, mark := .blocked })) ∧
        (∀ u k, tokOf c o.tok.toNat ≠ .pending → depth < 16 → c.task = some u → tabFind s.tasks u = some k →
          (k.green = false ∨ greenWaits k (ownDev s) io.2 h o.aux = false) → ∃ t, exec io.1 s = .next t ∧
            chanOf (me t) ch = { q with queue := q.queue ++ [{ op := io.2, set := h, tok := o.tok.toNat, list := seeS s (isY o.u) o.list
                                                               aux := o.aux, ctx := k.ctx, task := u, priv := c.sys.priv, no := c.bundleNo, stamp := s.tick }] } ∧
            chanOf (me t) (1 - ch) = chanOf c (1 - ch) ∧ (o.tok ≠ 0 → tokOf (me t) o.tok.toNat = .pending) ∧
            (∀ n, n ≠ o.tok.toNat → tokOf (me t) n = tokOf c n) ∧ (me t).regs = c.regs ∧ t.mem = s.mem ∧
            (∀ k, k ≠ s.cur → getCore t k = getCore s k))) ∧
  (
    ∀ (s : State) (core ch : Nat),
      let c := getCore s core
      let q := chanOf c ch
      (∀ e rest, q.run = none → q.queue = e :: rest → c.task = some e.task → listDone c e.list = true → listFailed c e.list = false →
        engineHeld c (some e.task) 0x0C e.no = false →
        let s1 := modCore s core fun c => { c with chan := tabSet c.chan ch { q with queue := rest } }
        let starts := fun (o : State → Prop) => ∃ t, exec (.runnerOperationStart core ch) s = .next t ∧ o t
        let ends := fun (code : BitVec 3) => starts (fun t => (chanOf (getCore t core) ch).run = none ∧
          (e.tok ≠ 0 → tokOf (getCore t core) e.tok = .err code))
        (e.op ∈ [.copy, .copy2, .czero, .cflush] ∨ (e.op ∈ [.send, .fetch] ∧ e.set.dev.toNat < 432) →
          exec (.runnerOperationStart core ch) s = .next (modCore s core fun c => { c with
            chan := tabSet (tabSet c.chan ch { q with queue := rest }) ch { q with queue := rest, run := some { e := e } } })) ∧
        (e.op ∈ [.send, .fetch] ∨ (e.op = .scopy ∧ e.aux.getLsbD 0 = true ∧ readWaits s core e false (parts e.set.src.toNat e.set.len.toNat) = false) →
          432 ≤ e.set.dev.toNat → ends 5) ∧
        (e.op = .scopy → (e.aux.getLsbD 0 = true → e.set.dev.toNat < 432) →
          readWaits s core e false (parts e.set.src.toNat e.set.len.toNat) = false →
          (findSeal (getHearth s (core / 4)) e = none → ends 3) ∧
          (∀ x s2 b, findSeal (getHearth s (core / 4)) e = some x → (getCore s2 core).task = c.task →
            readRange (freshFor s1 core (some e.task) e.no) core e false (parts e.set.src.toNat e.set.len.toNat) = (s2, b, none) →
            (crc64 b = x.crc → starts (fun t => t.mem = s2.mem ∧ ∃ r, (chanOf (getCore t core) ch).run = some r ∧ r.e = e ∧ r.bytes = b ∧
              r.crc = x.crc ∧ r.ready = false ∧ r.done = 0)) ∧
            (crc64 b ≠ x.crc → ends 3))) ∧
        (e.op = .coll → groupWaits s e = false → ∀ l s2, groupOf s1 e = (.ok l, s2) → (getCore s2 core).task = c.task →
          (∀ w ∈ l, w.toNat % 512 < 432 ∧ w.toNat / 512 % 512 < 384) →
          (rankOf s2 core ch l = none → ends 7) ∧
          (∀ rank, rankOf s2 core ch l = some rank →
            let x := (s2.colls.find? (fun x => x.ctx == e.ctx && x.group == e.set.group.toNat)).getD { ctx := e.ctx, group := e.set.group.toNat }
            x.dead = false → lostMember s2 { x with joined := x.joined ++ [(rank, core, ch)] } l = none →
            starts (fun t => (chanOf (getCore t core) ch).run = some { e := e } ∧ t.mem = s2.mem ∧
              { x with joined := x.joined ++ [(rank, core, ch)] } ∈ t.colls)))) ∧
      (∀ r, q.run = some r → r.e.op ∈ [.copy, .copy2, .send, .fetch, .czero] → runnerTotal r ≤ r.done → unackedOf s core ch = [] → c.task = some r.e.task →
        ∃ t, exec (.runnerOperationComplete core ch) s = .next t ∧ (chanOf (getCore t core) ch).run = none ∧
          (r.e.tok ≠ 0 → tokOf (getCore t core) r.e.tok = .ok) ∧ t.mem = s.mem ∧
          ((∀ k, tabFind s.tasks r.e.task = some k → k.st ≠ 3) → (getCore t core).regs = c.regs)) ∧
      (∀ r, q.run = some r → r.e.op ≠ .cflush → r.done < runnerTotal r ∨ unackedOf s core ch ≠ [] →
        exec (.runnerOperationComplete core ch) s = .next s) ∧
      (∀ r, q.run = some r → r.e.op ∈ [.scopy, .coll] → c.task = some r.e.task →
        (r.ready = true → runnerTotal r ≤ r.done → unackedOf s core ch = [] → ∃ t, exec (.runnerOperationComplete core ch) s = .next t ∧
          (chanOf (getCore t core) ch).run = none ∧ (r.e.tok ≠ 0 → tokOf (getCore t core) r.e.tok = .ok) ∧ t.mem = s.mem) ∧
        (r.ready = false → exec (.runnerOperationComplete core ch) s = .next s)) ∧
      (∀ r s1, q.run = some r → r.e.op = .cflush → c.task = some r.e.task → s1.cores = s.cores →
        flushRange s r.e (dieOf core) (parts r.e.set.src.toNat r.e.set.len.toNat) = (s1, none) →
        ∃ t, exec (.runnerOperationComplete core ch) s = .next t ∧ (chanOf (getCore t core) ch).run = none ∧
          (r.e.tok ≠ 0 → tokOf (getCore t core) r.e.tok = .ok) ∧ t.mem = s1.mem)) ∧
  (
    ∀ (s : State) (core ch : Nat) (r : RRun), MemOk s → (chanOf (getCore s core) ch).run = some r → r.done < runnerTotal r →
      (isStaged r.e = true → r.ready = true) →
      let e := r.e
      let flat := isStaged e || e.op == .copy
      let len := if isStaged e then r.bytes.length else e.set.len.toNat
      let row : Int := if flat then 0 else ((r.done / e.set.len.toNat : Nat) : Int)
      let col := if flat then r.done else r.done % e.set.len.toNat
      let dst := ((((e.set.dst.toNat : Int) + (row * e.set.dstr.toInt + (col : Int))) % (2 ^ 57 : Int))).toNat
      let src := ((((e.set.src.toNat : Int) + (row * e.set.sstr.toInt + (col : Int))) % (2 ^ 57 : Int))).toNat
      let n := min (32 - dst % 32) (len - (if isStaged e then r.done else r.done % len))
      let m := wholePieces e r.done n
      let puts := fun (s1 : State) (data : List Byte) => ∀ s2 p s3, data.length = n → (getCore s2 core).task = some e.task →
        placeRun s1 e (farDest s1 e) true dst n = .ok s2 p → linkRoom s2 (dieOf core) p.mt p.pa = true → footHit s2 p.mt p.pa n = none →
        mayBreach s2 e.ctx = false → (writePa s2 (dieOf core) p.mt p.pa data).toOption = some s3 → MemOk s2 →
        let t := runnerMove core ch 1 s
        t.mem = s3.mem ∧
        (p.mt ≠ 2 → ∀ a, cellGet t.mem a =
          if memKey s2 p.pa ≤ a ∧ a < memKey s2 p.pa + n then data.getD (a - memKey s2 p.pa) 0 else cellGet s2.mem a) ∧
        (∃ q, (chanOf (getCore t core) ch).run = some q ∧ q.e = e ∧ q.done = r.done + n ∧ q.bytes = r.bytes ∧
          let v := max r.counted ((unackedOf t core ch).foldl (fun v x => min v x.pos) q.done)
          q.counted = v ∧ (chanOf (getCore t core) ch).count = (chanOf (getCore s2 core) ch).count + BitVec.ofNat 48 (v - r.counted))
      (e.op = .czero → puts s (List.replicate n 0)) ∧
      (isStaged e = true → puts s ((r.bytes.drop r.done).take n)) ∧
      (e.op ∈ [.copy, .copy2, .send, .fetch] → r.ahead = [] → readWaits s core e (farSource s e) (parts src n) = false →
        ∀ s1 b, readRange (freshFor s core (some e.task) e.no) core e (farSource s e) (parts src m) = (s1, b, none) → b.length = m →
          puts s1 (b.take n)) ∧
      (∀ s1 s2 p b va k, placeRun s1 e (farSource s1 e) false va k = .ok s2 p → isRemote s2 p.pa = false → p.mt ≠ 2 →
        (readPa s2 (dieOf core) p.mt p.pa k).toOption = some b →
        (readRange s1 core e (farSource s1 e) [(va, 0, k)]).2 = (b, none) ∧ b = cellsGet s2.mem (memKey s2 p.pa) k))

/-- (1) R282: at the far write of a sealed copy the CRC of what arrived decides: equal, the run may be written, as `RunnerOperations` says;
different, it is sent once more; different again, nothing of it is written and its token is done-error with code 3.

(2) R285 and R286: a collective that every member of this device has joined, and whose reads wait for nothing, leaves the joining list. Every
member that joined is then ready with the result over all contributions in rank order: the tree of R285 element by element, its own part of it,
all contributions one after the other, or that of rank 0. Two members' reduction combines their elements pair by pair.

(3) R267, R270 and R271: a request whose number its home expects, or that sets START, performs there, and the home expects the next: memory and
the returned value are those of its operation at its address, and the other requests stay. The kept ones whose turn has come then perform too, one after
the other, up to 32 of them. Another is kept at the home while fewer than 32 are, and refused otherwise; a refused one is sent again after its
back-off. The performing clause is about a request of a task that holds its cores or has nothing of its scratchpad lost (spec/13 R305, log entry 65). -/
def Obligations.FarWritesCollectivesAndOrderedAtomics : Prop :=
  (
    ∀ (s : State) (core ch : Nat) (flip : BitVec 64) (r : RRun),
      let c := getCore s core
      (chanOf c ch).run = some r → r.e.op = .scopy → r.ready = false →
      let good := crc64 r.bytes ^^^ flip = r.crc
      (good → ∃ t, exec (.scopyFarWrite core ch flip) s = .next t ∧ (chanOf (getCore t core) ch).run = some { r with ready := true }) ∧
      (¬ good → r.tries = 0 → exec (.scopyFarWrite core ch flip) s = .next (modCore s core fun c => { c with
        chan := tabSet c.chan ch { chanOf c ch with run := some { r with tries := 1 } } })) ∧
      (¬ good → r.tries ≠ 0 → c.task = some r.e.task → r.e.tok ≠ 0 → ∃ t, exec (.scopyFarWrite core ch flip) s = .next t ∧
        (chanOf (getCore t core) ch).run = none ∧ tokOf (getCore t core) r.e.tok = .err 3 ∧ t.mem = s.mem)) ∧
  (
    (∀ (s s1 : State) (x : Coll) (l : List W64) (r0 : RRun) (t : ETy), x ∈ s.colls →
      (s.colls.filter (fun y => y.ctx == x.ctx && y.group == x.group)) = [x] →
      (∀ j ∈ x.joined, ((chanOf (getCore s j.2.1) j.2.2).run).isSome = true) → x.joined ≠ [] →
      (let j := x.joined.headD (0, 0, 0); (chanOf (getCore s j.2.1) j.2.2).run = some r0) →
      groupOf s r0.e = (.ok l, s1) → s1.colls = s.colls → s1.cores = s.cores → l.length ≤ x.joined.length →
      (∀ j ∈ x.joined, ∀ q n, (chanOf (getCore s j.2.1) j.2.2).run = some q →
        readWaits s1 j.2.1 q.e false (parts q.e.set.src.toNat n) = false) →
      ∃ v, exec (.collectiveComplete x.ctx x.group) s = .next v ∧ (∀ y ∈ v.colls, ¬ (y.ctx = x.ctx ∧ y.group = x.group)) ∧
        (∀ s2 lead cs, lostMember s x l = none →
          (lead = ((x.joined.filterMap (fun j => ((chanOf (getCore s j.2.1) j.2.2).run).map (fun r => (j, r)))).find? (fun q => q.1.1 == 0)).elim
            r0.e (fun q => q.2.e)) → collType lead = some t → collLenOk lead t l.length = true →
          (∀ j ∈ x.joined, ∀ q, (chanOf (getCore s j.2.1) j.2.2).run = some q → sameColl q.e lead = true) →
          contributions s1 x.joined lead.set.len.toNat (givingRanks lead l.length) = (.ok cs, s2) → s2.cores = s.cores → s2.colls = s.colls →
          (x.joined.map (fun j => (j.2.1, j.2.2))).Nodup →
          ∀ j ∈ x.joined, ∀ q, (chanOf (getCore s j.2.1) j.2.2).run = some q →
            (chanOf (getCore v j.2.1) j.2.2).run = some { q with bytes := collResult lead t j.1 cs, ready := true })) ∧
    (∀ (e : REntry) (t : ETy) (rank : Nat) (a b : List Byte),
      let sz := etyBits t / 8
      let x := fun (l : List Byte) (i : Nat) => natOfBytes ((l.drop (i * sz)).take sz)
      let each := fun (f : Nat → Nat → Nat) => (List.range (e.set.len.toNat / sz)).flatMap (fun i => bytesOf (f (x a i) (x b i)) sz)
      (collKind e = 0 → collOp e = 0 → collResult e t rank [a, b] = each (vSum2 t (collFmt e))) ∧
      (collKind e = 0 → collOp e = 1 → collResult e t rank [a, b] = each (vPick t false)) ∧
      (collKind e = 0 → collOp e = 2 → collResult e t rank [a, b] = each (vPick t true)) ∧
      (collKind e = 2 → collResult e t rank [a, b] = a ++ b) ∧ (collKind e = 3 → collResult e t rank [a] = a))) ∧
  (
    ∀ (s : State) (n : Nat) (r : OReq), s.oreqs[n]? = some r →
      let key := fun (r : OReq) => r.slice * 2 ^ 13 + r.core * 16 + r.flow
      let due := fun (t : State) (x : OReq) => x.buffered && tabGet t.expect (key x) 0 == x.seq
      let mark := fun (f : OReq → OReq) =>
        (Host.Outcome.next { s with oreqs := s.oreqs.map (fun x => if x.core = r.core ∧ x.id = r.id ∧ x.flow = r.flow then f x else x) } : Out)
      let used := (s.oreqs.filter (fun x => x.buffered && x.slice == r.slice)).length
      let told : State := { s with expect := if r.start then tabSet s.expect (key r) r.seq else s.expect }
      (r.backoff = false → r.buffered = false → r.start = true ∨ tabGet s.expect (key r) 0 = r.seq →
        exec (.orderedAtomicRequest n) s = .next (performBuffered 32 (performOrdered told r))) ∧
      (r.backoff = false → r.buffered = true → exec (.orderedAtomicRequest n) s = .next (performBuffered 32 s)) ∧
      (∀ k, s.oreqs.find? (due s) = some r → performBuffered (k + 1) s = performBuffered k (performOrdered s r)) ∧
      (∀ k, s.oreqs.find? (due s) = none → performBuffered k s = s) ∧
      ((s.oreqs.filter (fun x => x.buffered)).length ≤ 32 → ∀ x ∈ (performBuffered 32 s).oreqs, due (performBuffered 32 s) x = false) ∧
      (let t := performOrdered s r
       tabGet t.expect (key r) 0 = r.seq + 1 ∧ (∀ k, k ≠ key r → tabGet t.expect k 0 = tabGet s.expect k 0) ∧
       t.oreqs = s.oreqs.filter (fun x => !(x.core == r.core && x.id == r.id && x.flow == r.flow)) ∧
       (∀ m e op v new, (getCore s r.core).acc[m]? = some e → e.id = r.id → e.kind = .ordered op v new r.flow r.seq true →
         (∀ k e', k < m → (getCore s r.core).acc[k]? = some e' → e'.id ≠ r.id) →
         let w := tabGet (getCore s r.core).flow r.flow {}
         let s2 := modCore { s with expect := t.expect, oreqs := t.oreqs } r.core
           (fun c => { c with flow := tabSet c.flow r.flow { home := w.home, outstanding := w.outstanding - 1, restart := w.restart } })
         accGone s2 e = false → (∀ u, e.task = some u → isSuspended s2 u = false) →
         ∀ old s3, (atomicAt s2 (dieOf r.core) e op v new 0).toOption = some (old, s3) → footHit s2 e.mt e.pa e.n = none →
           t.mem = s3.mem ∧ t.hostMem = s3.hostMem ∧
           (getCore t r.core).flight = (fillFlight (getCore s r.core) e.id e.off (.ok (bytesOf old e.n))).flight ∧
           (getCore t r.core).acc = (getCore s r.core).acc.eraseIdx m ∧
           (tabGet (getCore t r.core).flow r.flow {}).outstanding = w.outstanding - 1)) ∧
      (r.buffered = false → r.backoff = false → r.start = false → tabGet s.expect (key r) 0 ≠ r.seq → used < 32 →
        exec (.orderedAtomicRequest n) s = mark (fun x => { x with buffered := true, backoff := false })) ∧
      (r.buffered = false → r.backoff = false → r.start = false → tabGet s.expect (key r) 0 ≠ r.seq → 32 ≤ used →
        exec (.orderedAtomicRequest n) s = mark (fun x => { x with refusals := x.refusals + 1, backoff := true })) ∧
      (r.backoff = true → exec (.orderedAtomicResend n) s = .next { s with oreqs := s.oreqs.modify n (fun r => { r with backoff := false }) }) ∧
      (r.backoff = false → exec (.orderedAtomicResend n) s = .next s) ∧ (r.backoff = true → exec (.orderedAtomicRequest n) s = .next s))

/-! ## Virtual cycles, landings, pauses and waits (spec/02, spec/04, spec/12, spec/16) -/

/-- (1) R34: when every core of a gang has made its decision and nothing pauses it, the VCC advances by one and every core of the gang
starts its next vc; a task that was resumed stays so until its first bundle issues (R33); otherwise nothing changes.

(2) R55: an FMT write takes effect when its delay has ended, the later one last: of two that have come due the later holds; while only the earlier
has, it holds and the later waits.

(3) R38 and R87: a trapped core enters its handler once the gang has stopped and landed; a handler's count then steps by one as a VCC
does. -/
def Obligations.VirtualCyclesAndHandlerCounts : Prop :=
  (
    ∀ (s : State) (u : Nat) (k : Task), tabFind s.tasks u = some k → k.verdict = none →
      (mayAdvance s u k = true → ∃ t, exec (.virtualCycleAdvance u) s = .next t ∧
        tabFind t.tasks u = some { k with vcc := k.vcc + 1, issued := false, st := if k.st = 4 then 4 else 1 } ∧ t.mem = s.mem ∧
        (∀ i ∈ gangOf k, getCore t i = startVc (getCore s i) (k.vcc + 1)) ∧ (∀ i, i ∉ gangOf k → getCore t i = getCore s i)) ∧
      (mayAdvance s u k = false → exec (.virtualCycleAdvance u) s = .next s)) ∧
  (
    ∀ (s : State) (core : Nat) (k : Task), taskOf s core = some k → (getCore s core).retPend = none →
      ∃ t, exec (.fmtWriteEffect core) s = .next t ∧ t.mem = s.mem ∧ (getCore t core).regs = (getCore s core).regs ∧
        (∀ p ∈ (getCore t core).sys.fmtPend, nowOf s core < p.1) ∧
        (∀ d v, (getCore s core).sys.fmtPend = [(d, v)] → d ≤ nowOf s core → (getCore t core).sys.fmt = v ∧ (getCore t core).sys.fmtPend = []) ∧
        (∀ d v, (getCore s core).sys.fmtPend = [(d, v)] → nowOf s core < d →
          (getCore t core).sys.fmt = (getCore s core).sys.fmt ∧ (getCore t core).sys.fmtPend = [(d, v)]) ∧
        (∀ d v e w, (getCore s core).sys.fmtPend = [(d, v), (e, w)] → d ≤ e → let now := nowOf s core
          (e ≤ now → (getCore t core).sys.fmt = w ∧ (getCore t core).sys.fmtPend = []) ∧
          (d ≤ now → now < e → (getCore t core).sys.fmt = v ∧ (getCore t core).sys.fmtPend = [(e, w)]) ∧
          (now < d → (getCore t core).sys.fmt = (getCore s core).sys.fmt ∧ (getCore t core).sys.fmtPend = [(d, v), (e, w)]))) ∧
  (
    ∀ (s : State) (core : Nat) (k : Task), taskOf s core = some k → gangRuns k = true → preemptsNow s k = false →
      let c := getCore s core
      (c.handler = false → c.trapped = true → gangStopped s k = true →
        (∀ i ∈ gangOf k, (getCore s i).hold = .none ∧ (getCore s i).ctl.post = none ∧ ((getCore s i).handler = true ∨ (getCore s i).flight = [])) →
        exec (.handlerCountAdvance core) s = .next (modCore s core fun c => { c with
          handler := true, decided := false, ctl := { c.ctl with hcount := 1 } })) ∧
      (c.handler = true → coreDecided c = true → c.hold = .none → c.ctl.post = none → arrivedBy c (c.ctl.hcount + 1) = true → c.retPend = none →
        exec (.handlerCountAdvance core) s = .next (modCore s core fun c =>
          startVc { c with ctl := { c.ctl with hcount := c.ctl.hcount + 1 } } (c.ctl.hcount + 1))))

/-- (1) R35, R36 and R38: at a vc every result whose bound has ended and whose value is there lands, the earlier bound first; the others stay in
flight. When the gang has stopped, or the task of a running handler has, what is in flight lands at once, after the transfer of its last bundle
(spec/04 R66, R87).

(2) R48: a write lands in its own register and in no other, and no other file of the core changes: for x, y, the vector and w registers, masks
and predicates under the bits enabled, distributions and their tags, parameters, the fields of stride sets and copy sets, and system
registers. x0, y0, k0, q0 and q1 ignore writes and read as the manual says.

(3) R35, R41 and R54: a result put in flight by a slot changes nothing but what is in flight on its core: no register, no byte of memory,
no other core. -/
def Obligations.ResultsLandWhenDue : Prop :=
  (
    (∀ (c : Core) (now : Nat), (∀ f ∈ (landDue c now false).flight, f ∈ c.flight ∧ (now < f.due ∨ flightLands f.val = none)) ∧
      (∀ f ∈ c.flight, now < f.due ∨ flightLands f.val = none → f ∈ (landDue c now false).flight) ∧
      (∀ f l, c.flight = [f] → f.due ≤ now → f.val = .known [l] → landDue c now false = { landCore c l with flight := [] }) ∧
      (∀ r v w d e, r ≠ 0 → c.flight = [⟨d, .known [.x r v]⟩, ⟨e, .known [.x r w]⟩] → d ≤ now → e ≤ now →
        tabGet (landDue c now false).regs.x r 0 = if e < d then v else w)) ∧
    (∀ (s : State) (core : Nat) (k : Task), taskOf s core = some k → (getCore s core).retPend = none →
      let c := getCore s core
      let all := (if c.handler then coreDecided c && (k.error.isSome || preemptsNow s k || k.ended) else gangStopped s k) && c.ctl.post.isNone &&
        c.flight.all (fun f => (flightLands f.val).isSome)
      exec (.resultLanding core) s = .next (settleCore (modCore s core fun c => landDue c (nowOf s core) all) core))) ∧
  (
    ∀ (g : Regs),
      (∀ i v r, tabGet (landRegs g (.x i v)).x r 0 = if r = i ∧ i ≠ 0 then v else tabGet g.x r 0) ∧
      (∀ i v r, tabGet (landRegs g (.y i v)).y r 0 = if r = i ∧ i ≠ 0 then v else tabGet g.y r 0) ∧
      (∀ i b r, tabGet (landRegs g (.q i b)).q r false = if r = i ∧ 2 ≤ i then b else tabGet g.q r false) ∧
      (∀ i m v r, tabGet (landRegs g (.k i m v)).k r 0 = if r = i ∧ i ≠ 0 then (tabGet g.k r 0 &&& ~~~m) ||| (v &&& m) else tabGet g.k r 0) ∧
      (∀ i m v r, tabGet (landRegs g (.v i m v)).v r 0 = if r = i then (tabGet g.v r 0 &&& ~~~m) ||| (v &&& m) else tabGet g.v r 0) ∧
      (∀ i m v r, tabGet (landRegs g (.w i m v)).w r 0 = if r = i then (tabGet g.w r 0 &&& ~~~m) ||| (v &&& m) else tabGet g.w r 0) ∧
      (∀ i m v t r, tabGet (landRegs g (.d i m v t)).d r 0 = if r = i then (tabGet g.d r 0 &&& ~~~m) ||| (v &&& m) else tabGet g.d r 0) ∧
      (∀ i m v t r, tabGet (landRegs g (.d i m v (some t))).dtag r 0 = if r = i then t else tabGet g.dtag r 0) ∧
      (∀ i m v, (landRegs g (.d i m v none)).dtag = g.dtag) ∧
      (∀ i v r, tabGet (landRegs g (.p i v)).p r 0 = if r = i then v else tabGet g.p r 0) ∧
      (∀ i f v r, let o := tabGet g.g r {}
        tabGet (landRegs g (.g i f v)).g r {} = if r ≠ i then o else
          { base := if f = 0 then v.extractLsb' 0 57 else o.base, str0 := if f = 1 then v.extractLsb' 0 32 else o.str0
            str1 := if f = 2 then v.extractLsb' 0 32 else o.str1, ext0 := if f = 3 then v.extractLsb' 0 8 else o.ext0
            ext1 := if f = 4 then v.extractLsb' 0 8 else o.ext1 }) ∧
      (∀ i f v r, let o := tabGet g.h r {}
        tabGet (landRegs g (.h i f v)).h r {} = if r ≠ i then o else
          { src := if f = 0 then v.extractLsb' 0 57 else o.src, dst := if f = 1 then v.extractLsb' 0 57 else o.dst
            len := if f = 2 then v.extractLsb' 0 32 else o.len, sstr := if f = 3 then v.extractLsb' 0 32 else o.sstr
            dstr := if f = 4 then v.extractLsb' 0 32 else o.dstr, rows := if f = 5 then v.extractLsb' 0 24 else o.rows
            type := if f = 6 then v.extractLsb' 0 8 else o.type, dev := if f = 7 then v.extractLsb' 0 9 else o.dev
            group := if f = 8 then v.extractLsb' 0 16 else o.group }) ∧
      (∀ i v, landRegs g (.x i v) = { g with x := (landRegs g (.x i v)).x } ∧ landRegs g (.y i v) = { g with y := (landRegs g (.y i v)).y } ∧
        landRegs g (.p i v) = { g with p := (landRegs g (.p i v)).p } ∧ landRegs g (.sys i v) = g) ∧
      (∀ i m v, landRegs g (.v i m v) = { g with v := (landRegs g (.v i m v)).v } ∧ landRegs g (.w i m v) = { g with w := (landRegs g (.w i m v)).w }) ∧
      (∀ i m v, landRegs g (.k i m v) = { g with k := (landRegs g (.k i m v)).k }) ∧ (∀ i b, landRegs g (.q i b) = { g with q := (landRegs g (.q i b)).q }) ∧
      (∀ i m v t, landRegs g (.d i m v t) = { g with d := (landRegs g (.d i m v t)).d, dtag := (landRegs g (.d i m v t)).dtag }) ∧
      (∀ i f v, landRegs g (.g i f v) = { g with g := (landRegs g (.g i f v)).g } ∧ landRegs g (.h i f v) = { g with h := (landRegs g (.h i f v)).h }) ∧
      (∀ (c : Core) (l : Land), (∀ i v, l ≠ .sys i v) → landCore c l = { c with regs := landRegs c.regs l }) ∧
      (∀ (c : Core) (i : Nat) (v : W64), landCore c (.sys i v) =
        { c with sys := (landSys c i v).sys, ctl := { c.ctl with loops := (landSys c i v).ctl.loops } } ∧
        (i ≠ 0x014 → (landSys c i v).ctl = c.ctl) ∧ (landSys c 0x014 v).sys = c.sys) ∧
      (∀ (s : State) (c : Core), seeX s c 0 = 0 ∧ seeY s c 0 = 0 ∧ seeK s c 0 = BitVec.allOnes 128 ∧ seeQ s c 0 = true ∧ seeQ s c 1 = false)) ∧
  (
    ∀ (s : State) (bound : Nat) (l : List Land),
      let t := emit s bound l
      (me t).fresh = (me s).fresh ++ [⟨nowOf s s.cur + bound, .known l⟩] ∧ (me t).regs = (me s).regs ∧ (me t).flight = (me s).flight ∧
      (me t).sys = (me s).sys ∧ (me t).ctl = (me s).ctl ∧ (me t).acc = (me s).acc ∧ (me t).mu = (me s).mu ∧ (me t).tok = (me s).tok ∧
      (∀ k, k ≠ s.cur → getCore t k = getCore s k) ∧ (∀ a, cellGet t.mem a = cellGet s.mem a) ∧ (∀ a, cellGet t.hostMem a = cellGet s.hostMem a) ∧
      t.tasks = s.tasks ∧ t.ctxs = s.ctxs)

/-- R45 and R178: the landing of an element-wise result changes exactly the enabled elements, each to its value. -/
def Obligations.EnabledElementsAlone : Prop :=
  ∀ (g : Regs) (slot sz n : Nat) (en : Nat → Bool) (val : Nat → Nat) (e : Nat), sz ∈ [1, 2, 4, 8] → e < n → n * sz ≤ 128 →
    elemAt (tabGet (landRegs g (elemLand slot sz n en val)).v slot 0).toNat (8 * sz) e =
      if en e then val e % 2 ^ (8 * sz) else elemAt (tabGet g.v slot 0).toNat (8 * sz) e

/-- R44: an operation whose whole-operation guard is false does nothing: no register, mask, token, access, engine or trap; and a bundle that
is illegal traps in every state, whatever the guards of its slots. -/
def Obligations.FalseGuardDoesNothing : Prop :=
  (∀ (i : Instr) (s : State) (g : BitVec 4), guardOf i = some g → guardOn s g = false → exec i s = .next s) ∧
  (∀ (s : State) (core cause : Nat) (x : BitVec 21), mayIssue s core = true →
    let c := getCore s core
    (c.handler = true ∨ c.late = []) → bankOf c c.ctl.pc (frameOf c).1.length = none → illegal (frameOf c).1 (frameOf c).2 = some (cause, x) →
    issueBundle s core =
      noteIssued (settleCore (modCore (takeTrap { s with cur := core } cause x 0 0) core fun c => { c with mark := .none }) core) core c.handler)

/-- (1) R356 to R361: a page walk that ends puts its translation into both caches, or leaves its failure to the bundle, and ends the pause. That it enters both
the hearth's and the die's TLB is the model's choice (log entry 30).

(2) R357 to R360: a walk uses at each level the entry in memory or one that its die's walk cache kept for that part of the address; it needs
a present, well-formed entry at every level: an entry without bit 0, with a reserved bit or, above level 3, a
leaf, or one that lies outside this device's present HBM, is not present; a leaf's address keeps the offset bits.

(3) R227, R229 and R358: a window address reaches the task's own partition or faults; elsewhere a cached leaf decides by its rights and
the level of the access. -/
def Obligations.PageWalksAndRights : Prop :=
  (
    ∀ (s : State) (core va : Nat) (write : Bool), (getCore s core).hold = .walk va write →
      let a := va % 2 ^ 57
      let ctx := ctxOf s core
      (∀ w bits, walk s (dieOf core) ctx a = .leaf w bits → ∃ t, exec (.pageWalkComplete core) s = .next t ∧ (getCore t core).hold = .none ∧
        ({ asid := ctx, base := a / 2 ^ bits, bits := bits, leaf := w } : Tlb) ∈ (getHearth t (core / 4)).tlb ∧
        ({ asid := ctx, base := a / 2 ^ bits, bits := bits, leaf := w } : Tlb) ∈ (getDie t (core / 96)).tlb2 ∧ t.mem = s.mem) ∧
      (walk s (dieOf core) ctx a = .absent → exec (.pageWalkComplete core) s = .next (modCore s core fun c => { c with
        hold := .none, walkFault := some (a / 4096, write, false, false) })) ∧
      (∀ pa, walk s (dieOf core) ctx a = .ecc pa → ∃ t, exec (.pageWalkComplete core) s = .next t ∧ (getCore t core).hold = .none ∧
        (getCore t core).walkFault = some (a / 4096, write, false, true) ∧ t.mem = s.mem)) ∧
  (
    ∀ (s : State) (die ctx va n table : Nat),
      let at_ := table + 8 * (va / 2 ^ (12 + 9 * n) % 512)
      (tableOk s die at_ = false → walkFrom s die ctx va (n + 1) table = .absent) ∧ (tableOk s die at_ = true →
      let now := BitVec.ofNat 64 (natOfBytes (cellsGet s.mem (memKey s at_) 8))
      let w := tableEntry s die ctx va n at_
      eccHits s (memKey s at_) 8 = [] →
      ((getDie s die).walks = [] → w = now) ∧
      (w = now ∨ ∃ k ∈ (getDie s die).walks, k.asid = ctx ∧ k.level = n ∧ k.base = va / 2 ^ (12 + 9 * n) ∧ w = k.entry) ∧
      (w.getLsbD 0 = false → walkFrom s die ctx va (n + 1) table = .absent) ∧
      (w.extractLsb' 8 4 ≠ 0 → walkFrom s die ctx va (n + 1) table = .absent) ∧
      (w.extractLsb' 52 12 ≠ 0 → walkFrom s die ctx va (n + 1) table = .absent) ∧
      (n = 4 → w.getLsbD 1 = true → walkFrom s die ctx va (n + 1) table = .absent) ∧
      (n < 4 → w.getLsbD 0 = true → w.extractLsb' 8 4 = 0 → w.extractLsb' 52 12 = 0 → w.getLsbD 1 = true → w.extractLsb' 6 2 ≠ 3 →
        w.toNat % 2 ^ (12 + 9 * n) / 2 ^ 12 = 0 →
        walkFrom s die ctx va (n + 1) table = .leaf w (12 + 9 * n) ∧
        leafPa w (12 + 9 * n) va = w.toNat % 2 ^ 52 / 2 ^ (12 + 9 * n) * 2 ^ (12 + 9 * n) + va % 2 ^ (12 + 9 * n)))) ∧
  (
    ∀ (s : State) (hearth ctx part qstart va : Nat) (n : Need) (wait : Bool), va < 2 ^ 57 →
      (∀ o, va = 2 ^ 56 + o → o < part → o < 2 ^ 24 → ∃ pa, translate s hearth ctx part qstart va n wait = .ok pa 0 true ∧
        pa = ownDev s * 2 ^ 43 + 2 ^ 40 + hearth * 2 ^ 24 + o / (part / 4) * 2 ^ 22 + qstart + o % (part / 4)) ∧
      (∀ o, va = 2 ^ 56 + o → part ≤ o → o < 2 ^ 24 → translate s hearth ctx part qstart va n wait = .fault 5 false) ∧
      (2 ^ 56 + 2 ^ 24 ≤ va → translate s hearth ctx part qstart va n wait = .fault 4 false) ∧
      (∀ t, va < 2 ^ 56 → cached s hearth ctx va = some t → t.leaf.extractLsb' 6 2 ≠ 2 →
        ((n.r = true → t.leaf.getLsbD 2 = true) → (n.w = true → t.leaf.getLsbD 3 = true) → (n.x = true → t.leaf.getLsbD 4 = true) →
          (n.sup = false → n.x = false → n.pref = false → t.leaf.getLsbD 5 = true) →
          translate s hearth ctx part qstart va n wait = .ok (leafPa t.leaf t.bits va) (t.leaf.extractLsb' 6 2).toNat false) ∧
        (n.w = true → t.leaf.getLsbD 3 = false → translate s hearth ctx part qstart va n wait = .fault 5 false) ∧
        (n.sup = false → n.x = false → n.pref = false → t.leaf.getLsbD 5 = false → translate s hearth ctx part qstart va n wait = .fault 5 false)))

/-- (1) R78 and R80: an overlay fetch that ends makes its bank resident with the segment's words as they stand, or failed with the class; one from
another device that lasts 2 ms ends failed with class 5.

(2) R75, R76 and R304: the spill that a held SETBANK waits for stores the registers of one bank as they stand, after the claims that its access
makes, and leaves them; the refill loads those of one bank; then the pause ends. What its own bundle writes into the bank it spilled
follows as stores of the registers written once the bundle commits, and the spill of a provisional task does not wait: the model's
readings (log entry 31).

(3) R304 and R434: the claim that a held bundle waits for writes the unit's state into its owner's image, sets the unit it reaches to zero, leaves
it to the newcomer, and ends the pause; where the image has no translation the state is lost with class 4. -/
def Obligations.OverlaysSpillsAndClaims : Prop :=
  (
    ∀ (s s1 : State) (core bank : Nat) (f : Fetch), tabFind (getCore s core).fetch bank = some f → s1.cores = s.cores →
      (f.snap = none → fetchWaits s core f = false →
        (∀ b, fetchBytes s core f.src f.len = (.ok b, s1) → ∃ t, exec (.overlayFetchComplete core bank) s = .next t ∧
          tabGet (getCore t core).ibank bank .empty = .resident f.seg ∧ tabFind (getCore t core).fetch bank = none ∧
          (getCore t core).imem = putWords (getCore s core).imem (8192 * bank) (wordsOf f.len b) ∧ (getCore t core).regs = (getCore s core).regs) ∧
        (∀ cls a, fetchBytes s core f.src f.len = (.error (cls, a), s1) → ∃ t, exec (.overlayFetchComplete core bank) s = .next t ∧
          tabGet (getCore t core).ibank bank .empty = .failed f.seg (BitVec.ofNat 8 cls) ∧ (getCore t core).imem = (getCore s core).imem)) ∧
      (fetchWaits s core f = true → exec (.overlayFetchComplete core bank) s = .next s) ∧
      (fetchRemote s core f = true → ∃ t, exec (.remoteAccessTimeout core (.fetch bank)) s = .next t ∧
        tabGet (getCore t core).ibank bank .empty = .failed f.seg 5 ∧ tabFind (getCore t core).fetch bank = none ∧
        (getCore t core).imem = (getCore s core).imem ∧ t.mem = s.mem)) ∧
  (
    ∀ (s : State) (core f u : Nat) (k : Task) (l : List Placed),
      let c := getCore s core
      let sp := spillOf c f
      let who := whoTask u k (isSup c)
      let key := bankAt c f (if spillsUp c f then sp else sp - 1)
      let s1 := modCore (touchFor s who l) core (fun c => landBank c key)
      c.hold = .spill f → c.task = some u → tabFind s.tasks u = some k → c.flight = [] → c.acc = [] → NoVictims s →
      (∀ p ∈ l, linkRoom s (dieOf core) p.mt p.pa = true) →
      (spillsUp c f = true → sp < 65535 → placeFor s who { w := true } (parts (spillAddr c f sp) 4096) = .ok l →
        (∀ p ∈ l, footHit s p.mt p.pa p.n = none) →
        ∃ t, exec (.spillRefillComplete core) s = .next t ∧ (getCore t core).hold = .none ∧ spillOf (getCore t core) f = sp + 1 ∧
          (getCore t core).regs = c.regs ∧
          ∀ s2, writeParts s1 (dieOf core) (some k.ctx) (bankBytes (getCore s1 core) key) l none = (s2, none) →
            t.mem = s2.mem ∧ t.hostMem = s2.hostMem) ∧
      (spillsUp c f = false → 0 < sp → placeFor s who { r := true } (parts (spillAddr c f (sp - 1)) 4096) = .ok l →
        (∀ p ∈ l, p.mt = 2 ∨ lineWrites s (dieOf core) p.pa p.n s.tick = false) →
        ∃ t, exec (.spillRefillComplete core) s = .next t ∧ (getCore t core).hold = .none ∧ spillOf (getCore t core) f = sp - 1 ∧
          ∀ b, readParts s1 (dieOf core) l = .ok b → ∀ r, r < 32 →
            tabGet (getCore t core).regs.v (key * 32 + r) 0 = BitVec.ofNat 1024 (natOfBytes ((b.drop (128 * r)).take 128))) ∧
      (∀ id tick b, (b.spills = [] → spillFollows c id tick b = []) ∧ ∀ a ∈ spillFollows c id tick b, a.kind = .store ∧ a.task = c.task ∧
        a.no = c.bundleNo ∧ ∃ x ∈ b.spills, ∃ p ∈ x.2, a.pa = p.pa ∧ a.n = p.n ∧ (∃ i m v, Land.v i m v ∈ b.lands ∧ i / 32 = x.1 ∧ i % 32 = p.off / 128) ∧
          a.data = ((bankBytes ((b.lands.filter (landInBank x.1)).foldl landCore c) x.1).drop p.off).take p.n)) ∧
  (
    ∀ (s : State) (core : Nat),
      let image := fun (o : Nat) (k : Task) (off : Nat) (b : List Byte) (t : State → Prop) =>
        ∀ l s2, placeFor s { whoTask o k false with part := 0 } { w := true } (parts ((imageBase s k + off) % 2 ^ 57) 4096) = .ok l →
          writeParts (noteHosts s { whoTask o k false with part := 0 } l) (k.hearth / 24) none b l none = (s2, none) → t s2
      (∀ key o k, (getCore s core).hold = .claimBank key → tabGet (getCore s core).bankOwner key none = some o → tabFind s.tasks o = some k →
        ∃ t, exec (.lazyClaim core) s = .next t ∧ (getCore t core).hold = .none ∧ tabGet (getCore t core).bankOwner key none = none ∧
          (∀ r, r < 32 → tabGet (getCore t core).regs.v (32 * key + r) 0 = 0) ∧
          ((getCore s core).fileBad = false → image o k (coreImage k core + 0x10000 + key * 4096)
            ((List.range 32).flatMap (fun r => bytesOf (tabGet (getCore s core).regs.v (key * 32 + r) 0).toNat 128)) fun s2 =>
            t.mem = s2.mem ∧ t.hostMem = s2.hostMem)) ∧
      (∀ h b o k, (getCore s core).hold = .claimBlock h b → blockOwnerOf s h b = some o → tabFind s.tasks o = some k →
        let base := 2 ^ 40 + h * 2 ^ 24 + b * 4096
        ∃ t, exec (.lazyClaim core) s = .next t ∧ (getCore t core).hold = .none ∧ blockOwnerOf t h b = none ∧
          (∀ a, base ≤ a → a < base + 4096 → cellGet t.mem a = 0) ∧
          (eccHits s base 4096 = [] → image o k (0x800000 + blockOffset k b) (cellsGet s.mem base 4096) fun s2 =>
            (∀ a, a < base ∨ base + 4096 ≤ a → cellGet t.mem a = cellGet s2.mem a) ∧ t.hostMem = s2.hostMem) ∧
          (∀ a, eccHits s base 4096 = [] → k.lost = none →
            placeFor s { whoTask o k false with part := 0 } { w := true } (parts ((imageBase s k + (0x800000 + blockOffset k b)) % 2 ^ 57) 4096) = .error a →
            ∃ k', tabFind t.tasks o = some k' ∧ k'.lost = some (4, BitVec.ofNat 64 a))))

/-- (1) R37, R274, R289, R342, R343 and R119: a wait ends when what it names has come, and only then. The core issues in the same
vc, unless its gang has made its last decision of it (R36, R38).

(2) R265, R266 and R279: a load, store or atomic to another device that has been under way too long ends with class 5: LDERR tells its side and,
when it held no error before, the class; a report of SUB 0 with class 5 is posted when the ring takes it; memory and registers stay, and the
entry is gone. So ends a store that has gone out and is not acknowledged. A running operation's token is done-error with code 5, reported with
class 5; the rules do not name the byte that this report names: it is the model's choice (log entry 49). -/
def Obligations.WaitsEnd : Prop :=
  (
    ∀ (s : State) (core : Nat),
      let c := getCore s core
      let free := (Host.Outcome.next (modCore s core fun c => { c with
        wait := .none, decided := c.decided || (!c.handler && wakesLate s core) }) : Out)
      (∀ n, c.wait = .token n → (tokOf c n ≠ .pending → exec (.tokenWaitEnd core) s = free) ∧
        (tokOf c n = .pending → exec (.tokenWaitEnd core) s = .next s)) ∧
      (∀ ch v, c.wait = .pointer ch v → (v ≤ (chanOf c ch).count.toNat → exec (.writePointerWaitEnd core) s = free) ∧
        ((chanOf c ch).count.toNat < v → exec (.writePointerWaitEnd core) s = .next s)) ∧
      (∀ i, c.wait = .event i → (eventSet s (ctxOf s core) i = true → eventDue c i = false → exec (.eventWaitEnd core) s = free) ∧
        (eventSet s (ctxOf s core) i = false → exec (.eventWaitEnd core) s = .next s)) ∧
      (c.wait = .green → greenUsed s (core / 4) < 262144 → s.shape.asked = [] → exec (.greenShareSpaceAvailable core) s = free) ∧
      (∀ u k, tabFind s.tasks u = some k → heldGang s u k = true → allAtBarrier ((gangOf k).map (getCore s)) = true →
        ∃ t, exec (.barrierComplete u) s = .next t ∧ (∀ i ∈ gangOf k, (getCore s i).halted = false → (getCore t i).wait = .none ∧
          (getCore t i).decided = true ∧ (getCore t i).regs = (getCore s i).regs) ∧ t.mem = s.mem)) ∧
  (
    ∀ (s : State) (core : Nat),
      let c := getCore s core
      let reported := fun (t : State) (a : Nat) =>
        ringTakes s (mkReport 0 5 0 (BitVec.ofNat 14 (core + 1536)) 0 0 0 0 0 0) = true → ∃ r, t.reports = s.reports ++ [r] ∧ r.sub = 0 ∧ r.cls = 5 ∧
          r.kind = 0 ∧ r.unit = BitVec.ofNat 14 (core + 1536) ∧ r.addr = BitVec.ofNat 64 a
      (∀ n e u, c.acc[n]? = some e → (e.kind = .load ∨ e.kind = .store ∨ ∃ op v w ro fmt, e.kind = .atomic op v w ro fmt) → e.task = some u →
        c.task = some u → isSuspended s u = false → e.n ≠ 0 → e.mt ≠ 2 → isRemote s e.pa = true → e.got = false → e.held = false → entryAt s core e = some n →
        (∀ k, tabFind s.tasks u = some k → k.held = [] ∧ k.frees = [] ∧ k.ended = false) →
        ∃ t, exec (.remoteAccessTimeout core (.access n)) s = .next t ∧ (getCore t core).acc = c.acc.eraseIdx n ∧
          (getCore t core).sys.lderr =
            (if c.sys.lderr &&& 3 = 0 then (c.sys.lderr &&& 0x00FF) ||| 0x0500 else c.sys.lderr) ||| (if returnsValue e.kind then 1 else 2) ∧
          t.mem = s.mem ∧ (getCore t core).regs = c.regs ∧ reported t e.pa) ∧
      (∀ n x u, (sentBy s core)[n]? = some x → x.kind = .store → x.task = some u → c.task = some u → isSuspended s u = false →
        (∀ k, tabFind s.tasks u = some k → k.held = [] ∧ k.frees = [] ∧ k.ended = false) →
        ∃ t, exec (.remoteAccessTimeout core (.sent n)) s = .next t ∧ x ∉ sentBy t core ∧ (getCore t core).acc = c.acc ∧
          (getCore t core).sys.lderr = (if c.sys.lderr &&& 3 = 0 then (c.sys.lderr &&& 0x00FF) ||| 0x0500 else c.sys.lderr) ||| 2 ∧
          t.mem = s.mem ∧ (getCore t core).regs = c.regs ∧ reported t x.pa) ∧
      (∀ ch r, (chanOf c ch).run = some r → r.e.op ∈ [.send, .fetch] → c.task = some r.e.task → r.e.tok ≠ 0 →
        ∃ t, exec (.remoteAccessTimeout core (.runner ch)) s = .next t ∧ (chanOf (getCore t core) ch).run = none ∧
          tokOf (getCore t core) r.e.tok = .err 5 ∧ t.mem = s.mem ∧ reported t (runnerStuck s core ch r).1))

/-! ## Tasks and the stokers (spec/02 R27, spec/13) -/

/-- (1) R27 and R364: a task that starts finds its parameters, index, count, gang position and partition end in its registers, everything else
zero, its image from word 0 on, and its level at task.

(2) R302 and R303: a gang that has stopped is pre-empted: every core is saved and given up, and the task waits for its turn. Its VCC counts
the last vc in which the gang issued, also where a bundle of the next is held back (R38), and a core that is held back
issues its bundle again under the FMT that it would have seen (spec/04 R86). -/
def Obligations.TaskStartAndPreemption : Prop :=
  (
    ∀ (s : State) (u : Nat) (k : Task) (l : Launch) (ld : Loads), tabFind s.tasks u = some k → k.st = 0 → k.ended = false →
      (∀ i ∈ gangOf k, (getCore s i).task = none) → gangOf k ≠ [] → tabFind s.launches k.launch = some l → loadTask s u k l.rcd = .ok ld →
      readsWait s (whoTask u k false) (loadRanges l.rcd) = false → l.rcd.params.length = 8 → ∃ t, exec (.taskStart u) s = .next t ∧ t.mem = s.mem ∧
        ∀ pos, pos < k.size →
          let c := getCore t (4 * k.hearth + k.first + pos)
          c.task = some u ∧ c.ctl.pc = l.rcd.entry.toNat ∧ c.sys.priv = 0 ∧ c.sys.fmt = 0 ∧ c.ctl.loops = [] ∧ c.ctl.tgt = [] ∧
          (∀ j, j < 8 → some (tabGet c.regs.x (j + 1) 0) = l.rcd.params[j]? ∧ some (tabGet c.regs.y (j + 1) 0) = l.rcd.params[j]?) ∧
          tabGet c.regs.x 9 0 = BitVec.ofNat 64 k.idx ∧ tabGet c.regs.x 10 0 = BitVec.ofNat 64 k.start.toNat ∧
          tabGet c.regs.x 11 0 = BitVec.ofNat 64 pos ∧ tabGet c.regs.x 30 0 = BitVec.ofNat 64 (2 ^ 56 + k.part) ∧
          tabGet c.regs.y 9 0 = BitVec.ofNat 64 k.idx ∧ (∀ r, 12 ≤ r → r ≠ 30 → tabGet c.regs.x r 0 = 0) ∧ (∀ r, 10 ≤ r → tabGet c.regs.y r 0 = 0) ∧
          c.regs.w = [] ∧ c.regs.d = [] ∧ c.regs.k = [] ∧ c.regs.q = [] ∧ c.regs.p = [] ∧ c.regs.g = [] ∧ c.regs.h = [] ∧ c.tok = [] ∧
          c.imem = putWords [] 0 ld.image) ∧
  (
    ∀ (s : State) (u : Nat) (k : Task), tabFind s.tasks u = some k →
      (canStop s u k = true → ∃ t, exec (.preemption u) s = .next t ∧ t.turns = s.turns ++ [(1, u)] ∧
        (∀ i ∈ gangOf k, (getCore t i).task = none ∧ (getCore t i).mu.run = none ∧ (getCore t i).mu.tiles = []) ∧
        ∃ k', tabFind t.tasks u = some k' ∧ k'.st = 3 ∧ k'.preempt = false ∧
          k'.vcc = (if k.issued = false ∧ (gangOf k).any (fun i => (getCore s i).hold != .none && !(getCore s i).handler) = true then k.vcc - 1 else k.vcc) ∧
          k'.saved.map (fun c => c.regs) = (gangOf k).map (fun i => (getCore s i).regs) ∧
          k'.saved.map (fun c => c.sys) = (gangOf k).map (fun i => (stoppedCore k.issued (getCore s i)).sys) ∧
          k'.saved.map (fun c => c.ctl) = (gangOf k).map (fun i => (stoppedCore k.issued (getCore s i)).ctl) ∧
          (∀ i, (getCore s i).hold = .none → stoppedCore k.issued (getCore s i) = getCore s i) ∧
          k'.saved.map (fun c => c.mu) = (gangOf k).map (fun i => (getCore s i).mu)) ∧
      (canStop s u k = false → exec (.preemption u) s = .next s))

/-- (1) R295 to R298 and R360: a frame gives the turn's launch its place, spawning its next task there, and completes a context
command whose accesses have performed.

(2) R296 and R297: 4 ms of waiting raise a launch's or a pre-empted task's effective level by one, at most to 3, and a member that enters a
higher level stands last in it.

(3) R294, R295, R300, R307, R332 to R334, R346 and R347: a frame reports a freeze, ends what its tasks' accesses left, serves its queues, its port,
the counts, verdicts, predictors, dispatch, pre-emption and completion: the order of these slots is the model's choice (log entry 88), as are the level of the stoker's accesses (log
entry 14) and an entry's port after port 0 is removed (log entry 61). A queue whose tail has run past its size stops with overflow; a pending record that can be read is taken and the
head moves on; one it cannot read is passed over with RERR. A record with a field out of its limits completes at once as an
error entry with its reason bits; a good one is entered with its grid times its split factor, one with a
grid of 0 completes at once. A launch that is over leaves with its completion entry and its event; an entry
written stands in the fields of R346, and the event is set also where it could not be.

(4) R29, R313 to R320, R322, R323, R327, R328 and R347: a green launch is predicted from its entry's mode and history and registered under its
context and key; one that finds a banked count is an ordinary launch of that count. A count resolves the oldest registered launch of its
key, is banked when there is none, and is refused when four stand banked. A resolved launch keeps the tasks below its count; others are
fettled, or its tail launch runs those that the prediction left out; its entry tells the prediction, the count and the fettled.
A verdict confirms the tasks below the count, which become ordinary with the true count, and fettles the rest, whose held stores
never perform. An unresolved launch does not complete. -/
def Obligations.StokerFramesAndAging : Prop :=
  (
    ∀ (s : State) (die : Nat), s.boot.phase = .normal → fenced s die = false → die < 4 → s.tasks = [] → s.queues = [] → (getDie s die).port = [] →
      s.shape = {} → (getDie s die).avs.named = none →
      (∀ u l p, s.launches = [(u, l)] → s.turns = [(0, u)] → s.ctxBlock.busy = false → l.eligible = true → l.done = false → l.next + 1 = l.n →
        l.tailOf = none → l.green = false → u ≠ s.nextUid → (healthyDies s l.rcd) ≠ [] → nextPlacement s die [3, 2, 1, 0] = some (0, u, p, []) →
        ∃ t k, exec (.stokerFrame die []) s = .next t ∧ t.turns = [] ∧ t.tasks = [(s.nextUid, k)] ∧ k.launch = u ∧ k.idx = l.next ∧
          k.hearth = p.hearth ∧ k.first = p.first ∧ k.size = gangSize l.rcd ∧ k.st = 0 ∧ k.green = false ∧ t.mem = s.mem) ∧
      (s.launches = [] → s.turns = [] → s.ctxBlock.busy = true → s.ctxBlock.waits = [] → leadDie s = die →
        ∃ t, exec (.stokerFrame die []) s = .next t ∧ t.ctxBlock.busy = false ∧ t.ctxBlock.res = 0 ∧ t.ctxBlock.donecnt = s.ctxBlock.donecnt + 1)) ∧
  (
    ∀ (s : State) (u : Nat),
      (∀ l, tabFind s.launches u = some l → (0, u) ∈ s.turns → ∃ t l', exec (.priorityAging (.launch u)) s = .next t ∧
        tabFind t.launches u = some l' ∧ launchLevel l' = min 3 (launchLevel l + 1) ∧ t.mem = s.mem ∧ t.cores = s.cores ∧
        (launchLevel l < 3 → t.turns.getLast? = some (0, u)) ∧ (3 ≤ launchLevel l → t.turns = s.turns)) ∧
      (∀ k, tabFind s.tasks u = some k → k.st = 3 → (1, u) ∈ s.turns → ∃ t k', exec (.priorityAging (.task u)) s = .next t ∧
        tabFind t.tasks u = some k' ∧ savedLevel k' = min 3 (savedLevel k + 1) ∧ t.mem = s.mem ∧ t.cores = s.cores ∧
        (savedLevel k < 3 → t.turns.getLast? = some (1, u)))) ∧
  (
    (∀ (s : State) (die : Nat) (long : List Nat), s.boot.phase = .normal → fenced s die = false → die < 4 →
      let s1 := (s.tasks.filter (fun e => taskDie s e.2 == die)).foldl (fun s e => accDone s (some e.1)) (postFreeze s die)
      let s2 := if hostChain s1 die then ((List.range 64).filter (fun q => (getQueue s1 q).die.toNat == die)).foldl serveQueue s1 else s1
      let s3 := markEligible (takePort die 16 s2) die
      let s4 := if leadDie s3 = die then serveAsks (finishCommand s3) s3.shape.asked [] else s3
      exec (.stokerFrame die long) s = .next (completeLaunches (askPreemption (dispatch die 512 (dropHomeless (updatePredictors
        (giveVerdicts s4 die) die) die)) die long) die)) ∧
    (∀ (s : State) (q : Nat), let x := getQueue s q
      x.patchDue = false → (x.en = false ∨ x.ovf = true → serveQueue s q = s) ∧
      (x.en = true → x.ovf = false → (x.size = 0 ∨ 16 < x.size.toNat ∨ fenced s x.die.toNat = true ∨ (getCtx s x.ctx.toNat).live = false) →
        (getQueue (serveQueue s q) q).cfg = true ∧ (serveQueue s q).launches = s.launches) ∧
      (x.en = true → x.ovf = false → x.doors = [] → x.nodes = [] → x.size ≠ 0 → x.size.toNat ≤ 16 → fenced s x.die.toNat = false →
        (getCtx s x.ctx.toNat).live = true → serveQueue s q = takeRecords q 4 (modQueue s q fun x => { x with doors := [] }))) ∧
    (∀ (s : State) (q n : Nat), let x := getQueue s q
      let die := x.die.toNat
      let ctx := x.ctx.toNat
      let pend := (x.tail - x.head).toNat
      let va := (x.base.toNat / 128 * 128 + 128 * (x.head.toNat % 2 ^ x.size.toNat)) % 2 ^ 57
      let past := fun (t : State) => modQueue t q fun y => { y with head := y.head + 1 }
      (2 ^ x.size.toNat < pend → (getQueue (takeRecords q (n + 1) s) q).ovf = true ∧ (getQueue (takeRecords q (n + 1) s) q).head = x.head ∧
        (takeRecords q (n + 1) s).launches = s.launches) ∧
      (pend = 0 ∨ 1024 ≤ tableUsed s die → pend ≤ 2 ^ x.size.toNat → takeRecords q (n + 1) s = s) ∧
      (0 < pend → pend ≤ 2 ^ x.size.toNat → tableUsed s die < 1024 → readsWait s (whoStoker die ctx) [({ r := true }, va, 128)] = true →
        takeRecords q (n + 1) s = s) ∧
      (0 < pend → pend ≤ 2 ^ x.size.toNat → tableUsed s die < 1024 → readsWait s (whoStoker die ctx) [({ r := true }, va, 128)] = false →
        (∀ b s1, engRead s (whoStoker die ctx) { r := true } va 128 = (.ok b, s1) →
          takeRecords q (n + 1) s = takeRecords q n (takeRecord (past s1) die ctx b true none)) ∧
        (∀ e s1, engRead s (whoStoker die ctx) { r := true } va 128 = (.error e, s1) → ∃ s2, takeRecords q (n + 1) s = takeRecords q n (past s2) ∧
          s2 = reportRecord { s1 with queues := tabSet s1.queues q { tabGet s1.queues q {} with rerr := true } } die ctx e.1 e.2 va))) ∧
    (∀ (s : State) (die ctx : Nat) (b : List Byte), let r := parseRec b
      (rejectBits r ctx ≠ 0 → takeRecord s die ctx b true none =
        writeEntry s die ctx r.cea.toNat r.setev.toNat { status := 1, info := rejectBits r ctx + 2 ^ 16 }) ∧
      (rejectBits r ctx = 0 → r.keyv = false → let f := splitFactor s r r.grid.toNat
        let l : Launch := { rcd := r, die := die, n := r.grid.toNat * f, splitS := f, refused := r.split && r.det && !r.rint }
        (r.grid ≠ 0 → ∃ t, takeRecord s die ctx b true none = t ∧ tabFind t.launches s.nextUid = some l ∧ t.nextUid = s.nextUid + 1 ∧
          (∀ u, u ≠ s.nextUid → tabFind t.launches u = tabFind s.launches u) ∧ t.mem = s.mem ∧ t.tasks = s.tasks ∧ (f = 1 ∨ f = 2 ∨ f = 4)) ∧
        (r.grid = 0 → takeRecord s die ctx b true none =
          addLaunch (writeEntry s die r.ctx.toNat r.cea.toNat r.setev.toNat (entryOf l)) { l with done := true }))) ∧
    (∀ (r : Rec) (ctx : Nat), let bad := rejectBits r ctx
      bad < 512 ∧ (bad.testBit 0 = true ↔ r.plen = 0 ∨ 65536 < r.plen.toNat) ∧ (bad.testBit 1 = true ↔ r.plen.toNat ≤ r.entry.toNat) ∧
      (bad.testBit 2 = true ↔ r.gang = 3) ∧ (bad.testBit 3 = true ↔ r.banks = 0 ∨ 64 < r.banks.toNat) ∧
      (bad.testBit 4 = true ↔ 16777216 < r.scratch.toNat) ∧ (bad.testBit 5 = true ↔ r.diemask = 0) ∧ (bad.testBit 6 = true ↔ r.ctx.toNat ≠ ctx) ∧
      (bad.testBit 7 = true ↔ r.prog.toNat % 4 ≠ 0 ∨ r.segt.toNat % 16 ≠ 0 ∨ r.rout.toNat % 8 ≠ 0) ∧
      (bad.testBit 8 = true ↔ 4096 < r.rfirst.toNat + r.rcount.toNat)) ∧
    (∀ (b : List Byte), let r := parseRec b
      r.prog.toNat = fieldAt b 0 8 % 2 ^ 57 ∧ r.plen.toNat = fieldAt b 8 4 % 2 ^ 17 ∧ r.entry.toNat = fieldAt b 12 4 % 2 ^ 16 ∧
      r.ctx.toNat = fieldAt b 12 4 / 2 ^ 16 % 64 ∧ r.grid.toNat = fieldAt b 36 4 % 2 ^ 32 ∧ r.det = (fieldAt b 40 4).testBit 2 ∧
      r.split = (fieldAt b 40 4).testBit 3 ∧ r.keyv = (fieldAt b 40 4).testBit 6 ∧ r.cea.toNat = fieldAt b 56 8 % 2 ^ 57 ∧
      r.setev.toNat = fieldAt b 48 8 / 2 ^ 48 % 2 ^ 12 ∧ r.params.length = 8) ∧
    (∀ (s : State) (u die : Nat) (l : Launch), s.launches = [(u, l)] → l.done = false → l.tailOf = none → homeOf s l = die →
      (launchOver s u l = false → completeLaunches s die = s) ∧
      (launchOver s u l = true → l.tail = none → completeLaunches s die =
        writeEntry { s with launches := [(u, { l with done := true })], tasks := s.tasks.filter (fun t => t.2.launch != u) } die l.rcd.ctx.toNat
          l.rcd.cea.toNat l.rcd.setev.toNat (entryOf l))) ∧
    (∀ (s : State) (die ctx cea ev : Nat) (e : Entry), let t := writeEntry s die ctx cea ev e
      (ev ≠ 0 → eventSet t ctx ev = true) ∧ (cea = 0 ∨ cea % 32 ≠ 0 → t = setEvent s ctx ev true) ∧
      (cea ≠ 0 → cea % 32 = 0 → ∀ s1, engWrite (entryPort s ctx) (whoStoker die ctx) cea (entryBytes e (Config.freeTime s.tick)) = (s1, none) →
        t.mem = s1.mem) ∧
      (cea ≠ 0 → cea % 32 = 0 → ∀ s1 cls a, engWrite (entryPort s ctx) (whoStoker die ctx) cea (entryBytes e (Config.freeTime s.tick)) =
        (s1, some (cls, a)) → t = setEvent (postAccess { s1 with ctxs := s.ctxs } 2 (BitVec.ofNat 14 die) ctx cls a 1 0 0) ctx ev true)) ∧
    (∀ (e : Entry) (time : W64), let b := entryBytes e time
      b.length = 32 ∧ fieldAt b 0 1 = e.status % 256 ∧ fieldAt b 1 1 = e.cls % 256 ∧
      fieldAt b 2 2 = (e.unit % 2 ^ 14 + 2 ^ 14 * e.kind) % 2 ^ 16 ∧ fieldAt b 4 4 = e.count % 2 ^ 32 ∧ fieldAt b 8 8 = e.addr % 2 ^ 64 ∧
      fieldAt b 16 4 = e.info % 2 ^ 32 ∧ fieldAt b 20 4 = e.pred % 2 ^ 32 ∧ fieldAt b 24 4 = e.fett % 2 ^ 32 ∧
      fieldAt b 28 4 = time.toNat / 1000 % 2 ^ 32) ∧
    (∀ (l : Launch), l.wasGreen = false → let e := entryOf l
      e.count = l.n ∧ e.pred = 0 ∧ (l.err = none → e.status = 0) ∧
      (∀ x, l.err = some x → e.status = 1 ∧ e.cls = x.cls.toNat ∧ e.kind = x.kind.toNat ∧ e.unit = x.unit.toNat ∧ e.addr = x.addr.toNat) ∧
      (l.err = none → l.dispute = none → l.refused = false → e.cls = 0 ∧ e.addr = 0 ∧ e.kind = 3 ∧ e.info = 2 ^ 16 * l.splitS))) ∧
  (
    (∀ (p : Pred), (p.mode = 2 ∨ p.nh = 0 → predicted p = p.hint.toNat) ∧
      (p.mode = 0 → p.nh ≠ 0 → predicted p = (tabGet p.h 0 0).toNat) ∧
      (p.mode = 1 ∨ p.mode = 3 → p.nh ≠ 0 → (∀ i, i < p.nh.toNat → (tabGet p.h i 0).toNat ≤ predicted p) ∧
        ∃ i, i < p.nh.toNat ∧ (tabGet p.h i 0).toNat = predicted p)) ∧
    (∀ (p : Pred) (c : Nat), c < 2 ^ 32 → let p' := pushCount p c
      (tabGet p'.h 0 0).toNat = c ∧ (∀ i, i < 3 → tabGet p'.h (i + 1) 0 = tabGet p.h i 0) ∧ p'.nh.toNat = min (p.nh.toNat + 1) 4 ∧
      p'.mode = p.mode ∧ p'.hint = p.hint) ∧
    (∀ (s : State) (die : Nat) (r : Rec) (key : Nat), key < 256 →
      ((∀ b ∈ s.shape.banked, b.1 ≠ r.ctx.toNat ∨ b.2.1 ≠ key) → ∃ l, tabFind (takeGreen s die r key).launches s.nextUid = some l ∧
        l.green = true ∧ l.count = none ∧ l.pr = predicted (tabGet (getDie s die).pred key {}) ∧ l.n = l.pr ∧ gridOf l = l.pr ∧
        (takeGreen s die r key).shape = { s.shape with regs := s.shape.regs ++ [(r.ctx.toNat, key, s.nextUid)] } ∧ (takeGreen s die r key).mem = s.mem) ∧
      (∀ c rest, s.shape.banked = (r.ctx.toNat, key, c) :: rest → c ≠ 0 → ∃ l, tabFind (takeGreen s die r key).launches s.nextUid = some l ∧
        l.green = false ∧ l.wasGreen = false ∧ l.count = some c ∧ l.splitS = splitFactor s r c ∧ l.n = c * l.splitS ∧ l.next = 0 ∧
        (takeGreen s die r key).shape = { s.shape with banked := rest, resolved := s.shape.resolved ++ [s.nextUid] })) ∧
    (∀ (s : State) (u c : Nat) (l : Launch), tabFind s.launches u = some l → u ≠ s.nextUid → l.tailOf = none →
      let t := resolveLaunch s u c
      t.mem = s.mem ∧ t.tasks = s.tasks ∧ t.cores = s.cores ∧ (∀ r ∈ t.shape.regs, r ∈ s.shape.regs ∧ r.2.2 ≠ u) ∧
      (∀ r ∈ s.shape.regs, r.2.2 ≠ u → r ∈ t.shape.regs) ∧ t.shape.resolved = s.shape.resolved ++ [u] ∧
      (∃ l', tabFind t.launches u = some l' ∧ l'.green = false ∧ l'.count = some c ∧ l'.n = min c l.pr ∧ l'.fett = l.pr - c ∧
        l'.rcd = l.rcd ∧ l'.pr = l.pr ∧ l'.next = l.next ∧ (l'.tail = if l.pr < c then some s.nextUid else none)) ∧
      (min c l.pr ≤ l.next → (0, u) ∉ t.turns) ∧
      (l.pr < c → ∃ k, tabFind t.launches s.nextUid = some k ∧ k.rcd = l.rcd ∧ k.n = c ∧ k.next = l.pr ∧ k.tailOf = some u ∧ k.green = false ∧
        k.eligible = true ∧ k.aged = 0 ∧ gridOf k = c ∧ t.turns.getLast? = some (0, s.nextUid) ∧ t.nextUid = s.nextUid + 1) ∧
      (c ≤ l.pr → t.nextUid = s.nextUid)) ∧
    (∀ (s : State) (held : List Asked) (a : Asked) (k : Task), taskOf s a.core = some k → k.green = false → k.error = none → k.ended = false →
      (getCore s a.core).wait = .shape → (getCore s a.core).acc = [] → (getCore s a.core).late = [] → k.held = [] → let old := oldestReg s a.ctx a.key
      let bank := s.shape.banked.filter (fun b => b.1 == a.ctx && b.2.1 == a.key)
      (∀ u, old = some u → serveAsk s held a = some (answerShape (resolveLaunch s u a.count) a.core none)) ∧
      (old = none → bank.length < 4 → ∃ t, serveAsk s held a = some t ∧
        t.shape.banked = s.shape.banked ++ [(a.ctx, a.key, a.count)] ∧ t.launches = s.launches ∧ (getCore t a.core).wait = .none ∧
        ∀ b, (getCore s a.core).blocked = some b → (getCore t a.core).blocked = some { b with accepted := true }) ∧
      (old = none → 4 ≤ bank.length → ∃ t, serveAsk s held a = some t ∧ t.shape = s.shape ∧ t.launches = s.launches ∧
        ∀ b, (getCore s a.core).blocked = some b → (getCore t a.core).blocked = some { b with refused := some 1 })) ∧
    (∀ (s : State) (u : Nat) (e : ErrInfo) (l : Launch), tabFind s.launches u = some l → let t := dropLaunch s u e
      (∀ r ∈ t.shape.regs, r.2.2 ≠ u) ∧ t.shape.resolved = s.shape.resolved ∧ (0, u) ∉ t.turns ∧ ∃ l', tabFind t.launches u = some l' ∧
        l'.green = false ∧ l'.shapeFault = true ∧ l'.n = 0 ∧ l'.fett = l.pr ∧ (l.err = none → l'.err = some e)) ∧
    (∀ (s : State) (u die : Nat) (k : Task) (l : Launch), s.tasks = [(u, k)] → taskDie s k = die → k.green = true → k.ended = false →
      tabFind s.launches k.launch = some l → (l.green = true → giveVerdicts s die = s) ∧
      (l.green = false → giveVerdicts s die =
        applyVerdict { s with tasks := [(u, { k with verdict := some (!l.shapeFault && decide (k.idx < l.count.getD 0)) })] } u)) ∧
    (∀ (s : State) (u : Nat) (k : Task) (l : Launch) (yes : Bool), tabFind s.tasks u = some k → tabFind s.launches k.launch = some l →
      k.verdict = some yes → (k.st ≠ 3 → k.st ≠ 5 → pausedTask s k = true → applyVerdict s u = s) ∧
      ((k.st = 3 ∨ k.st = 5 ∨ pausedTask s k = false) → applyVerdict s u = if yes then confirmTask s u (l.count.getD 0) else fettleTask s u)) ∧
    (∀ (s : State) (u c : Nat) (k : Task), tabFind s.tasks u = some k → k.st ≠ 3 → k.green = true → k.held = [] → k.frees = [] → k.saved = [] →
      k.laterErrs = [] → k.laterReports = [] → k.error = none → c < 2 ^ 32 → (∃ i ∈ gangOf k, (getCore s i).halted = false) →
      let t := confirmTask s u c
      (∃ k', tabFind t.tasks u = some k' ∧ k'.green = false ∧ k'.gridn.toNat = c ∧ k'.verdict = none ∧ k'.start = k.start ∧ k'.st = k.st) ∧
      t.mem = s.mem ∧ (∀ i ∈ gangOf k, (getCore s i).task = some u → (getCore s i).wait = .green → (getCore t i).wait = .none) ∧
      (∀ i, i ∉ gangOf k → getCore t i = getCore s i) ∧
      (∀ a ∈ (getCtx t k.ctx).allocs, a.2.2 ≠ some u) ∧ (getCtx t k.ctx).allocs.map (fun a => (a.1, a.2.1)) =
        (getCtx s k.ctx).allocs.map (fun a => (a.1, a.2.1))) ∧
    (∀ (s : State) (u i : Nat) (k : Task), tabFind s.tasks u = some k → gangOf k = [i] → (getCore s i).task = some u → (getCore s i).halted = false →
      k.error = none → (getCore s i).mu = {} → (getCore s i).chan = [] → (∀ a ∈ (getCtx s k.ctx).allocs, a.2.2 ≠ some u) →
      let t := fettleTask s u
      (∃ k', tabFind t.tasks u = some k' ∧ k'.ended = true ∧ k'.held = [] ∧ k'.frees = [] ∧ k'.laterErrs = [] ∧ k'.laterReports = [] ∧
        gangIssues k' = false) ∧ t.mem = s.mem ∧ (∀ j, j ≠ i → getCore t j = getCore s j) ∧ (∀ a ∈ t.shape.asked, a.core ≠ i) ∧
      (k.st ≠ 5 → (getCore s i).acc.all (fun a => a.task != some u) = true → (getHearth s k.hearth).assay = [] → (getCore t i).task = none)) ∧
    (∀ (s : State) (u : Nat) (l : Launch), l.green = true → launchOver s u l = false) ∧
    (∀ (l : Launch), l.wasGreen = true → let e := entryOf l
      e.count = l.count.getD 0 ∧ e.pred = l.pr ∧ e.fett = l.fett))

/-! ## The host, recovery, starts (spec/13, spec/16 to spec/18) -/

/-- (1) R293, R354, R372, R376, R377, R379, R380, R381, R386, R392 and R399: a host register keeps the bits it has and reads back with
zeros elsewhere (QBASE its low 7 bits too, where CTXTAB and RBASE read theirs as zero: log entry 35: DEDUCED); a write of a read-only register, and
any write while no register answers, changes nothing; what a register gives a die needs a chain of healthy dies to it (spec/01 R16; that it does
nothing without one is log entry 75: DEDUCED). No register write touches memory, a task, a launch or a core's registers, and none but AVSCTL, which
brings out the report of a freeze (log entry 60: DEDUCED), posts a report.

(2) R293, R294, R307 and R308: QTAIL takes the count; QCTL with EN from 0 to 1 sets HEAD to TAIL, clears OVF and RERR, and sets CFG when
the die is fenced or the context is not live; EN already 1, HEAD, OVF and RERR stay, and CFG is set so; a GDOOR or GPATCH write waits for
the stoker, and a patch takes with it what the host has written into the queue's graphs so far. No other queue changes, and no write acts while the registers do not answer.

(3) R293, R354, R372, R376, R377, R379 to R381, R386, R392 and R399: where the registers of BAR0 stand: the context block at 0x1000, the recovery
block at 0x2000, the ports at 0x3000, the queues at 0x100000. An access of another size or alignment reaches none, and no register answers
a read while the blocks do not answer; in bisque mode the boot registers alone stand there, and
only while a host port has enumerated. RBASE written through die 1's port is the mirror (R390). -/
def Obligations.HostRegisters : Prop :=
  (
    ∀ (s : State) (r : HostReg) (v : W64),
      (barOpen s = false → exec (.registerWrite r v) s = .next s) ∧
      (barOpen s = true → ∃ t, exec (.registerWrite r v) s = .next t ∧
        t.mem = s.mem ∧ t.tasks = s.tasks ∧ t.launches = s.launches ∧ t.ctxs = s.ctxs ∧
        ((∀ d, r = .avsctl d → (getDie s d).avs.named = none) → t.hostMem = s.hostMem ∧ t.reports = s.reports) ∧
        (∀ i, (getCore t i).regs = (getCore s i).regs ∧ (getCore t i).sys = (getCore s i).sys ∧ (getCore t i).ctl = (getCore s i).ctl) ∧
        (∀ q, r = .qbase q → readReg t r = v &&& 0x1FFFFFFFFFFFFFF) ∧ (∀ q, r = .qsize q → readReg t r = v &&& 31) ∧
        (∀ q, r = .qctl q → readReg t r = v &&& 511) ∧
        (r = .ctxtab → readReg t r = v &&& 0xFFFFFFFFFFF80) ∧ (r = .ctxarg → readReg t r = v &&& 0x1FFFFFFFFFFFFFF) ∧
        (r = .devnum → readReg t r = v &&& 511) ∧ (r = .rbase → readReg t r = v &&& ~~~63) ∧ (r = .rsize → readReg t r = v &&& 31) ∧
        (r = .rhead → readReg t r = v &&& 0xFFFFFFFF) ∧ (r = .rmsi → readReg t r = v &&& 1) ∧
        (r = .rstat → v &&& 0xFFFFFFFF = 0 → readReg t r = 0) ∧
        (∀ a, r = .thresh a → a < 9 → readReg t r = v &&& 0xFFFFFFFF) ∧ (r = .eccsel → readReg t r = v &&& 0xFFFF) ∧
        (r = .ecccnt → v &&& 0xFFFFFFFF = 0 → hostChain s (eccDie (eccChosen s).1 (eccChosen s).2) = true → readReg t r = 0) ∧ (r = .mcsel → readReg t r = v &&& 0x7FF) ∧
        (r = .mccnt → v &&& 0xFFFFFFFF = 0 → hostChain s (dieOf (s.recovery.mcsel.extractLsb' 0 9).toNat) = true → readReg t r = 0) ∧
        (∀ d, r = .dispmask d → d < 4 → hostChain s d = true → readReg t r = v &&& 0xFFFFFF) ∧
        (∀ d, r = .dispmask d ∨ r = .avsctl d → d < 4 → hostChain s d = false → t = s) ∧
        (r = .rbaseMirror → s.hostUp.getLsbD 1 = true → fenced s 1 = false → readReg t .rbase = v &&& ~~~63 ∧ t.ring.mirror = true) ∧
        (r = .sealrd → readReg t r = v &&& 0x7FFFF)) ∧
      (∀ x ∈ [HostReg.ctxstat, .diestat, .rtail, .iftstat, .sealword, .bootstat], exec (.registerWrite x v) s = .next s) ∧
      (∀ q, exec (.registerWrite (.qhead q) v) s = .next s ∧ exec (.registerWrite (.qstat q) v) s = .next s) ∧
      (∀ n, exec (.registerWrite (.therm n) v) s = .next s ∧ exec (.registerWrite (.pstat n) v) s = .next s ∧
        exec (.registerWrite (.pcnt n) v) s = .next s)) ∧
  (
    ∀ (s : State) (q : BitVec 6) (v : W64),
      let x := getQueue s q.toNat
      let is : List Instr := [.qtailWrite q v, .queueEnable q v, .queueDisable q v, .gdoorWrite q v, .gpatchWrite q v]
      (barOpen s = false → ∀ i ∈ is, exec i s = .next s) ∧
      (barOpen s = true →
        (∀ i ∈ is, ∃ t, exec i s = .next t ∧ (∀ n, n ≠ q.toNat → getQueue t n = getQueue s n) ∧ t.cores = s.cores ∧ t.mem = s.mem ∧
          t.launches = s.launches ∧ t.tasks = s.tasks ∧ t.reports = s.reports ∧ (getQueue t q.toNat).base = x.base ∧
          (getQueue t q.toNat).size = x.size) ∧
        (∃ t, exec (.qtailWrite q v) s = .next t ∧ getQueue t q.toNat = { x with tail := v.extractLsb' 0 32 }) ∧
        (∃ t, exec (.queueEnable q v) s = .next t ∧ let y := getQueue t q.toNat
          y.en = true ∧ y.die = v.extractLsb' 1 2 ∧ y.ctx = v.extractLsb' 3 6 ∧ y.tail = x.tail ∧
          (x.en = false → y.head = x.tail ∧ y.ovf = false ∧ y.rerr = false ∧
            y.cfg = (fenced s (v.extractLsb' 1 2).toNat || !(getCtx s (v.extractLsb' 3 6).toNat).live)) ∧
          (x.en = true → y.head = x.head ∧ y.ovf = x.ovf ∧ y.rerr = x.rerr ∧
            y.cfg = (x.cfg || fenced s (v.extractLsb' 1 2).toNat || !(getCtx s (v.extractLsb' 3 6).toNat).live))) ∧
        (∃ t, exec (.queueDisable q v) s = .next t ∧ let y := getQueue t q.toNat
          y.en = false ∧ y.head = x.head ∧ y.tail = x.tail ∧ y.ovf = x.ovf ∧ y.cfg = (x.cfg || fenced s (v.extractLsb' 1 2).toNat) ∧ y.rerr = x.rerr) ∧
        (∃ t, exec (.gdoorWrite q v) s = .next t ∧ getQueue t q.toNat = { x with doors := x.doors ++ [v.toNat % 2 ^ 57] }) ∧
        (∃ t, exec (.gpatchWrite q v) s = .next t ∧ getQueue t q.toNat = { x with
          patch := v.extractLsb' 0 32, patchDue := true, old := x.old.map (fun b => (b.1, b.2.1, true)) }))) ∧
  (
    ∀ (s : State) (off size : Nat) (v : W64) (bad : BitVec 17) (view : StartView),
      let writes := fun (o : Nat) (r : HostReg) => barWrite s o 8 v bad view = some (.registerWrite r v)
      let reads := fun (o : Nat) (w : W64) => barRead s o 8 = some w
      (size ≠ 8 ∨ off % 8 ≠ 0 → barWrite s off size v bad view = none ∧ barRead s off size = none) ∧
      (s.boot.phase = .bisque → (s.hostUp ≠ 0 → reads 0x100 (bootstatOf s)) ∧ (s.hostUp = 0 → barRead s off size = none) ∧ (v.getLsbD 0 = true → barWrite s 0x108 8 v bad view = some (.restart view)) ∧
        (off ≠ 0x108 → barWrite s off 8 v bad view = none)) ∧
      (s.boot.phase ≠ .bisque → barOpen s = false → barRead s off size = none) ∧
      (s.boot.phase ≠ .bisque →
        barWriteAt s 0 0x2000 8 v bad view = some (.registerWrite .rbase v) ∧ barWriteAt s 1 0x2000 8 v bad view = some (.registerWrite .rbaseMirror v) ∧
        (∀ x ∈ [(0x00, HostReg.rbase), (0x08, .rsize), (0x10, .rtail), (0x18, .rhead), (0x20, .rstat), (0x28, .rmsi), (0x90, .eccsel), (0x98, .ecccnt),
            (0xE8, .iftstat), (0xF0, .sealrd), (0xF8, .sealword), (0x100, .bootstat), (0x130, .mcsel), (0x138, .mccnt)],
          writes (0x2000 + x.1) x.2 ∧ (barOpen s = true → reads (0x2000 + x.1) (readReg s x.2))) ∧
        (∀ a, a < 9 → writes (0x2040 + 8 * a) (.thresh a) ∧ (barOpen s = true → reads (0x2040 + 8 * a) (readReg s (.thresh a)))) ∧
        (∀ d, d < 4 → writes (0x20A0 + 8 * d) (.avsctl d) ∧ writes (0x20C0 + 8 * d) (.dispmask d) ∧
          (barOpen s = true → reads (0x20A0 + 8 * d) (readReg s (.avsctl d)) ∧ reads (0x2110 + 8 * d) (readReg s (.therm d)))) ∧
        (∀ x ∈ [(0x00, HostReg.ctxtab), (0x10, .ctxarg), (0x18, .ctxstat), (0x28, .diestat), (0x30, .devnum)],
          writes (0x1000 + x.1) x.2 ∧ (barOpen s = true → reads (0x1000 + x.1) (readReg s x.2))) ∧
        barWrite s 0x1020 8 v bad view = some (.dieFence v) ∧ barWrite s 0x20E0 8 v bad view = some (.iftStart v) ∧
        (∀ p, p < 18 → barOpen s = true → reads (0x3000 + 32 * p) (pstatOf (getPort s p)) ∧ reads (0x3008 + 32 * p) (readReg s (.pcnt p))) ∧
        (∀ q : BitVec 6, let at_ := 0x100000 + 64 * q.toNat
          writes at_ (.qbase q) ∧ writes (at_ + 0x08) (.qsize q) ∧ writes (at_ + 0x20) (.qctl q) ∧
          barWrite s (at_ + 0x10) 8 v bad view = some (.qtailWrite q v) ∧ barWrite s (at_ + 0x30) 8 v bad view = some (.gdoorWrite q v) ∧
          barWrite s (at_ + 0x38) 8 v bad view = some (.gpatchWrite q v) ∧
          (barOpen s = true → reads (at_ + 0x18) (readReg s (.qhead q)) ∧ reads (at_ + 0x28) (readReg s (.qstat q))))))

/-- (1) R353, R354 and R360: a context command sets RES and counts in DONE: CREATE refuses a live context and a bad descriptor and copies a good
one; DESTROY refuses a context that has work and ends another; INVASID and INVRANGE remove the translations and walk-cache entries of the context, or of its
pages, from every hearth and die and complete when no access is under way; another code is a bad command. CTXCMD keeps the command. That CREATE and DESTROY end in the
step of their write and that a command written while BUSY is ignored is the model's choice (log entry 38: DESIGN CHOICE).

(2) R354 and R368: DIECTL fences the dies whose bits are 1 and zero bits have no effect. A fenced die takes STATE 3, its queues CFG, its
cores hold nothing any more, its fabric ports and its host port are down, its tasks have ended, the other dies hold none of its lines any more (spec/10
R238), and a test under way on it ends with RES 3. That memory stays as it is, with the lines that the fenced die held modified and
those of a die whose route to their home is cut, is the model's choice (log entry 72: DESIGN CHOICE). -/
def Obligations.ContextCommandsAndFencing : Prop :=
  (
    ∀ (s : State) (c : BitVec 6) (op : BitVec 3),
      let n := c.toNat
      let is : List Instr := [.create c, .destroy c, .invasid c, .invrange c, .ctxcmdBadCommand op c]
      let ended := fun (t : State) (res : BitVec 2) =>
        t.ctxBlock.busy = false ∧ t.ctxBlock.res = res ∧ t.ctxBlock.donecnt = s.ctxBlock.donecnt + 1
      let noEntries := fun (t : State) =>
        (∀ h, ∀ e ∈ (getHearth t h).tlb, e.asid ≠ n) ∧ (∀ d, ∀ e ∈ (getDie t d).tlb2, e.asid ≠ n) ∧ (∀ d, ∀ e ∈ (getDie t d).walks, e.asid ≠ n)
      let keepsOthers := fun (t : State) =>
        (∀ h, ∀ e ∈ (getHearth s h).tlb, e.asid ≠ n → e ∈ (getHearth t h).tlb) ∧
        (∀ d, ∀ e ∈ (getDie s d).tlb2, e.asid ≠ n → e ∈ (getDie t d).tlb2) ∧ (∀ d, ∀ e ∈ (getDie s d).walks, e.asid ≠ n → e ∈ (getDie t d).walks)
      (barOpen s = false ∨ s.ctxBlock.busy = true → ∀ i ∈ is, exec i s = .next s) ∧
      (barOpen s = true → s.ctxBlock.busy = false →
        (∃ t, exec (.create c) s = .next t ∧ t.mem = s.mem ∧ t.cores = s.cores ∧ (∀ k, k ≠ n → getCtx t k = getCtx s k) ∧
          ((getCtx s n).live = true → ended t 1 ∧ t.ctxs = s.ctxs) ∧
          ((getCtx s n).live = false → readDescriptor s n = none → ended t 2 ∧ t.ctxs = s.ctxs) ∧
          (∀ d, (getCtx s n).live = false → readDescriptor s n = some d → descriptorOk s d = false → ended t 2 ∧ t.ctxs = s.ctxs) ∧
          (∀ d, (getCtx s n).live = false → readDescriptor s n = some d → descriptorOk s d = true →
            ended t 0 ∧ (getCtx t n).live = true ∧ (getCtx t n).desc = d ∧ noEntries t)) ∧
        (∃ t, exec (.destroy c) s = .next t ∧ (ctxBusy s n = true → ended t 1 ∧ t.ctxs = s.ctxs ∧ t.mem = s.mem) ∧
          (ctxBusy s n = false → ended t 0 ∧ (getCtx t n).live = false ∧ (getCtx t n).events = [] ∧ (getCtx t n).allocs = [] ∧ noEntries t)) ∧
        (∃ t, exec (.invasid c) s = .next t ∧ noEntries t ∧ keepsOthers t ∧ t.mem = s.mem ∧ t.cores = s.cores ∧
          (accessesOf s n = [] → ended t 0) ∧ (accessesOf s n ≠ [] → t.ctxBlock.busy = true ∧ t.ctxBlock.donecnt = s.ctxBlock.donecnt)) ∧
        (∃ t, exec (.invrange c) s = .next t ∧ keepsOthers t ∧ t.mem = s.mem ∧ t.cores = s.cores ∧
          (∀ va, va / 4096 ≥ s.ctxBlock.vpn.toNat → va / 4096 ≤ s.ctxBlock.vpn.toNat + s.ctxBlock.npg.toNat →
            (∀ h, ∀ e ∈ (getHearth t h).tlb, e.asid = n → 12 ≤ e.bits → va / 2 ^ e.bits ≠ e.base) ∧
            (∀ d, ∀ e ∈ (getDie t d).tlb2, e.asid = n → 12 ≤ e.bits → va / 2 ^ e.bits ≠ e.base) ∧
            (∀ d, ∀ e ∈ (getDie t d).walks, e.asid = n → va / 2 ^ (12 + 9 * e.level) ≠ e.base)) ∧
          (accessesOf s n = [] → ended t 0) ∧ (accessesOf s n ≠ [] → t.ctxBlock.busy = true)) ∧
        (5 ≤ op → ∃ t, exec (.ctxcmdBadCommand op c) s = .next t ∧ ended t 3 ∧ t.ctxs = s.ctxs ∧ t.mem = s.mem ∧ t.cores = s.cores) ∧
        (op < 5 → exec (.ctxcmdBadCommand op c) s = .next { s with ctxBlock := { s.ctxBlock with cmd := c ++ op } }) ∧
        (∀ x ∈ [(Instr.create c, (1 : BitVec 3)), (.destroy c, 2), (.invasid c, 3), (.invrange c, 4), (.ctxcmdBadCommand op c, op)],
          ∃ t, exec x.1 s = .next t ∧ readCtxcmd t = BitVec.ofNat 64 (x.2.toNat + 8 * c.toNat)))) ∧
  (
    ∀ (s : State) (v : W64),
      (barOpen s = false → exec (.dieFence v) s = .next s) ∧
      (v.extractLsb' 0 4 = 0 → exec (.dieFence v) s = .next s) ∧
      (∀ d, barOpen s = true → d < 4 → v.extractLsb' 0 4 = BitVec.ofNat 4 (2 ^ d) → fenced s d = true → exec (.dieFence v) s = .next s) ∧
      (∀ d, barOpen s = true → d < 4 → v.extractLsb' 0 4 = BitVec.ofNat 4 (2 ^ d) → fenced s d = false → s.shape = {} → s.colls = [] →
        ∃ t, exec (.dieFence v) s = .next t ∧ (getDie t d).state = 3 ∧
          (let keeps := fun (l : List Nat) => l.filter (fun k => !(k < 2 ^ 38 && homeDie (32 * k) == d))
           ∀ e, e ≠ d → let keeps := fun (l : List Nat) => keeps (l.filter (fun k => !(k < 2 ^ 38 && cutOff t e (homeDie (32 * k)))))
            getDie t e = { getDie s e with
             dirty := keeps (getDie s e).dirty, clean := keeps (getDie s e).clean, rdcBad := keeps (getDie s e).rdcBad }) ∧
          (∀ i, i / 96 = d → (getCore t i).task = none ∧ (getCore t i).acc = [] ∧ (getCore t i).chan = [] ∧ (getCore t i).mu.run = none) ∧
          (∀ i, i / 96 ≠ d → getCore t i = getCore s i) ∧
          (∀ p, p < 2 → t.hostUp.getLsbD p = (s.hostUp.getLsbD p && p != d)) ∧
          (∀ u k, tabFind s.tasks u = some k → k.hearth / 24 = d → ∃ k', tabFind t.tasks u = some k' ∧ k'.st = 5) ∧
          (∀ p, p < 18 → portDie p = d → (getPort t p).state = 0 ∧ (getPort t p).replay = []) ∧
          (∀ q, (getQueue s q).en = true → (getQueue s q).die.toNat = d → (getQueue t q).cfg = true) ∧
          (s.recovery.iftBusy = true → s.recovery.iftHearth / 24 = d → t.recovery.iftBusy = false ∧ t.recovery.iftRes = 3) ∧ t.mem = s.mem) ∧
      (barOpen s = true → s.colls = [] → ∃ t, exec (.dieFence v) s = .next t ∧ t.mem = s.mem ∧ ∀ d, d < 4 →
        (v.getLsbD d = false → (getDie t d).state = (getDie s d).state) ∧ (v.getLsbD d = true → fenced s d = true → (getDie t d).state = (getDie s d).state) ∧
        (v.getLsbD d = true → fenced s d = false → (getDie t d).state = 3 ∧ (d < 2 → t.hostUp.getLsbD d = false) ∧
          ∀ i, i / 96 = d → (getCore t i).task = none ∧ (getCore t i).acc = [] ∧ (getCore t i).chan = [] ∧ (getCore t i).mu.run = none)))

/-- (1) R376, R377 and R379: a corrected error counts, saturating, for its instance; the first time a nonzero threshold is reached it is
reported as SUB 3 (KIND 2 with the die: log entry 9: DEDUCED), and a voltage service that is on freezes, to be reported with that counter (that this report waits is log entry 60: DEDUCED). A
clear zeroes the selected counter and arms its report again, where a chain of healthy dies leads to its die (spec/01 R16; that it does nothing
without one is log entry 75: DEDUCED).

(2) R376 and R378: an uncorrected error in memory marks its code word of 32 bytes, or of 8 in SRAM, with the class and instance of the array, and
changes no byte; so does one of a line in its home slice, or modified in another die's cache; one of a clean copy marks the copy. One in a tile register marks the tile for its
engine, one in a held row or a held store marks the row; one in a register file or in instruction memory ends the core's task in error with
class 3. That such an error is reported when it happens, and one in memory where it is met, is the model's reading (log entry 7), and so are the mark of
a held store (log entry 56: DEDUCED) and the die as unit of its reports (log entry 9: DEDUCED). -/
def Obligations.MemoryErrors : Prop :=
  (
    ∀ (s : State) (cls inst : Nat),
      let k := eccKey cls inst
      let count := fun (s : State) => tabGet s.recovery.ecc k 0
      let n := count s + 1
      let thresh := tabGet s.recovery.thresh cls 0
      (eccInstances cls ≤ inst → exec (.correctedEccError cls inst) s = .next s) ∧
      (s.boot.phase = .normal → inst < eccInstances cls → count s ≠ BitVec.allOnes 32 →
        (∃ t, exec (.correctedEccError cls inst) s = .next t ∧ count t = n ∧ t.mem = s.mem ∧ t.cores = s.cores ∧ t.tasks = s.tasks) ∧
        ((thresh = 0 ∨ n < thresh ∨ k ∈ s.recovery.eccFired) → ∃ t, exec (.correctedEccError cls inst) s = .next t ∧
          t.ring = s.ring ∧ t.reports = s.reports ∧ t.dies = s.dies ∧ t.hostMem = s.hostMem) ∧
        (thresh ≠ 0 → thresh ≤ n → k ∉ s.recovery.eccFired → (getDie s (eccDie cls inst)).avs.en = false → (getDie s (eccDie cls inst)).avs.named = none →
          exec (.correctedEccError cls inst) s = .next (post { s with recovery := { s.recovery with
            ecc := tabSet s.recovery.ecc k n, eccFired := s.recovery.eccFired ++ [k] } }
            (mkReport 3 0 2 (BitVec.ofNat 14 (eccDie cls inst)) 0 0 cls inst n.toNat thresh.toNat))) ∧
        (thresh ≠ 0 → thresh ≤ n → k ∉ s.recovery.eccFired → (getDie s (eccDie cls inst)).avs.en = true → (getDie s (eccDie cls inst)).avs.named = none →
          ∃ t, exec (.correctedEccError cls inst) s = .next t ∧ (getDie t (eccDie cls inst)).avs.frozen = true ∧
            (getDie t (eccDie cls inst)).avs.point = (getDie s (eccDie cls inst)).avs.point ∧
            ((getDie s (eccDie cls inst)).avs.frozen = false → (getDie t (eccDie cls inst)).avs.named =
              some (cls, inst, (getDie s (eccDie cls inst)).avs.point)))) ∧
      (s.boot.phase = .normal → inst < eccInstances cls → count s = BitVec.allOnes 32 →
        ∃ t, exec (.correctedEccError cls inst) s = .next t ∧ count t = BitVec.allOnes 32) ∧
      (barOpen s = true → eccChosen s = (cls, inst) → hostChain s (eccDie cls inst) = false → exec .eccCounterClear s = .next s) ∧
      (barOpen s = true → eccChosen s = (cls, inst) → hostChain s (eccDie cls inst) = true → ∃ t, exec .eccCounterClear s = .next t ∧ count t = 0 ∧ k ∉ t.recovery.eccFired ∧
        (∀ j, j ≠ k → tabGet t.recovery.ecc j 0 = tabGet s.recovery.ecc j 0) ∧ t.cores = s.cores ∧ t.mem = s.mem) ∧
      (∀ core, barOpen s = true → core < 384 → (s.recovery.mcsel.extractLsb' 0 9).toNat = core → hostChain s (dieOf core) = true →
        ∃ t, exec .matrixCounterClear s = .next t ∧ readMatrixCounter t = 0 ∧ t.mem = s.mem ∧ (getCore t core).regs = (getCore s core).regs ∧
          (getCore t core).mu.tiles = (getCore s core).mu.tiles ∧ (∀ j, j ≠ core → getCore t j = getCore s j)) ∧
      (barOpen s = false → exec .eccCounterClear s = .next s ∧ exec .matrixCounterClear s = .next s)) ∧
  (
    ∀ (s : State), s.boot.phase = .normal →
      let marks := fun (site : EccSite) (b : BadWord) => ∃ t, exec (.uncorrectedEccError site) s = .next t ∧
        b ∈ t.eccBad ∧ (∀ x ∈ s.eccBad, x.key ≠ b.key → x ∈ t.eccBad) ∧ t.mem = s.mem ∧ t.cores = s.cores ∧ t.reports = s.reports
      (∀ a, isScratchKey a = true → marks (.mem a) ⟨a / 8 * 8, 8, 0, (a - apertureBase) / 2 ^ 24⟩) ∧
      (∀ a, a < 0x6000000000 → marks (.mem a) ⟨a / 32 * 32, 32, 7, stackOf (a / 0x1800000000) (a % 0x1800000000)⟩) ∧
      (∀ a, inSlices a = true → marks (.slice a) ⟨a / 8 * 8, 8, 5, homeSlice s (localPa s a)⟩) ∧
      (∀ d a, d < 4 → isRemote s a = false → sectorOf s a ∈ (getDie s d).dirty → marks (.cache d a) ⟨paOff a / 8 * 8, 8, 6, d⟩) ∧
      (∀ d a, d < 4 → sectorOf s a ∉ (getDie s d).dirty → sectorOf s a ∈ (getDie s d).clean → ∃ t, exec (.uncorrectedEccError (.cache d a)) s = .next t ∧
        sectorOf s a ∈ (getDie t d).rdcBad ∧ t.mem = s.mem ∧ t.eccBad = s.eccBad ∧ t.reports = s.reports) ∧
      (∀ core e n, core < 384 → e < 2 → n < 8 → ∃ t, exec (.uncorrectedEccError (.tile core e n)) s = .next t ∧
        (tileOf (getCore t core) n).bad = (tileOf (getCore s core) n).bad ||| BitVec.ofNat 2 (2 ^ e) ∧
        (tileOf (getCore t core) n).cope = (tileOf (getCore s core) n).cope ∧ (tileOf (getCore t core) n).drag = (tileOf (getCore s core) n).drag ∧
        t.mem = s.mem ∧ (∀ j, j ≠ core → getCore t j = getCore s j)) ∧
      (∀ core n x r l, core < 384 → n < 8 → (tileOf (getCore s core) n).epoch = some x → x.held = r :: l →
        ∃ t, exec (.uncorrectedEccError (.held core n)) s = .next t ∧ t.mem = s.mem ∧
          ∃ y, (tileOf (getCore t core) n).epoch = some y ∧ y.held = { r with bad := true } :: l) ∧
      (∀ core n u k h r l, core < 384 → (getCore s core).task = some u → tabFind s.tasks u = some k → k.held[n]? = some h → h.tile = none →
        h.rows = r :: l → ∃ t, exec (.uncorrectedEccError (.store core n)) s = .next t ∧ t.mem = s.mem ∧ t.cores = s.cores ∧
          ∃ k', tabFind t.tasks u = some k' ∧ k'.held[n]? = some { h with rows := { r with bad := true } :: l }) ∧
      (∀ core u k site, core < 384 → site ∈ [EccSite.file core, .imem core] → (getCore s core).task = some u → tabFind s.tasks u = some k →
        k.error = none → ∃ t, exec (.uncorrectedEccError site) s = .next t ∧ t.mem = s.mem ∧
          ∃ k', tabFind t.tasks u = some k' ∧ k'.error.map (fun e => e.cls) = some 3))

/-- (1) R379: AVSCTL takes EN and FLOOR; EN 0 returns the die to its nominal point; CMD 1 raises POINT by 10 mV and CMD 2 ends a freeze; every
10 ms a service that is on and not frozen lowers POINT by 5 mV, never below FLOOR, which counts as 600 below that. Only supply data
change. The nominal point of 750 mV is that of R395; the highest of 800 mV, its range, caps POINT (log entry 18: DEDUCED). A command needs a chain
of healthy dies to its die (spec/01 R16; that it does nothing without one is log entry 75: DEDUCED). That a freeze is reported when the next step comes
due or the controller resumes, at the latest in a frame, is log entry 60 (DEDUCED).

(2) R381: a test is refused while its hearth is in dispatch or in use; else the block is busy with it until it ends. A pass records
itself and posts SUB 7 with class 0, a fail posts SUB 7 with class 16 and the failing units; each counts in DONE, and the hearth's
scratchpad reads zero. A hearth that no chain of healthy dies reaches takes no command (spec/01 R16; log entry 75: DEDUCED). DONE without refusals, a command ignored
while BUSY and the zero scratchpad are log entry 21, KIND and UNIT of SUB 7 log entry 9 (both DEDUCED). -/
def Obligations.VoltageServiceAndInFieldTests : Prop :=
  (
    ∀ (s : State) (d : Nat) (v : W64), d < 4 →
      let a := (getDie s d).avs
      let gives := fun (i : Instr) (P : Avs → Prop) => ∃ t, exec i s = .next t ∧ P (getDie t d).avs ∧ (∀ e, e ≠ d → getDie t e = getDie s e) ∧
        t.mem = s.mem ∧ t.cores = s.cores ∧ t.tasks = s.tasks ∧ t.reports = s.reports
      (barOpen s = false ∨ hostChain s d = false → ∀ i ∈ [Instr.avsEnable d v, .avsDisable d v, .avsRaisePoint d, .avsResume d], exec i s = .next s) ∧
      (barOpen s = true → hostChain s d = true →
        (v.extractLsb' 22 2 = 0 → gives (.avsEnable d v) fun b => b.en = true ∧ b.floor = v.extractLsb' 2 10 ∧ b.point = a.point ∧ b.frozen = a.frozen) ∧
        (v.extractLsb' 22 2 = 0 → gives (.avsDisable d v) fun b => b.en = false ∧ b.floor = v.extractLsb' 2 10 ∧ b.point = 750) ∧
        (a.point ≤ 790 → gives (.avsRaisePoint d) fun b => b = { a with point := a.point + 10 }) ∧
        (790 < a.point → gives (.avsRaisePoint d) fun b => b = { a with point := 800 }) ∧
        (a.named = none → gives (.avsResume d) fun b => b = { a with frozen := false }) ∧
        (∀ cls inst point, a.named = some (cls, inst, point) → ∃ t, exec (.avsResume d) s = .next t ∧
          (getDie t d).avs = { a with frozen := false, named := none } ∧
          t.ring = (post s (mkReport 6 0 2 (BitVec.ofNat 14 d) 0 0 d point.toNat cls inst)).ring)) ∧
      (s.boot.phase = .normal → fenced s d = false → a.en = true → a.frozen = false → a.named = none →
        gives (.avsStep d) fun b => b = { a with point := BitVec.ofNat 10 (if a.point.toNat ≤ max 600 a.floor.toNat then a.point.toNat
          else max (a.point.toNat - 5) (max 600 a.floor.toNat)) }) ∧
      ((a.en = false ∨ a.frozen = true) → a.named = none → exec (.avsStep d) s = .next s) ∧
      (∀ cls inst point, a.frozen = true → a.named = some (cls, inst, point) → exec (.avsStep d) s = .next (post
        (modDie s d fun x => { x with avs := { x.avs with named := none } }) (mkReport 6 0 2 (BitVec.ofNat 14 d) 0 0 d point.toNat cls inst)))) ∧
  (
    ∀ (s : State) (v : W64) (units : BitVec 7),
      let h := (v.extractLsb' 0 7).toNat
      let allowed := h < 96 ∧ fenced s (h / 24) = false ∧ (getDie s (h / 24)).dispmask.getLsbD (h % 24) = false ∧ hearthUsed s h = false
      (barOpen s = true → v.getLsbD 7 = true → s.recovery.iftBusy = false → (h < 96 → hostChain s (h / 24) = true) →
        (allowed → exec (.iftStart v) s = .next { s with recovery := { s.recovery with iftBusy := true, iftHearth := h } }) ∧
        (¬ allowed → exec (.iftStart v) s = .next { s with recovery := { s.recovery with iftRes := 1 } })) ∧
      (barOpen s = false ∨ v.getLsbD 7 = false ∨ s.recovery.iftBusy = true ∨ (h < 96 ∧ hostChain s (h / 24) = false) → exec (.iftStart v) s = .next s) ∧
      (s.recovery.iftBusy = false → exec (.iftComplete units) s = .next s) ∧
      (s.recovery.iftBusy = true → ∃ t, exec (.iftComplete units) s = .next t ∧
        t.recovery.iftBusy = false ∧ t.recovery.iftDone = s.recovery.iftDone + 1 ∧ t.recovery.iftRes = (if units = 0 then 0 else 2) ∧
        (∀ o, o < 2 ^ 24 → cellGet t.mem (scratchOff s.recovery.iftHearth 0 + o) = 0) ∧
        (∀ a, a < scratchOff s.recovery.iftHearth 0 ∨ scratchOff s.recovery.iftHearth 0 + 2 ^ 24 ≤ a → cellGet t.mem a = cellGet s.mem a) ∧
        t.cores = s.cores ∧ t.tasks = s.tasks ∧
        ∃ w d1 d2 d3, w.ring = s.ring ∧ w.reports = s.reports ∧ w.hostUp = s.hostUp ∧ w.boot = s.boot ∧
          t = post w (mkReport 7 (if units = 0 then 0 else 16) 0 (coreUnit (4 * s.recovery.iftHearth) 3) 0 0 units.toNat d1 d2 d3)))

/-- (1) R382, R383, R386 and spec/16 R362: the packet that follows the last accepted performs its writes, those of a context only where it is live
and lets operations in, and is acknowledged after every fourth; a duplicate does nothing; a bad CRC or a gap draws a negative acknowledgement; acknowledged packets leave the replay buffer and their stores are
acknowledged, the write pointer of a runner whose last write they acknowledge comes up to the bytes that have performed (spec/12 R288), a packet that waited for room takes the next number, and a negative acknowledgement sends the rest again.

(2) R384 to R386 and R389: a failed lane in use retrains the port on 16 lanes while 16 are healthy and it has not narrowed, else on the
eight lowest healthy lanes; with fewer than eight it is removed; RETRAIN widens a port again only with 16 healthy lanes, and FAILED stays
(which lanes are healthy then is its operand, log entry 23: DESIGN CHOICE); a trained port
is up, reports the change of its lanes, and replays what is unacknowledged; UP trains a down or removed port from sequence 0, on 16 lanes only if
it had not narrowed, and DOWN takes it down; a command needs a chain of healthy dies to the port's die (spec/01 R16; that it does nothing without one
is log entry 75: DEDUCED). That UP takes a port with fewer than eight healthy lanes as mended and that SUB 5 waits for the end of the
retraining are log entry 23 too. -/
def Obligations.FabricPorts : Prop :=
  (
    ∀ (s : State) (p : Nat) (k : Packet) (seq : BitVec 16),
      let x := getPort s p
      let only := fun (i : Instr) (P : Port → Prop) => ∃ t, exec i s = .next t ∧ P (getPort t p) ∧ (∀ n, n ≠ p → getPort t n = getPort s n) ∧
        t.mem = s.mem ∧ t.cores = s.cores
      let held := fun (j : Packet) => decide (32768 ≤ (seq - j.seq).toNat)
      let stores := ∀ j ∈ x.sent, j.kind = .store ∨ j.kind = .row
      (portTakes s p = false → ∀ i ∈ [Instr.fabricPacketReceive p k, .fabricAckReceive p seq, .fabricNakReceive p seq, .ackIdleTimer p],
        exec i s = .next s) ∧
      (portTakes s p = true →
        (k.crcOk = false → only (.fabricPacketReceive p k) fun y =>
          y.recvLast = x.recvLast ∧ y.acksSent = x.acksSent ++ [(false, x.recvLast)] ∧ y.crcerr = satInc x.crcerr) ∧
        (k.crcOk = true → k.seq = x.recvLast + 1 → ∃ t, exec (.fabricPacketReceive p k) s = .next t ∧ let y := getPort t p
          y.recvLast = k.seq ∧ (3 ≤ x.unacked → y.unacked = 0 ∧ y.acksSent = x.acksSent ++ [(true, k.seq)]) ∧
          (x.unacked < 3 → y.unacked = x.unacked + 1 ∧ y.acksSent = x.acksSent) ∧ (k.writes = [] → t.mem = s.mem) ∧
          (∀ a b, k.writes = [(a, b)] → k.ctx = none → Memory.wf s.mem = true → addrClass s (portDie p) (localPa s (paOff a)) = 0 →
            eccHits s (memKey s (localPa s (paOff a))) 1 = [] → footHit s 0 (localPa s (paOff a)) 1 = none →
            cellGet t.mem (memKey s (localPa s (paOff a))) = b ∧
            ∀ j, j ≠ memKey s (localPa s (paOff a)) → cellGet t.mem j = cellGet s.mem j) ∧
          (∀ c, k.ctx = some c → (getCtx s c).live = false ∨ (tabGet (getCtx s c).desc 8 0).getLsbD 1 = false → t.mem = s.mem)) ∧
        (k.crcOk = true → (x.recvLast - k.seq).toNat < 32768 → exec (.fabricPacketReceive p k) s = .next s) ∧
        (k.crcOk = true → k.seq ≠ x.recvLast + 1 → 32768 ≤ (x.recvLast - k.seq).toNat → only (.fabricPacketReceive p k) fun y =>
          y = { x with acksSent := x.acksSent ++ [(false, x.recvLast)] }) ∧
        (x.later = [] → stores → only (.fabricAckReceive p seq) (fun y => y.sent = x.sent.filter (fun j => decide (32768 ≤ (seq - j.seq).toNat)) ∧ y.replay = x.replay.filter held ∧ y.resend = x.resend.filter held ∧ y.replays = x.replays)) ∧
        (∀ j, x.later = [j] → (x.replay.filter held).length < 512 → stores → only (.fabricAckReceive p seq) fun y =>
          y.replay = x.replay.filter held ++ [{ j with seq := x.sendNext }] ∧ y.sendNext = x.sendNext + 1 ∧ y.later = []) ∧
        (∀ j ch r, x.sent = [j] → j.kind = .runner ch → (seq - j.seq).toNat < 32768 → (chanOf (getCore s j.core) ch).run = some r →
          (getCore s j.core).task = some r.e.task → r.counted ≤ r.done → unackedOf (modPort s p fun y => freePackets y seq) j.core ch = [] →
          ∃ t, exec (.fabricAckReceive p seq) s = .next t ∧ (getPort t p).sent = [] ∧ t.mem = s.mem ∧
            (chanOf (getCore t j.core) ch).count = (chanOf (getCore s j.core) ch).count + BitVec.ofNat 48 (r.done - r.counted)) ∧
        (x.later = [] → stores → only (.fabricNakReceive p seq) (fun y => y.replay = x.replay.filter held ∧
          (x.replay.filter held ≠ [] → y.resend = y.replay ∧ y.replays = satInc x.replays))) ∧
        (x.unacked ≠ 0 → only (.ackIdleTimer p) fun y => y = { x with unacked := 0, acksSent := x.acksSent ++ [(true, x.recvLast)] }) ∧
        (x.unacked = 0 → exec (.ackIdleTimer p) s = .next s))) ∧
  (
    ∀ (s : State) (p lane stall : Nat) (bad : BitVec 17),
      let x := getPort s p
      let failed := x.failed ||| BitVec.ofNat 17 (2 ^ lane)
      let unfit := x.unfit ||| BitVec.ofNat 17 (2 ^ lane)
      let healthy := (List.range 17).filter (fun n => !unfit.getLsbD n)
      let gives := fun (i : Instr) (P : Port → Prop) => ∃ t, exec i s = .next t ∧ P (getPort t p) ∧ (∀ n, n ≠ p → getPort t n = getPort s n) ∧
        t.mem = s.mem ∧ t.cores = s.cores
      (s.boot.phase = .normal → x.state = 1 ∨ x.state = 2 → lane < 17 → x.unfit.getLsbD lane = false → x.lanes.getLsbD lane = true →
        (x.w8 = false → 16 ≤ healthy.length → gives (.laneFailure p lane) fun y =>
          y.state = 1 ∧ y.training = true ∧ y.w8 = false ∧ y.failed = failed ∧ y.unfit = unfit ∧ ∀ n, n < 17 → y.lanes.getLsbD n = (healthy.take 16).contains n) ∧
        ((x.w8 = true ∨ healthy.length < 16) → 8 ≤ healthy.length → gives (.laneFailure p lane) fun y =>
          y.state = 1 ∧ y.training = true ∧ y.w8 = true ∧ y.failed = failed ∧ y.unfit = unfit ∧ ∀ n, n < 17 → y.lanes.getLsbD n = (healthy.take 8).contains n) ∧
        (healthy.length < 8 → ∃ t, exec (.laneFailure p lane) s = .next t ∧
          (x.sent = [] → (∀ i, (getCore s i).acc = [] ∧ (chanOf (getCore s i) 0).run = none ∧ (chanOf (getCore s i) 1).run = none) →
            (getPort t p).state = 3 ∧ (getPort t p).replay = [] ∧ t.cores = s.cores))) ∧
      (x.unfit.getLsbD lane = true → exec (.laneFailure p lane) s = .next s) ∧
      (x.training = true → ∃ t, exec (.retrainComplete p stall) s = .next t ∧ (getPort t p).state = 2 ∧ (getPort t p).training = false ∧
        (getPort t p).replay = x.replay ∧ (x.replay ≠ [] → (getPort t p).resend = x.replay) ∧ t.mem = s.mem ∧ t.cores = s.cores ∧
        ∀ a l, x.before = [(a, l)] →
          t.ring = (post s (mkReport 5 14 1 (BitVec.ofNat 14 p) 0 0 a.toNat (pstatOf (getPort t p)).toNat l stall)).ring) ∧
      (x.training = false → exec (.retrainComplete p stall) s = .next s) ∧
      (barOpen s = true → hostChain s (portDie p) = true → x.state = 1 ∨ x.state = 2 → 16 ≤ ((List.range 17).filter (fun n => !bad.getLsbD n)).length → gives (.retrain p bad) fun y =>
        y.state = 1 ∧ y.training = true ∧ y.w8 = false ∧ y.failed = x.failed ∧ y.unfit = bad ∧ y.replay = x.replay) ∧
      (((List.range 17).filter (fun n => !bad.getLsbD n)).length < 16 → exec (.retrain p bad) s = .next s) ∧
      (barOpen s = true → p < 18 → fenced s (portDie p) = false → hostChain s (portDie p) = true → x.state = 0 ∨ x.state = 3 → gives (.up p) fun y =>
        y.state = 1 ∧ y.training = true ∧ y.failed = 0 ∧ (x.w8 = true → y.w8 = true) ∧
        y.unfit = (if ((List.range 17).filter (fun n => !x.unfit.getLsbD n)).length < 8 then 0 else x.unfit) ∧ y.sendNext = 0 ∧ y.replay = [] ∧ y.replays = x.replays ∧ y.crcerr = x.crcerr) ∧
      (barOpen s = true → hostChain s (portDie p) = true → x.state ≠ 3 → x.sent = [] → gives (.down p) fun y =>
        y.state = 0 ∧ y.replay = [] ∧ y.failed = x.failed) ∧
      (p < 18 → hostChain s (portDie p) = false → exec (.up p) s = .next s ∧ exec (.down p) s = .next s ∧ exec (.retrain p bad) s = .next s) ∧
      (barOpen s = false → exec (.up p) s = .next s ∧ exec (.down p) s = .next s ∧ exec (.retrain p bad) s = .next s))

/-- (1) R387 to R390: a fabric port whose partner falls silent is removed: it shows STATE 3 and its replay buffer is gone; a contained CXL port
is removed, and a host port whose link goes down leaves the device, whose tasks run on; with nothing outstanding nothing else changes.

(2) R257 and R363: a host write performs its bytes at its package offset, but for the leaves of a pool that it must not write (log entry 46: DEDUCED);
one that a home refuses or that meets the footprint of an
epoch performs nothing and is reported (R370), with KIND 2 and the host port's die as UNIT by the model's choice (log entry 89: DESIGN
CHOICE), and one that comes while the registers do not answer changes nothing. An ATS invalidation removes the page's translations once no access uses it, and waits till then. -/
def Obligations.RemovalsAndHostTraffic : Prop :=
  (
    ∀ (s : State) (p : Nat), s.boot.phase = .normal →
      let idle := ∀ i, (getCore s i).acc = [] ∧ (chanOf (getCore s i) 0).run = none ∧ (chanOf (getCore s i) 1).run = none
      ((getPort s p).state = 1 ∨ (getPort s p).state = 2 → (getPort s p).before = [] → (getPort s p).sent = [] → ∃ t, exec (.partnerTimeout p) s = .next t ∧
        (idle → (getPort t p).state = 3 ∧ (getPort t p).replay = [] ∧ (∀ n, n ≠ p → getPort t n = getPort s n) ∧ t.cores = s.cores ∧
          t.tasks = s.tasks ∧ t.mem = s.mem ∧
          t.ring = (post s (mkReport 5 5 1 (BitVec.ofNat 14 p) 0 0 (pstatOf (getPort s p)).toNat (pstatOf (getPort t p)).toNat 0 0)).ring)) ∧
      ((getPort s p).state = 0 ∨ (getPort s p).state = 3 → exec (.partnerTimeout p) s = .next s) ∧
      (p ∉ s.cxlRemoved → ∃ t, exec (.cxlContainment p) s = .next t ∧ (idle → t = { s with cxlRemoved := p :: s.cxlRemoved })) ∧
      (p ∈ s.cxlRemoved → exec (.cxlContainment p) s = .next s) ∧
      (s.hostUp.getLsbD p = true → p < 2 → ∃ t, exec (.hostLinkDown p) s = .next t ∧ (idle → t.hostUp.getLsbD p = false ∧
        (∀ n, n < 2 → n ≠ p → t.hostUp.getLsbD n = s.hostUp.getLsbD n) ∧ (∀ e ∈ t.ats, e.1 ≠ p) ∧ t.cores = s.cores ∧ t.tasks = s.tasks ∧
        t.mem = s.mem ∧ t.reports = s.reports)) ∧
      (s.hostUp.getLsbD p = false → exec (.hostLinkDown p) s = .next s)) ∧
  (
    ∀ (s : State) (addr port page : Nat) (bytes : List Byte),
      let pa := localPa s addr
      (barOpen s = false → exec (.hostWritesToDeviceMemory addr bytes) s = .next s) ∧
      let noGraphs := ∀ q ∈ s.queues, q.2.graphs = [] ∧ q.2.doors = []
      let die := (hostPort s).getD 0
      (s.ctxs = [] → hostBytes s pa bytes = bytes) ∧
      (∀ w, barOpen s = true → footHit s 0 pa bytes.length = none → writePa s die 0 pa (hostBytes s pa bytes) = .ok w →
        ∃ t, exec (.hostWritesToDeviceMemory addr bytes) s = .next t ∧ t.mem = w.mem ∧ (noGraphs → t = w)) ∧
      (∀ f, barOpen s = true → footHit s 0 pa bytes.length = none → writePa s die 0 pa (hostBytes s pa bytes) = .error f →
        ∃ t, exec (.hostWritesToDeviceMemory addr bytes) s = .next t ∧ t.mem = s.mem ∧ t.cores = s.cores ∧
        (noGraphs → f ≠ 3 → t = post s (mkReport 0 f 2 (BitVec.ofNat 14 die) 0 pa 1 0 0 0))) ∧
      (∀ i, barOpen s = true → footHit s 0 pa bytes.length = some i → ∃ t, exec (.hostWritesToDeviceMemory addr bytes) s = .next t ∧ t.mem = s.mem ∧
        t.cores = s.cores ∧ (noGraphs → t = post s (mkReport 0 13 2 (BitVec.ofNat 14 die) 0 (pa + i) 1 0 0 0))) ∧
      ((∀ c ∈ s.cores, ∀ a ∈ c.2.acc, a.mt ≠ 2) → ∃ t, exec (.atsInvalidateRequest port page) s = .next t ∧
        t = { s with ats := t.ats } ∧ ∀ e, e ∈ t.ats ↔ e ∈ s.ats ∧ ¬ (e.1 = port ∧ e.2.1 % 2 ^ 52 = page)) ∧
      (∀ e i a, e ∈ s.ats → e.1 = port → e.2.1 % 2 ^ 52 = page → (i, a) ∈ s.cores → (∃ b ∈ a.acc, b.mt = 2 ∧ b.n ≠ 0 ∧
          b.pa / 4096 = hostPa port (e.2.2 / 4 * 4096) / 4096) → exec (.atsInvalidateRequest port page) s = .next s))

/-- (1) R366, R391 and R392: power-on, a host reset of a running device, the delay after a failed start and RESTART begin a start, in which
every core, task and queue is at its reset value; a start with a die, a host port and a stack ends healthy or degraded and clears the
counter; one that times out counts with its reason, and the third failure in a row enters bisque mode. That an interrupted start counts with
reason 7 and that HOST_RESET has no effect in bisque mode is log entry 24 (DEDUCED).

(2) R395 and R398: above 100 °C or 90 °C a die's clock steps down by 100 MHz, to no lower than 400; with both below 95 °C and 85 °C it steps up,
to 1,600; in between it stays. At 115 °C or 100 °C THERMTRIP is driven low. Loss of the rails stops the device; with VSTBY the failed starts
and bisque mode are kept. -/
def Obligations.StartsHeatAndPower : Prop :=
  (
    ∀ (s : State) (v : StartView) (r : BitVec 8) (e : StartEnd),
      let begun := fun (t : State) => t.boot.phase = .starting ∧ t.boot.begun = true ∧ t.boot.tripped = false ∧ t.cores = [] ∧ t.tasks = [] ∧
        t.launches = [] ∧ t.queues = [] ∧ t.ctxs = [] ∧ t.reports = [] ∧ t.ring = {} ∧ t.ports = [] ∧ t.hostMem = s.hostMem ∧
        (∀ d, d < 4 → ((getDie t d).state = 1 ↔ v.rom.getLsbD d = false)) ∧
        (v.rom.getLsbD 0 = true → t.boot.lead = some 0) ∧ (v.rom.getLsbD 0 = false → v.rom.getLsbD 1 = true → t.boot.lead = some 1) ∧
        (v.rom.getLsbD 0 = false → v.rom.getLsbD 1 = false → t.boot.lead = none)
      let starts := fun (i : Instr) => ∃ t, exec i s = .next t ∧ begun t ∧ t.boot.reason0 = s.boot.reason0
      let failed := fun (t : State) (reason : BitVec 8) => t.boot.reason0 = reason ∧ t.boot.reason1 = s.boot.reason0 ∧
        t.boot.reason2 = s.boot.reason1 ∧ t.boot.count = (if s.boot.count = 3 then 3 else s.boot.count + 1) ∧
        t.cores = [] ∧ t.tasks = [] ∧ t.hostMem = s.hostMem ∧
        (s.boot.count.toNat < 2 → t.boot.phase = .delay) ∧ (2 ≤ s.boot.count.toNat → t.boot.phase = .bisque ∧ t.boot.outcome = 2)
      let inStart := s.boot.phase = .starting ∧ s.boot.begun = true
      (s.boot.phase = .starting → s.boot.begun = false → starts (.powerOn v)) ∧
      (s.boot.power = true → s.boot.begun = true → exec (.powerOn v) s = .next s) ∧
      (s.boot.phase = .normal → starts (.hostReset v)) ∧ (s.boot.phase = .bisque → exec (.hostReset v) s = .next s) ∧
      (inStart → s.boot.count.toNat < 2 → ∃ t, exec (.hostReset v) s = .next t ∧ begun t ∧ t.boot.reason0 = 7 ∧ t.boot.count = s.boot.count + 1) ∧
      (s.boot.phase = .delay → s.boot.tripped = false → starts (.restartDelay v)) ∧
      (s.boot.phase ≠ .delay → exec (.restartDelay v) s = .next s) ∧
      (s.boot.phase = .normal ∨ s.boot.phase = .bisque → s.hostUp ≠ 0 →
        ∃ t, exec (.restart v) s = .next t ∧ begun t ∧ t.boot.count = 0) ∧
      (inStart → ∃ t, exec (.startTimeout r) s = .next t ∧
        (s.boot.lead = none → failed t 1) ∧ (s.boot.lead ≠ none → 2 ≤ r → r ≤ 7 → failed t r)) ∧
      (inStart → s.boot.tripped = false → s.boot.lead ≠ none → e.absent ≠ 0xFF →
        (e.hostPorts.getLsbD 0 = true ∧ fenced s 0 = false ∨ e.hostPorts.getLsbD 1 = true ∧ fenced s 1 = false) →
        ∃ t, exec (.startComplete e) s = .next t ∧ t.boot.phase = .normal ∧ t.boot.count = 0 ∧ t.boot.absent = e.absent ∧
          (t.boot.outcome = 0 ↔ e.absent = 0 ∧ ∀ d, d < 4 → fenced s d = false) ∧
          (∀ d, d < 2 → t.hostUp.getLsbD d = (e.hostPorts.getLsbD d && !fenced s d)) ∧ t.mem = s.mem ∧ t.dies = s.dies)) ∧
  (
    ∀ (s : State) (d tj thbm : Nat), d < 4 → tj < 256 → thbm < 256 →
      let clk := (getDie s d).clk.toNat
      let steps := fun (n : Nat) => ∃ t, exec (.thermalClockStep d tj thbm) s = .next t ∧ (getDie t d).clk = BitVec.ofNat 11 n ∧
        (getDie t d).tj.toNat = tj ∧ (getDie t d).thbm.toNat = thbm ∧ (∀ e, e ≠ d → getDie t e = getDie s e) ∧ t = { s with dies := t.dies }
      (100 < tj ∨ 90 < thbm → steps (max 400 (clk - 100))) ∧
      (tj < 95 → thbm < 85 → steps (min 1600 (clk + 100))) ∧
      (¬ (100 < tj ∨ 90 < thbm) → ¬ (tj < 95 ∧ thbm < 85) → steps clk) ∧
      (115 ≤ tj ∨ 100 ≤ thbm → ∃ t, exec (.thermtrip d tj thbm) s = .next t ∧ t.boot.tripped = true ∧
        (s.boot.phase = .starting → s.boot.begun = true → t.boot.reason0 = 7) ∧ (s.boot.phase = .normal → t.boot.count = s.boot.count ∧ t.mem = s.mem)) ∧
      (tj < 115 → thbm < 100 → exec (.thermtrip d tj thbm) s = .next s) ∧
      (∀ stby, ∃ t, exec (.powerLoss stby) s = .next t ∧ t.boot.power = false ∧ t.cores = [] ∧ t.tasks = [] ∧ t.queues = [] ∧ t.ctxs = [] ∧
        (stby = true → s.boot.phase ≠ .starting → t.boot.count = s.boot.count ∧ (t.boot.phase = .bisque ↔ s.boot.phase = .bisque)) ∧
        (stby = false → t.boot.count = 0 ∧ t.boot.phase = .starting)))

/-- R367: while its host port is up the lead die answers GET_VERSION, GET_CAPABILITIES, NEGOTIATE_ALGORITHMS, GET_DIGESTS, GET_CERTIFICATE,
CHALLENGE and GET_MEASUREMENTS, for certificate slot 0 and blocks 1 to 6: the digests of 48 bytes, zero for a die in STATE 1 or 2, and
DIESTAT; every other request draws ERROR. Nothing but the response changes. -/
def Obligations.SpdmResponder : Prop :=
  ∀ (s : State) (slot off len block : Nat) (nonce : BitVec 256) (code : BitVec 8),
    let is : List Instr := [.getVersion, .getCapabilities, .negotiateAlgorithms, .getDigests, .getCertificate slot off len,
      .challenge slot nonce, .getMeasurements block, .spdmUnsupportedRequest code]
    let answers := fun (i : Instr) (P : Spdm → Prop) => ∃ t, exec i s = .next t ∧ t = { s with spdm := t.spdm } ∧ P t.spdm
    let isError := fun (x : Spdm) => ∃ c, x = .error c
    (spdmUp s = false → ∀ i ∈ is, exec i s = .next s) ∧
    (spdmUp s = true →
      answers .getVersion (· = .version) ∧ answers .getCapabilities (· = .capabilities) ∧ answers .negotiateAlgorithms (· = .algorithms) ∧
      answers .getDigests (fun x => ∃ d, x = .digests d ∧ d.length = 48) ∧
      (slot = 0 → answers (.getCertificate slot off len) fun x => ∃ b, x = .certificate b ∧ b.length ≤ len) ∧
      (slot ≠ 0 → answers (.getCertificate slot off len) isError) ∧
      (slot = 0 → answers (.challenge slot nonce) fun x => ∃ b, x = .challengeAuth b ∧ b.length = 96) ∧
      (slot ≠ 0 → answers (.challenge slot nonce) isError) ∧
      (∀ d, d < 4 → block = d + 1 → answers (.getMeasurements block) fun x => ∃ b, x = .measurements [(block, b)] ∧ b.length = 48 ∧
        ((getDie s d).state = 1 ∨ (getDie s d).state = 2 → b = List.replicate 48 0)) ∧
      (block = 5 → answers (.getMeasurements block) fun x => ∃ b, x = .measurements [(block, b)] ∧ b.length = 48) ∧
      (block = 6 → answers (.getMeasurements block) (· = .measurements [(6, bytesOf (diestatOf s).toNat 8)])) ∧
      (6 < block → block ≠ 255 → answers (.getMeasurements block) isError) ∧
      answers (.spdmUnsupportedRequest code) isError)

/-! ## Encoding, bundles, steps and the whole machine (spec/03, spec/04) -/

/-- R42, R46, R47, R149 and R150: every instruction that is no micro-op and no event has a word, and every micro-op its 64 bits; for every
well-formed slot instruction, with every operand at every value its encoding admits, decoding its
word gives it back; for every micro-op likewise; and no word decodes to an instruction that encodes otherwise. -/
def Obligations.EncodeDecode : Prop :=
  (∀ i : Instr, (isMicroOp i = false → isEvent i = false → ∃ w, encodeWord i = some w) ∧ (isMicroOp i = true → ∃ w, encodeUop i = some w) ∧
    (isEvent i = true → encodeWord i = none ∧ encodeUop i = none)) ∧
  (∀ (i : Instr) (w : W32), encodeWord i = some w → i.WF → decode w = .ok i) ∧
  (∀ (i : Instr) (w : W64), encodeUop i = some w → decodeUop w = some i) ∧
  (∀ (i : Instr) (w : W32), decode w = .ok i → encodeWord i = some w ∧ i.WF) ∧
  (∀ (i : Instr) (w : W64), decodeUop w = some i → encodeUop i = some w)

/-- R42, R46 and R149: words written out from the layouts of their formats decode to the instructions they stand for. -/
def Obligations.WordsOfTheManual : Prop :=
  decode 0x80610300 = .ok (.movi ⟨1, 0, 0, 2, 0x300⟩) ∧
  decode 0x80523380 = .ok (.cmpeqi ⟨1, 0, 0, 3, 7, 0⟩) ∧
  decode 0x10070443 = .ok (.vfma ⟨0, 2, 0, 2, 1, 2, 3⟩) ∧
  decode 0xA0790C60 = .ok (.kpopc ⟨1, 4, 0, 2, 3, 3, 0⟩) ∧
  decode 0xD0210C21 = .ok (.dadd ⟨1, 0, 3, 1, 1⟩) ∧
  decode 0xB00C0A30 = .ok (.ldD ⟨1, 6, 0, 0, 5, 3, 0⟩) ∧
  decode 0xC0021400 = .ok (.copy ⟨1, 8, 0, 2, 5, 0, 0⟩) ∧
  decode 0xA8003882 = .ok (.mcall ⟨1, 0, 7, 4, 2⟩) ∧
  decode 0xDBC60031 = .ok (.trap ⟨1, 7, 0x31⟩) ∧
  decodeUop 0x1500000000000000 = some (.mma ⟨2, 0, 0, 0, 0⟩)

/-- R40, R41, R53, R149 and log entry 1: a step makes the move that stands at the head of the agenda, and a move runs the decoded
instruction: an event is `exec` of it, and when it may touch memory the stores that hearths see perform first (log entry 62: DEDUCED); a core
that may issue and finds a bundle of one decoded word with its stop bit makes `exec` of it,
and commits what it gives, takes the trap it raised, pauses or waits; a matrix unit makes `exec` of the micro-op it reaches, once its rows and records on other devices are acknowledged. After the move
the states issuing and waiting of the tasks are noted (R33). A device whose rails are off makes no move but those of its supply. -/
def Obligations.StepRunsTheDecodedInstruction : Prop :=
  (∀ (s : State) (m : Move), s.boot.power = false → s.agenda.head? = some m → m ≠ .event (.powerLoss false) →
    (∀ v, m ≠ .event (.powerOn v)) → step s = .fault .poweredOff) ∧
  (∀ (s : State), allShown s = [] → homeShown s = s) ∧
  ∀ (s : State), s.boot.power = true →
    let n := { s with tick := s.tick + 1, agenda := s.agenda.tail }
    let ends := fun (core : Nat) (t : State) => step s = .next (noteStates (noteIssued t core (getCore n core).handler))
    (∀ i, s.agenda.head? = some (.event i) → step s = noteOut (exec i (if isQuiet n (.event i) then n else homeShown n))) ∧
    let h := homeShown n
    (∀ core i w t, s.agenda.head? = some (.issue core) → mayIssue n core = true → (getCore n core).blocked = none →
      (getCore n core).handler = true ∨ (getCore n core).late = [] →
      frameOf (getCore n core) = ([w], true) → decode w = .ok i → bankOf (getCore n core) (getCore n core).ctl.pc 1 = none →
      exec i (modCore { n with cur := core } core fun c => { c with mark := .none }) = .next t →
      ((getCore t core).mark = .none → ∃ conds, ends core
        (commitBundle { n with cur := core } core (getCore n core).ctl.pc 1 (getCore n core).ctl.tgt conds t)) ∧
      (∀ k, (getCore t core).mark = .trapped k → ends core (settleCore (modCore t core fun c => { c with mark := .none }) core)) ∧
      ((getCore t core).mark = .held → ends core (heldBy { n with cur := core } t core [i] [(.held, t)])) ∧
      ((getCore t core).mark = .blocked → ends core (blockedBy { n with cur := core } t core [i] { n with cur := core } [(.blocked, t)]))) ∧
    (∀ core i r t, s.agenda.head? = some (.micro core) → owes h core = false → victimOn h core = none → (getCore h core).mu.run = some r →
      ackOut h core (getCore h core).task isMatrixSent = false →
      (getCore h core).mu.suspended = false → r.upc < 4095 → decodeUop (tabGet (getCore h core).mu.store r.upc 0) = some i →
      exec i (modCore { h with cur := core } core fun c => { c with mark := .none }) = .next t → step s = .next (noteStates (settleCore t core)))

/-- (1) R40, R51 and R52: a bundle without a stop bit within eight words is illegal, and so is one with a word of a reserved unit, TCAUSE 0x02,
or of a reserved opcode or field, 0x01; two words of one unit are illegal; so are words that do not ascend by unit (reason bit 3), two that name one destination other than x0 and y0 (bit
6) or use one port (bit 7), and V words of more than 2,048 bits together (bit 8); TSLOTS shows the reason in bit 12 on. Decoded words that rise
by unit, share nothing and fit that width, with a stop bit at their end, are legal: the 0x01 of a LOOP whose stack is full is none of these but a trap of
its slot (log entry 57: DEDUCED), and a TPOLL to x0 uses no port (log entry 58: DEDUCED). A V word of width code 3 is reason bit 5, whatever its
operation code.

(2) R41 and R53: the slots of a legal bundle read one state, that of its issue: what a slot writes no other slot reads. Of several traps one is
reported: 0x03 before 0x09, both detected at issue, before that of the first word, which has the lowest unit; one that is reported leaves
nothing of the other slots. A bundle of which no slot is kept from committing commits the effects of all. That a slot that is paused ranks as one that traps, and a
blocked one after both, is the model's choice (log entry 73: DESIGN CHOICE). -/
def Obligations.BundleLegality : Prop :=
  (
    ∀ (words : List W32) (ended : Bool), words ≠ [] → words.length ≤ 8 →
      ((∃ w ∈ words, 12 ≤ unitOf w) → ∃ x, illegal words ended = some (0x02, x)) ∧
      ((∀ w ∈ words, unitOf w < 12) → (∃ w ∈ words, ∀ i, decode w ≠ .ok i) → ∃ x, illegal words ended = some (0x01, x)) ∧
      ((∀ w ∈ words, unitOf w < 12) → ended = false → ∃ x, illegal words ended = some (0x01, x)) ∧
      ((∀ w ∈ words, unitOf w < 12) → ¬ (words.map unitOf).Nodup → ∃ x, illegal words ended = some (0x01, x)) ∧
      let reason := fun (b : Nat) => ∃ c x, illegal words ended = some (c, x) ∧ x.getLsbD (12 + b) = true
      let two := fun (P : Instr → Instr → Prop) => ∃ (a b : Nat) (v w : W32) (i j : Instr), a < b ∧ words[a]? = some v ∧ words[b]? = some w ∧ decode v = .ok i ∧
        decode w = .ok j ∧ P i j
      let sameDest := fun (i j : Instr) => ∃ d ∈ destsOf i, d ∈ destsOf j ∧ d ≠ (0, 0) ∧ d ≠ (1, 0)
      let samePort := fun (i j : Instr) => ∃ d ∈ portsOf i, d ∈ portsOf j
      ((∃ (a : Nat) (v w : W32), words[a]? = some v ∧ words[a + 1]? = some w ∧ unitOf w < unitOf v) → reason 3) ∧
      ((∃ w ∈ words, 2 ≤ unitOf w ∧ unitOf w ≤ 4 ∧ w.extractLsb' 15 2 = 3) → reason 5) ∧
      (two sameDest → reason 6) ∧ (two samePort → reason 7) ∧ (2048 < (words.map wordWidth).sum → reason 8) ∧
      ((∀ w ∈ words, unitOf w < 12 ∧ ∃ i, decode w = .ok i) → ended = true → (words.map unitOf).Pairwise (· < ·) → ¬ two sameDest → ¬ two samePort →
        (words.map wordWidth).sum ≤ 2048 → illegal words ended = none)) ∧
  (
    (∀ (s : State) (bound : Nat) (l : List Land) (n : Nat), let t := emit s bound l
      seeX t (me t) n = seeX s (me s) n ∧ seeY t (me t) n = seeY s (me s) n ∧ seeQ t (me t) n = seeQ s (me s) n ∧ seeK t (me t) n = seeK s (me s) n ∧
      seeV t (me t) n = seeV s (me s) n ∧ seeW t (me t) n = seeW s (me s) n ∧ seeD t (me t) n = seeD s (me s) n ∧ seeP t (me t) n = seeP s (me s) n ∧
      seeG t (me t) n = seeG s (me s) n ∧ seeH t (me t) n = seeH s (me s) n) ∧
    ∀ (s : State) (core : Nat), mayIssue s core = true → let c := getCore s core
      c.blocked = none → c.handler = true ∨ c.late = [] → bankOf c c.ctl.pc (frameOf c).1.length = none → illegal (frameOf c).1 (frameOf c).2 = none →
      let n := { s with cur := core }
      let ops := slotsOf (frameOf c).1
      let slot := fun (i : Instr) => runSlot n i
      let mark := fun (i : Instr) => markOf (slot i) core
      let reports := fun (i : Instr) =>
        issueBundle s core = noteIssued (settleCore (modCore (slot i) core fun c => { c with mark := .none }) core) core c.handler
      (frameOf c).1.map (fun w => (decode w).toOption) = ops.map some ∧
      (∀ t, (∀ i ∈ ops, mark i = .none) → runSlots core (slotOrder ops) n = (t, true) →
        ∃ conds, issueBundle s core = noteIssued (commitBundle n core c.ctl.pc (frameOf c).1.length c.ctl.tgt conds t) core c.handler) ∧
      (∀ before i after, ops = before ++ i :: after →
        (mark i = .trapped 0x03 → (∀ j ∈ before, mark j ≠ .trapped 0x03) → reports i) ∧
        (mark i = .trapped 0x09 → (∀ j ∈ before, mark j ≠ .trapped 0x09) → (∀ j ∈ ops, mark j ≠ .trapped 0x03) → reports i) ∧
        (∀ k, mark i = .trapped k → (∀ j ∈ ops, mark j ≠ .trapped 0x03 ∧ mark j ≠ .trapped 0x09) →
          (∀ j ∈ before, mark j = .none ∨ mark j = .blocked) → reports i)))

/-- R52, R79 and R85: a core that meets an illegal bundle takes its trap and executes none of its words; one that meets an empty or failed
instruction bank takes TCAUSE 0x0B with the address of the first word in that bank, TSLOTS counting the words up to it (log entry 25), whatever the legality of the resident words (log entry
74: DESIGN CHOICE); one that meets a bank being fetched waits for it. One whose core has a store refused after its bundle traps with 0x0A outside a handler, and the tile of the epoch is kept for the completion entry (log entry
51: DEDUCED; spec/15 R346). -/
def Obligations.BundlesThatDoNotIssue : Prop :=
  ∀ (s : State) (core : Nat), mayIssue s core = true →
    let c := getCore s core
    let words := (frameOf c).1
    let goes := c.handler = true ∨ c.late = []
    let trap := fun (cause : Nat) (tslots : BitVec 21) (taddr taux : W64) =>
      noteIssued (settleCore (modCore (takeTrap { s with cur := core } cause tslots taddr taux) core fun c => { c with mark := .none }) core) core c.handler
    let upTo := fun (a : Nat) => BitVec.ofNat 21 (256 * (a - c.ctl.pc + 1))
    (∀ cause x, goes → bankOf c c.ctl.pc words.length = none → illegal words (frameOf c).2 = some (cause, x) →
      issueBundle s core = trap cause x 0 0) ∧
    (∀ a, goes → bankOf c c.ctl.pc words.length = some (a, .empty) → issueBundle s core = trap 0x0B (upTo a) (BitVec.ofNat 64 a) 0) ∧
    (∀ a g k, goes → bankOf c c.ctl.pc words.length = some (a, .failed g k) →
      issueBundle s core = trap 0x0B (upTo a) (BitVec.ofNat 64 a) (BitVec.ofNat 64 (2 ^ 32 * g.toNat + 2 ^ 40 + 2 ^ 42 * k.toNat))) ∧
    (∀ a k, goes → bankOf c c.ctl.pc words.length = some (a, .failedImage k) →
      issueBundle s core = trap 0x0B (upTo a) (BitVec.ofNat 64 a) (BitVec.ofNat 64 (2 ^ 40 + 2 ^ 42 * k.toNat))) ∧
    (∀ a g, goes → bankOf c c.ctl.pc words.length = some (a, .loading g) → ∃ t, issueBundle s core = t ∧ (getCore t core).hold = .fetch (a / 8192) ∧
      (getCore t core).regs = c.regs ∧ (getCore t core).ctl = c.ctl ∧ t.mem = s.mem ∧ ∀ k, k ≠ core → getCore t k = getCore s k) ∧
    (∀ row tile rest, c.handler = false → c.late = (row, tile) :: rest → issueBundle s core = noteIssued (settleCore (modCore (takeTrap
      (modCore { s with cur := core } core fun c => { c with late := rest, hitTile := tile }) 0x0A (BitVec.ofNat 21 (256 * words.length)) row 0) core
        fun c => { c with mark := .none }) core) core c.handler)

/-- Every step keeps device memory and host memory in canonical form: bytes listed at rising addresses, none that an unlisted address reads. -/
def Obligations.StepKeepsMemoryCanonical : Prop := ∀ s t : State, MemOk s → step s = .next t → MemOk t

/-- Reset leaves the memories canonical, and of the values the rules state: no register of a core holds anything but zero, FMT and the
level are zero, the matrix counters are 0 (R377), every hearth is admitted to dispatch (R380), no lane has failed (R386), no report or
seal is recorded, and the start has not begun (R391). Memory reading zero and the zeros of registers without a stated reset value are the
model's choice (log entries 2 and 5). -/
def Obligations.ResetState : Prop :=
  MemOk State.reset ∧ (∀ a, cellGet State.reset.mem a = 0) ∧
  (∀ i r, let c := getCore State.reset i
    tabGet c.regs.x r 0 = 0 ∧ tabGet c.regs.y r 0 = 0 ∧ tabGet c.regs.v r 0 = 0 ∧ tabGet c.regs.d r 0 = 0 ∧ tabGet c.regs.k r 0 = 0 ∧
    tabGet c.regs.q r false = false ∧ c.sys.fmt = 0 ∧ c.sys.priv = 0 ∧ c.mu.dis0 = 0 ∧ c.mu.dis1 = 0 ∧ c.mu.unres = 0 ∧ c.mu.abandon = 0 ∧
    c.task = none) ∧
  (∀ d, (getDie State.reset d).dispmask = BitVec.allOnes 24 ∧ (getDie State.reset d).clk = 1600) ∧
  (∀ p, (getPort State.reset p).failed = 0 ∧ (getPort State.reset p).w8 = false) ∧ (∀ h, (getHearth State.reset h).seals = []) ∧
  State.reset.reports = [] ∧ State.reset.boot.phase = .starting ∧ State.reset.boot.count = 0
end

