-- ==== Sys2Proof/Laws/Tables.lean ====
section
/-! SUPPORT. What the sparse tables and the byte list of memory do: reading after writing, and the canonical form of memory, which every
operation on the byte list keeps. -/

namespace Sys2Proof.Laws

open Sys2Proof Sys2Proof.Machine

/-! ## Tables -/

@[simp] theorem tabFind_nil {α : Type} (i : Nat) : tabFind ([] : Tab α) i = none := rfl

@[simp] theorem tabGet_nil {α : Type} (i : Nat) (d : α) : tabGet [] i d = d := rfl

theorem tabFind_tabSet {α : Type} (t : Tab α) (i j : Nat) (x : α) :
    tabFind (tabSet t i x) j = if j = i then some x else tabFind t j := by
  induction t with
  | nil => simp [tabSet, tabFind, eq_comm]
  | cons e r ih =>
    obtain ⟨k, v⟩ := e
    simp only [tabSet]
    split
    · subst_vars; by_cases h : j = k <;> simp [tabFind, h, eq_comm]
    · split
      · by_cases h : j = i
        · subst h; simp [tabFind]
        · simp [tabFind, h, Ne.symm h]
      · by_cases h : k = j
        · subst h; rename_i hk _; simp [tabFind, Ne.symm hk]
        · simp [tabFind, h, ih]

@[simp] theorem tabFind_tabSet_self {α : Type} (t : Tab α) (i : Nat) (x : α) : tabFind (tabSet t i x) i = some x := by
  simp [tabFind_tabSet]

@[simp] theorem tabGet_tabSet_self {α : Type} (t : Tab α) (i : Nat) (x d : α) : tabGet (tabSet t i x) i d = x := by
  simp [tabGet]

theorem tabGet_tabSet {α : Type} (t : Tab α) (i j : Nat) (x d : α) :
    tabGet (tabSet t i x) j d = if j = i then x else tabGet t j d := by
  simp only [tabGet, tabFind_tabSet]; split <;> rfl

theorem tabGet_tabSet_ne {α : Type} (t : Tab α) {i j : Nat} (x d : α) (h : j ≠ i) : tabGet (tabSet t i x) j d = tabGet t j d := by
  simp [tabGet_tabSet, h]

theorem tabFind_tabErase {α : Type} (t : Tab α) (i j : Nat) : tabFind (tabErase t i) j = if j = i then none else tabFind t j := by
  induction t with
  | nil => simp [tabErase]
  | cons e r ih =>
    obtain ⟨k, v⟩ := e
    simp only [tabErase, List.filter_cons] at ih ⊢
    by_cases hk : k = i
    · subst hk
      simp only [bne_self_eq_false, Bool.false_eq_true, ↓reduceIte, ih]
      by_cases hj : j = k
      · simp [hj]
      · simp [tabFind, hj, Ne.symm hj]
    · have hb : (k != i) = true := by simpa using hk
      simp only [hb, if_true, tabFind, ih]
      by_cases hj : k = j
      · subst hj; simp [hk]
      · simp [hj]

theorem tabGet_tabErase {α : Type} (t : Tab α) (i j : Nat) (d : α) : tabGet (tabErase t i) j d = if j = i then d else tabGet t j d := by
  simp only [tabGet, tabFind_tabErase]; split <;> rfl

theorem tabFind_tabMap {α : Type} (t : Tab α) (f : Nat → α → α) (i : Nat) : tabFind (tabMap t f) i = (tabFind t i).map (f i) := by
  induction t with
  | nil => rfl
  | cons e r ih =>
    obtain ⟨k, v⟩ := e
    by_cases h : k = i
    · subst h; simp [tabMap, tabFind]
    · simpa [tabMap, tabFind, h] using ih

/-- A table changed entry by entry reads as its entry changed, where the default is a fixed point of the change. -/
theorem tabGet_tabMap {α : Type} (t : Tab α) (f : Nat → α → α) (i : Nat) (d : α) (h : f i d = d) :
    tabGet (tabMap t f) i d = f i (tabGet t i d) := by
  simp only [tabGet, tabFind_tabMap]; cases tabFind t i <;> simp [h]

theorem tabFind_mem {α : Type} {t : Tab α} {i : Nat} {x : α} (h : tabFind t i = some x) : (i, x) ∈ t := by
  induction t with
  | nil => simp at h
  | cons e r ih =>
    obtain ⟨k, v⟩ := e
    by_cases hk : k = i
    · subst hk; simp [tabFind] at h; simp [h]
    · simp [tabFind, hk] at h; simp [ih h]

/-! ## Bytes of memory -/

/-- A memory lists only keys at least `k`. -/
def From (k : Nat) (m : List Host.Cell) : Prop := ∀ e ∈ m, k ≤ e.1

theorem wf_cons {k : Nat} {v : Byte} {r : List Host.Cell} :
    Memory.wf ((k, v) :: r) = true ↔ v ≠ 0 ∧ From (k + 1) r ∧ Memory.wf r = true := by
  simp [Memory.wf, From, and_assoc]

theorem cellGet_of_lt {m : List Host.Cell} {k a : Nat} (h : From k m) (ha : a < k) : cellGet m a = 0 := by
  induction m with
  | nil => rfl
  | cons e r ih =>
    obtain ⟨j, v⟩ := e
    have hj : k ≤ j := h (j, v) (by simp)
    have hne : j ≠ a := by omega
    simp only [cellGet, hne, if_false]
    exact ih fun x hx => h x (by simp [hx])

theorem From.cellSet {m : List Host.Cell} {k a : Nat} {b : Byte} (h : From k m) (ha : k ≤ a) : From k (cellSet m a b) := by
  induction m with
  | nil =>
    intro e he
    simp only [Machine.cellSet] at he
    split at he
    · simp at he
    · rw [List.mem_singleton] at he; subst he; exact ha
  | cons e r ih =>
    obtain ⟨j, v⟩ := e
    have hr : From k r := fun x hx => h x (by simp [hx])
    have hj : k ≤ j := h (j, v) (by simp)
    intro x hx
    simp only [Machine.cellSet] at hx
    split at hx
    · split at hx
      · exact hr x hx
      · rcases List.mem_cons.1 hx with rfl | hx
        · exact ha
        · exact hr x hx
    · split at hx
      · split at hx
        · exact h x hx
        · rcases List.mem_cons.1 hx with rfl | hx
          · exact ha
          · exact h x hx
      · rcases List.mem_cons.1 hx with rfl | hx
        · exact hj
        · exact ih hr x hx

/-- Writing one byte keeps the canonical form. -/
theorem wf_cellSet (m : List Host.Cell) (a : Nat) (b : Byte) (h : Memory.wf m = true) : Memory.wf (cellSet m a b) = true := by
  induction m with
  | nil =>
    simp only [cellSet]
    split
    · rfl
    · simpa [Memory.wf] using ‹¬b = 0›
  | cons e r ih =>
    obtain ⟨k, v⟩ := e
    obtain ⟨hv, hk, hr⟩ := wf_cons.1 h
    simp only [cellSet]
    split
    · subst_vars
      split
      · exact hr
      · exact wf_cons.2 ⟨‹_›, hk, hr⟩
    · split
      · split
        · exact h
        · refine wf_cons.2 ⟨‹_›, ?_, h⟩
          intro x hx
          rcases List.mem_cons.1 hx with rfl | hx
          · assumption
          · have := hk x hx; omega
      · exact wf_cons.2 ⟨hv, hk.cellSet (by omega), ih hr⟩

/-- A byte after one byte was written. -/
theorem cellGet_cellSet (m : List Host.Cell) (a x : Nat) (b : Byte) (h : Memory.wf m = true) :
    cellGet (cellSet m a b) x = if x = a then b else cellGet m x := by
  induction m with
  | nil =>
    simp only [cellSet]
    split
    · simp [cellGet, *]
    · by_cases hx : x = a
      · simp [cellGet, hx]
      · simp [cellGet, hx, Ne.symm hx]
  | cons e r ih =>
    obtain ⟨k, v⟩ := e
    obtain ⟨hv, hk, hr⟩ := wf_cons.1 h
    simp only [cellSet]
    split
    · subst_vars
      split
      · subst_vars
        by_cases hx : x = k
        · subst hx; simpa using cellGet_of_lt hk (by omega)
        · simp [cellGet, hx, Ne.symm hx]
      · by_cases hx : x = k
        · simp [cellGet, hx]
        · simp [cellGet, hx, Ne.symm hx]
    · split
      · have hf : From k ((k, v) :: r) := by
          intro y hy
          rcases List.mem_cons.1 hy with rfl | hy
          · exact Nat.le_refl _
          · have := hk y hy; omega
        split
        · subst_vars
          by_cases hx : x = a
          · subst hx; simpa using cellGet_of_lt hf (by assumption)
          · simp [hx]
        · by_cases hx : x = a
          · simp [cellGet, hx]
          · simp [cellGet, hx, Ne.symm hx]
      · by_cases hx : k = x
        · subst hx
          have hne : k ≠ a := Ne.symm ‹_›
          simp [cellGet, hne]
        · simp [cellGet, hx, ih hr]

theorem wf_cellsSet (m : List Host.Cell) (a : Nat) (b : List Byte) (h : Memory.wf m = true) : Memory.wf (cellsSet m a b) = true := by
  induction b generalizing m a with
  | nil => exact h
  | cons x r ih => exact ih _ _ (wf_cellSet m a x h)

theorem From.filter {m : List Host.Cell} {k : Nat} (h : From k m) (p : Host.Cell → Bool) : From k (m.filter p) :=
  fun e he => h e (List.mem_filter.1 he).1

/-- Removing cells keeps the canonical form. -/
theorem wf_filter (m : List Host.Cell) (p : Host.Cell → Bool) (h : Memory.wf m = true) : Memory.wf (m.filter p) = true := by
  induction m with
  | nil => rfl
  | cons e r ih =>
    obtain ⟨k, v⟩ := e
    obtain ⟨hv, hk, hr⟩ := wf_cons.1 h
    rw [List.filter_cons]
    split
    · exact wf_cons.2 ⟨hv, hk.filter p, ih hr⟩
    · exact ih hr

/-- Replacing bytes and removing those that became zero keeps the canonical form. -/
theorem wf_mapFilter (m : List Host.Cell) (f : Host.Cell → Byte) (h : Memory.wf m = true) :
    Memory.wf ((m.map (fun c => (c.1, f c))).filter (fun c => c.2 != 0)) = true := by
  induction m with
  | nil => rfl
  | cons e r ih =>
    obtain ⟨k, v⟩ := e
    obtain ⟨hv, hk, hr⟩ := wf_cons.1 h
    rw [List.map_cons, List.filter_cons]
    split
    · rename_i hne
      refine wf_cons.2 ⟨by simpa using hne, ?_, ih hr⟩
      refine From.filter ?_ _
      intro x hx
      obtain ⟨y, hy, rfl⟩ := List.mem_map.1 hx
      exact hk y hy
    · exact ih hr

/-- A byte of a memory from which a range of keys was removed. -/
theorem cellGet_filter (m : List Host.Cell) (p : Nat → Bool) (a : Nat) :
    cellGet (m.filter (fun c => p c.1)) a = if p a then cellGet m a else 0 := by
  induction m with
  | nil => simp [cellGet]
  | cons e r ih =>
    obtain ⟨k, v⟩ := e
    by_cases hk : p k = true
    · by_cases ha : k = a
      · subst ha; simp [hk, cellGet]
      · simp [hk, cellGet, ha, ih]
    · by_cases ha : k = a
      · subst ha; simp [hk, ih]
      · simp [hk, cellGet, ha, ih]

/-- Two memories in canonical form that read the same are the same list. -/
theorem memory_ext (m n : List Host.Cell) (hm : Memory.wf m = true) (hn : Memory.wf n = true) (h : ∀ a, cellGet m a = cellGet n a) :
    m = n := by
  induction m generalizing n with
  | nil =>
    cases n with
    | nil => rfl
    | cons e r =>
      obtain ⟨k, v⟩ := e
      have := h k
      simp [cellGet] at this
      exact absurd this.symm (wf_cons.1 hn).1
  | cons e r ih =>
    obtain ⟨k, v⟩ := e
    obtain ⟨hv, hk, hr⟩ := wf_cons.1 hm
    cases n with
    | nil => have := h k; simp [cellGet] at this; exact absurd this hv
    | cons e' r' =>
      obtain ⟨k', v'⟩ := e'
      obtain ⟨hv', hk', hr'⟩ := wf_cons.1 hn
      have hkk : k = k' := by
        rcases Nat.lt_trichotomy k k' with hlt | heq | hgt
        · have h1 := h k
          simp only [cellGet, if_true, if_neg (Nat.ne_of_gt hlt), cellGet_of_lt hk' (Nat.lt_succ_of_lt hlt)] at h1
          exact absurd h1 hv
        · exact heq
        · have h1 := h k'
          simp only [cellGet, if_true, if_neg (Nat.ne_of_gt hgt), cellGet_of_lt hk (Nat.lt_succ_of_lt hgt)] at h1
          exact absurd h1.symm hv'
      subst hkk
      have hvv : v = v' := by have := h k; simpa [cellGet] using this
      subst hvv
      have : r = r' := ih r' hr hr' fun a => by
        by_cases ha : k = a
        · subst ha
          rw [cellGet_of_lt hk (Nat.lt_succ_self _), cellGet_of_lt hk' (Nat.lt_succ_self _)]
        · have := h a; simpa [cellGet, ha] using this
      rw [this]

end Sys2Proof.Laws
end

