-- ==== Sys2Proof/Laws/State.lean ====
section
/-! SUPPORT. What each named update of the state changes and what it leaves: one lemma per field per update. No later proof unfolds a
record update. -/

namespace Sys2Proof.Laws

open Sys2Proof Sys2Proof.Machine

/-! ## Reading what an update wrote -/

theorem getCore_setCore (s : State) (c i : Nat) (x : Core) : getCore (setCore s c x) i = if i = c then x else getCore s i :=
  tabGet_tabSet _ _ _ _ _
theorem getCore_modCore (s : State) (c i : Nat) (f : Core → Core) :
    getCore (modCore s c f) i = if i = c then f (getCore s c) else getCore s i := tabGet_tabSet _ _ _ _ _
@[simp] theorem getCore_modCore_self (s : State) (c : Nat) (f : Core → Core) : getCore (modCore s c f) c = f (getCore s c) := by
  simp [getCore_modCore]
theorem getCore_modCore_ne (s : State) {c i : Nat} (f : Core → Core) (h : i ≠ c) : getCore (modCore s c f) i = getCore s i := by
  simp [getCore_modCore, h]
theorem getCore_modMe (s : State) (i : Nat) (f : Core → Core) : getCore (modMe s f) i = if i = s.cur then f (me s) else getCore s i :=
  getCore_modCore s s.cur i f
@[simp] theorem me_modMe (s : State) (f : Core → Core) : me (modMe s f) = f (me s) := getCore_modCore_self s s.cur f
theorem getHearth_modHearth (s : State) (h i : Nat) (f : Hearth → Hearth) :
    getHearth (modHearth s h f) i = if i = h then f (getHearth s h) else getHearth s i := tabGet_tabSet _ _ _ _ _
theorem getDie_modDie (s : State) (d i : Nat) (f : Die → Die) :
    getDie (modDie s d f) i = if i = d then f (getDie s d) else getDie s i := tabGet_tabSet _ _ _ _ _
theorem getCtx_modCtx (s : State) (c i : Nat) (f : Ctx → Ctx) :
    getCtx (modCtx s c f) i = if i = c then f (getCtx s c) else getCtx s i := tabGet_tabSet _ _ _ _ _
theorem getQueue_modQueue (s : State) (q i : Nat) (f : Queue → Queue) :
    getQueue (modQueue s q f) i = if i = q then f (getQueue s q) else getQueue s i := tabGet_tabSet _ _ _ _ _
theorem getPort_modPort (s : State) (p i : Nat) (f : Port → Port) :
    getPort (modPort s p f) i = if i = p then f (getPort s p) else getPort s i := tabGet_tabSet _ _ _ _ _
theorem tabFind_modTask (s : State) (u i : Nat) (f : Task → Task) :
    tabFind (modTask s u f).tasks i = if i = u then (tabFind s.tasks u).map f else tabFind s.tasks i := by
  unfold modTask
  cases h : tabFind s.tasks u with
  | none => by_cases hi : i = u <;> simp [hi, h]
  | some t => simp [tabFind_tabSet]
theorem tabFind_modLaunch (s : State) (u i : Nat) (f : Launch → Launch) :
    tabFind (modLaunch s u f).launches i = if i = u then (tabFind s.launches u).map f else tabFind s.launches i := by
  unfold modLaunch
  cases h : tabFind s.launches u with
  | none => by_cases hi : i = u <;> simp [hi, h]
  | some t => simp [tabFind_tabSet]

/-! ## What an update leaves -/

@[simp] theorem setCore_agenda (s : State) (c : Nat) (x : Core) : (setCore s c x).agenda = s.agenda := rfl
@[simp] theorem setCore_cur (s : State) (c : Nat) (x : Core) : (setCore s c x).cur = s.cur := rfl
@[simp] theorem setCore_tick (s : State) (c : Nat) (x : Core) : (setCore s c x).tick = s.tick := rfl
@[simp] theorem setCore_hearths (s : State) (c : Nat) (x : Core) : (setCore s c x).hearths = s.hearths := rfl
@[simp] theorem setCore_dies (s : State) (c : Nat) (x : Core) : (setCore s c x).dies = s.dies := rfl
@[simp] theorem setCore_mem (s : State) (c : Nat) (x : Core) : (setCore s c x).mem = s.mem := rfl
@[simp] theorem setCore_hostMem (s : State) (c : Nat) (x : Core) : (setCore s c x).hostMem = s.hostMem := rfl
@[simp] theorem setCore_eccBad (s : State) (c : Nat) (x : Core) : (setCore s c x).eccBad = s.eccBad := rfl
@[simp] theorem setCore_ats (s : State) (c : Nat) (x : Core) : (setCore s c x).ats = s.ats := rfl
@[simp] theorem setCore_ctxs (s : State) (c : Nat) (x : Core) : (setCore s c x).ctxs = s.ctxs := rfl
@[simp] theorem setCore_ctxBlock (s : State) (c : Nat) (x : Core) : (setCore s c x).ctxBlock = s.ctxBlock := rfl
@[simp] theorem setCore_queues (s : State) (c : Nat) (x : Core) : (setCore s c x).queues = s.queues := rfl
@[simp] theorem setCore_launches (s : State) (c : Nat) (x : Core) : (setCore s c x).launches = s.launches := rfl
@[simp] theorem setCore_tasks (s : State) (c : Nat) (x : Core) : (setCore s c x).tasks = s.tasks := rfl
@[simp] theorem setCore_nextUid (s : State) (c : Nat) (x : Core) : (setCore s c x).nextUid = s.nextUid := rfl
@[simp] theorem setCore_turns (s : State) (c : Nat) (x : Core) : (setCore s c x).turns = s.turns := rfl
@[simp] theorem setCore_shape (s : State) (c : Nat) (x : Core) : (setCore s c x).shape = s.shape := rfl
@[simp] theorem setCore_oreqs (s : State) (c : Nat) (x : Core) : (setCore s c x).oreqs = s.oreqs := rfl
@[simp] theorem setCore_expect (s : State) (c : Nat) (x : Core) : (setCore s c x).expect = s.expect := rfl
@[simp] theorem setCore_colls (s : State) (c : Nat) (x : Core) : (setCore s c x).colls = s.colls := rfl
@[simp] theorem setCore_ports (s : State) (c : Nat) (x : Core) : (setCore s c x).ports = s.ports := rfl
@[simp] theorem setCore_cxlCap (s : State) (c : Nat) (x : Core) : (setCore s c x).cxlCap = s.cxlCap := rfl
@[simp] theorem setCore_cxlRemoved (s : State) (c : Nat) (x : Core) : (setCore s c x).cxlRemoved = s.cxlRemoved := rfl
@[simp] theorem setCore_hostUp (s : State) (c : Nat) (x : Core) : (setCore s c x).hostUp = s.hostUp := rfl
@[simp] theorem setCore_ring (s : State) (c : Nat) (x : Core) : (setCore s c x).ring = s.ring := rfl
@[simp] theorem setCore_reports (s : State) (c : Nat) (x : Core) : (setCore s c x).reports = s.reports := rfl
@[simp] theorem setCore_recovery (s : State) (c : Nat) (x : Core) : (setCore s c x).recovery = s.recovery := rfl
@[simp] theorem setCore_boot (s : State) (c : Nat) (x : Core) : (setCore s c x).boot = s.boot := rfl
@[simp] theorem setCore_spdm (s : State) (c : Nat) (x : Core) : (setCore s c x).spdm = s.spdm := rfl
@[simp] theorem setCore_unreachable (s : State) (c : Nat) (x : Core) : (setCore s c x).unreachable = s.unreachable := rfl
@[simp] theorem setCore_faults (s : State) (c : Nat) (x : Core) : (setCore s c x).faults = s.faults := rfl
@[simp] theorem modCore_agenda (s : State) (c : Nat) (f : Core → Core) : (modCore s c f).agenda = s.agenda := rfl
@[simp] theorem modCore_cur (s : State) (c : Nat) (f : Core → Core) : (modCore s c f).cur = s.cur := rfl
@[simp] theorem modCore_tick (s : State) (c : Nat) (f : Core → Core) : (modCore s c f).tick = s.tick := rfl
@[simp] theorem modCore_hearths (s : State) (c : Nat) (f : Core → Core) : (modCore s c f).hearths = s.hearths := rfl
@[simp] theorem modCore_dies (s : State) (c : Nat) (f : Core → Core) : (modCore s c f).dies = s.dies := rfl
@[simp] theorem modCore_mem (s : State) (c : Nat) (f : Core → Core) : (modCore s c f).mem = s.mem := rfl
@[simp] theorem modCore_hostMem (s : State) (c : Nat) (f : Core → Core) : (modCore s c f).hostMem = s.hostMem := rfl
@[simp] theorem modCore_eccBad (s : State) (c : Nat) (f : Core → Core) : (modCore s c f).eccBad = s.eccBad := rfl
@[simp] theorem modCore_ats (s : State) (c : Nat) (f : Core → Core) : (modCore s c f).ats = s.ats := rfl
@[simp] theorem modCore_ctxs (s : State) (c : Nat) (f : Core → Core) : (modCore s c f).ctxs = s.ctxs := rfl
@[simp] theorem modCore_ctxBlock (s : State) (c : Nat) (f : Core → Core) : (modCore s c f).ctxBlock = s.ctxBlock := rfl
@[simp] theorem modCore_queues (s : State) (c : Nat) (f : Core → Core) : (modCore s c f).queues = s.queues := rfl
@[simp] theorem modCore_launches (s : State) (c : Nat) (f : Core → Core) : (modCore s c f).launches = s.launches := rfl
@[simp] theorem modCore_tasks (s : State) (c : Nat) (f : Core → Core) : (modCore s c f).tasks = s.tasks := rfl
@[simp] theorem modCore_nextUid (s : State) (c : Nat) (f : Core → Core) : (modCore s c f).nextUid = s.nextUid := rfl
@[simp] theorem modCore_turns (s : State) (c : Nat) (f : Core → Core) : (modCore s c f).turns = s.turns := rfl
@[simp] theorem modCore_shape (s : State) (c : Nat) (f : Core → Core) : (modCore s c f).shape = s.shape := rfl
@[simp] theorem modCore_oreqs (s : State) (c : Nat) (f : Core → Core) : (modCore s c f).oreqs = s.oreqs := rfl
@[simp] theorem modCore_expect (s : State) (c : Nat) (f : Core → Core) : (modCore s c f).expect = s.expect := rfl
@[simp] theorem modCore_colls (s : State) (c : Nat) (f : Core → Core) : (modCore s c f).colls = s.colls := rfl
@[simp] theorem modCore_ports (s : State) (c : Nat) (f : Core → Core) : (modCore s c f).ports = s.ports := rfl
@[simp] theorem modCore_cxlCap (s : State) (c : Nat) (f : Core → Core) : (modCore s c f).cxlCap = s.cxlCap := rfl
@[simp] theorem modCore_cxlRemoved (s : State) (c : Nat) (f : Core → Core) : (modCore s c f).cxlRemoved = s.cxlRemoved := rfl
@[simp] theorem modCore_hostUp (s : State) (c : Nat) (f : Core → Core) : (modCore s c f).hostUp = s.hostUp := rfl
@[simp] theorem modCore_ring (s : State) (c : Nat) (f : Core → Core) : (modCore s c f).ring = s.ring := rfl
@[simp] theorem modCore_reports (s : State) (c : Nat) (f : Core → Core) : (modCore s c f).reports = s.reports := rfl
@[simp] theorem modCore_recovery (s : State) (c : Nat) (f : Core → Core) : (modCore s c f).recovery = s.recovery := rfl
@[simp] theorem modCore_boot (s : State) (c : Nat) (f : Core → Core) : (modCore s c f).boot = s.boot := rfl
@[simp] theorem modCore_spdm (s : State) (c : Nat) (f : Core → Core) : (modCore s c f).spdm = s.spdm := rfl
@[simp] theorem modCore_unreachable (s : State) (c : Nat) (f : Core → Core) : (modCore s c f).unreachable = s.unreachable := rfl
@[simp] theorem modCore_faults (s : State) (c : Nat) (f : Core → Core) : (modCore s c f).faults = s.faults := rfl
@[simp] theorem modMe_agenda (s : State) (f : Core → Core) : (modMe s f).agenda = s.agenda := rfl
@[simp] theorem modMe_cur (s : State) (f : Core → Core) : (modMe s f).cur = s.cur := rfl
@[simp] theorem modMe_tick (s : State) (f : Core → Core) : (modMe s f).tick = s.tick := rfl
@[simp] theorem modMe_hearths (s : State) (f : Core → Core) : (modMe s f).hearths = s.hearths := rfl
@[simp] theorem modMe_dies (s : State) (f : Core → Core) : (modMe s f).dies = s.dies := rfl
@[simp] theorem modMe_mem (s : State) (f : Core → Core) : (modMe s f).mem = s.mem := rfl
@[simp] theorem modMe_hostMem (s : State) (f : Core → Core) : (modMe s f).hostMem = s.hostMem := rfl
@[simp] theorem modMe_eccBad (s : State) (f : Core → Core) : (modMe s f).eccBad = s.eccBad := rfl
@[simp] theorem modMe_ats (s : State) (f : Core → Core) : (modMe s f).ats = s.ats := rfl
@[simp] theorem modMe_ctxs (s : State) (f : Core → Core) : (modMe s f).ctxs = s.ctxs := rfl
@[simp] theorem modMe_ctxBlock (s : State) (f : Core → Core) : (modMe s f).ctxBlock = s.ctxBlock := rfl
@[simp] theorem modMe_queues (s : State) (f : Core → Core) : (modMe s f).queues = s.queues := rfl
@[simp] theorem modMe_launches (s : State) (f : Core → Core) : (modMe s f).launches = s.launches := rfl
@[simp] theorem modMe_tasks (s : State) (f : Core → Core) : (modMe s f).tasks = s.tasks := rfl
@[simp] theorem modMe_nextUid (s : State) (f : Core → Core) : (modMe s f).nextUid = s.nextUid := rfl
@[simp] theorem modMe_turns (s : State) (f : Core → Core) : (modMe s f).turns = s.turns := rfl
@[simp] theorem modMe_shape (s : State) (f : Core → Core) : (modMe s f).shape = s.shape := rfl
@[simp] theorem modMe_oreqs (s : State) (f : Core → Core) : (modMe s f).oreqs = s.oreqs := rfl
@[simp] theorem modMe_expect (s : State) (f : Core → Core) : (modMe s f).expect = s.expect := rfl
@[simp] theorem modMe_colls (s : State) (f : Core → Core) : (modMe s f).colls = s.colls := rfl
@[simp] theorem modMe_ports (s : State) (f : Core → Core) : (modMe s f).ports = s.ports := rfl
@[simp] theorem modMe_cxlCap (s : State) (f : Core → Core) : (modMe s f).cxlCap = s.cxlCap := rfl
@[simp] theorem modMe_cxlRemoved (s : State) (f : Core → Core) : (modMe s f).cxlRemoved = s.cxlRemoved := rfl
@[simp] theorem modMe_hostUp (s : State) (f : Core → Core) : (modMe s f).hostUp = s.hostUp := rfl
@[simp] theorem modMe_ring (s : State) (f : Core → Core) : (modMe s f).ring = s.ring := rfl
@[simp] theorem modMe_reports (s : State) (f : Core → Core) : (modMe s f).reports = s.reports := rfl
@[simp] theorem modMe_recovery (s : State) (f : Core → Core) : (modMe s f).recovery = s.recovery := rfl
@[simp] theorem modMe_boot (s : State) (f : Core → Core) : (modMe s f).boot = s.boot := rfl
@[simp] theorem modMe_spdm (s : State) (f : Core → Core) : (modMe s f).spdm = s.spdm := rfl
@[simp] theorem modMe_unreachable (s : State) (f : Core → Core) : (modMe s f).unreachable = s.unreachable := rfl
@[simp] theorem modMe_faults (s : State) (f : Core → Core) : (modMe s f).faults = s.faults := rfl
@[simp] theorem modHearth_agenda (s : State) (h : Nat) (f : Hearth → Hearth) : (modHearth s h f).agenda = s.agenda := rfl
@[simp] theorem modHearth_cur (s : State) (h : Nat) (f : Hearth → Hearth) : (modHearth s h f).cur = s.cur := rfl
@[simp] theorem modHearth_tick (s : State) (h : Nat) (f : Hearth → Hearth) : (modHearth s h f).tick = s.tick := rfl
@[simp] theorem modHearth_cores (s : State) (h : Nat) (f : Hearth → Hearth) : (modHearth s h f).cores = s.cores := rfl
@[simp] theorem modHearth_dies (s : State) (h : Nat) (f : Hearth → Hearth) : (modHearth s h f).dies = s.dies := rfl
@[simp] theorem modHearth_mem (s : State) (h : Nat) (f : Hearth → Hearth) : (modHearth s h f).mem = s.mem := rfl
@[simp] theorem modHearth_hostMem (s : State) (h : Nat) (f : Hearth → Hearth) : (modHearth s h f).hostMem = s.hostMem := rfl
@[simp] theorem modHearth_eccBad (s : State) (h : Nat) (f : Hearth → Hearth) : (modHearth s h f).eccBad = s.eccBad := rfl
@[simp] theorem modHearth_ats (s : State) (h : Nat) (f : Hearth → Hearth) : (modHearth s h f).ats = s.ats := rfl
@[simp] theorem modHearth_ctxs (s : State) (h : Nat) (f : Hearth → Hearth) : (modHearth s h f).ctxs = s.ctxs := rfl
@[simp] theorem modHearth_ctxBlock (s : State) (h : Nat) (f : Hearth → Hearth) : (modHearth s h f).ctxBlock = s.ctxBlock := rfl
@[simp] theorem modHearth_queues (s : State) (h : Nat) (f : Hearth → Hearth) : (modHearth s h f).queues = s.queues := rfl
@[simp] theorem modHearth_launches (s : State) (h : Nat) (f : Hearth → Hearth) : (modHearth s h f).launches = s.launches := rfl
@[simp] theorem modHearth_tasks (s : State) (h : Nat) (f : Hearth → Hearth) : (modHearth s h f).tasks = s.tasks := rfl
@[simp] theorem modHearth_nextUid (s : State) (h : Nat) (f : Hearth → Hearth) : (modHearth s h f).nextUid = s.nextUid := rfl
@[simp] theorem modHearth_turns (s : State) (h : Nat) (f : Hearth → Hearth) : (modHearth s h f).turns = s.turns := rfl
@[simp] theorem modHearth_shape (s : State) (h : Nat) (f : Hearth → Hearth) : (modHearth s h f).shape = s.shape := rfl
@[simp] theorem modHearth_oreqs (s : State) (h : Nat) (f : Hearth → Hearth) : (modHearth s h f).oreqs = s.oreqs := rfl
@[simp] theorem modHearth_expect (s : State) (h : Nat) (f : Hearth → Hearth) : (modHearth s h f).expect = s.expect := rfl
@[simp] theorem modHearth_colls (s : State) (h : Nat) (f : Hearth → Hearth) : (modHearth s h f).colls = s.colls := rfl
@[simp] theorem modHearth_ports (s : State) (h : Nat) (f : Hearth → Hearth) : (modHearth s h f).ports = s.ports := rfl
@[simp] theorem modHearth_cxlCap (s : State) (h : Nat) (f : Hearth → Hearth) : (modHearth s h f).cxlCap = s.cxlCap := rfl
@[simp] theorem modHearth_cxlRemoved (s : State) (h : Nat) (f : Hearth → Hearth) : (modHearth s h f).cxlRemoved = s.cxlRemoved := rfl
@[simp] theorem modHearth_hostUp (s : State) (h : Nat) (f : Hearth → Hearth) : (modHearth s h f).hostUp = s.hostUp := rfl
@[simp] theorem modHearth_ring (s : State) (h : Nat) (f : Hearth → Hearth) : (modHearth s h f).ring = s.ring := rfl
@[simp] theorem modHearth_reports (s : State) (h : Nat) (f : Hearth → Hearth) : (modHearth s h f).reports = s.reports := rfl
@[simp] theorem modHearth_recovery (s : State) (h : Nat) (f : Hearth → Hearth) : (modHearth s h f).recovery = s.recovery := rfl
@[simp] theorem modHearth_boot (s : State) (h : Nat) (f : Hearth → Hearth) : (modHearth s h f).boot = s.boot := rfl
@[simp] theorem modHearth_spdm (s : State) (h : Nat) (f : Hearth → Hearth) : (modHearth s h f).spdm = s.spdm := rfl
@[simp] theorem modHearth_unreachable (s : State) (h : Nat) (f : Hearth → Hearth) : (modHearth s h f).unreachable = s.unreachable := rfl
@[simp] theorem modHearth_faults (s : State) (h : Nat) (f : Hearth → Hearth) : (modHearth s h f).faults = s.faults := rfl
@[simp] theorem modDie_agenda (s : State) (d : Nat) (f : Die → Die) : (modDie s d f).agenda = s.agenda := rfl
@[simp] theorem modDie_cur (s : State) (d : Nat) (f : Die → Die) : (modDie s d f).cur = s.cur := rfl
@[simp] theorem modDie_tick (s : State) (d : Nat) (f : Die → Die) : (modDie s d f).tick = s.tick := rfl
@[simp] theorem modDie_cores (s : State) (d : Nat) (f : Die → Die) : (modDie s d f).cores = s.cores := rfl
@[simp] theorem modDie_hearths (s : State) (d : Nat) (f : Die → Die) : (modDie s d f).hearths = s.hearths := rfl
@[simp] theorem modDie_mem (s : State) (d : Nat) (f : Die → Die) : (modDie s d f).mem = s.mem := rfl
@[simp] theorem modDie_hostMem (s : State) (d : Nat) (f : Die → Die) : (modDie s d f).hostMem = s.hostMem := rfl
@[simp] theorem modDie_eccBad (s : State) (d : Nat) (f : Die → Die) : (modDie s d f).eccBad = s.eccBad := rfl
@[simp] theorem modDie_ats (s : State) (d : Nat) (f : Die → Die) : (modDie s d f).ats = s.ats := rfl
@[simp] theorem modDie_ctxs (s : State) (d : Nat) (f : Die → Die) : (modDie s d f).ctxs = s.ctxs := rfl
@[simp] theorem modDie_ctxBlock (s : State) (d : Nat) (f : Die → Die) : (modDie s d f).ctxBlock = s.ctxBlock := rfl
@[simp] theorem modDie_queues (s : State) (d : Nat) (f : Die → Die) : (modDie s d f).queues = s.queues := rfl
@[simp] theorem modDie_launches (s : State) (d : Nat) (f : Die → Die) : (modDie s d f).launches = s.launches := rfl
@[simp] theorem modDie_tasks (s : State) (d : Nat) (f : Die → Die) : (modDie s d f).tasks = s.tasks := rfl
@[simp] theorem modDie_nextUid (s : State) (d : Nat) (f : Die → Die) : (modDie s d f).nextUid = s.nextUid := rfl
@[simp] theorem modDie_turns (s : State) (d : Nat) (f : Die → Die) : (modDie s d f).turns = s.turns := rfl
@[simp] theorem modDie_shape (s : State) (d : Nat) (f : Die → Die) : (modDie s d f).shape = s.shape := rfl
@[simp] theorem modDie_oreqs (s : State) (d : Nat) (f : Die → Die) : (modDie s d f).oreqs = s.oreqs := rfl
@[simp] theorem modDie_expect (s : State) (d : Nat) (f : Die → Die) : (modDie s d f).expect = s.expect := rfl
@[simp] theorem modDie_colls (s : State) (d : Nat) (f : Die → Die) : (modDie s d f).colls = s.colls := rfl
@[simp] theorem modDie_ports (s : State) (d : Nat) (f : Die → Die) : (modDie s d f).ports = s.ports := rfl
@[simp] theorem modDie_cxlCap (s : State) (d : Nat) (f : Die → Die) : (modDie s d f).cxlCap = s.cxlCap := rfl
@[simp] theorem modDie_cxlRemoved (s : State) (d : Nat) (f : Die → Die) : (modDie s d f).cxlRemoved = s.cxlRemoved := rfl
@[simp] theorem modDie_hostUp (s : State) (d : Nat) (f : Die → Die) : (modDie s d f).hostUp = s.hostUp := rfl
@[simp] theorem modDie_ring (s : State) (d : Nat) (f : Die → Die) : (modDie s d f).ring = s.ring := rfl
@[simp] theorem modDie_reports (s : State) (d : Nat) (f : Die → Die) : (modDie s d f).reports = s.reports := rfl
@[simp] theorem modDie_recovery (s : State) (d : Nat) (f : Die → Die) : (modDie s d f).recovery = s.recovery := rfl
@[simp] theorem modDie_boot (s : State) (d : Nat) (f : Die → Die) : (modDie s d f).boot = s.boot := rfl
@[simp] theorem modDie_spdm (s : State) (d : Nat) (f : Die → Die) : (modDie s d f).spdm = s.spdm := rfl
@[simp] theorem modDie_unreachable (s : State) (d : Nat) (f : Die → Die) : (modDie s d f).unreachable = s.unreachable := rfl
@[simp] theorem modDie_faults (s : State) (d : Nat) (f : Die → Die) : (modDie s d f).faults = s.faults := rfl
@[simp] theorem modCtx_agenda (s : State) (c : Nat) (f : Ctx → Ctx) : (modCtx s c f).agenda = s.agenda := rfl
@[simp] theorem modCtx_cur (s : State) (c : Nat) (f : Ctx → Ctx) : (modCtx s c f).cur = s.cur := rfl
@[simp] theorem modCtx_tick (s : State) (c : Nat) (f : Ctx → Ctx) : (modCtx s c f).tick = s.tick := rfl
@[simp] theorem modCtx_cores (s : State) (c : Nat) (f : Ctx → Ctx) : (modCtx s c f).cores = s.cores := rfl
@[simp] theorem modCtx_hearths (s : State) (c : Nat) (f : Ctx → Ctx) : (modCtx s c f).hearths = s.hearths := rfl
@[simp] theorem modCtx_dies (s : State) (c : Nat) (f : Ctx → Ctx) : (modCtx s c f).dies = s.dies := rfl
@[simp] theorem modCtx_mem (s : State) (c : Nat) (f : Ctx → Ctx) : (modCtx s c f).mem = s.mem := rfl
@[simp] theorem modCtx_hostMem (s : State) (c : Nat) (f : Ctx → Ctx) : (modCtx s c f).hostMem = s.hostMem := rfl
@[simp] theorem modCtx_eccBad (s : State) (c : Nat) (f : Ctx → Ctx) : (modCtx s c f).eccBad = s.eccBad := rfl
@[simp] theorem modCtx_ats (s : State) (c : Nat) (f : Ctx → Ctx) : (modCtx s c f).ats = s.ats := rfl
@[simp] theorem modCtx_ctxBlock (s : State) (c : Nat) (f : Ctx → Ctx) : (modCtx s c f).ctxBlock = s.ctxBlock := rfl
@[simp] theorem modCtx_queues (s : State) (c : Nat) (f : Ctx → Ctx) : (modCtx s c f).queues = s.queues := rfl
@[simp] theorem modCtx_launches (s : State) (c : Nat) (f : Ctx → Ctx) : (modCtx s c f).launches = s.launches := rfl
@[simp] theorem modCtx_tasks (s : State) (c : Nat) (f : Ctx → Ctx) : (modCtx s c f).tasks = s.tasks := rfl
@[simp] theorem modCtx_nextUid (s : State) (c : Nat) (f : Ctx → Ctx) : (modCtx s c f).nextUid = s.nextUid := rfl
@[simp] theorem modCtx_turns (s : State) (c : Nat) (f : Ctx → Ctx) : (modCtx s c f).turns = s.turns := rfl
@[simp] theorem modCtx_shape (s : State) (c : Nat) (f : Ctx → Ctx) : (modCtx s c f).shape = s.shape := rfl
@[simp] theorem modCtx_oreqs (s : State) (c : Nat) (f : Ctx → Ctx) : (modCtx s c f).oreqs = s.oreqs := rfl
@[simp] theorem modCtx_expect (s : State) (c : Nat) (f : Ctx → Ctx) : (modCtx s c f).expect = s.expect := rfl
@[simp] theorem modCtx_colls (s : State) (c : Nat) (f : Ctx → Ctx) : (modCtx s c f).colls = s.colls := rfl
@[simp] theorem modCtx_ports (s : State) (c : Nat) (f : Ctx → Ctx) : (modCtx s c f).ports = s.ports := rfl
@[simp] theorem modCtx_cxlCap (s : State) (c : Nat) (f : Ctx → Ctx) : (modCtx s c f).cxlCap = s.cxlCap := rfl
@[simp] theorem modCtx_cxlRemoved (s : State) (c : Nat) (f : Ctx → Ctx) : (modCtx s c f).cxlRemoved = s.cxlRemoved := rfl
@[simp] theorem modCtx_hostUp (s : State) (c : Nat) (f : Ctx → Ctx) : (modCtx s c f).hostUp = s.hostUp := rfl
@[simp] theorem modCtx_ring (s : State) (c : Nat) (f : Ctx → Ctx) : (modCtx s c f).ring = s.ring := rfl
@[simp] theorem modCtx_reports (s : State) (c : Nat) (f : Ctx → Ctx) : (modCtx s c f).reports = s.reports := rfl
@[simp] theorem modCtx_recovery (s : State) (c : Nat) (f : Ctx → Ctx) : (modCtx s c f).recovery = s.recovery := rfl
@[simp] theorem modCtx_boot (s : State) (c : Nat) (f : Ctx → Ctx) : (modCtx s c f).boot = s.boot := rfl
@[simp] theorem modCtx_spdm (s : State) (c : Nat) (f : Ctx → Ctx) : (modCtx s c f).spdm = s.spdm := rfl
@[simp] theorem modCtx_unreachable (s : State) (c : Nat) (f : Ctx → Ctx) : (modCtx s c f).unreachable = s.unreachable := rfl
@[simp] theorem modCtx_faults (s : State) (c : Nat) (f : Ctx → Ctx) : (modCtx s c f).faults = s.faults := rfl
@[simp] theorem modQueue_agenda (s : State) (q : Nat) (f : Queue → Queue) : (modQueue s q f).agenda = s.agenda := rfl
@[simp] theorem modQueue_cur (s : State) (q : Nat) (f : Queue → Queue) : (modQueue s q f).cur = s.cur := rfl
@[simp] theorem modQueue_tick (s : State) (q : Nat) (f : Queue → Queue) : (modQueue s q f).tick = s.tick := rfl
@[simp] theorem modQueue_cores (s : State) (q : Nat) (f : Queue → Queue) : (modQueue s q f).cores = s.cores := rfl
@[simp] theorem modQueue_hearths (s : State) (q : Nat) (f : Queue → Queue) : (modQueue s q f).hearths = s.hearths := rfl
@[simp] theorem modQueue_dies (s : State) (q : Nat) (f : Queue → Queue) : (modQueue s q f).dies = s.dies := rfl
@[simp] theorem modQueue_mem (s : State) (q : Nat) (f : Queue → Queue) : (modQueue s q f).mem = s.mem := rfl
@[simp] theorem modQueue_hostMem (s : State) (q : Nat) (f : Queue → Queue) : (modQueue s q f).hostMem = s.hostMem := rfl
@[simp] theorem modQueue_eccBad (s : State) (q : Nat) (f : Queue → Queue) : (modQueue s q f).eccBad = s.eccBad := rfl
@[simp] theorem modQueue_ats (s : State) (q : Nat) (f : Queue → Queue) : (modQueue s q f).ats = s.ats := rfl
@[simp] theorem modQueue_ctxs (s : State) (q : Nat) (f : Queue → Queue) : (modQueue s q f).ctxs = s.ctxs := rfl
@[simp] theorem modQueue_ctxBlock (s : State) (q : Nat) (f : Queue → Queue) : (modQueue s q f).ctxBlock = s.ctxBlock := rfl
@[simp] theorem modQueue_launches (s : State) (q : Nat) (f : Queue → Queue) : (modQueue s q f).launches = s.launches := rfl
@[simp] theorem modQueue_tasks (s : State) (q : Nat) (f : Queue → Queue) : (modQueue s q f).tasks = s.tasks := rfl
@[simp] theorem modQueue_nextUid (s : State) (q : Nat) (f : Queue → Queue) : (modQueue s q f).nextUid = s.nextUid := rfl
@[simp] theorem modQueue_turns (s : State) (q : Nat) (f : Queue → Queue) : (modQueue s q f).turns = s.turns := rfl
@[simp] theorem modQueue_shape (s : State) (q : Nat) (f : Queue → Queue) : (modQueue s q f).shape = s.shape := rfl
@[simp] theorem modQueue_oreqs (s : State) (q : Nat) (f : Queue → Queue) : (modQueue s q f).oreqs = s.oreqs := rfl
@[simp] theorem modQueue_expect (s : State) (q : Nat) (f : Queue → Queue) : (modQueue s q f).expect = s.expect := rfl
@[simp] theorem modQueue_colls (s : State) (q : Nat) (f : Queue → Queue) : (modQueue s q f).colls = s.colls := rfl
@[simp] theorem modQueue_ports (s : State) (q : Nat) (f : Queue → Queue) : (modQueue s q f).ports = s.ports := rfl
@[simp] theorem modQueue_cxlCap (s : State) (q : Nat) (f : Queue → Queue) : (modQueue s q f).cxlCap = s.cxlCap := rfl
@[simp] theorem modQueue_cxlRemoved (s : State) (q : Nat) (f : Queue → Queue) : (modQueue s q f).cxlRemoved = s.cxlRemoved := rfl
@[simp] theorem modQueue_hostUp (s : State) (q : Nat) (f : Queue → Queue) : (modQueue s q f).hostUp = s.hostUp := rfl
@[simp] theorem modQueue_ring (s : State) (q : Nat) (f : Queue → Queue) : (modQueue s q f).ring = s.ring := rfl
@[simp] theorem modQueue_reports (s : State) (q : Nat) (f : Queue → Queue) : (modQueue s q f).reports = s.reports := rfl
@[simp] theorem modQueue_recovery (s : State) (q : Nat) (f : Queue → Queue) : (modQueue s q f).recovery = s.recovery := rfl
@[simp] theorem modQueue_boot (s : State) (q : Nat) (f : Queue → Queue) : (modQueue s q f).boot = s.boot := rfl
@[simp] theorem modQueue_spdm (s : State) (q : Nat) (f : Queue → Queue) : (modQueue s q f).spdm = s.spdm := rfl
@[simp] theorem modQueue_unreachable (s : State) (q : Nat) (f : Queue → Queue) : (modQueue s q f).unreachable = s.unreachable := rfl
@[simp] theorem modQueue_faults (s : State) (q : Nat) (f : Queue → Queue) : (modQueue s q f).faults = s.faults := rfl
@[simp] theorem modPort_agenda (s : State) (p : Nat) (f : Port → Port) : (modPort s p f).agenda = s.agenda := rfl
@[simp] theorem modPort_cur (s : State) (p : Nat) (f : Port → Port) : (modPort s p f).cur = s.cur := rfl
@[simp] theorem modPort_tick (s : State) (p : Nat) (f : Port → Port) : (modPort s p f).tick = s.tick := rfl
@[simp] theorem modPort_cores (s : State) (p : Nat) (f : Port → Port) : (modPort s p f).cores = s.cores := rfl
@[simp] theorem modPort_hearths (s : State) (p : Nat) (f : Port → Port) : (modPort s p f).hearths = s.hearths := rfl
@[simp] theorem modPort_dies (s : State) (p : Nat) (f : Port → Port) : (modPort s p f).dies = s.dies := rfl
@[simp] theorem modPort_mem (s : State) (p : Nat) (f : Port → Port) : (modPort s p f).mem = s.mem := rfl
@[simp] theorem modPort_hostMem (s : State) (p : Nat) (f : Port → Port) : (modPort s p f).hostMem = s.hostMem := rfl
@[simp] theorem modPort_eccBad (s : State) (p : Nat) (f : Port → Port) : (modPort s p f).eccBad = s.eccBad := rfl
@[simp] theorem modPort_ats (s : State) (p : Nat) (f : Port → Port) : (modPort s p f).ats = s.ats := rfl
@[simp] theorem modPort_ctxs (s : State) (p : Nat) (f : Port → Port) : (modPort s p f).ctxs = s.ctxs := rfl
@[simp] theorem modPort_ctxBlock (s : State) (p : Nat) (f : Port → Port) : (modPort s p f).ctxBlock = s.ctxBlock := rfl
@[simp] theorem modPort_queues (s : State) (p : Nat) (f : Port → Port) : (modPort s p f).queues = s.queues := rfl
@[simp] theorem modPort_launches (s : State) (p : Nat) (f : Port → Port) : (modPort s p f).launches = s.launches := rfl
@[simp] theorem modPort_tasks (s : State) (p : Nat) (f : Port → Port) : (modPort s p f).tasks = s.tasks := rfl
@[simp] theorem modPort_nextUid (s : State) (p : Nat) (f : Port → Port) : (modPort s p f).nextUid = s.nextUid := rfl
@[simp] theorem modPort_turns (s : State) (p : Nat) (f : Port → Port) : (modPort s p f).turns = s.turns := rfl
@[simp] theorem modPort_shape (s : State) (p : Nat) (f : Port → Port) : (modPort s p f).shape = s.shape := rfl
@[simp] theorem modPort_oreqs (s : State) (p : Nat) (f : Port → Port) : (modPort s p f).oreqs = s.oreqs := rfl
@[simp] theorem modPort_expect (s : State) (p : Nat) (f : Port → Port) : (modPort s p f).expect = s.expect := rfl
@[simp] theorem modPort_colls (s : State) (p : Nat) (f : Port → Port) : (modPort s p f).colls = s.colls := rfl
@[simp] theorem modPort_cxlCap (s : State) (p : Nat) (f : Port → Port) : (modPort s p f).cxlCap = s.cxlCap := rfl
@[simp] theorem modPort_cxlRemoved (s : State) (p : Nat) (f : Port → Port) : (modPort s p f).cxlRemoved = s.cxlRemoved := rfl
@[simp] theorem modPort_hostUp (s : State) (p : Nat) (f : Port → Port) : (modPort s p f).hostUp = s.hostUp := rfl
@[simp] theorem modPort_ring (s : State) (p : Nat) (f : Port → Port) : (modPort s p f).ring = s.ring := rfl
@[simp] theorem modPort_reports (s : State) (p : Nat) (f : Port → Port) : (modPort s p f).reports = s.reports := rfl
@[simp] theorem modPort_recovery (s : State) (p : Nat) (f : Port → Port) : (modPort s p f).recovery = s.recovery := rfl
@[simp] theorem modPort_boot (s : State) (p : Nat) (f : Port → Port) : (modPort s p f).boot = s.boot := rfl
@[simp] theorem modPort_spdm (s : State) (p : Nat) (f : Port → Port) : (modPort s p f).spdm = s.spdm := rfl
@[simp] theorem modPort_unreachable (s : State) (p : Nat) (f : Port → Port) : (modPort s p f).unreachable = s.unreachable := rfl
@[simp] theorem modPort_faults (s : State) (p : Nat) (f : Port → Port) : (modPort s p f).faults = s.faults := rfl
@[simp] theorem emit_agenda (s : State) (b : Nat) (l : List Land) : (emit s b l).agenda = s.agenda := rfl
@[simp] theorem emit_cur (s : State) (b : Nat) (l : List Land) : (emit s b l).cur = s.cur := rfl
@[simp] theorem emit_tick (s : State) (b : Nat) (l : List Land) : (emit s b l).tick = s.tick := rfl
@[simp] theorem emit_hearths (s : State) (b : Nat) (l : List Land) : (emit s b l).hearths = s.hearths := rfl
@[simp] theorem emit_dies (s : State) (b : Nat) (l : List Land) : (emit s b l).dies = s.dies := rfl
@[simp] theorem emit_mem (s : State) (b : Nat) (l : List Land) : (emit s b l).mem = s.mem := rfl
@[simp] theorem emit_hostMem (s : State) (b : Nat) (l : List Land) : (emit s b l).hostMem = s.hostMem := rfl
@[simp] theorem emit_eccBad (s : State) (b : Nat) (l : List Land) : (emit s b l).eccBad = s.eccBad := rfl
@[simp] theorem emit_ats (s : State) (b : Nat) (l : List Land) : (emit s b l).ats = s.ats := rfl
@[simp] theorem emit_ctxs (s : State) (b : Nat) (l : List Land) : (emit s b l).ctxs = s.ctxs := rfl
@[simp] theorem emit_ctxBlock (s : State) (b : Nat) (l : List Land) : (emit s b l).ctxBlock = s.ctxBlock := rfl
@[simp] theorem emit_queues (s : State) (b : Nat) (l : List Land) : (emit s b l).queues = s.queues := rfl
@[simp] theorem emit_launches (s : State) (b : Nat) (l : List Land) : (emit s b l).launches = s.launches := rfl
@[simp] theorem emit_tasks (s : State) (b : Nat) (l : List Land) : (emit s b l).tasks = s.tasks := rfl
@[simp] theorem emit_nextUid (s : State) (b : Nat) (l : List Land) : (emit s b l).nextUid = s.nextUid := rfl
@[simp] theorem emit_turns (s : State) (b : Nat) (l : List Land) : (emit s b l).turns = s.turns := rfl
@[simp] theorem emit_shape (s : State) (b : Nat) (l : List Land) : (emit s b l).shape = s.shape := rfl
@[simp] theorem emit_oreqs (s : State) (b : Nat) (l : List Land) : (emit s b l).oreqs = s.oreqs := rfl
@[simp] theorem emit_expect (s : State) (b : Nat) (l : List Land) : (emit s b l).expect = s.expect := rfl
@[simp] theorem emit_colls (s : State) (b : Nat) (l : List Land) : (emit s b l).colls = s.colls := rfl
@[simp] theorem emit_ports (s : State) (b : Nat) (l : List Land) : (emit s b l).ports = s.ports := rfl
@[simp] theorem emit_cxlCap (s : State) (b : Nat) (l : List Land) : (emit s b l).cxlCap = s.cxlCap := rfl
@[simp] theorem emit_cxlRemoved (s : State) (b : Nat) (l : List Land) : (emit s b l).cxlRemoved = s.cxlRemoved := rfl
@[simp] theorem emit_hostUp (s : State) (b : Nat) (l : List Land) : (emit s b l).hostUp = s.hostUp := rfl
@[simp] theorem emit_ring (s : State) (b : Nat) (l : List Land) : (emit s b l).ring = s.ring := rfl
@[simp] theorem emit_reports (s : State) (b : Nat) (l : List Land) : (emit s b l).reports = s.reports := rfl
@[simp] theorem emit_recovery (s : State) (b : Nat) (l : List Land) : (emit s b l).recovery = s.recovery := rfl
@[simp] theorem emit_boot (s : State) (b : Nat) (l : List Land) : (emit s b l).boot = s.boot := rfl
@[simp] theorem emit_spdm (s : State) (b : Nat) (l : List Land) : (emit s b l).spdm = s.spdm := rfl
@[simp] theorem emit_unreachable (s : State) (b : Nat) (l : List Land) : (emit s b l).unreachable = s.unreachable := rfl
@[simp] theorem emit_faults (s : State) (b : Nat) (l : List Land) : (emit s b l).faults = s.faults := rfl
@[simp] theorem holdFor_agenda (s : State) (h : Hold) : (holdFor s h).agenda = s.agenda := rfl
@[simp] theorem holdFor_cur (s : State) (h : Hold) : (holdFor s h).cur = s.cur := rfl
@[simp] theorem holdFor_tick (s : State) (h : Hold) : (holdFor s h).tick = s.tick := rfl
@[simp] theorem holdFor_hearths (s : State) (h : Hold) : (holdFor s h).hearths = s.hearths := rfl
@[simp] theorem holdFor_dies (s : State) (h : Hold) : (holdFor s h).dies = s.dies := rfl
@[simp] theorem holdFor_mem (s : State) (h : Hold) : (holdFor s h).mem = s.mem := rfl
@[simp] theorem holdFor_hostMem (s : State) (h : Hold) : (holdFor s h).hostMem = s.hostMem := rfl
@[simp] theorem holdFor_eccBad (s : State) (h : Hold) : (holdFor s h).eccBad = s.eccBad := rfl
@[simp] theorem holdFor_ats (s : State) (h : Hold) : (holdFor s h).ats = s.ats := rfl
@[simp] theorem holdFor_ctxs (s : State) (h : Hold) : (holdFor s h).ctxs = s.ctxs := rfl
@[simp] theorem holdFor_ctxBlock (s : State) (h : Hold) : (holdFor s h).ctxBlock = s.ctxBlock := rfl
@[simp] theorem holdFor_queues (s : State) (h : Hold) : (holdFor s h).queues = s.queues := rfl
@[simp] theorem holdFor_launches (s : State) (h : Hold) : (holdFor s h).launches = s.launches := rfl
@[simp] theorem holdFor_tasks (s : State) (h : Hold) : (holdFor s h).tasks = s.tasks := rfl
@[simp] theorem holdFor_nextUid (s : State) (h : Hold) : (holdFor s h).nextUid = s.nextUid := rfl
@[simp] theorem holdFor_turns (s : State) (h : Hold) : (holdFor s h).turns = s.turns := rfl
@[simp] theorem holdFor_shape (s : State) (h : Hold) : (holdFor s h).shape = s.shape := rfl
@[simp] theorem holdFor_oreqs (s : State) (h : Hold) : (holdFor s h).oreqs = s.oreqs := rfl
@[simp] theorem holdFor_expect (s : State) (h : Hold) : (holdFor s h).expect = s.expect := rfl
@[simp] theorem holdFor_colls (s : State) (h : Hold) : (holdFor s h).colls = s.colls := rfl
@[simp] theorem holdFor_ports (s : State) (h : Hold) : (holdFor s h).ports = s.ports := rfl
@[simp] theorem holdFor_cxlCap (s : State) (h : Hold) : (holdFor s h).cxlCap = s.cxlCap := rfl
@[simp] theorem holdFor_cxlRemoved (s : State) (h : Hold) : (holdFor s h).cxlRemoved = s.cxlRemoved := rfl
@[simp] theorem holdFor_hostUp (s : State) (h : Hold) : (holdFor s h).hostUp = s.hostUp := rfl
@[simp] theorem holdFor_ring (s : State) (h : Hold) : (holdFor s h).ring = s.ring := rfl
@[simp] theorem holdFor_reports (s : State) (h : Hold) : (holdFor s h).reports = s.reports := rfl
@[simp] theorem holdFor_recovery (s : State) (h : Hold) : (holdFor s h).recovery = s.recovery := rfl
@[simp] theorem holdFor_boot (s : State) (h : Hold) : (holdFor s h).boot = s.boot := rfl
@[simp] theorem holdFor_spdm (s : State) (h : Hold) : (holdFor s h).spdm = s.spdm := rfl
@[simp] theorem holdFor_unreachable (s : State) (h : Hold) : (holdFor s h).unreachable = s.unreachable := rfl
@[simp] theorem holdFor_faults (s : State) (h : Hold) : (holdFor s h).faults = s.faults := rfl
@[simp] theorem endCommand_agenda (s : State) (r : BitVec 2) : (endCommand s r).agenda = s.agenda := rfl
@[simp] theorem endCommand_cur (s : State) (r : BitVec 2) : (endCommand s r).cur = s.cur := rfl
@[simp] theorem endCommand_tick (s : State) (r : BitVec 2) : (endCommand s r).tick = s.tick := rfl
@[simp] theorem endCommand_cores (s : State) (r : BitVec 2) : (endCommand s r).cores = s.cores := rfl
@[simp] theorem endCommand_hearths (s : State) (r : BitVec 2) : (endCommand s r).hearths = s.hearths := rfl
@[simp] theorem endCommand_dies (s : State) (r : BitVec 2) : (endCommand s r).dies = s.dies := rfl
@[simp] theorem endCommand_mem (s : State) (r : BitVec 2) : (endCommand s r).mem = s.mem := rfl
@[simp] theorem endCommand_hostMem (s : State) (r : BitVec 2) : (endCommand s r).hostMem = s.hostMem := rfl
@[simp] theorem endCommand_eccBad (s : State) (r : BitVec 2) : (endCommand s r).eccBad = s.eccBad := rfl
@[simp] theorem endCommand_ats (s : State) (r : BitVec 2) : (endCommand s r).ats = s.ats := rfl
@[simp] theorem endCommand_ctxs (s : State) (r : BitVec 2) : (endCommand s r).ctxs = s.ctxs := rfl
@[simp] theorem endCommand_queues (s : State) (r : BitVec 2) : (endCommand s r).queues = s.queues := rfl
@[simp] theorem endCommand_launches (s : State) (r : BitVec 2) : (endCommand s r).launches = s.launches := rfl
@[simp] theorem endCommand_tasks (s : State) (r : BitVec 2) : (endCommand s r).tasks = s.tasks := rfl
@[simp] theorem endCommand_nextUid (s : State) (r : BitVec 2) : (endCommand s r).nextUid = s.nextUid := rfl
@[simp] theorem endCommand_turns (s : State) (r : BitVec 2) : (endCommand s r).turns = s.turns := rfl
@[simp] theorem endCommand_shape (s : State) (r : BitVec 2) : (endCommand s r).shape = s.shape := rfl
@[simp] theorem endCommand_oreqs (s : State) (r : BitVec 2) : (endCommand s r).oreqs = s.oreqs := rfl
@[simp] theorem endCommand_expect (s : State) (r : BitVec 2) : (endCommand s r).expect = s.expect := rfl
@[simp] theorem endCommand_colls (s : State) (r : BitVec 2) : (endCommand s r).colls = s.colls := rfl
@[simp] theorem endCommand_ports (s : State) (r : BitVec 2) : (endCommand s r).ports = s.ports := rfl
@[simp] theorem endCommand_cxlCap (s : State) (r : BitVec 2) : (endCommand s r).cxlCap = s.cxlCap := rfl
@[simp] theorem endCommand_cxlRemoved (s : State) (r : BitVec 2) : (endCommand s r).cxlRemoved = s.cxlRemoved := rfl
@[simp] theorem endCommand_hostUp (s : State) (r : BitVec 2) : (endCommand s r).hostUp = s.hostUp := rfl
@[simp] theorem endCommand_ring (s : State) (r : BitVec 2) : (endCommand s r).ring = s.ring := rfl
@[simp] theorem endCommand_reports (s : State) (r : BitVec 2) : (endCommand s r).reports = s.reports := rfl
@[simp] theorem endCommand_recovery (s : State) (r : BitVec 2) : (endCommand s r).recovery = s.recovery := rfl
@[simp] theorem endCommand_boot (s : State) (r : BitVec 2) : (endCommand s r).boot = s.boot := rfl
@[simp] theorem endCommand_spdm (s : State) (r : BitVec 2) : (endCommand s r).spdm = s.spdm := rfl
@[simp] theorem endCommand_unreachable (s : State) (r : BitVec 2) : (endCommand s r).unreachable = s.unreachable := rfl
@[simp] theorem endCommand_faults (s : State) (r : BitVec 2) : (endCommand s r).faults = s.faults := rfl
@[simp] theorem modTask_agenda (s : State) (u : Nat) (f : Task → Task) : (modTask s u f).agenda = s.agenda := by unfold modTask; split <;> rfl
@[simp] theorem modTask_cur (s : State) (u : Nat) (f : Task → Task) : (modTask s u f).cur = s.cur := by unfold modTask; split <;> rfl
@[simp] theorem modTask_tick (s : State) (u : Nat) (f : Task → Task) : (modTask s u f).tick = s.tick := by unfold modTask; split <;> rfl
@[simp] theorem modTask_cores (s : State) (u : Nat) (f : Task → Task) : (modTask s u f).cores = s.cores := by unfold modTask; split <;> rfl
@[simp] theorem modTask_hearths (s : State) (u : Nat) (f : Task → Task) : (modTask s u f).hearths = s.hearths := by unfold modTask; split <;> rfl
@[simp] theorem modTask_dies (s : State) (u : Nat) (f : Task → Task) : (modTask s u f).dies = s.dies := by unfold modTask; split <;> rfl
@[simp] theorem modTask_mem (s : State) (u : Nat) (f : Task → Task) : (modTask s u f).mem = s.mem := by unfold modTask; split <;> rfl
@[simp] theorem modTask_hostMem (s : State) (u : Nat) (f : Task → Task) : (modTask s u f).hostMem = s.hostMem := by unfold modTask; split <;> rfl
@[simp] theorem modTask_eccBad (s : State) (u : Nat) (f : Task → Task) : (modTask s u f).eccBad = s.eccBad := by unfold modTask; split <;> rfl
@[simp] theorem modTask_ats (s : State) (u : Nat) (f : Task → Task) : (modTask s u f).ats = s.ats := by unfold modTask; split <;> rfl
@[simp] theorem modTask_ctxs (s : State) (u : Nat) (f : Task → Task) : (modTask s u f).ctxs = s.ctxs := by unfold modTask; split <;> rfl
@[simp] theorem modTask_ctxBlock (s : State) (u : Nat) (f : Task → Task) : (modTask s u f).ctxBlock = s.ctxBlock := by unfold modTask; split <;> rfl
@[simp] theorem modTask_queues (s : State) (u : Nat) (f : Task → Task) : (modTask s u f).queues = s.queues := by unfold modTask; split <;> rfl
@[simp] theorem modTask_launches (s : State) (u : Nat) (f : Task → Task) : (modTask s u f).launches = s.launches := by unfold modTask; split <;> rfl
@[simp] theorem modTask_nextUid (s : State) (u : Nat) (f : Task → Task) : (modTask s u f).nextUid = s.nextUid := by unfold modTask; split <;> rfl
@[simp] theorem modTask_turns (s : State) (u : Nat) (f : Task → Task) : (modTask s u f).turns = s.turns := by unfold modTask; split <;> rfl
@[simp] theorem modTask_shape (s : State) (u : Nat) (f : Task → Task) : (modTask s u f).shape = s.shape := by unfold modTask; split <;> rfl
@[simp] theorem modTask_oreqs (s : State) (u : Nat) (f : Task → Task) : (modTask s u f).oreqs = s.oreqs := by unfold modTask; split <;> rfl
@[simp] theorem modTask_expect (s : State) (u : Nat) (f : Task → Task) : (modTask s u f).expect = s.expect := by unfold modTask; split <;> rfl
@[simp] theorem modTask_colls (s : State) (u : Nat) (f : Task → Task) : (modTask s u f).colls = s.colls := by unfold modTask; split <;> rfl
@[simp] theorem modTask_ports (s : State) (u : Nat) (f : Task → Task) : (modTask s u f).ports = s.ports := by unfold modTask; split <;> rfl
@[simp] theorem modTask_cxlCap (s : State) (u : Nat) (f : Task → Task) : (modTask s u f).cxlCap = s.cxlCap := by unfold modTask; split <;> rfl
@[simp] theorem modTask_cxlRemoved (s : State) (u : Nat) (f : Task → Task) : (modTask s u f).cxlRemoved = s.cxlRemoved := by unfold modTask; split <;> rfl
@[simp] theorem modTask_hostUp (s : State) (u : Nat) (f : Task → Task) : (modTask s u f).hostUp = s.hostUp := by unfold modTask; split <;> rfl
@[simp] theorem modTask_ring (s : State) (u : Nat) (f : Task → Task) : (modTask s u f).ring = s.ring := by unfold modTask; split <;> rfl
@[simp] theorem modTask_reports (s : State) (u : Nat) (f : Task → Task) : (modTask s u f).reports = s.reports := by unfold modTask; split <;> rfl
@[simp] theorem modTask_recovery (s : State) (u : Nat) (f : Task → Task) : (modTask s u f).recovery = s.recovery := by unfold modTask; split <;> rfl
@[simp] theorem modTask_boot (s : State) (u : Nat) (f : Task → Task) : (modTask s u f).boot = s.boot := by unfold modTask; split <;> rfl
@[simp] theorem modTask_spdm (s : State) (u : Nat) (f : Task → Task) : (modTask s u f).spdm = s.spdm := by unfold modTask; split <;> rfl
@[simp] theorem modTask_unreachable (s : State) (u : Nat) (f : Task → Task) : (modTask s u f).unreachable = s.unreachable := by unfold modTask; split <;> rfl
@[simp] theorem modTask_faults (s : State) (u : Nat) (f : Task → Task) : (modTask s u f).faults = s.faults := by unfold modTask; split <;> rfl
@[simp] theorem modLaunch_agenda (s : State) (u : Nat) (f : Launch → Launch) : (modLaunch s u f).agenda = s.agenda := by unfold modLaunch; split <;> rfl
@[simp] theorem modLaunch_cur (s : State) (u : Nat) (f : Launch → Launch) : (modLaunch s u f).cur = s.cur := by unfold modLaunch; split <;> rfl
@[simp] theorem modLaunch_tick (s : State) (u : Nat) (f : Launch → Launch) : (modLaunch s u f).tick = s.tick := by unfold modLaunch; split <;> rfl
@[simp] theorem modLaunch_cores (s : State) (u : Nat) (f : Launch → Launch) : (modLaunch s u f).cores = s.cores := by unfold modLaunch; split <;> rfl
@[simp] theorem modLaunch_hearths (s : State) (u : Nat) (f : Launch → Launch) : (modLaunch s u f).hearths = s.hearths := by unfold modLaunch; split <;> rfl
@[simp] theorem modLaunch_dies (s : State) (u : Nat) (f : Launch → Launch) : (modLaunch s u f).dies = s.dies := by unfold modLaunch; split <;> rfl
@[simp] theorem modLaunch_mem (s : State) (u : Nat) (f : Launch → Launch) : (modLaunch s u f).mem = s.mem := by unfold modLaunch; split <;> rfl
@[simp] theorem modLaunch_hostMem (s : State) (u : Nat) (f : Launch → Launch) : (modLaunch s u f).hostMem = s.hostMem := by unfold modLaunch; split <;> rfl
@[simp] theorem modLaunch_eccBad (s : State) (u : Nat) (f : Launch → Launch) : (modLaunch s u f).eccBad = s.eccBad := by unfold modLaunch; split <;> rfl
@[simp] theorem modLaunch_ats (s : State) (u : Nat) (f : Launch → Launch) : (modLaunch s u f).ats = s.ats := by unfold modLaunch; split <;> rfl
@[simp] theorem modLaunch_ctxs (s : State) (u : Nat) (f : Launch → Launch) : (modLaunch s u f).ctxs = s.ctxs := by unfold modLaunch; split <;> rfl
@[simp] theorem modLaunch_ctxBlock (s : State) (u : Nat) (f : Launch → Launch) : (modLaunch s u f).ctxBlock = s.ctxBlock := by unfold modLaunch; split <;> rfl
@[simp] theorem modLaunch_queues (s : State) (u : Nat) (f : Launch → Launch) : (modLaunch s u f).queues = s.queues := by unfold modLaunch; split <;> rfl
@[simp] theorem modLaunch_tasks (s : State) (u : Nat) (f : Launch → Launch) : (modLaunch s u f).tasks = s.tasks := by unfold modLaunch; split <;> rfl
@[simp] theorem modLaunch_nextUid (s : State) (u : Nat) (f : Launch → Launch) : (modLaunch s u f).nextUid = s.nextUid := by unfold modLaunch; split <;> rfl
@[simp] theorem modLaunch_turns (s : State) (u : Nat) (f : Launch → Launch) : (modLaunch s u f).turns = s.turns := by unfold modLaunch; split <;> rfl
@[simp] theorem modLaunch_shape (s : State) (u : Nat) (f : Launch → Launch) : (modLaunch s u f).shape = s.shape := by unfold modLaunch; split <;> rfl
@[simp] theorem modLaunch_oreqs (s : State) (u : Nat) (f : Launch → Launch) : (modLaunch s u f).oreqs = s.oreqs := by unfold modLaunch; split <;> rfl
@[simp] theorem modLaunch_expect (s : State) (u : Nat) (f : Launch → Launch) : (modLaunch s u f).expect = s.expect := by unfold modLaunch; split <;> rfl
@[simp] theorem modLaunch_colls (s : State) (u : Nat) (f : Launch → Launch) : (modLaunch s u f).colls = s.colls := by unfold modLaunch; split <;> rfl
@[simp] theorem modLaunch_ports (s : State) (u : Nat) (f : Launch → Launch) : (modLaunch s u f).ports = s.ports := by unfold modLaunch; split <;> rfl
@[simp] theorem modLaunch_cxlCap (s : State) (u : Nat) (f : Launch → Launch) : (modLaunch s u f).cxlCap = s.cxlCap := by unfold modLaunch; split <;> rfl
@[simp] theorem modLaunch_cxlRemoved (s : State) (u : Nat) (f : Launch → Launch) : (modLaunch s u f).cxlRemoved = s.cxlRemoved := by unfold modLaunch; split <;> rfl
@[simp] theorem modLaunch_hostUp (s : State) (u : Nat) (f : Launch → Launch) : (modLaunch s u f).hostUp = s.hostUp := by unfold modLaunch; split <;> rfl
@[simp] theorem modLaunch_ring (s : State) (u : Nat) (f : Launch → Launch) : (modLaunch s u f).ring = s.ring := by unfold modLaunch; split <;> rfl
@[simp] theorem modLaunch_reports (s : State) (u : Nat) (f : Launch → Launch) : (modLaunch s u f).reports = s.reports := by unfold modLaunch; split <;> rfl
@[simp] theorem modLaunch_recovery (s : State) (u : Nat) (f : Launch → Launch) : (modLaunch s u f).recovery = s.recovery := by unfold modLaunch; split <;> rfl
@[simp] theorem modLaunch_boot (s : State) (u : Nat) (f : Launch → Launch) : (modLaunch s u f).boot = s.boot := by unfold modLaunch; split <;> rfl
@[simp] theorem modLaunch_spdm (s : State) (u : Nat) (f : Launch → Launch) : (modLaunch s u f).spdm = s.spdm := by unfold modLaunch; split <;> rfl
@[simp] theorem modLaunch_unreachable (s : State) (u : Nat) (f : Launch → Launch) : (modLaunch s u f).unreachable = s.unreachable := by unfold modLaunch; split <;> rfl
@[simp] theorem modLaunch_faults (s : State) (u : Nat) (f : Launch → Launch) : (modLaunch s u f).faults = s.faults := by unfold modLaunch; split <;> rfl

/-! ## Parts that an update does not reach -/

@[simp] theorem getHearth_setCore (s : State) (c : Nat) (x : Core) (i : Nat) : getHearth (setCore s c x) i = getHearth s i := rfl
@[simp] theorem getDie_setCore (s : State) (c : Nat) (x : Core) (i : Nat) : getDie (setCore s c x) i = getDie s i := rfl
@[simp] theorem getCtx_setCore (s : State) (c : Nat) (x : Core) (i : Nat) : getCtx (setCore s c x) i = getCtx s i := rfl
@[simp] theorem getQueue_setCore (s : State) (c : Nat) (x : Core) (i : Nat) : getQueue (setCore s c x) i = getQueue s i := rfl
@[simp] theorem getPort_setCore (s : State) (c : Nat) (x : Core) (i : Nat) : getPort (setCore s c x) i = getPort s i := rfl
@[simp] theorem getHearth_modCore (s : State) (c : Nat) (f : Core → Core) (i : Nat) : getHearth (modCore s c f) i = getHearth s i := rfl
@[simp] theorem getDie_modCore (s : State) (c : Nat) (f : Core → Core) (i : Nat) : getDie (modCore s c f) i = getDie s i := rfl
@[simp] theorem getCtx_modCore (s : State) (c : Nat) (f : Core → Core) (i : Nat) : getCtx (modCore s c f) i = getCtx s i := rfl
@[simp] theorem getQueue_modCore (s : State) (c : Nat) (f : Core → Core) (i : Nat) : getQueue (modCore s c f) i = getQueue s i := rfl
@[simp] theorem getPort_modCore (s : State) (c : Nat) (f : Core → Core) (i : Nat) : getPort (modCore s c f) i = getPort s i := rfl
@[simp] theorem getHearth_modMe (s : State) (f : Core → Core) (i : Nat) : getHearth (modMe s f) i = getHearth s i := rfl
@[simp] theorem getDie_modMe (s : State) (f : Core → Core) (i : Nat) : getDie (modMe s f) i = getDie s i := rfl
@[simp] theorem getCtx_modMe (s : State) (f : Core → Core) (i : Nat) : getCtx (modMe s f) i = getCtx s i := rfl
@[simp] theorem getQueue_modMe (s : State) (f : Core → Core) (i : Nat) : getQueue (modMe s f) i = getQueue s i := rfl
@[simp] theorem getPort_modMe (s : State) (f : Core → Core) (i : Nat) : getPort (modMe s f) i = getPort s i := rfl
@[simp] theorem getCore_modHearth (s : State) (h : Nat) (f : Hearth → Hearth) (i : Nat) : getCore (modHearth s h f) i = getCore s i := rfl
@[simp] theorem getDie_modHearth (s : State) (h : Nat) (f : Hearth → Hearth) (i : Nat) : getDie (modHearth s h f) i = getDie s i := rfl
@[simp] theorem getCtx_modHearth (s : State) (h : Nat) (f : Hearth → Hearth) (i : Nat) : getCtx (modHearth s h f) i = getCtx s i := rfl
@[simp] theorem getQueue_modHearth (s : State) (h : Nat) (f : Hearth → Hearth) (i : Nat) : getQueue (modHearth s h f) i = getQueue s i := rfl
@[simp] theorem getPort_modHearth (s : State) (h : Nat) (f : Hearth → Hearth) (i : Nat) : getPort (modHearth s h f) i = getPort s i := rfl
@[simp] theorem getCore_modDie (s : State) (d : Nat) (f : Die → Die) (i : Nat) : getCore (modDie s d f) i = getCore s i := rfl
@[simp] theorem getHearth_modDie (s : State) (d : Nat) (f : Die → Die) (i : Nat) : getHearth (modDie s d f) i = getHearth s i := rfl
@[simp] theorem getCtx_modDie (s : State) (d : Nat) (f : Die → Die) (i : Nat) : getCtx (modDie s d f) i = getCtx s i := rfl
@[simp] theorem getQueue_modDie (s : State) (d : Nat) (f : Die → Die) (i : Nat) : getQueue (modDie s d f) i = getQueue s i := rfl
@[simp] theorem getPort_modDie (s : State) (d : Nat) (f : Die → Die) (i : Nat) : getPort (modDie s d f) i = getPort s i := rfl
@[simp] theorem getCore_modCtx (s : State) (c : Nat) (f : Ctx → Ctx) (i : Nat) : getCore (modCtx s c f) i = getCore s i := rfl
@[simp] theorem getHearth_modCtx (s : State) (c : Nat) (f : Ctx → Ctx) (i : Nat) : getHearth (modCtx s c f) i = getHearth s i := rfl
@[simp] theorem getDie_modCtx (s : State) (c : Nat) (f : Ctx → Ctx) (i : Nat) : getDie (modCtx s c f) i = getDie s i := rfl
@[simp] theorem getQueue_modCtx (s : State) (c : Nat) (f : Ctx → Ctx) (i : Nat) : getQueue (modCtx s c f) i = getQueue s i := rfl
@[simp] theorem getPort_modCtx (s : State) (c : Nat) (f : Ctx → Ctx) (i : Nat) : getPort (modCtx s c f) i = getPort s i := rfl
@[simp] theorem getCore_modQueue (s : State) (q : Nat) (f : Queue → Queue) (i : Nat) : getCore (modQueue s q f) i = getCore s i := rfl
@[simp] theorem getHearth_modQueue (s : State) (q : Nat) (f : Queue → Queue) (i : Nat) : getHearth (modQueue s q f) i = getHearth s i := rfl
@[simp] theorem getDie_modQueue (s : State) (q : Nat) (f : Queue → Queue) (i : Nat) : getDie (modQueue s q f) i = getDie s i := rfl
@[simp] theorem getCtx_modQueue (s : State) (q : Nat) (f : Queue → Queue) (i : Nat) : getCtx (modQueue s q f) i = getCtx s i := rfl
@[simp] theorem getPort_modQueue (s : State) (q : Nat) (f : Queue → Queue) (i : Nat) : getPort (modQueue s q f) i = getPort s i := rfl
@[simp] theorem getCore_modPort (s : State) (p : Nat) (f : Port → Port) (i : Nat) : getCore (modPort s p f) i = getCore s i := rfl
@[simp] theorem getHearth_modPort (s : State) (p : Nat) (f : Port → Port) (i : Nat) : getHearth (modPort s p f) i = getHearth s i := rfl
@[simp] theorem getDie_modPort (s : State) (p : Nat) (f : Port → Port) (i : Nat) : getDie (modPort s p f) i = getDie s i := rfl
@[simp] theorem getCtx_modPort (s : State) (p : Nat) (f : Port → Port) (i : Nat) : getCtx (modPort s p f) i = getCtx s i := rfl
@[simp] theorem getQueue_modPort (s : State) (p : Nat) (f : Port → Port) (i : Nat) : getQueue (modPort s p f) i = getQueue s i := rfl
@[simp] theorem getHearth_emit (s : State) (b : Nat) (l : List Land) (i : Nat) : getHearth (emit s b l) i = getHearth s i := rfl
@[simp] theorem getDie_emit (s : State) (b : Nat) (l : List Land) (i : Nat) : getDie (emit s b l) i = getDie s i := rfl
@[simp] theorem getCtx_emit (s : State) (b : Nat) (l : List Land) (i : Nat) : getCtx (emit s b l) i = getCtx s i := rfl
@[simp] theorem getQueue_emit (s : State) (b : Nat) (l : List Land) (i : Nat) : getQueue (emit s b l) i = getQueue s i := rfl
@[simp] theorem getPort_emit (s : State) (b : Nat) (l : List Land) (i : Nat) : getPort (emit s b l) i = getPort s i := rfl
@[simp] theorem getHearth_holdFor (s : State) (h : Hold) (i : Nat) : getHearth (holdFor s h) i = getHearth s i := rfl
@[simp] theorem getDie_holdFor (s : State) (h : Hold) (i : Nat) : getDie (holdFor s h) i = getDie s i := rfl
@[simp] theorem getCtx_holdFor (s : State) (h : Hold) (i : Nat) : getCtx (holdFor s h) i = getCtx s i := rfl
@[simp] theorem getQueue_holdFor (s : State) (h : Hold) (i : Nat) : getQueue (holdFor s h) i = getQueue s i := rfl
@[simp] theorem getPort_holdFor (s : State) (h : Hold) (i : Nat) : getPort (holdFor s h) i = getPort s i := rfl
@[simp] theorem getCore_endCommand (s : State) (r : BitVec 2) (i : Nat) : getCore (endCommand s r) i = getCore s i := rfl
@[simp] theorem getHearth_endCommand (s : State) (r : BitVec 2) (i : Nat) : getHearth (endCommand s r) i = getHearth s i := rfl
@[simp] theorem getDie_endCommand (s : State) (r : BitVec 2) (i : Nat) : getDie (endCommand s r) i = getDie s i := rfl
@[simp] theorem getCtx_endCommand (s : State) (r : BitVec 2) (i : Nat) : getCtx (endCommand s r) i = getCtx s i := rfl
@[simp] theorem getQueue_endCommand (s : State) (r : BitVec 2) (i : Nat) : getQueue (endCommand s r) i = getQueue s i := rfl
@[simp] theorem getPort_endCommand (s : State) (r : BitVec 2) (i : Nat) : getPort (endCommand s r) i = getPort s i := rfl
@[simp] theorem getCore_modTask (s : State) (u : Nat) (f : Task → Task) (i : Nat) : getCore (modTask s u f) i = getCore s i := by simp [getCore]
@[simp] theorem getHearth_modTask (s : State) (u : Nat) (f : Task → Task) (i : Nat) : getHearth (modTask s u f) i = getHearth s i := by simp [getHearth]
@[simp] theorem getDie_modTask (s : State) (u : Nat) (f : Task → Task) (i : Nat) : getDie (modTask s u f) i = getDie s i := by simp [getDie]
@[simp] theorem getCtx_modTask (s : State) (u : Nat) (f : Task → Task) (i : Nat) : getCtx (modTask s u f) i = getCtx s i := by simp [getCtx]
@[simp] theorem getQueue_modTask (s : State) (u : Nat) (f : Task → Task) (i : Nat) : getQueue (modTask s u f) i = getQueue s i := by simp [getQueue]
@[simp] theorem getPort_modTask (s : State) (u : Nat) (f : Task → Task) (i : Nat) : getPort (modTask s u f) i = getPort s i := by simp [getPort]
@[simp] theorem getCore_modLaunch (s : State) (u : Nat) (f : Launch → Launch) (i : Nat) : getCore (modLaunch s u f) i = getCore s i := by simp [getCore]
@[simp] theorem getHearth_modLaunch (s : State) (u : Nat) (f : Launch → Launch) (i : Nat) : getHearth (modLaunch s u f) i = getHearth s i := by simp [getHearth]
@[simp] theorem getDie_modLaunch (s : State) (u : Nat) (f : Launch → Launch) (i : Nat) : getDie (modLaunch s u f) i = getDie s i := by simp [getDie]
@[simp] theorem getCtx_modLaunch (s : State) (u : Nat) (f : Launch → Launch) (i : Nat) : getCtx (modLaunch s u f) i = getCtx s i := by simp [getCtx]
@[simp] theorem getQueue_modLaunch (s : State) (u : Nat) (f : Launch → Launch) (i : Nat) : getQueue (modLaunch s u f) i = getQueue s i := by simp [getQueue]
@[simp] theorem getPort_modLaunch (s : State) (u : Nat) (f : Launch → Launch) (i : Nat) : getPort (modLaunch s u f) i = getPort s i := by simp [getPort]

end Sys2Proof.Laws
end

