-- ==== Sys2Proof/Laws/Ops.lean ====
section
/-! SUPPORT. What each shared operation can do, said once: guards, banks, results in flight, reports, errors, taking an exception and the
return from one. -/

namespace Sys2Proof.Laws

open Sys2Proof Sys2Proof.Machine

/-! ## Guards, banks, types -/

theorem guarded_on {s : State} {g : BitVec 4} {f : State → State} (h : guardOn s g = true) : guarded s g f = .next (f s) := by
  simp [guarded, h]
theorem guarded_off {s : State} {g : BitVec 4} {f : State → State} (h : guardOn s g = false) : guarded s g f = .next s := by
  simp [guarded, h]

/-- An operation whose banks are at hand has its effect. -/
theorem needBanks_ready {s : State} {l : List Nat} {k : State → Out} (h : BanksReady s l) : needBanks s l k = k s := by
  have : l.find? (fun f => bankForeign s (me s) (bankKey (me s) f)) = none := by
    rw [List.find?_eq_none]; intro f hf; simp [h f hf]
  simp [needBanks, this]

/-- An operation one of whose banks holds a victim's state waits for the claim of the first such bank. -/
theorem needBanks_foreign {s : State} {l : List Nat} {k : State → Out} {f : Nat}
    (h : l.find? (fun f => bankForeign s (me s) (bankKey (me s) f)) = some f) :
    needBanks s l k = .next (holdFor s (.claimBank (bankKey (me s) f))) := by simp [needBanks, h]

/-- A V operation with a type of its list and its banks at hand has its effect. -/
theorem vOp_ready {s : State} {u : BitVec 4} {x : List Nat} {ok : ETy → Bool} {k : ETy → State → State} {t : ETy}
    (ht : etyOf (vCode (me s) (vFile u)) = some t) (hok : ok t = true) (hb : BanksReady s (vFile u :: x)) :
    vOp u x ok s k = .next (k t s) := by simp [vOp, ht, hok, needBanks_ready hb]

/-- A V operation without a type of its list traps. -/
theorem vOp_traps {s : State} {u : BitVec 4} {x : List Nat} {ok : ETy → Bool} {k : ETy → State → State}
    (h : ∀ t, etyOf (vCode (me s) (vFile u)) = some t → ok t = false) :
    vOp u x ok s k = .next (slotTrap s u.toNat 0x09 0 (BitVec.ofNat 32 (vCode (me s) (vFile u)))) := by
  unfold vOp typeTrap
  dsimp only
  split
  · rfl
  · simp [h _ ‹_›]

/-! ## Results in flight -/

@[simp] theorem me_emit (s : State) (b : Nat) (l : List Land) :
    me (emit s b l) = { me s with fresh := (me s).fresh ++ [⟨nowOf s s.cur + b, .known l⟩] } := me_modMe _ _
theorem getCore_emit (s : State) (b : Nat) (l : List Land) (i : Nat) :
    getCore (emit s b l) i = if i = s.cur then { me s with fresh := (me s).fresh ++ [⟨nowOf s s.cur + b, .known l⟩] } else getCore s i :=
  getCore_modMe _ _ _
@[simp] theorem me_holdFor (s : State) (h : Hold) : me (holdFor s h) = { me s with hold := h, mark := .held } := me_modMe _ _

/-! ## Reports and errors -/

/-- An answer of the host's IOMMU kept changes the translation caches alone. -/
theorem keepAts_eq (s : State) (p i g : Nat) : ∃ a, keepAts s p i g = { s with ats := a } := by
  unfold keepAts
  split
  · exact ⟨_, rfl⟩
  · split <;> exact ⟨_, rfl⟩

theorem hostWrite_eq (s : State) (a : Nat) (b : List Byte) : ∃ m l, hostWrite s a b = { s with hostMem := m, ats := l } := by
  unfold hostWrite
  split
  · exact ⟨_, _, rfl⟩
  · split
    · obtain ⟨l, h⟩ := keepAts_eq { s with hostMem := cellsSet s.hostMem (_ * 4096 + a % 4096) b } _ (2 ^ 20) (a / 4096)
      exact ⟨_, l, h⟩
    · obtain ⟨l, h⟩ := keepAts_eq s _ (2 ^ 20) (a / 4096)
      exact ⟨_, l, h⟩

/-- A report changes the ring, the reports, host memory and what is kept of its translation, and nothing else. -/
theorem post_eq (s : State) (r : Report) : ∃ m a g l, post s r = { s with hostMem := m, ats := a, ring := g, reports := l } := by
  unfold post
  dsimp only
  split
  · exact ⟨_, _, _, _, rfl⟩
  · obtain ⟨m, a, hm⟩ := hostWrite_eq s
      (s.ring.base.toNat / 64 * 64 + 64 * (s.ring.tail.toNat % 2 ^ s.ring.log2.toNat))
      (reportBytes { r with seq := BitVec.ofNat 64 s.reports.length, time := Config.freeTime s.tick })
    rw [hm]; exact ⟨_, _, _, _, rfl⟩

@[simp] theorem post_agenda (s : State) (r : Report) : (post s r).agenda = s.agenda := by obtain ⟨m, a, g, l, h⟩ := post_eq s r; rw [h]
@[simp] theorem post_cur (s : State) (r : Report) : (post s r).cur = s.cur := by obtain ⟨m, a, g, l, h⟩ := post_eq s r; rw [h]
@[simp] theorem post_tick (s : State) (r : Report) : (post s r).tick = s.tick := by obtain ⟨m, a, g, l, h⟩ := post_eq s r; rw [h]
@[simp] theorem post_cores (s : State) (r : Report) : (post s r).cores = s.cores := by obtain ⟨m, a, g, l, h⟩ := post_eq s r; rw [h]
@[simp] theorem post_hearths (s : State) (r : Report) : (post s r).hearths = s.hearths := by obtain ⟨m, a, g, l, h⟩ := post_eq s r; rw [h]
@[simp] theorem post_dies (s : State) (r : Report) : (post s r).dies = s.dies := by obtain ⟨m, a, g, l, h⟩ := post_eq s r; rw [h]
@[simp] theorem post_mem (s : State) (r : Report) : (post s r).mem = s.mem := by obtain ⟨m, a, g, l, h⟩ := post_eq s r; rw [h]
@[simp] theorem post_eccBad (s : State) (r : Report) : (post s r).eccBad = s.eccBad := by obtain ⟨m, a, g, l, h⟩ := post_eq s r; rw [h]
@[simp] theorem post_ctxs (s : State) (r : Report) : (post s r).ctxs = s.ctxs := by obtain ⟨m, a, g, l, h⟩ := post_eq s r; rw [h]
@[simp] theorem post_ctxBlock (s : State) (r : Report) : (post s r).ctxBlock = s.ctxBlock := by obtain ⟨m, a, g, l, h⟩ := post_eq s r; rw [h]
@[simp] theorem post_queues (s : State) (r : Report) : (post s r).queues = s.queues := by obtain ⟨m, a, g, l, h⟩ := post_eq s r; rw [h]
@[simp] theorem post_launches (s : State) (r : Report) : (post s r).launches = s.launches := by obtain ⟨m, a, g, l, h⟩ := post_eq s r; rw [h]
@[simp] theorem post_tasks (s : State) (r : Report) : (post s r).tasks = s.tasks := by obtain ⟨m, a, g, l, h⟩ := post_eq s r; rw [h]
@[simp] theorem post_nextUid (s : State) (r : Report) : (post s r).nextUid = s.nextUid := by obtain ⟨m, a, g, l, h⟩ := post_eq s r; rw [h]
@[simp] theorem post_turns (s : State) (r : Report) : (post s r).turns = s.turns := by obtain ⟨m, a, g, l, h⟩ := post_eq s r; rw [h]
@[simp] theorem post_shape (s : State) (r : Report) : (post s r).shape = s.shape := by obtain ⟨m, a, g, l, h⟩ := post_eq s r; rw [h]
@[simp] theorem post_oreqs (s : State) (r : Report) : (post s r).oreqs = s.oreqs := by obtain ⟨m, a, g, l, h⟩ := post_eq s r; rw [h]
@[simp] theorem post_expect (s : State) (r : Report) : (post s r).expect = s.expect := by obtain ⟨m, a, g, l, h⟩ := post_eq s r; rw [h]
@[simp] theorem post_colls (s : State) (r : Report) : (post s r).colls = s.colls := by obtain ⟨m, a, g, l, h⟩ := post_eq s r; rw [h]
@[simp] theorem post_ports (s : State) (r : Report) : (post s r).ports = s.ports := by obtain ⟨m, a, g, l, h⟩ := post_eq s r; rw [h]
@[simp] theorem post_cxlCap (s : State) (r : Report) : (post s r).cxlCap = s.cxlCap := by obtain ⟨m, a, g, l, h⟩ := post_eq s r; rw [h]
@[simp] theorem post_cxlRemoved (s : State) (r : Report) : (post s r).cxlRemoved = s.cxlRemoved := by obtain ⟨m, a, g, l, h⟩ := post_eq s r; rw [h]
@[simp] theorem post_hostUp (s : State) (r : Report) : (post s r).hostUp = s.hostUp := by obtain ⟨m, a, g, l, h⟩ := post_eq s r; rw [h]
@[simp] theorem post_recovery (s : State) (r : Report) : (post s r).recovery = s.recovery := by obtain ⟨m, a, g, l, h⟩ := post_eq s r; rw [h]
@[simp] theorem post_boot (s : State) (r : Report) : (post s r).boot = s.boot := by obtain ⟨m, a, g, l, h⟩ := post_eq s r; rw [h]
@[simp] theorem post_spdm (s : State) (r : Report) : (post s r).spdm = s.spdm := by obtain ⟨m, a, g, l, h⟩ := post_eq s r; rw [h]
@[simp] theorem post_unreachable (s : State) (r : Report) : (post s r).unreachable = s.unreachable := by obtain ⟨m, a, g, l, h⟩ := post_eq s r; rw [h]
@[simp] theorem post_faults (s : State) (r : Report) : (post s r).faults = s.faults := by obtain ⟨m, a, g, l, h⟩ := post_eq s r; rw [h]
@[simp] theorem getCore_post (s : State) (r : Report) (i : Nat) : getCore (post s r) i = getCore s i := by simp [getCore]
@[simp] theorem getDie_post (s : State) (r : Report) (i : Nat) : getDie (post s r) i = getDie s i := by simp [getDie]
@[simp] theorem getPort_post (s : State) (r : Report) (i : Nat) : getPort (post s r) i = getPort s i := by simp [getPort]
@[simp] theorem me_post (s : State) (r : Report) : me (post s r) = me s := by simp [me]

@[simp] theorem launchError_agenda (s : State) (l : Nat) (e : ErrInfo) : (launchError s l e).agenda = s.agenda := by simp [launchError]
@[simp] theorem launchError_cur (s : State) (l : Nat) (e : ErrInfo) : (launchError s l e).cur = s.cur := by simp [launchError]
@[simp] theorem launchError_tick (s : State) (l : Nat) (e : ErrInfo) : (launchError s l e).tick = s.tick := by simp [launchError]
@[simp] theorem launchError_cores (s : State) (l : Nat) (e : ErrInfo) : (launchError s l e).cores = s.cores := by simp [launchError]
@[simp] theorem launchError_hearths (s : State) (l : Nat) (e : ErrInfo) : (launchError s l e).hearths = s.hearths := by simp [launchError]
@[simp] theorem launchError_dies (s : State) (l : Nat) (e : ErrInfo) : (launchError s l e).dies = s.dies := by simp [launchError]
@[simp] theorem launchError_mem (s : State) (l : Nat) (e : ErrInfo) : (launchError s l e).mem = s.mem := by simp [launchError]
@[simp] theorem launchError_hostMem (s : State) (l : Nat) (e : ErrInfo) : (launchError s l e).hostMem = s.hostMem := by simp [launchError]
@[simp] theorem launchError_eccBad (s : State) (l : Nat) (e : ErrInfo) : (launchError s l e).eccBad = s.eccBad := by simp [launchError]
@[simp] theorem launchError_ats (s : State) (l : Nat) (e : ErrInfo) : (launchError s l e).ats = s.ats := by simp [launchError]
@[simp] theorem launchError_ctxs (s : State) (l : Nat) (e : ErrInfo) : (launchError s l e).ctxs = s.ctxs := by simp [launchError]
@[simp] theorem launchError_ctxBlock (s : State) (l : Nat) (e : ErrInfo) : (launchError s l e).ctxBlock = s.ctxBlock := by simp [launchError]
@[simp] theorem launchError_queues (s : State) (l : Nat) (e : ErrInfo) : (launchError s l e).queues = s.queues := by simp [launchError]
@[simp] theorem launchError_tasks (s : State) (l : Nat) (e : ErrInfo) : (launchError s l e).tasks = s.tasks := by simp [launchError]
@[simp] theorem launchError_nextUid (s : State) (l : Nat) (e : ErrInfo) : (launchError s l e).nextUid = s.nextUid := by simp [launchError]
@[simp] theorem launchError_turns (s : State) (l : Nat) (e : ErrInfo) : (launchError s l e).turns = s.turns := by simp [launchError]
@[simp] theorem launchError_shape (s : State) (l : Nat) (e : ErrInfo) : (launchError s l e).shape = s.shape := by simp [launchError]
@[simp] theorem launchError_oreqs (s : State) (l : Nat) (e : ErrInfo) : (launchError s l e).oreqs = s.oreqs := by simp [launchError]
@[simp] theorem launchError_expect (s : State) (l : Nat) (e : ErrInfo) : (launchError s l e).expect = s.expect := by simp [launchError]
@[simp] theorem launchError_colls (s : State) (l : Nat) (e : ErrInfo) : (launchError s l e).colls = s.colls := by simp [launchError]
@[simp] theorem launchError_ports (s : State) (l : Nat) (e : ErrInfo) : (launchError s l e).ports = s.ports := by simp [launchError]
@[simp] theorem launchError_cxlCap (s : State) (l : Nat) (e : ErrInfo) : (launchError s l e).cxlCap = s.cxlCap := by simp [launchError]
@[simp] theorem launchError_cxlRemoved (s : State) (l : Nat) (e : ErrInfo) : (launchError s l e).cxlRemoved = s.cxlRemoved := by simp [launchError]
@[simp] theorem launchError_hostUp (s : State) (l : Nat) (e : ErrInfo) : (launchError s l e).hostUp = s.hostUp := by simp [launchError]
@[simp] theorem launchError_ring (s : State) (l : Nat) (e : ErrInfo) : (launchError s l e).ring = s.ring := by simp [launchError]
@[simp] theorem launchError_reports (s : State) (l : Nat) (e : ErrInfo) : (launchError s l e).reports = s.reports := by simp [launchError]
@[simp] theorem launchError_recovery (s : State) (l : Nat) (e : ErrInfo) : (launchError s l e).recovery = s.recovery := by simp [launchError]
@[simp] theorem launchError_boot (s : State) (l : Nat) (e : ErrInfo) : (launchError s l e).boot = s.boot := by simp [launchError]
@[simp] theorem launchError_spdm (s : State) (l : Nat) (e : ErrInfo) : (launchError s l e).spdm = s.spdm := by simp [launchError]
@[simp] theorem launchError_unreachable (s : State) (l : Nat) (e : ErrInfo) : (launchError s l e).unreachable = s.unreachable := by simp [launchError]
@[simp] theorem launchError_faults (s : State) (l : Nat) (e : ErrInfo) : (launchError s l e).faults = s.faults := by simp [launchError]

@[simp] theorem noteError_agenda (s : State) (u : Nat) (e : ErrInfo) : (noteError s u e).agenda = s.agenda := by unfold noteError; split <;> [split <;> simp; rfl]
@[simp] theorem noteError_cur (s : State) (u : Nat) (e : ErrInfo) : (noteError s u e).cur = s.cur := by unfold noteError; split <;> [split <;> simp; rfl]
@[simp] theorem noteError_tick (s : State) (u : Nat) (e : ErrInfo) : (noteError s u e).tick = s.tick := by unfold noteError; split <;> [split <;> simp; rfl]
@[simp] theorem noteError_cores (s : State) (u : Nat) (e : ErrInfo) : (noteError s u e).cores = s.cores := by unfold noteError; split <;> [split <;> simp; rfl]
@[simp] theorem noteError_hearths (s : State) (u : Nat) (e : ErrInfo) : (noteError s u e).hearths = s.hearths := by unfold noteError; split <;> [split <;> simp; rfl]
@[simp] theorem noteError_dies (s : State) (u : Nat) (e : ErrInfo) : (noteError s u e).dies = s.dies := by unfold noteError; split <;> [split <;> simp; rfl]
@[simp] theorem noteError_mem (s : State) (u : Nat) (e : ErrInfo) : (noteError s u e).mem = s.mem := by unfold noteError; split <;> [split <;> simp; rfl]
@[simp] theorem noteError_hostMem (s : State) (u : Nat) (e : ErrInfo) : (noteError s u e).hostMem = s.hostMem := by unfold noteError; split <;> [split <;> simp; rfl]
@[simp] theorem noteError_eccBad (s : State) (u : Nat) (e : ErrInfo) : (noteError s u e).eccBad = s.eccBad := by unfold noteError; split <;> [split <;> simp; rfl]
@[simp] theorem noteError_ats (s : State) (u : Nat) (e : ErrInfo) : (noteError s u e).ats = s.ats := by unfold noteError; split <;> [split <;> simp; rfl]
@[simp] theorem noteError_ctxs (s : State) (u : Nat) (e : ErrInfo) : (noteError s u e).ctxs = s.ctxs := by unfold noteError; split <;> [split <;> simp; rfl]
@[simp] theorem noteError_ctxBlock (s : State) (u : Nat) (e : ErrInfo) : (noteError s u e).ctxBlock = s.ctxBlock := by unfold noteError; split <;> [split <;> simp; rfl]
@[simp] theorem noteError_queues (s : State) (u : Nat) (e : ErrInfo) : (noteError s u e).queues = s.queues := by unfold noteError; split <;> [split <;> simp; rfl]
@[simp] theorem noteError_nextUid (s : State) (u : Nat) (e : ErrInfo) : (noteError s u e).nextUid = s.nextUid := by unfold noteError; split <;> [split <;> simp; rfl]
@[simp] theorem noteError_turns (s : State) (u : Nat) (e : ErrInfo) : (noteError s u e).turns = s.turns := by unfold noteError; split <;> [split <;> simp; rfl]
@[simp] theorem noteError_shape (s : State) (u : Nat) (e : ErrInfo) : (noteError s u e).shape = s.shape := by unfold noteError; split <;> [split <;> simp; rfl]
@[simp] theorem noteError_oreqs (s : State) (u : Nat) (e : ErrInfo) : (noteError s u e).oreqs = s.oreqs := by unfold noteError; split <;> [split <;> simp; rfl]
@[simp] theorem noteError_expect (s : State) (u : Nat) (e : ErrInfo) : (noteError s u e).expect = s.expect := by unfold noteError; split <;> [split <;> simp; rfl]
@[simp] theorem noteError_colls (s : State) (u : Nat) (e : ErrInfo) : (noteError s u e).colls = s.colls := by unfold noteError; split <;> [split <;> simp; rfl]
@[simp] theorem noteError_ports (s : State) (u : Nat) (e : ErrInfo) : (noteError s u e).ports = s.ports := by unfold noteError; split <;> [split <;> simp; rfl]
@[simp] theorem noteError_cxlCap (s : State) (u : Nat) (e : ErrInfo) : (noteError s u e).cxlCap = s.cxlCap := by unfold noteError; split <;> [split <;> simp; rfl]
@[simp] theorem noteError_cxlRemoved (s : State) (u : Nat) (e : ErrInfo) : (noteError s u e).cxlRemoved = s.cxlRemoved := by unfold noteError; split <;> [split <;> simp; rfl]
@[simp] theorem noteError_hostUp (s : State) (u : Nat) (e : ErrInfo) : (noteError s u e).hostUp = s.hostUp := by unfold noteError; split <;> [split <;> simp; rfl]
@[simp] theorem noteError_ring (s : State) (u : Nat) (e : ErrInfo) : (noteError s u e).ring = s.ring := by unfold noteError; split <;> [split <;> simp; rfl]
@[simp] theorem noteError_reports (s : State) (u : Nat) (e : ErrInfo) : (noteError s u e).reports = s.reports := by unfold noteError; split <;> [split <;> simp; rfl]
@[simp] theorem noteError_recovery (s : State) (u : Nat) (e : ErrInfo) : (noteError s u e).recovery = s.recovery := by unfold noteError; split <;> [split <;> simp; rfl]
@[simp] theorem noteError_boot (s : State) (u : Nat) (e : ErrInfo) : (noteError s u e).boot = s.boot := by unfold noteError; split <;> [split <;> simp; rfl]
@[simp] theorem noteError_spdm (s : State) (u : Nat) (e : ErrInfo) : (noteError s u e).spdm = s.spdm := by unfold noteError; split <;> [split <;> simp; rfl]
@[simp] theorem noteError_unreachable (s : State) (u : Nat) (e : ErrInfo) : (noteError s u e).unreachable = s.unreachable := by unfold noteError; split <;> [split <;> simp; rfl]
@[simp] theorem noteError_faults (s : State) (u : Nat) (e : ErrInfo) : (noteError s u e).faults = s.faults := by unfold noteError; split <;> [split <;> simp; rfl]

@[simp] theorem publishError_agenda (s : State) (u : Nat) (e : ErrInfo) : (publishError s u e).agenda = s.agenda := by simp [publishError]
@[simp] theorem publishError_cur (s : State) (u : Nat) (e : ErrInfo) : (publishError s u e).cur = s.cur := by simp [publishError]
@[simp] theorem publishError_tick (s : State) (u : Nat) (e : ErrInfo) : (publishError s u e).tick = s.tick := by simp [publishError]
@[simp] theorem publishError_cores (s : State) (u : Nat) (e : ErrInfo) : (publishError s u e).cores = s.cores := by simp [publishError]
@[simp] theorem publishError_hearths (s : State) (u : Nat) (e : ErrInfo) : (publishError s u e).hearths = s.hearths := by simp [publishError]
@[simp] theorem publishError_dies (s : State) (u : Nat) (e : ErrInfo) : (publishError s u e).dies = s.dies := by simp [publishError]
@[simp] theorem publishError_mem (s : State) (u : Nat) (e : ErrInfo) : (publishError s u e).mem = s.mem := by simp [publishError]
@[simp] theorem publishError_eccBad (s : State) (u : Nat) (e : ErrInfo) : (publishError s u e).eccBad = s.eccBad := by simp [publishError]
@[simp] theorem publishError_ctxs (s : State) (u : Nat) (e : ErrInfo) : (publishError s u e).ctxs = s.ctxs := by simp [publishError]
@[simp] theorem publishError_ctxBlock (s : State) (u : Nat) (e : ErrInfo) : (publishError s u e).ctxBlock = s.ctxBlock := by simp [publishError]
@[simp] theorem publishError_queues (s : State) (u : Nat) (e : ErrInfo) : (publishError s u e).queues = s.queues := by simp [publishError]
@[simp] theorem publishError_nextUid (s : State) (u : Nat) (e : ErrInfo) : (publishError s u e).nextUid = s.nextUid := by simp [publishError]
@[simp] theorem publishError_turns (s : State) (u : Nat) (e : ErrInfo) : (publishError s u e).turns = s.turns := by simp [publishError]
@[simp] theorem publishError_shape (s : State) (u : Nat) (e : ErrInfo) : (publishError s u e).shape = s.shape := by simp [publishError]
@[simp] theorem publishError_oreqs (s : State) (u : Nat) (e : ErrInfo) : (publishError s u e).oreqs = s.oreqs := by simp [publishError]
@[simp] theorem publishError_expect (s : State) (u : Nat) (e : ErrInfo) : (publishError s u e).expect = s.expect := by simp [publishError]
@[simp] theorem publishError_colls (s : State) (u : Nat) (e : ErrInfo) : (publishError s u e).colls = s.colls := by simp [publishError]
@[simp] theorem publishError_ports (s : State) (u : Nat) (e : ErrInfo) : (publishError s u e).ports = s.ports := by simp [publishError]
@[simp] theorem publishError_cxlCap (s : State) (u : Nat) (e : ErrInfo) : (publishError s u e).cxlCap = s.cxlCap := by simp [publishError]
@[simp] theorem publishError_cxlRemoved (s : State) (u : Nat) (e : ErrInfo) : (publishError s u e).cxlRemoved = s.cxlRemoved := by simp [publishError]
@[simp] theorem publishError_hostUp (s : State) (u : Nat) (e : ErrInfo) : (publishError s u e).hostUp = s.hostUp := by simp [publishError]
@[simp] theorem publishError_recovery (s : State) (u : Nat) (e : ErrInfo) : (publishError s u e).recovery = s.recovery := by simp [publishError]
@[simp] theorem publishError_boot (s : State) (u : Nat) (e : ErrInfo) : (publishError s u e).boot = s.boot := by simp [publishError]
@[simp] theorem publishError_spdm (s : State) (u : Nat) (e : ErrInfo) : (publishError s u e).spdm = s.spdm := by simp [publishError]
@[simp] theorem publishError_unreachable (s : State) (u : Nat) (e : ErrInfo) : (publishError s u e).unreachable = s.unreachable := by simp [publishError]
@[simp] theorem publishError_faults (s : State) (u : Nat) (e : ErrInfo) : (publishError s u e).faults = s.faults := by simp [publishError]

@[simp] theorem endInError_agenda (s : State) (u c : Nat) (k : BitVec 2) (n : BitVec 14) (a x : Nat) : (endInError s u c k n a x).agenda = s.agenda := by unfold endInError; split <;> [rfl; (split <;> [rfl; (dsimp only; split <;> simp)])]
@[simp] theorem endInError_cur (s : State) (u c : Nat) (k : BitVec 2) (n : BitVec 14) (a x : Nat) : (endInError s u c k n a x).cur = s.cur := by unfold endInError; split <;> [rfl; (split <;> [rfl; (dsimp only; split <;> simp)])]
@[simp] theorem endInError_tick (s : State) (u c : Nat) (k : BitVec 2) (n : BitVec 14) (a x : Nat) : (endInError s u c k n a x).tick = s.tick := by unfold endInError; split <;> [rfl; (split <;> [rfl; (dsimp only; split <;> simp)])]
@[simp] theorem endInError_cores (s : State) (u c : Nat) (k : BitVec 2) (n : BitVec 14) (a x : Nat) : (endInError s u c k n a x).cores = s.cores := by unfold endInError; split <;> [rfl; (split <;> [rfl; (dsimp only; split <;> simp)])]
@[simp] theorem endInError_hearths (s : State) (u c : Nat) (k : BitVec 2) (n : BitVec 14) (a x : Nat) : (endInError s u c k n a x).hearths = s.hearths := by unfold endInError; split <;> [rfl; (split <;> [rfl; (dsimp only; split <;> simp)])]
@[simp] theorem endInError_dies (s : State) (u c : Nat) (k : BitVec 2) (n : BitVec 14) (a x : Nat) : (endInError s u c k n a x).dies = s.dies := by unfold endInError; split <;> [rfl; (split <;> [rfl; (dsimp only; split <;> simp)])]
@[simp] theorem endInError_mem (s : State) (u c : Nat) (k : BitVec 2) (n : BitVec 14) (a x : Nat) : (endInError s u c k n a x).mem = s.mem := by unfold endInError; split <;> [rfl; (split <;> [rfl; (dsimp only; split <;> simp)])]
@[simp] theorem endInError_eccBad (s : State) (u c : Nat) (k : BitVec 2) (n : BitVec 14) (a x : Nat) : (endInError s u c k n a x).eccBad = s.eccBad := by unfold endInError; split <;> [rfl; (split <;> [rfl; (dsimp only; split <;> simp)])]
@[simp] theorem endInError_ctxs (s : State) (u c : Nat) (k : BitVec 2) (n : BitVec 14) (a x : Nat) : (endInError s u c k n a x).ctxs = s.ctxs := by unfold endInError; split <;> [rfl; (split <;> [rfl; (dsimp only; split <;> simp)])]
@[simp] theorem endInError_ctxBlock (s : State) (u c : Nat) (k : BitVec 2) (n : BitVec 14) (a x : Nat) : (endInError s u c k n a x).ctxBlock = s.ctxBlock := by unfold endInError; split <;> [rfl; (split <;> [rfl; (dsimp only; split <;> simp)])]
@[simp] theorem endInError_queues (s : State) (u c : Nat) (k : BitVec 2) (n : BitVec 14) (a x : Nat) : (endInError s u c k n a x).queues = s.queues := by unfold endInError; split <;> [rfl; (split <;> [rfl; (dsimp only; split <;> simp)])]
@[simp] theorem endInError_nextUid (s : State) (u c : Nat) (k : BitVec 2) (n : BitVec 14) (a x : Nat) : (endInError s u c k n a x).nextUid = s.nextUid := by unfold endInError; split <;> [rfl; (split <;> [rfl; (dsimp only; split <;> simp)])]
@[simp] theorem endInError_turns (s : State) (u c : Nat) (k : BitVec 2) (n : BitVec 14) (a x : Nat) : (endInError s u c k n a x).turns = s.turns := by unfold endInError; split <;> [rfl; (split <;> [rfl; (dsimp only; split <;> simp)])]
@[simp] theorem endInError_shape (s : State) (u c : Nat) (k : BitVec 2) (n : BitVec 14) (a x : Nat) : (endInError s u c k n a x).shape = s.shape := by unfold endInError; split <;> [rfl; (split <;> [rfl; (dsimp only; split <;> simp)])]
@[simp] theorem endInError_oreqs (s : State) (u c : Nat) (k : BitVec 2) (n : BitVec 14) (a x : Nat) : (endInError s u c k n a x).oreqs = s.oreqs := by unfold endInError; split <;> [rfl; (split <;> [rfl; (dsimp only; split <;> simp)])]
@[simp] theorem endInError_expect (s : State) (u c : Nat) (k : BitVec 2) (n : BitVec 14) (a x : Nat) : (endInError s u c k n a x).expect = s.expect := by unfold endInError; split <;> [rfl; (split <;> [rfl; (dsimp only; split <;> simp)])]
@[simp] theorem endInError_colls (s : State) (u c : Nat) (k : BitVec 2) (n : BitVec 14) (a x : Nat) : (endInError s u c k n a x).colls = s.colls := by unfold endInError; split <;> [rfl; (split <;> [rfl; (dsimp only; split <;> simp)])]
@[simp] theorem endInError_ports (s : State) (u c : Nat) (k : BitVec 2) (n : BitVec 14) (a x : Nat) : (endInError s u c k n a x).ports = s.ports := by unfold endInError; split <;> [rfl; (split <;> [rfl; (dsimp only; split <;> simp)])]
@[simp] theorem endInError_cxlCap (s : State) (u c : Nat) (k : BitVec 2) (n : BitVec 14) (a x : Nat) : (endInError s u c k n a x).cxlCap = s.cxlCap := by unfold endInError; split <;> [rfl; (split <;> [rfl; (dsimp only; split <;> simp)])]
@[simp] theorem endInError_cxlRemoved (s : State) (u c : Nat) (k : BitVec 2) (n : BitVec 14) (a x : Nat) : (endInError s u c k n a x).cxlRemoved = s.cxlRemoved := by unfold endInError; split <;> [rfl; (split <;> [rfl; (dsimp only; split <;> simp)])]
@[simp] theorem endInError_hostUp (s : State) (u c : Nat) (k : BitVec 2) (n : BitVec 14) (a x : Nat) : (endInError s u c k n a x).hostUp = s.hostUp := by unfold endInError; split <;> [rfl; (split <;> [rfl; (dsimp only; split <;> simp)])]
@[simp] theorem endInError_recovery (s : State) (u c : Nat) (k : BitVec 2) (n : BitVec 14) (a x : Nat) : (endInError s u c k n a x).recovery = s.recovery := by unfold endInError; split <;> [rfl; (split <;> [rfl; (dsimp only; split <;> simp)])]
@[simp] theorem endInError_boot (s : State) (u c : Nat) (k : BitVec 2) (n : BitVec 14) (a x : Nat) : (endInError s u c k n a x).boot = s.boot := by unfold endInError; split <;> [rfl; (split <;> [rfl; (dsimp only; split <;> simp)])]
@[simp] theorem endInError_spdm (s : State) (u c : Nat) (k : BitVec 2) (n : BitVec 14) (a x : Nat) : (endInError s u c k n a x).spdm = s.spdm := by unfold endInError; split <;> [rfl; (split <;> [rfl; (dsimp only; split <;> simp)])]
@[simp] theorem endInError_unreachable (s : State) (u c : Nat) (k : BitVec 2) (n : BitVec 14) (a x : Nat) : (endInError s u c k n a x).unreachable = s.unreachable := by unfold endInError; split <;> [rfl; (split <;> [rfl; (dsimp only; split <;> simp)])]
@[simp] theorem endInError_faults (s : State) (u c : Nat) (k : BitVec 2) (n : BitVec 14) (a x : Nat) : (endInError s u c k n a x).faults = s.faults := by unfold endInError; split <;> [rfl; (split <;> [rfl; (dsimp only; split <;> simp)])]

/-! ## Taking an exception -/

@[simp] theorem takeTrap_agenda (s : State) (c : Nat) (x : BitVec 21) (a y : W64) : (takeTrap s c x a y).agenda = s.agenda := by unfold takeTrap; dsimp only; split <;> [(split <;> simp); simp]
@[simp] theorem takeTrap_cur (s : State) (c : Nat) (x : BitVec 21) (a y : W64) : (takeTrap s c x a y).cur = s.cur := by unfold takeTrap; dsimp only; split <;> [(split <;> simp); simp]
@[simp] theorem takeTrap_tick (s : State) (c : Nat) (x : BitVec 21) (a y : W64) : (takeTrap s c x a y).tick = s.tick := by unfold takeTrap; dsimp only; split <;> [(split <;> simp); simp]
@[simp] theorem takeTrap_hearths (s : State) (c : Nat) (x : BitVec 21) (a y : W64) : (takeTrap s c x a y).hearths = s.hearths := by unfold takeTrap; dsimp only; split <;> [(split <;> simp); simp]
@[simp] theorem takeTrap_dies (s : State) (c : Nat) (x : BitVec 21) (a y : W64) : (takeTrap s c x a y).dies = s.dies := by unfold takeTrap; dsimp only; split <;> [(split <;> simp); simp]
@[simp] theorem takeTrap_mem (s : State) (c : Nat) (x : BitVec 21) (a y : W64) : (takeTrap s c x a y).mem = s.mem := by unfold takeTrap; dsimp only; split <;> [(split <;> simp); simp]
@[simp] theorem takeTrap_eccBad (s : State) (c : Nat) (x : BitVec 21) (a y : W64) : (takeTrap s c x a y).eccBad = s.eccBad := by unfold takeTrap; dsimp only; split <;> [(split <;> simp); simp]
@[simp] theorem takeTrap_ctxs (s : State) (c : Nat) (x : BitVec 21) (a y : W64) : (takeTrap s c x a y).ctxs = s.ctxs := by unfold takeTrap; dsimp only; split <;> [(split <;> simp); simp]
@[simp] theorem takeTrap_ctxBlock (s : State) (c : Nat) (x : BitVec 21) (a y : W64) : (takeTrap s c x a y).ctxBlock = s.ctxBlock := by unfold takeTrap; dsimp only; split <;> [(split <;> simp); simp]
@[simp] theorem takeTrap_queues (s : State) (c : Nat) (x : BitVec 21) (a y : W64) : (takeTrap s c x a y).queues = s.queues := by unfold takeTrap; dsimp only; split <;> [(split <;> simp); simp]
@[simp] theorem takeTrap_nextUid (s : State) (c : Nat) (x : BitVec 21) (a y : W64) : (takeTrap s c x a y).nextUid = s.nextUid := by unfold takeTrap; dsimp only; split <;> [(split <;> simp); simp]
@[simp] theorem takeTrap_turns (s : State) (c : Nat) (x : BitVec 21) (a y : W64) : (takeTrap s c x a y).turns = s.turns := by unfold takeTrap; dsimp only; split <;> [(split <;> simp); simp]
@[simp] theorem takeTrap_shape (s : State) (c : Nat) (x : BitVec 21) (a y : W64) : (takeTrap s c x a y).shape = s.shape := by unfold takeTrap; dsimp only; split <;> [(split <;> simp); simp]
@[simp] theorem takeTrap_oreqs (s : State) (c : Nat) (x : BitVec 21) (a y : W64) : (takeTrap s c x a y).oreqs = s.oreqs := by unfold takeTrap; dsimp only; split <;> [(split <;> simp); simp]
@[simp] theorem takeTrap_expect (s : State) (c : Nat) (x : BitVec 21) (a y : W64) : (takeTrap s c x a y).expect = s.expect := by unfold takeTrap; dsimp only; split <;> [(split <;> simp); simp]
@[simp] theorem takeTrap_colls (s : State) (c : Nat) (x : BitVec 21) (a y : W64) : (takeTrap s c x a y).colls = s.colls := by unfold takeTrap; dsimp only; split <;> [(split <;> simp); simp]
@[simp] theorem takeTrap_ports (s : State) (c : Nat) (x : BitVec 21) (a y : W64) : (takeTrap s c x a y).ports = s.ports := by unfold takeTrap; dsimp only; split <;> [(split <;> simp); simp]
@[simp] theorem takeTrap_cxlCap (s : State) (c : Nat) (x : BitVec 21) (a y : W64) : (takeTrap s c x a y).cxlCap = s.cxlCap := by unfold takeTrap; dsimp only; split <;> [(split <;> simp); simp]
@[simp] theorem takeTrap_cxlRemoved (s : State) (c : Nat) (x : BitVec 21) (a y : W64) : (takeTrap s c x a y).cxlRemoved = s.cxlRemoved := by unfold takeTrap; dsimp only; split <;> [(split <;> simp); simp]
@[simp] theorem takeTrap_hostUp (s : State) (c : Nat) (x : BitVec 21) (a y : W64) : (takeTrap s c x a y).hostUp = s.hostUp := by unfold takeTrap; dsimp only; split <;> [(split <;> simp); simp]
@[simp] theorem takeTrap_recovery (s : State) (c : Nat) (x : BitVec 21) (a y : W64) : (takeTrap s c x a y).recovery = s.recovery := by unfold takeTrap; dsimp only; split <;> [(split <;> simp); simp]
@[simp] theorem takeTrap_boot (s : State) (c : Nat) (x : BitVec 21) (a y : W64) : (takeTrap s c x a y).boot = s.boot := by unfold takeTrap; dsimp only; split <;> [(split <;> simp); simp]
@[simp] theorem takeTrap_spdm (s : State) (c : Nat) (x : BitVec 21) (a y : W64) : (takeTrap s c x a y).spdm = s.spdm := by unfold takeTrap; dsimp only; split <;> [(split <;> simp); simp]
@[simp] theorem takeTrap_unreachable (s : State) (c : Nat) (x : BitVec 21) (a y : W64) : (takeTrap s c x a y).unreachable = s.unreachable := by unfold takeTrap; dsimp only; split <;> [(split <;> simp); simp]
@[simp] theorem takeTrap_faults (s : State) (c : Nat) (x : BitVec 21) (a y : W64) : (takeTrap s c x a y).faults = s.faults := by unfold takeTrap; dsimp only; split <;> [(split <;> simp); simp]

@[simp] theorem slotTrap_agenda (s : State) (u c : Nat) (a : W64) (h : BitVec 32) : (slotTrap s u c a h).agenda = s.agenda := by simp [slotTrap]
@[simp] theorem slotTrap_cur (s : State) (u c : Nat) (a : W64) (h : BitVec 32) : (slotTrap s u c a h).cur = s.cur := by simp [slotTrap]
@[simp] theorem slotTrap_tick (s : State) (u c : Nat) (a : W64) (h : BitVec 32) : (slotTrap s u c a h).tick = s.tick := by simp [slotTrap]
@[simp] theorem slotTrap_hearths (s : State) (u c : Nat) (a : W64) (h : BitVec 32) : (slotTrap s u c a h).hearths = s.hearths := by simp [slotTrap]
@[simp] theorem slotTrap_dies (s : State) (u c : Nat) (a : W64) (h : BitVec 32) : (slotTrap s u c a h).dies = s.dies := by simp [slotTrap]
@[simp] theorem slotTrap_mem (s : State) (u c : Nat) (a : W64) (h : BitVec 32) : (slotTrap s u c a h).mem = s.mem := by simp [slotTrap]
@[simp] theorem slotTrap_eccBad (s : State) (u c : Nat) (a : W64) (h : BitVec 32) : (slotTrap s u c a h).eccBad = s.eccBad := by simp [slotTrap]
@[simp] theorem slotTrap_ctxs (s : State) (u c : Nat) (a : W64) (h : BitVec 32) : (slotTrap s u c a h).ctxs = s.ctxs := by simp [slotTrap]
@[simp] theorem slotTrap_ctxBlock (s : State) (u c : Nat) (a : W64) (h : BitVec 32) : (slotTrap s u c a h).ctxBlock = s.ctxBlock := by simp [slotTrap]
@[simp] theorem slotTrap_queues (s : State) (u c : Nat) (a : W64) (h : BitVec 32) : (slotTrap s u c a h).queues = s.queues := by simp [slotTrap]
@[simp] theorem slotTrap_nextUid (s : State) (u c : Nat) (a : W64) (h : BitVec 32) : (slotTrap s u c a h).nextUid = s.nextUid := by simp [slotTrap]
@[simp] theorem slotTrap_turns (s : State) (u c : Nat) (a : W64) (h : BitVec 32) : (slotTrap s u c a h).turns = s.turns := by simp [slotTrap]
@[simp] theorem slotTrap_shape (s : State) (u c : Nat) (a : W64) (h : BitVec 32) : (slotTrap s u c a h).shape = s.shape := by simp [slotTrap]
@[simp] theorem slotTrap_oreqs (s : State) (u c : Nat) (a : W64) (h : BitVec 32) : (slotTrap s u c a h).oreqs = s.oreqs := by simp [slotTrap]
@[simp] theorem slotTrap_expect (s : State) (u c : Nat) (a : W64) (h : BitVec 32) : (slotTrap s u c a h).expect = s.expect := by simp [slotTrap]
@[simp] theorem slotTrap_colls (s : State) (u c : Nat) (a : W64) (h : BitVec 32) : (slotTrap s u c a h).colls = s.colls := by simp [slotTrap]
@[simp] theorem slotTrap_ports (s : State) (u c : Nat) (a : W64) (h : BitVec 32) : (slotTrap s u c a h).ports = s.ports := by simp [slotTrap]
@[simp] theorem slotTrap_cxlCap (s : State) (u c : Nat) (a : W64) (h : BitVec 32) : (slotTrap s u c a h).cxlCap = s.cxlCap := by simp [slotTrap]
@[simp] theorem slotTrap_cxlRemoved (s : State) (u c : Nat) (a : W64) (h : BitVec 32) : (slotTrap s u c a h).cxlRemoved = s.cxlRemoved := by simp [slotTrap]
@[simp] theorem slotTrap_hostUp (s : State) (u c : Nat) (a : W64) (h : BitVec 32) : (slotTrap s u c a h).hostUp = s.hostUp := by simp [slotTrap]
@[simp] theorem slotTrap_recovery (s : State) (u c : Nat) (a : W64) (h : BitVec 32) : (slotTrap s u c a h).recovery = s.recovery := by simp [slotTrap]
@[simp] theorem slotTrap_boot (s : State) (u c : Nat) (a : W64) (h : BitVec 32) : (slotTrap s u c a h).boot = s.boot := by simp [slotTrap]
@[simp] theorem slotTrap_spdm (s : State) (u c : Nat) (a : W64) (h : BitVec 32) : (slotTrap s u c a h).spdm = s.spdm := by simp [slotTrap]
@[simp] theorem slotTrap_unreachable (s : State) (u c : Nat) (a : W64) (h : BitVec 32) : (slotTrap s u c a h).unreachable = s.unreachable := by simp [slotTrap]
@[simp] theorem slotTrap_faults (s : State) (u c : Nat) (a : W64) (h : BitVec 32) : (slotTrap s u c a h).faults = s.faults := by simp [slotTrap]

@[simp] theorem getCore_endInError (s : State) (u c : Nat) (k : BitVec 2) (n : BitVec 14) (a x i : Nat) :
    getCore (endInError s u c k n a x) i = getCore s i := by simp [getCore]

/-- A trap touches no core but the executing one. -/
theorem getCore_takeTrap_ne (s : State) (c : Nat) (x : BitVec 21) (a y : W64) {i : Nat} (h : i ≠ s.cur) :
    getCore (takeTrap s c x a y) i = getCore s i := by
  unfold takeTrap; dsimp only
  split
  · split <;> simp [getCore_modMe, h]
  · simp [getCore_modMe, h]

/-- A trap leaves registers, the values of results in flight, accesses, tokens, matrix unit, channels and instruction memory as they are, and
writes its record; outside a handler what is in flight stays due as it was. -/
theorem me_takeTrap (s : State) (c : Nat) (x : BitVec 21) (a y : W64) :
    let d := me (takeTrap s c x a y)
    d.regs = (me s).regs ∧ d.flight.map (fun f => f.val) = (me s).flight.map (fun f => f.val) ∧
    ((me s).handler = false → d.flight = (me s).flight) ∧ d.fresh = (me s).fresh ∧ d.acc = (me s).acc ∧ d.tok = (me s).tok ∧ d.mu = (me s).mu ∧
    d.chan = (me s).chan ∧ d.imem = (me s).imem ∧ d.ibank = (me s).ibank ∧ d.task = (me s).task ∧
    d.sys.epc = BitVec.ofNat 16 (me s).ctl.pc ∧ d.sys.tcause = BitVec.ofNat 8 c ∧ d.sys.tslots = x ∧ d.sys.taddr = a ∧ d.sys.taux = y ∧
    d.mark = .trapped (BitVec.ofNat 8 c) := by
  have key : ∀ t : State, t.cur = s.cur → me t = getCore t s.cur := fun t h => by rw [me, h]
  dsimp only
  rw [key _ (takeTrap_cur s c x a y)]
  unfold takeTrap; dsimp only
  split
  · split <;> simp [getCore_modMe, trapRecord]
  · simp only [getCore_modMe, if_true, trapRecord, vccFlight]
    cases (me s).handler <;> simp [Function.comp_def]

/-- With traps enabled and no handler running, the handler is entered at supervisor level. -/
theorem me_takeTrap_enters {s : State} (hv : (me s).sys.trapvec.getLsbD 16 = true) (he : (me s).sys.estate.getLsbD 2 = false)
    (c : Nat) (x : BitVec 21) (a y : W64) :
    let d := me (takeTrap s c x a y)
    d.sys.priv = 1 ∧ d.trapped = true ∧ d.ctl.pc = ((me s).sys.trapvec.extractLsb' 0 16).toNat ∧ d.ctl.tgt = [] ∧ d.ctl.loops = [] ∧
    d.ctl.shTgt = (me s).ctl.tgt ∧ d.ctl.shLoops = (me s).ctl.loops ∧ d.sys.fmtPend = [] ∧
    d.sys.estate = (holdFmt (me s).sys.fmtPend (nowOf s s.cur) ((me s).sys.priv.setWidth 8 ||| 4)).1 := by
  have hn : ¬ ((me s).sys.trapvec.getLsbD 16 = false ∨ (me s).sys.estate.getLsbD 2 = true) := by
    rintro (h | h)
    · rw [hv] at h; cases h
    · rw [he] at h; cases h
  dsimp only
  unfold takeTrap
  rw [if_neg hn]
  simp

/-! ## The return from an exception -/

/-- A return restores program counter, level, target buffer and loop stack of its core. -/
theorem getCore_finishReturn (s : State) (core : Nat) (skip : Bool) :
    let c := getCore s core
    let d := getCore (finishReturn s core skip) core
    d.ctl.pc = c.sys.epc.toNat ∧ d.ctl.tgt = c.ctl.shTgt ∧ d.ctl.loops = c.ctl.shLoops ∧ d.sys.priv = c.sys.estate.extractLsb' 0 2 ∧
    d.sys.estate = (c.sys.estate &&& 0x03) ∧ d.handler = false ∧ d.trapped = false ∧ d.regs = c.regs ∧ d.flight = c.flight ∧
    d.sys.fmtPend = unholdFmt c.sys.estate c.sys.efmt (if skip then vccOf s core else vccOf s core + 1) := by
  simp [finishReturn]

end Sys2Proof.Laws
end

