-- ==== Sys2Proof/Laws/Memory.lean ====
section
/-! SUPPORT. Every operation on memory keeps the canonical form of device memory and host memory (`MemOk`), and what a read of one byte
gives after each. -/

namespace Sys2Proof.Laws

open Sys2Proof Sys2Proof.Machine

/-- A state whose memories are those of another is as canonical. -/
theorem memOk_congr {s t : State} (h : MemOk s) (hm : t.mem = s.mem) (hh : t.hostMem = s.hostMem) : MemOk t := by
  unfold MemOk; rw [hm, hh]; exact h

theorem memOk_setMem {s : State} (h : MemOk s) {m : List Host.Cell} (hm : Memory.wf m = true) {t : State} (ht : t.mem = m)
    (hh : t.hostMem = s.hostMem) : MemOk t := ⟨by rw [ht]; exact hm, by rw [hh]; exact h.2⟩

/-- A fold of steps that keep a property keeps it. -/
theorem foldl_keeps {α : Type} {P : State → Prop} {f : State → α → State} (hf : ∀ s a, P s → P (f s a)) (l : List α) {s : State}
    (h : P s) : P (l.foldl f s) := by
  induction l generalizing s with
  | nil => exact h
  | cons a r ih => exact ih (hf s a h)

theorem memOk_keepAts {s : State} (h : MemOk s) (p i g : Nat) : MemOk (keepAts s p i g) := by
  obtain ⟨a, e⟩ := keepAts_eq s p i g
  rw [e]; exact h

theorem memOk_hostWrite {s : State} (h : MemOk s) (a : Nat) (b : List Byte) : MemOk (hostWrite s a b) := by
  unfold Machine.hostWrite
  split
  · exact h
  · split
    · exact memOk_keepAts (s := { s with hostMem := cellsSet s.hostMem (_ * 4096 + a % 4096) b }) ⟨h.1, wf_cellsSet _ _ _ h.2⟩ _ _ _
    · exact memOk_keepAts h _ _ _

theorem memOk_post {s : State} (h : MemOk s) (r : Report) : MemOk (post s r) := by
  unfold Machine.post
  dsimp only
  split
  · exact h
  · exact memOk_congr (memOk_hostWrite h _ _) rfl rfl

theorem memOk_noteError {s : State} (h : MemOk s) (u : Nat) (e : ErrInfo) : MemOk (noteError s u e) := memOk_congr h (by simp) (by simp)

theorem memOk_publishError {s : State} (h : MemOk s) (u : Nat) (e : ErrInfo) : MemOk (publishError s u e) := memOk_post (memOk_noteError h u e) _

theorem memOk_endInError {s : State} (h : MemOk s) (u c : Nat) (k : BitVec 2) (n : BitVec 14) (a x : Nat) :
    MemOk (endInError s u c k n a x) := by
  have hm : ∀ f : Task → Task, MemOk (modTask s u f) := fun f => memOk_congr h (by simp) (by simp)
  unfold Machine.endInError
  split
  · exact h
  · split
    · exact h
    · dsimp only
      split
      · exact hm _
      · exact memOk_publishError (hm _) _ _

theorem memOk_takeTrap {s : State} (h : MemOk s) (c : Nat) (x : BitVec 21) (a y : W64) : MemOk (takeTrap s c x a y) := by
  unfold Machine.takeTrap
  dsimp only
  split
  · split
    · refine memOk_endInError ?_ _ _ _ _ _ _
      exact memOk_congr h rfl rfl
    · exact memOk_congr h rfl rfl
  · exact memOk_congr h rfl rfl

theorem memOk_slotTrap {s : State} (h : MemOk s) (u c : Nat) (a : W64) (i : BitVec 32) : MemOk (slotTrap s u c a i) := memOk_takeTrap h _ _ _ _

/-! ## Writes at a physical address -/

theorem sendPacket_mem (s : State) (die pa : Nat) (b : List Byte) :
    (sendPacket s die pa b).mem = s.mem ∧ (sendPacket s die pa b).hostMem = s.hostMem := by
  unfold sendPacket packetOut
  dsimp only
  split <;> exact ⟨rfl, rfl⟩

/-- Taking a line, or giving it up, changes no memory. -/
theorem takeLine_mem (s : State) (die mt pa : Nat) : (takeLine s die mt pa).mem = s.mem ∧ (takeLine s die mt pa).hostMem = s.hostMem := by
  unfold takeLine
  split
  · exact ⟨rfl, rfl⟩
  · dsimp only
    split <;> split <;> exact ⟨rfl, rfl⟩

/-- A write at a physical address keeps the canonical form. -/
theorem memOk_writePa {s t : State} (h : MemOk s) {die mt pa : Nat} {b : List Byte} (hw : writePa s die mt pa b = .ok t) : MemOk t := by
  unfold Machine.writePa at hw
  split at hw
  · split at hw
    · cases hw
    · cases hw; exact ⟨h.1, wf_cellsSet _ _ _ h.2⟩
  · dsimp only at hw
    split at hw
    · cases hw
    · split at hw
      · cases hw
      · cases hw
        split
        · exact ⟨by simpa [(sendPacket_mem _ _ _ _).1] using wf_cellsSet _ _ _ h.1, by simpa [(sendPacket_mem _ _ _ _).2] using h.2⟩
        · exact memOk_congr (s := { s with mem := cellsSet s.mem (memKey s pa) b }) ⟨wf_cellsSet _ _ _ h.1, h.2⟩
            (takeLine_mem _ _ _ _).1 (takeLine_mem _ _ _ _).2

/-- A write at a device address writes its bytes there in device memory and leaves host memory; one at a host address the reverse. -/
theorem writePa_mem {s t : State} {die mt pa : Nat} {b : List Byte} (hw : writePa s die mt pa b = .ok t) :
    (mt ≠ 2 → t.mem = cellsSet s.mem (memKey s pa) b ∧ t.hostMem = s.hostMem) ∧
    (mt = 2 → t.mem = s.mem ∧ t.hostMem = cellsSet s.hostMem (pa % 2 ^ 60) b) := by
  unfold Machine.writePa at hw
  split at hw
  · split at hw
    · cases hw
    · cases hw; exact ⟨fun hn => absurd ‹mt = 2› hn, fun _ => ⟨rfl, rfl⟩⟩
  · dsimp only at hw
    split at hw
    · cases hw
    · split at hw
      · cases hw
      · cases hw
        refine ⟨fun _ => ?_, fun he => absurd he ‹¬mt = 2›⟩
        split
        · simp [(sendPacket_mem _ _ _ _).1, (sendPacket_mem _ _ _ _).2]
        · exact takeLine_mem _ _ _ _

theorem memOk_writeParts {s : State} (h : MemOk s) (die : Nat) (c : Option Nat) (data : List Byte) (l : List Placed) (e : Option (Nat × Nat)) :
    MemOk (writeParts s die c data l e).1 := by
  induction l generalizing s e with
  | nil => exact h
  | cons p r ih =>
    unfold Machine.writeParts
    split
    · exact ih (memOk_writePa h ‹_›) _
    · exact ih h _

theorem memOk_postEcc {s : State} (h : MemOk s) (k : BitVec 2) (n : BitVec 14) (c pa : Nat) : MemOk (postEcc s k n c pa) := by
  unfold Machine.postEcc
  split
  · exact memOk_post h _
  · exact h

theorem memOk_postWalk {s : State} (h : MemOk s) (k : BitVec 2) (n : BitVec 14) (c va : Nat) : MemOk (postWalk s k n c va) := by
  unfold Machine.postWalk
  split
  · exact memOk_postEcc h _ _ _ _
  · exact h

theorem memOk_postAccess {s : State} (h : MemOk s) (k : BitVec 2) (n : BitVec 14) (c cls a x y z : Nat) :
    MemOk (postAccess s k n c cls a x y z) := by
  unfold Machine.postAccess
  refine memOk_post ?_ _
  split
  · exact memOk_postEcc h _ _ _ _
  · split
    · exact memOk_postWalk h _ _ _ _
    · exact h

theorem memOk_modTask {s : State} (h : MemOk s) (u : Nat) (f : Task → Task) : MemOk (modTask s u f) := memOk_congr h (by simp) (by simp)

/-- Keeping the host's answers changes the translation caches alone. -/
theorem noteHost_eq (s : State) (h c va : Nat) : ∃ a, noteHost s h c va = { s with ats := a } := by
  unfold noteHost
  dsimp only
  split
  · exact ⟨_, rfl⟩
  · split
    · exact keepAts_eq _ _ _ _
    · exact ⟨_, rfl⟩

theorem memOk_noteHosts {s : State} (h : MemOk s) (w : Who) (l : List Placed) : MemOk (noteHosts s w l) := by
  refine foldl_keeps (P := MemOk) (fun s p hs => ?_) _ h
  split
  · obtain ⟨a, e⟩ := noteHost_eq s w.hearth w.ctx p.va
    rw [e]; exact hs
  · exact hs

theorem memOk_saveImage {s : State} (h : MemOk s) (u core off : Nat) (b : List Byte) (e : Option (Nat × Option Nat)) : MemOk (saveImage s u core off b e) := by
  have hf : ∀ (s : State) (f : Task → Task) (c x a : Nat) (p : Option Nat), MemOk s →
      MemOk (match p with
        | some p => postAccess (modTask s u f) 0 (coreUnit core 3) x c p 1 0 0
        | none => post (modTask s u f) (mkReport 0 c 0 (coreUnit core 3) x a 1 0 0 0)) := by
    intro s f c x a p hs
    cases p with
    | none => exact memOk_post (memOk_modTask hs _ _) _
    | some p => exact memOk_postAccess (memOk_modTask hs _ _) _ _ _ _ _ _ _ _
  unfold Machine.saveImage
  cases tabFind s.tasks u with
  | none => exact h
  | some t =>
    cases e with
    | some c => exact hf _ _ _ _ _ _ h
    | none =>
      dsimp only
      generalize placeFor s _ _ _ = r
      cases r with
      | error a => exact hf _ _ _ _ 0 (some a) h
      | ok l =>
        have hw := fun w => memOk_writeParts (memOk_noteHosts h w l) (t.hearth / 24) none b l none
        dsimp only
        specialize hw { (whoTask u t false) with part := 0 }
        generalize writeParts (noteHosts s _ l) (t.hearth / 24) none b l none = w at hw ⊢
        obtain ⟨s1, o⟩ := w
        cases o with
        | none => exact hw
        | some x => exact hf _ _ _ _ 0 (some x.2) hw

/-- A task that holds its core keeps no image up to date. -/
theorem keepImage_held {s : State} {core u : Nat} (h : (getCore s core).task = some u) (off : Nat) (b : List Byte) :
    keepImage s core u off b = s := by simp [Machine.keepImage, h]

theorem memOk_keepImage {s : State} (h : MemOk s) (core u off : Nat) (b : List Byte) : MemOk (keepImage s core u off b) := by
  unfold Machine.keepImage
  split
  · exact h
  · split
    · split
      · exact memOk_saveImage h _ _ _ _ _
      · exact h
    · exact h

/-! ## Blocks, pages, tables -/

theorem memOk_zeroBlock {s : State} (h : MemOk s) (x b : Nat) : MemOk (zeroBlock s x b) := ⟨wf_filter _ _ h.1, h.2⟩

theorem memOk_touchBlock {s : State} (h : MemOk s) (u x b : Nat) : MemOk (touchBlock s u x b) := by
  unfold Machine.touchBlock
  split
  · exact h
  · exact memOk_congr (memOk_zeroBlock h x b) rfl rfl

theorem memOk_writeLeaf {s : State} (h : MemOk s) (d c va w : Nat) : MemOk (writeLeaf s d c va w) := by
  unfold Machine.writeLeaf
  split
  · exact ⟨wf_cellsSet _ _ _ h.1, h.2⟩
  · exact h

theorem memOk_zeroPage {s : State} (h : MemOk s) (pa : Nat) : MemOk (zeroPage s pa) := ⟨wf_filter _ _ h.1, h.2⟩

theorem memOk_mapPages {s : State} (h : MemOk s) (d c i n : Nat) : MemOk (mapPages s d c i n) :=
  foldl_keeps (P := MemOk) (fun _ _ hs => memOk_writeLeaf (memOk_zeroPage hs _) _ _ _ _) _ h

theorem memOk_allocate {s : State} (h : MemOk s) (d c n : Nat) (o : Option Nat) : MemOk (allocate s d c n o).1 := by
  unfold Machine.allocate
  dsimp only
  split
  · exact h
  · exact memOk_congr (memOk_mapPages h _ _ _ _) rfl rfl

theorem memOk_release {s : State} (h : MemOk s) (d c b : Nat) : MemOk (release s d c b) := by
  unfold Machine.release
  split
  · exact h
  · exact memOk_congr (foldl_keeps (P := MemOk) (fun _ _ hs => memOk_writeLeaf hs _ _ _ _) _ h) rfl rfl

theorem memOk_zeroScratch {s : State} (h : MemOk s) (x : Nat) : MemOk (zeroScratch s x) := ⟨wf_filter _ _ h.1, h.2⟩

/-- What a new start leaves of memory is canonical. -/
theorem wf_freeMemory {s : State} (h : MemOk s) : Memory.wf (freeMemory s) = true := wf_mapFilter _ _ h.1

theorem memOk_cleared {s : State} (h : MemOk s) : MemOk (cleared s) := ⟨wf_freeMemory h, h.2⟩

/-! ## Reading one byte -/

/-- A byte of a scratchpad whose block was cleared. -/
theorem cellGet_zeroBlock (s : State) (x b a : Nat) :
    cellGet (zeroBlock s x b).mem a =
      if a < scratchOff x (b * 4096) ∨ scratchOff x (b * 4096) + 4096 ≤ a then cellGet s.mem a else 0 := by
  have := cellGet_filter s.mem (fun k => decide (k < scratchOff x (b * 4096)) || decide (scratchOff x (b * 4096) + 4096 ≤ k)) a
  simpa [Machine.zeroBlock] using this

end Sys2Proof.Laws
end

