-- ==== Sys2Proof/Laws/Words.lean ====
section
/-! SUPPORT. What the fields of a slot word read as, one lemma per layout of spec/03 R46: a word put together from an
instruction's fields gives each field, its unit, its format bits and its opcode back. -/

set_option linter.unusedSimpArgs false

namespace Sys2Proof

theorem toNat_appendMul {n m : Nat} (x : BitVec n) (y : BitVec m) : (x ++ y).toNat = x.toNat * 2 ^ m + y.toNat := by
  rw [BitVec.toNat_append, ← Nat.shiftLeft_add_eq_or_of_lt y.isLt, Nat.shiftLeft_eq]

theorem SROp.word_fields {o : SROp} {op : BitVec 7} {w : W32} (h : w = o.e ++ o.u ++ o.g ++ 0#1 ++ op ++ o.d ++ o.a ++ o.b) :
    SROp.ofWord w = o ∧ w.extractLsb' 27 4 = o.u ∧ w.extractLsb' 22 1 = 0#1 ∧ w.extractLsb' 15 7 = op := by
  subst h
  obtain ⟨e, u, g, d, a, b⟩ := o
  simp only [SROp.ofWord, SROp.mk.injEq, ← BitVec.toNat_inj, BitVec.extractLsb'_toNat, toNat_appendMul, Nat.shiftRight_eq_div_pow,
    BitVec.toNat_ofNat]
  have := e.isLt; have := u.isLt; have := g.isLt; have := d.isLt; have := a.isLt; have := b.isLt; have := op.isLt
  simp only [Nat.reducePow, Nat.reduceMod, Nat.div_one] at *
  omega

theorem SIOp.word_fields {o : SIOp} {op : BitVec 4} {w : W32} (h : w = o.e ++ o.u ++ o.g ++ 2#2 ++ op ++ o.d ++ o.a ++ o.imm) :
    SIOp.ofWord w = o ∧ w.extractLsb' 27 4 = o.u ∧ w.extractLsb' 22 1 = 1#1 ∧ w.extractLsb' 21 1 = 0#1 ∧ w.extractLsb' 17 4 = op := by
  subst h
  obtain ⟨e, u, g, d, a, imm⟩ := o
  simp only [SIOp.ofWord, SIOp.mk.injEq, ← BitVec.toNat_inj, BitVec.extractLsb'_toNat, toNat_appendMul, Nat.shiftRight_eq_div_pow,
    BitVec.toNat_ofNat]
  have := e.isLt; have := u.isLt; have := g.isLt; have := d.isLt; have := a.isLt; have := imm.isLt; have := op.isLt
  simp only [Nat.reducePow, Nat.reduceMod, Nat.div_one] at *
  omega

theorem SKOp.word_fields {o : SKOp} {op : BitVec 1} {w : W32} (h : w = o.e ++ o.u ++ o.g ++ 3#2 ++ op ++ o.d ++ o.imm) :
    SKOp.ofWord w = o ∧ w.extractLsb' 27 4 = o.u ∧ w.extractLsb' 22 1 = 1#1 ∧ w.extractLsb' 21 1 = 1#1 ∧ w.extractLsb' 20 1 = op := by
  subst h
  obtain ⟨e, u, g, d, imm⟩ := o
  simp only [SKOp.ofWord, SKOp.mk.injEq, ← BitVec.toNat_inj, BitVec.extractLsb'_toNat, toNat_appendMul, Nat.shiftRight_eq_div_pow,
    BitVec.toNat_ofNat]
  have := e.isLt; have := u.isLt; have := g.isLt; have := d.isLt; have := imm.isLt; have := op.isLt
  simp only [Nat.reducePow, Nat.reduceMod, Nat.div_one] at *
  omega

theorem VOp.word_fields {o : VOp} {op : BitVec 6} {w : W32} (h : w = o.e ++ o.u ++ o.g ++ op ++ o.w ++ o.d ++ o.a ++ o.b) :
    VOp.ofWord w = o ∧ w.extractLsb' 27 4 = o.u ∧ w.extractLsb' 17 6 = op := by
  subst h
  obtain ⟨e, u, g, w, d, a, b⟩ := o
  simp only [VOp.ofWord, VOp.mk.injEq, ← BitVec.toNat_inj, BitVec.extractLsb'_toNat, toNat_appendMul, Nat.shiftRight_eq_div_pow,
    BitVec.toNat_ofNat]
  have := e.isLt; have := u.isLt; have := g.isLt; have := w.isLt; have := d.isLt; have := a.isLt; have := b.isLt; have := op.isLt
  simp only [Nat.reducePow, Nat.reduceMod, Nat.div_one] at *
  omega

theorem FOp.word_fields {o : FOp} {op : BitVec 8} {w : W32} (h : w = o.e ++ 10#4 ++ o.g ++ op ++ o.d ++ o.a ++ o.b) :
    FOp.ofWord w = o ∧ w.extractLsb' 27 4 = 10#4 ∧ w.extractLsb' 15 8 = op := by
  subst h
  obtain ⟨e, g, d, a, b⟩ := o
  simp only [FOp.ofWord, FOp.mk.injEq, ← BitVec.toNat_inj, BitVec.extractLsb'_toNat, toNat_appendMul, Nat.shiftRight_eq_div_pow,
    BitVec.toNat_ofNat]
  have := e.isLt; have := g.isLt; have := d.isLt; have := a.isLt; have := b.isLt; have := op.isLt
  simp only [Nat.reducePow, Nat.reduceMod, Nat.div_one] at *
  omega

theorem MCallOp.word_fields {o : MCallOp} {w : W32} (h : w = o.e ++ 5#4 ++ o.g ++ 0#4 ++ o.routine ++ o.tok ++ o.list) :
    MCallOp.ofWord w = o ∧ w.extractLsb' 27 4 = 5#4 ∧ w.extractLsb' 19 4 = 0#4 := by
  subst h
  obtain ⟨e, g, routine, tok, list⟩ := o
  simp only [MCallOp.ofWord, MCallOp.mk.injEq, ← BitVec.toNat_inj, BitVec.extractLsb'_toNat, toNat_appendMul, Nat.shiftRight_eq_div_pow,
    BitVec.toNat_ofNat]
  have := e.isLt; have := g.isLt; have := routine.isLt; have := tok.isLt; have := list.isLt
  simp only [Nat.reducePow, Nat.reduceMod, Nat.div_one] at *
  omega

theorem MClrOp.word_fields {o : MClrOp} {w : W32} (h : w = o.e ++ 5#4 ++ o.g ++ 1#4 ++ o.mask ++ o.tok ++ 0#5) :
    MClrOp.ofWord w = o ∧ w.extractLsb' 27 4 = 5#4 ∧ w.extractLsb' 19 4 = 1#4 := by
  subst h
  obtain ⟨e, g, mask, tok⟩ := o
  simp only [MClrOp.ofWord, MClrOp.mk.injEq, ← BitVec.toNat_inj, BitVec.extractLsb'_toNat, toNat_appendMul, Nat.shiftRight_eq_div_pow,
    BitVec.toNat_ofNat]
  have := e.isLt; have := g.isLt; have := mask.isLt; have := tok.isLt
  simp only [Nat.reducePow, Nat.reduceMod, Nat.div_one] at *
  omega

theorem MStatOp.word_fields {o : MStatOp} {w : W32} (h : w = o.e ++ 5#4 ++ o.g ++ 2#4 ++ 0#3 ++ o.tok ++ o.a ++ 0#5) :
    MStatOp.ofWord w = o ∧ w.extractLsb' 27 4 = 5#4 ∧ w.extractLsb' 19 4 = 2#4 := by
  subst h
  obtain ⟨e, g, tok, a⟩ := o
  simp only [MStatOp.ofWord, MStatOp.mk.injEq, ← BitVec.toNat_inj, BitVec.extractLsb'_toNat, toNat_appendMul, Nat.shiftRight_eq_div_pow,
    BitVec.toNat_ofNat]
  have := e.isLt; have := g.isLt; have := tok.isLt; have := a.isLt
  simp only [Nat.reducePow, Nat.reduceMod, Nat.div_one] at *
  omega

theorem MSigOp.word_fields {o : MSigOp} {w : W32} (h : w = o.e ++ 5#4 ++ o.g ++ 3#4 ++ o.tile ++ o.tok ++ o.a ++ 0#5) :
    MSigOp.ofWord w = o ∧ w.extractLsb' 27 4 = 5#4 ∧ w.extractLsb' 19 4 = 3#4 := by
  subst h
  obtain ⟨e, g, tile, tok, a⟩ := o
  simp only [MSigOp.ofWord, MSigOp.mk.injEq, ← BitVec.toNat_inj, BitVec.extractLsb'_toNat, toNat_appendMul, Nat.shiftRight_eq_div_pow,
    BitVec.toNat_ofNat]
  have := e.isLt; have := g.isLt; have := tile.isLt; have := tok.isLt; have := a.isLt
  simp only [Nat.reducePow, Nat.reduceMod, Nat.div_one] at *
  omega

theorem MAbortOp.word_fields {o : MAbortOp} {w : W32} (h : w = o.e ++ 5#4 ++ o.g ++ 4#4 ++ 0#19) :
    MAbortOp.ofWord w = o ∧ w.extractLsb' 27 4 = 5#4 ∧ w.extractLsb' 19 4 = 4#4 := by
  subst h
  obtain ⟨e, g⟩ := o
  simp only [MAbortOp.ofWord, MAbortOp.mk.injEq, ← BitVec.toNat_inj, BitVec.extractLsb'_toNat, toNat_appendMul, Nat.shiftRight_eq_div_pow,
    BitVec.toNat_ofNat]
  have := e.isLt; have := g.isLt
  simp only [Nat.reducePow, Nat.reduceMod, Nat.div_one] at *
  omega

theorem MLoadOp.word_fields {o : MLoadOp} {w : W32} (h : w = o.e ++ 5#4 ++ o.g ++ 5#4 ++ 0#3 ++ o.tok ++ o.a ++ o.b) :
    MLoadOp.ofWord w = o ∧ w.extractLsb' 27 4 = 5#4 ∧ w.extractLsb' 19 4 = 5#4 := by
  subst h
  obtain ⟨e, g, tok, a, b⟩ := o
  simp only [MLoadOp.ofWord, MLoadOp.mk.injEq, ← BitVec.toNat_inj, BitVec.extractLsb'_toNat, toNat_appendMul, Nat.shiftRight_eq_div_pow,
    BitVec.toNat_ofNat]
  have := e.isLt; have := g.isLt; have := tok.isLt; have := a.isLt; have := b.isLt
  simp only [Nat.reducePow, Nat.reduceMod, Nat.div_one] at *
  omega

theorem LOp.word_fields {o : LOp} {op : BitVec 6} {w : W32} (h : w = o.e ++ o.u ++ o.g ++ op ++ o.f3 ++ o.d ++ o.a ++ o.m4) :
    LOp.ofWord w = o ∧ w.extractLsb' 27 4 = o.u ∧ w.extractLsb' 17 6 = op := by
  subst h
  obtain ⟨e, u, g, f3, d, a, m4⟩ := o
  simp only [LOp.ofWord, LOp.mk.injEq, ← BitVec.toNat_inj, BitVec.extractLsb'_toNat, toNat_appendMul, Nat.shiftRight_eq_div_pow,
    BitVec.toNat_ofNat]
  have := e.isLt; have := u.isLt; have := g.isLt; have := f3.isLt; have := d.isLt; have := a.isLt; have := m4.isLt; have := op.isLt
  simp only [Nat.reducePow, Nat.reduceMod, Nat.div_one] at *
  omega

theorem FenceOp.word_fields {o : FenceOp} {w : W32} (h : w = o.e ++ o.u ++ o.g ++ 36#6 ++ o.pred ++ o.succ ++ o.scope ++ 0#2) :
    FenceOp.ofWord w = o ∧ w.extractLsb' 27 4 = o.u ∧ w.extractLsb' 17 6 = 36#6 := by
  subst h
  obtain ⟨e, u, g, pred, succ, scope⟩ := o
  simp only [FenceOp.ofWord, FenceOp.mk.injEq, ← BitVec.toNat_inj, BitVec.extractLsb'_toNat, toNat_appendMul, Nat.shiftRight_eq_div_pow,
    BitVec.toNat_ofNat]
  have := e.isLt; have := u.isLt; have := g.isLt; have := pred.isLt; have := succ.isLt; have := scope.isLt
  simp only [Nat.reducePow, Nat.reduceMod, Nat.div_one] at *
  omega

theorem COp.word_fields {o : COp} {op : BitVec 4} {w : W32} (h : w = o.e ++ o.u ++ o.g ++ op ++ o.h ++ o.tok ++ o.list ++ o.aux) :
    COp.ofWord w = o ∧ w.extractLsb' 27 4 = o.u ∧ w.extractLsb' 19 4 = op := by
  subst h
  obtain ⟨e, u, g, h, tok, list, aux⟩ := o
  simp only [COp.ofWord, COp.mk.injEq, ← BitVec.toNat_inj, BitVec.extractLsb'_toNat, toNat_appendMul, Nat.shiftRight_eq_div_pow,
    BitVec.toNat_ofNat]
  have := e.isLt; have := u.isLt; have := g.isLt; have := h.isLt; have := tok.isLt; have := list.isLt; have := aux.isLt; have := op.isLt
  simp only [Nat.reducePow, Nat.reduceMod, Nat.div_one] at *
  omega

theorem PrepOp.word_fields {o : PrepOp} {w : W32} (h : w = o.e ++ 11#4 ++ o.g ++ 0#1 ++ 0#1 ++ o.entry ++ o.dist ++ o.off) :
    PrepOp.ofWord w = o ∧ w.extractLsb' 27 4 = 11#4 ∧ w.extractLsb' 22 1 = 0#1 ∧ w.extractLsb' 21 1 = 0#1 := by
  subst h
  obtain ⟨e, g, entry, dist, off⟩ := o
  simp only [PrepOp.ofWord, PrepOp.mk.injEq, ← BitVec.toNat_inj, BitVec.extractLsb'_toNat, toNat_appendMul, Nat.shiftRight_eq_div_pow,
    BitVec.toNat_ofNat]
  have := e.isLt; have := g.isLt; have := entry.isLt; have := dist.isLt; have := off.isLt
  simp only [Nat.reducePow, Nat.reduceMod, Nat.div_one] at *
  omega

theorem PrepOp.word_fields2 {o : PrepOp} {w : W32} (h : w = o.e ++ 11#4 ++ o.g ++ 0#1 ++ 1#1 ++ o.entry ++ o.dist ++ o.off) :
    PrepOp.ofWord w = o ∧ w.extractLsb' 27 4 = 11#4 ∧ w.extractLsb' 22 1 = 0#1 ∧ w.extractLsb' 21 1 = 1#1 := by
  subst h
  obtain ⟨e, g, entry, dist, off⟩ := o
  simp only [PrepOp.ofWord, PrepOp.mk.injEq, ← BitVec.toNat_inj, BitVec.extractLsb'_toNat, toNat_appendMul, Nat.shiftRight_eq_div_pow,
    BitVec.toNat_ofNat]
  have := e.isLt; have := g.isLt; have := entry.isLt; have := dist.isLt; have := off.isLt
  simp only [Nat.reducePow, Nat.reduceMod, Nat.div_one] at *
  omega

theorem PrepXOp.word_fields {o : PrepXOp} {op : BitVec 6} {w : W32} (h : w = o.e ++ 11#4 ++ o.g ++ 1#1 ++ op ++ o.entry ++ o.dist ++ o.a ++ 0#5) :
    PrepXOp.ofWord w = o ∧ w.extractLsb' 27 4 = 11#4 ∧ w.extractLsb' 22 1 = 1#1 ∧ w.extractLsb' 16 6 = op := by
  subst h
  obtain ⟨e, g, entry, dist, a⟩ := o
  simp only [PrepXOp.ofWord, PrepXOp.mk.injEq, ← BitVec.toNat_inj, BitVec.extractLsb'_toNat, toNat_appendMul, Nat.shiftRight_eq_div_pow,
    BitVec.toNat_ofNat]
  have := e.isLt; have := g.isLt; have := entry.isLt; have := dist.isLt; have := a.isLt; have := op.isLt
  simp only [Nat.reducePow, Nat.reduceMod, Nat.div_one] at *
  omega

theorem RetOp.word_fields {o : RetOp} {op : BitVec 6} {w : W32} (h : w = o.e ++ 11#4 ++ o.g ++ 1#1 ++ op ++ o.entry ++ o.dist ++ 0#10) :
    RetOp.ofWord w = o ∧ w.extractLsb' 27 4 = 11#4 ∧ w.extractLsb' 22 1 = 1#1 ∧ w.extractLsb' 16 6 = op := by
  subst h
  obtain ⟨e, g, entry, dist⟩ := o
  simp only [RetOp.ofWord, RetOp.mk.injEq, ← BitVec.toNat_inj, BitVec.extractLsb'_toNat, toNat_appendMul, Nat.shiftRight_eq_div_pow,
    BitVec.toNat_ofNat]
  have := e.isLt; have := g.isLt; have := entry.isLt; have := dist.isLt; have := op.isLt
  simp only [Nat.reducePow, Nat.reduceMod, Nat.div_one] at *
  omega

theorem LoopOp.word_fields {o : LoopOp} {op : BitVec 6} {w : W32} (h : w = o.e ++ 11#4 ++ o.g ++ 1#1 ++ op ++ o.a ++ o.off) :
    LoopOp.ofWord w = o ∧ w.extractLsb' 27 4 = 11#4 ∧ w.extractLsb' 22 1 = 1#1 ∧ w.extractLsb' 16 6 = op := by
  subst h
  obtain ⟨e, g, a, off⟩ := o
  simp only [LoopOp.ofWord, LoopOp.mk.injEq, ← BitVec.toNat_inj, BitVec.extractLsb'_toNat, toNat_appendMul, Nat.shiftRight_eq_div_pow,
    BitVec.toNat_ofNat]
  have := e.isLt; have := g.isLt; have := a.isLt; have := off.isLt; have := op.isLt
  simp only [Nat.reducePow, Nat.reduceMod, Nat.div_one] at *
  omega

theorem LoopIOp.word_fields {o : LoopIOp} {op : BitVec 6} {w : W32} (h : w = o.e ++ 11#4 ++ o.g ++ 1#1 ++ op ++ o.count ++ o.off) :
    LoopIOp.ofWord w = o ∧ w.extractLsb' 27 4 = 11#4 ∧ w.extractLsb' 22 1 = 1#1 ∧ w.extractLsb' 16 6 = op := by
  subst h
  obtain ⟨e, g, count, off⟩ := o
  simp only [LoopIOp.ofWord, LoopIOp.mk.injEq, ← BitVec.toNat_inj, BitVec.extractLsb'_toNat, toNat_appendMul, Nat.shiftRight_eq_div_pow,
    BitVec.toNat_ofNat]
  have := e.isLt; have := g.isLt; have := count.isLt; have := off.isLt; have := op.isLt
  simp only [Nat.reducePow, Nat.reduceMod, Nat.div_one] at *
  omega

theorem CodeOp.word_fields {o : CodeOp} {op : BitVec 6} {w : W32} (h : w = o.e ++ 11#4 ++ o.g ++ 1#1 ++ op ++ o.code) :
    CodeOp.ofWord w = o ∧ w.extractLsb' 27 4 = 11#4 ∧ w.extractLsb' 22 1 = 1#1 ∧ w.extractLsb' 16 6 = op := by
  subst h
  obtain ⟨e, g, code⟩ := o
  simp only [CodeOp.ofWord, CodeOp.mk.injEq, ← BitVec.toNat_inj, BitVec.extractLsb'_toNat, toNat_appendMul, Nat.shiftRight_eq_div_pow,
    BitVec.toNat_ofNat]
  have := e.isLt; have := g.isLt; have := code.isLt; have := op.isLt
  simp only [Nat.reducePow, Nat.reduceMod, Nat.div_one] at *
  omega

theorem PlainOp.word_fields {o : PlainOp} {op : BitVec 6} {w : W32} (h : w = o.e ++ 11#4 ++ o.g ++ 1#1 ++ op ++ 0#16) :
    PlainOp.ofWord w = o ∧ w.extractLsb' 27 4 = 11#4 ∧ w.extractLsb' 22 1 = 1#1 ∧ w.extractLsb' 16 6 = op ∧ w.extractLsb' 0 1 = 0#1 := by
  subst h
  obtain ⟨e, g⟩ := o
  simp only [PlainOp.ofWord, PlainOp.mk.injEq, ← BitVec.toNat_inj, BitVec.extractLsb'_toNat, toNat_appendMul, Nat.shiftRight_eq_div_pow,
    BitVec.toNat_ofNat]
  have := e.isLt; have := g.isLt; have := op.isLt
  simp only [Nat.reducePow, Nat.reduceMod, Nat.div_one] at *
  omega

theorem PlainOp.word_fields2 {o : PlainOp} {op : BitVec 6} {w : W32} (h : w = o.e ++ 11#4 ++ o.g ++ 1#1 ++ op ++ 1#16) :
    PlainOp.ofWord w = o ∧ w.extractLsb' 27 4 = 11#4 ∧ w.extractLsb' 22 1 = 1#1 ∧ w.extractLsb' 16 6 = op ∧ w.extractLsb' 0 1 = 1#1 := by
  subst h
  obtain ⟨e, g⟩ := o
  simp only [PlainOp.ofWord, PlainOp.mk.injEq, ← BitVec.toNat_inj, BitVec.extractLsb'_toNat, toNat_appendMul, Nat.shiftRight_eq_div_pow,
    BitVec.toNat_ofNat]
  have := e.isLt; have := g.isLt; have := op.isLt
  simp only [Nat.reducePow, Nat.reduceMod, Nat.div_one] at *
  omega

theorem TWaitOp.word_fields {o : TWaitOp} {op : BitVec 6} {w : W32} (h : w = o.e ++ 11#4 ++ o.g ++ 1#1 ++ op ++ o.tok ++ 0#10) :
    TWaitOp.ofWord w = o ∧ w.extractLsb' 27 4 = 11#4 ∧ w.extractLsb' 22 1 = 1#1 ∧ w.extractLsb' 16 6 = op := by
  subst h
  obtain ⟨e, g, tok⟩ := o
  simp only [TWaitOp.ofWord, TWaitOp.mk.injEq, ← BitVec.toNat_inj, BitVec.extractLsb'_toNat, toNat_appendMul, Nat.shiftRight_eq_div_pow,
    BitVec.toNat_ofNat]
  have := e.isLt; have := g.isLt; have := tok.isLt; have := op.isLt
  simp only [Nat.reducePow, Nat.reduceMod, Nat.div_one] at *
  omega

theorem TPollOp.word_fields {o : TPollOp} {op : BitVec 6} {w : W32} (h : w = o.e ++ 11#4 ++ o.g ++ 1#1 ++ op ++ o.tok ++ o.d ++ 0#2 ++ o.m) :
    TPollOp.ofWord w = o ∧ w.extractLsb' 27 4 = 11#4 ∧ w.extractLsb' 22 1 = 1#1 ∧ w.extractLsb' 16 6 = op := by
  subst h
  obtain ⟨e, g, tok, d, m⟩ := o
  simp only [TPollOp.ofWord, TPollOp.mk.injEq, ← BitVec.toNat_inj, BitVec.extractLsb'_toNat, toNat_appendMul, Nat.shiftRight_eq_div_pow,
    BitVec.toNat_ofNat]
  have := e.isLt; have := g.isLt; have := tok.isLt; have := d.isLt; have := m.isLt; have := op.isLt
  simp only [Nat.reducePow, Nat.reduceMod, Nat.div_one] at *
  omega

theorem WaitWpOp.word_fields {o : WaitWpOp} {op : BitVec 6} {w : W32} (h : w = o.e ++ 11#4 ++ o.g ++ 1#1 ++ op ++ o.ch ++ o.a ++ 0#10) :
    WaitWpOp.ofWord w = o ∧ w.extractLsb' 27 4 = 11#4 ∧ w.extractLsb' 22 1 = 1#1 ∧ w.extractLsb' 16 6 = op := by
  subst h
  obtain ⟨e, g, ch, a⟩ := o
  simp only [WaitWpOp.ofWord, WaitWpOp.mk.injEq, ← BitVec.toNat_inj, BitVec.extractLsb'_toNat, toNat_appendMul, Nat.shiftRight_eq_div_pow,
    BitVec.toNat_ofNat]
  have := e.isLt; have := g.isLt; have := ch.isLt; have := a.isLt; have := op.isLt
  simp only [Nat.reducePow, Nat.reduceMod, Nat.div_one] at *
  omega

theorem RegOp.word_fields {o : RegOp} {op : BitVec 6} {w : W32} (h : w = o.e ++ 11#4 ++ o.g ++ 1#1 ++ op ++ o.a ++ 0#11) :
    RegOp.ofWord w = o ∧ w.extractLsb' 27 4 = 11#4 ∧ w.extractLsb' 22 1 = 1#1 ∧ w.extractLsb' 16 6 = op := by
  subst h
  obtain ⟨e, g, a⟩ := o
  simp only [RegOp.ofWord, RegOp.mk.injEq, ← BitVec.toNat_inj, BitVec.extractLsb'_toNat, toNat_appendMul, Nat.shiftRight_eq_div_pow,
    BitVec.toNat_ofNat]
  have := e.isLt; have := g.isLt; have := a.isLt; have := op.isLt
  simp only [Nat.reducePow, Nat.reduceMod, Nat.div_one] at *
  omega

theorem SetBankOp.word_fields {o : SetBankOp} {op : BitVec 6} {w : W32} (h : w = o.e ++ 11#4 ++ o.g ++ 1#1 ++ op ++ o.f ++ 0#6 ++ o.delta) :
    SetBankOp.ofWord w = o ∧ w.extractLsb' 27 4 = 11#4 ∧ w.extractLsb' 22 1 = 1#1 ∧ w.extractLsb' 16 6 = op := by
  subst h
  obtain ⟨e, g, f, delta⟩ := o
  simp only [SetBankOp.ofWord, SetBankOp.mk.injEq, ← BitVec.toNat_inj, BitVec.extractLsb'_toNat, toNat_appendMul, Nat.shiftRight_eq_div_pow,
    BitVec.toNat_ofNat]
  have := e.isLt; have := g.isLt; have := f.isLt; have := delta.isLt; have := op.isLt
  simp only [Nat.reducePow, Nat.reduceMod, Nat.div_one] at *
  omega

theorem SysOp.word_fields {o : SysOp} {op : BitVec 6} {w : W32} (h : w = o.e ++ 11#4 ++ o.g ++ 1#1 ++ op ++ o.idx ++ o.file ++ o.r) :
    SysOp.ofWord w = o ∧ w.extractLsb' 27 4 = 11#4 ∧ w.extractLsb' 22 1 = 1#1 ∧ w.extractLsb' 16 6 = op := by
  subst h
  obtain ⟨e, g, idx, file, r⟩ := o
  simp only [SysOp.ofWord, SysOp.mk.injEq, ← BitVec.toNat_inj, BitVec.extractLsb'_toNat, toNat_appendMul, Nat.shiftRight_eq_div_pow,
    BitVec.toNat_ofNat]
  have := e.isLt; have := g.isLt; have := idx.isLt; have := file.isLt; have := r.isLt; have := op.isLt
  simp only [Nat.reducePow, Nat.reduceMod, Nat.div_one] at *
  omega

theorem OvlOp.word_fields {o : OvlOp} {op : BitVec 6} {w : W32} (h : w = o.e ++ 11#4 ++ o.g ++ 1#1 ++ op ++ o.n ++ 0#8) :
    OvlOp.ofWord w = o ∧ w.extractLsb' 27 4 = 11#4 ∧ w.extractLsb' 22 1 = 1#1 ∧ w.extractLsb' 16 6 = op := by
  subst h
  obtain ⟨e, g, n⟩ := o
  simp only [OvlOp.ofWord, OvlOp.mk.injEq, ← BitVec.toNat_inj, BitVec.extractLsb'_toNat, toNat_appendMul, Nat.shiftRight_eq_div_pow,
    BitVec.toNat_ofNat]
  have := e.isLt; have := g.isLt; have := n.isLt; have := op.isLt
  simp only [Nat.reducePow, Nat.reduceMod, Nat.div_one] at *
  omega

theorem KeyOp.word_fields {o : KeyOp} {op : BitVec 6} {w : W32} (h : w = o.e ++ 11#4 ++ o.g ++ 1#1 ++ op ++ o.a ++ o.key ++ 0#3) :
    KeyOp.ofWord w = o ∧ w.extractLsb' 27 4 = 11#4 ∧ w.extractLsb' 22 1 = 1#1 ∧ w.extractLsb' 16 6 = op := by
  subst h
  obtain ⟨e, g, a, key⟩ := o
  simp only [KeyOp.ofWord, KeyOp.mk.injEq, ← BitVec.toNat_inj, BitVec.extractLsb'_toNat, toNat_appendMul, Nat.shiftRight_eq_div_pow,
    BitVec.toNat_ofNat]
  have := e.isLt; have := g.isLt; have := a.isLt; have := key.isLt; have := op.isLt
  simp only [Nat.reducePow, Nat.reduceMod, Nat.div_one] at *
  omega

theorem PredictOp.word_fields {o : PredictOp} {op : BitVec 6} {w : W32} (h : w = o.e ++ 11#4 ++ o.g ++ 1#1 ++ op ++ o.mode ++ o.a ++ o.key ++ 0#1) :
    PredictOp.ofWord w = o ∧ w.extractLsb' 27 4 = 11#4 ∧ w.extractLsb' 22 1 = 1#1 ∧ w.extractLsb' 16 6 = op := by
  subst h
  obtain ⟨e, g, mode, a, key⟩ := o
  simp only [PredictOp.ofWord, PredictOp.mk.injEq, ← BitVec.toNat_inj, BitVec.extractLsb'_toNat, toNat_appendMul, Nat.shiftRight_eq_div_pow,
    BitVec.toNat_ofNat]
  have := e.isLt; have := g.isLt; have := mode.isLt; have := a.isLt; have := key.isLt; have := op.isLt
  simp only [Nat.reducePow, Nat.reduceMod, Nat.div_one] at *
  omega

theorem AllocOp.word_fields {o : AllocOp} {op : BitVec 6} {w : W32} (h : w = o.e ++ 11#4 ++ o.g ++ 1#1 ++ op ++ o.a ++ o.b ++ 0#6) :
    AllocOp.ofWord w = o ∧ w.extractLsb' 27 4 = 11#4 ∧ w.extractLsb' 22 1 = 1#1 ∧ w.extractLsb' 16 6 = op := by
  subst h
  obtain ⟨e, g, a, b⟩ := o
  simp only [AllocOp.ofWord, AllocOp.mk.injEq, ← BitVec.toNat_inj, BitVec.extractLsb'_toNat, toNat_appendMul, Nat.shiftRight_eq_div_pow,
    BitVec.toNat_ofNat]
  have := e.isLt; have := g.isLt; have := a.isLt; have := b.isLt; have := op.isLt
  simp only [Nat.reducePow, Nat.reduceMod, Nat.div_one] at *
  omega

theorem EventOp.word_fields {o : EventOp} {op : BitVec 6} {w : W32} (h : w = o.e ++ 11#4 ++ o.g ++ 1#1 ++ op ++ 0#2 ++ o.a ++ 0#9) :
    EventOp.ofWord w = o ∧ w.extractLsb' 27 4 = 11#4 ∧ w.extractLsb' 22 1 = 1#1 ∧ w.extractLsb' 16 6 = op ∧ w.extractLsb' 14 1 = 0#1 := by
  subst h
  obtain ⟨e, g, a⟩ := o
  simp only [EventOp.ofWord, EventOp.mk.injEq, ← BitVec.toNat_inj, BitVec.extractLsb'_toNat, toNat_appendMul, Nat.shiftRight_eq_div_pow,
    BitVec.toNat_ofNat]
  have := e.isLt; have := g.isLt; have := a.isLt; have := op.isLt
  simp only [Nat.reducePow, Nat.reduceMod, Nat.div_one] at *
  omega

theorem EventOp.word_fields2 {o : EventOp} {op : BitVec 6} {w : W32} (h : w = o.e ++ 11#4 ++ o.g ++ 1#1 ++ op ++ 1#2 ++ o.a ++ 0#9) :
    EventOp.ofWord w = o ∧ w.extractLsb' 27 4 = 11#4 ∧ w.extractLsb' 22 1 = 1#1 ∧ w.extractLsb' 16 6 = op ∧ w.extractLsb' 14 1 = 1#1 := by
  subst h
  obtain ⟨e, g, a⟩ := o
  simp only [EventOp.ofWord, EventOp.mk.injEq, ← BitVec.toNat_inj, BitVec.extractLsb'_toNat, toNat_appendMul, Nat.shiftRight_eq_div_pow,
    BitVec.toNat_ofNat]
  have := e.isLt; have := g.isLt; have := a.isLt; have := op.isLt
  simp only [Nat.reducePow, Nat.reduceMod, Nat.div_one] at *
  omega

theorem unitS_toNat {u : BitVec 4} (h : Machine.unitS u = true) : u.toNat = 0 ∨ u.toNat = 1 := by
  revert h; revert u; decide

theorem unitV_toNat {u : BitVec 4} {x : BitVec 2} (h : Machine.unitV u x = true) : u.toNat = 2 ∨ u.toNat = 3 ∨ u.toNat = 4 := by
  revert h; revert x; revert u; decide

theorem unitL_toNat {u : BitVec 4} (h : Machine.unitL u = true) : u.toNat = 6 ∨ u.toNat = 7 := by
  revert h; revert u; decide

theorem unitC_toNat {u : BitVec 4} (h : Machine.unitC u = true) : u.toNat = 8 ∨ u.toNat = 9 := by
  revert h; revert u; decide

theorem SROp.word_decodes {o : SROp} {op : BitVec 7} {w : W32} (h : w = o.e ++ o.u ++ o.g ++ 0#1 ++ op ++ o.d ++ o.a ++ o.b) (hu : Machine.unitS o.u = true)
    {i : Instr} (hi : opSR op o = some i) : decodeOp w = .ok i := by
  obtain ⟨h1, h2, h3, h4⟩ := SROp.word_fields h
  obtain hu | hu := unitS_toNat hu <;> simp [decodeOp, h1, h2, h3, h4, hu, hi]

theorem SIOp.word_decodes {o : SIOp} {op : BitVec 4} {w : W32} (h : w = o.e ++ o.u ++ o.g ++ 2#2 ++ op ++ o.d ++ o.a ++ o.imm) (hu : Machine.unitS o.u = true)
    {i : Instr} (hi : opSI op o = some i) : decodeOp w = .ok i := by
  obtain ⟨h1, h2, h3, h4, h5⟩ := SIOp.word_fields h
  obtain hu | hu := unitS_toNat hu <;> simp [decodeOp, h1, h2, h3, h4, h5, hu, hi]

theorem SKOp.word_decodes {o : SKOp} {op : BitVec 1} {w : W32} (h : w = o.e ++ o.u ++ o.g ++ 3#2 ++ op ++ o.d ++ o.imm) (hu : Machine.unitS o.u = true)
    {i : Instr} (hi : opSK op o = some i) : decodeOp w = .ok i := by
  obtain ⟨h1, h2, h3, h4, h5⟩ := SKOp.word_fields h
  obtain hu | hu := unitS_toNat hu <;> simp [decodeOp, h1, h2, h3, h4, h5, hu, hi]

theorem VOp.word_decodes {o : VOp} {op : BitVec 6} {x : BitVec 2} {w : W32} (h : w = o.e ++ o.u ++ o.g ++ op ++ o.w ++ o.d ++ o.a ++ o.b) (hu : Machine.unitV o.u x = true)
    {i : Instr} (hi : opV op o = some i) : decodeOp w = .ok i := by
  obtain ⟨h1, h2, h3⟩ := VOp.word_fields h
  obtain hu | hu | hu := unitV_toNat hu <;> simp [decodeOp, h1, h2, h3, hu, hi]

theorem FOp.word_decodes {o : FOp} {op : BitVec 8} {w : W32} (h : w = o.e ++ 10#4 ++ o.g ++ op ++ o.d ++ o.a ++ o.b)
    {i : Instr} (hi : opF op o = some i) : decodeOp w = .ok i := by
  obtain ⟨h1, h2, h3⟩ := FOp.word_fields h
  simp [decodeOp, h1, h2, h3, hi]

theorem LOp.word_decodes {o : LOp} {op : BitVec 6} {w : W32} (h : w = o.e ++ o.u ++ o.g ++ op ++ o.f3 ++ o.d ++ o.a ++ o.m4) (hu : Machine.unitL o.u = true)
    {i : Instr} (hi : opL op w = some i) : decodeOp w = .ok i := by
  obtain ⟨h1, h2, h3⟩ := LOp.word_fields h
  obtain hu | hu := unitL_toNat hu <;> simp [decodeOp, h1, h2, h3, hu, hi]

theorem COp.word_decodes {o : COp} {op : BitVec 4} {w : W32} (h : w = o.e ++ o.u ++ o.g ++ op ++ o.h ++ o.tok ++ o.list ++ o.aux) (hu : Machine.unitC o.u = true)
    {i : Instr} (hi : opC op o = some i) : decodeOp w = .ok i := by
  obtain ⟨h1, h2, h3⟩ := COp.word_fields h
  obtain hu | hu := unitC_toNat hu <;> simp [decodeOp, h1, h2, h3, hu, hi]

theorem decodeOp_B {w : W32} (h₁ : w.extractLsb' 27 4 = 11#4) (h₂ : w.extractLsb' 22 1 = 1#1) {op : BitVec 6}
    (h₃ : w.extractLsb' 16 6 = op) {i : Instr} (hi : opB op w = some i) : decodeOp w = .ok i := by
  simp [decodeOp, h₁, h₂, h₃, hi]

theorem decodeOp_M {w : W32} (h₁ : w.extractLsb' 27 4 = 5#4) {op : BitVec 4}
    (h₂ : w.extractLsb' 19 4 = op) {i : Instr} (hi : opM op w = some i) : decodeOp w = .ok i := by
  simp [decodeOp, h₁, h₂, hi]

end Sys2Proof
end

