-- ==== Sys2Proof/Laws/PerInstr.lean ====
section
/-! SUPPORT. The family Words: for every instruction, that its slot word names it (spec/03 R42, R46), one lemma per constructor. -/

namespace Sys2Proof.Laws.Words

/-- The slot word of a well-formed instruction names that instruction. An instruction without a slot word says nothing here. -/
def Statement (i : Instr) : Prop := ∀ w, encodeWord i = some w → i.wf = true → decodeOp w = .ok i

theorem left_of_and {a b : Bool} (h : (a && b) = true) : a = true := (Bool.and_eq_true_iff.1 h).1

theorem add (o : SROp) : Statement (.add o) := fun _ h hw =>
  SROp.word_decodes (Option.some.inj h).symm hw rfl
theorem sub (o : SROp) : Statement (.sub o) := fun _ h hw =>
  SROp.word_decodes (Option.some.inj h).symm hw rfl
theorem mul (o : SROp) : Statement (.mul o) := fun _ h hw =>
  SROp.word_decodes (Option.some.inj h).symm hw rfl
theorem mulh (o : SROp) : Statement (.mulh o) := fun _ h hw =>
  SROp.word_decodes (Option.some.inj h).symm hw rfl
theorem mulhu (o : SROp) : Statement (.mulhu o) := fun _ h hw =>
  SROp.word_decodes (Option.some.inj h).symm hw rfl
theorem div (o : SROp) : Statement (.div o) := fun _ h hw =>
  SROp.word_decodes (Option.some.inj h).symm hw rfl
theorem divu (o : SROp) : Statement (.divu o) := fun _ h hw =>
  SROp.word_decodes (Option.some.inj h).symm hw rfl
theorem rem (o : SROp) : Statement (.rem o) := fun _ h hw =>
  SROp.word_decodes (Option.some.inj h).symm hw rfl
theorem remu (o : SROp) : Statement (.remu o) := fun _ h hw =>
  SROp.word_decodes (Option.some.inj h).symm hw rfl
theorem and (o : SROp) : Statement (.and o) := fun _ h hw =>
  SROp.word_decodes (Option.some.inj h).symm hw rfl
theorem or (o : SROp) : Statement (.or o) := fun _ h hw =>
  SROp.word_decodes (Option.some.inj h).symm hw rfl
theorem xor (o : SROp) : Statement (.xor o) := fun _ h hw =>
  SROp.word_decodes (Option.some.inj h).symm hw rfl
theorem andn (o : SROp) : Statement (.andn o) := fun _ h hw =>
  SROp.word_decodes (Option.some.inj h).symm hw rfl
theorem shl (o : SROp) : Statement (.shl o) := fun _ h hw =>
  SROp.word_decodes (Option.some.inj h).symm hw rfl
theorem shr (o : SROp) : Statement (.shr o) := fun _ h hw =>
  SROp.word_decodes (Option.some.inj h).symm hw rfl
theorem sar (o : SROp) : Statement (.sar o) := fun _ h hw =>
  SROp.word_decodes (Option.some.inj h).symm hw rfl
theorem ror (o : SROp) : Statement (.ror o) := fun _ h hw =>
  SROp.word_decodes (Option.some.inj h).symm hw rfl
theorem min (o : SROp) : Statement (.min o) := fun _ h hw =>
  SROp.word_decodes (Option.some.inj h).symm hw rfl
theorem max (o : SROp) : Statement (.max o) := fun _ h hw =>
  SROp.word_decodes (Option.some.inj h).symm hw rfl
theorem minu (o : SROp) : Statement (.minu o) := fun _ h hw =>
  SROp.word_decodes (Option.some.inj h).symm hw rfl
theorem maxu (o : SROp) : Statement (.maxu o) := fun _ h hw =>
  SROp.word_decodes (Option.some.inj h).symm hw rfl
theorem clz (o : SROp) : Statement (.clz o) := fun _ h hw =>
  SROp.word_decodes (Option.some.inj h).symm (left_of_and hw) rfl
theorem ctz (o : SROp) : Statement (.ctz o) := fun _ h hw =>
  SROp.word_decodes (Option.some.inj h).symm (left_of_and hw) rfl
theorem popc (o : SROp) : Statement (.popc o) := fun _ h hw =>
  SROp.word_decodes (Option.some.inj h).symm (left_of_and hw) rfl
theorem sext (o : SROp) : Statement (.sext o) := fun _ h hw =>
  SROp.word_decodes (Option.some.inj h).symm (left_of_and hw) rfl
theorem zext (o : SROp) : Statement (.zext o) := fun _ h hw =>
  SROp.word_decodes (Option.some.inj h).symm (left_of_and hw) rfl
theorem addc (o : SROp) : Statement (.addc o) := fun _ h hw =>
  SROp.word_decodes (Option.some.inj h).symm (left_of_and hw) rfl
theorem subb (o : SROp) : Statement (.subb o) := fun _ h hw =>
  SROp.word_decodes (Option.some.inj h).symm (left_of_and hw) rfl
theorem cmpeq (o : SROp) : Statement (.cmpeq o) := fun _ h hw =>
  SROp.word_decodes (Option.some.inj h).symm (left_of_and hw) rfl
theorem cmplt (o : SROp) : Statement (.cmplt o) := fun _ h hw =>
  SROp.word_decodes (Option.some.inj h).symm (left_of_and hw) rfl
theorem cmpltu (o : SROp) : Statement (.cmpltu o) := fun _ h hw =>
  SROp.word_decodes (Option.some.inj h).symm (left_of_and hw) rfl
theorem cmple (o : SROp) : Statement (.cmple o) := fun _ h hw =>
  SROp.word_decodes (Option.some.inj h).symm (left_of_and hw) rfl
theorem cmpleu (o : SROp) : Statement (.cmpleu o) := fun _ h hw =>
  SROp.word_decodes (Option.some.inj h).symm (left_of_and hw) rfl
theorem pand (o : SROp) : Statement (.pand o) := fun _ h hw =>
  SROp.word_decodes (Option.some.inj h).symm (left_of_and (left_of_and (left_of_and hw))) rfl
theorem por (o : SROp) : Statement (.por o) := fun _ h hw =>
  SROp.word_decodes (Option.some.inj h).symm (left_of_and (left_of_and (left_of_and hw))) rfl
theorem pxor (o : SROp) : Statement (.pxor o) := fun _ h hw =>
  SROp.word_decodes (Option.some.inj h).symm (left_of_and (left_of_and (left_of_and hw))) rfl
theorem movx (o : SROp) : Statement (.movx o) := fun _ h hw =>
  SROp.word_decodes (Option.some.inj h).symm (left_of_and (left_of_and hw)) rfl
theorem movp (o : SROp) : Statement (.movp o) := fun _ h hw =>
  SROp.word_decodes (Option.some.inj h).symm (left_of_and (left_of_and hw)) rfl
theorem movfp (o : SROp) : Statement (.movfp o) := fun _ h hw =>
  SROp.word_decodes (Option.some.inj h).symm (left_of_and (left_of_and hw)) rfl
theorem gset (o : SROp) : Statement (.gset o) := fun _ h hw =>
  SROp.word_decodes (Option.some.inj h).symm (left_of_and (left_of_and hw)) rfl
theorem gget (o : SROp) : Statement (.gget o) := fun _ h hw =>
  SROp.word_decodes (Option.some.inj h).symm (left_of_and (left_of_and hw)) rfl
theorem hset (o : SROp) : Statement (.hset o) := fun _ h hw =>
  SROp.word_decodes (Option.some.inj h).symm (left_of_and (left_of_and hw)) rfl
theorem hget (o : SROp) : Statement (.hget o) := fun _ h hw =>
  SROp.word_decodes (Option.some.inj h).symm (left_of_and (left_of_and hw)) rfl
theorem guard (o : SROp) : Statement (.guard o) := fun _ h hw =>
  SROp.word_decodes (Option.some.inj h).symm (by simp [Machine.unitS, eq_of_beq (left_of_and hw)]) rfl
theorem rdvc (o : SROp) : Statement (.rdvc o) := fun _ h hw =>
  SROp.word_decodes (Option.some.inj h).symm (left_of_and (left_of_and hw)) rfl
theorem addi (o : SIOp) : Statement (.addi o) := fun _ h hw =>
  SIOp.word_decodes (Option.some.inj h).symm hw rfl
theorem andi (o : SIOp) : Statement (.andi o) := fun _ h hw =>
  SIOp.word_decodes (Option.some.inj h).symm hw rfl
theorem ori (o : SIOp) : Statement (.ori o) := fun _ h hw =>
  SIOp.word_decodes (Option.some.inj h).symm hw rfl
theorem xori (o : SIOp) : Statement (.xori o) := fun _ h hw =>
  SIOp.word_decodes (Option.some.inj h).symm hw rfl
theorem shli (o : SIOp) : Statement (.shli o) := fun _ h hw =>
  SIOp.word_decodes (Option.some.inj h).symm (left_of_and hw) rfl
theorem shri (o : SIOp) : Statement (.shri o) := fun _ h hw =>
  SIOp.word_decodes (Option.some.inj h).symm (left_of_and hw) rfl
theorem sari (o : SIOp) : Statement (.sari o) := fun _ h hw =>
  SIOp.word_decodes (Option.some.inj h).symm (left_of_and hw) rfl
theorem rori (o : SIOp) : Statement (.rori o) := fun _ h hw =>
  SIOp.word_decodes (Option.some.inj h).symm (left_of_and hw) rfl
theorem muli (o : SIOp) : Statement (.muli o) := fun _ h hw =>
  SIOp.word_decodes (Option.some.inj h).symm hw rfl
theorem cmpeqi (o : SIOp) : Statement (.cmpeqi o) := fun _ h hw =>
  SIOp.word_decodes (Option.some.inj h).symm (left_of_and hw) rfl
theorem cmplti (o : SIOp) : Statement (.cmplti o) := fun _ h hw =>
  SIOp.word_decodes (Option.some.inj h).symm (left_of_and hw) rfl
theorem cmpltui (o : SIOp) : Statement (.cmpltui o) := fun _ h hw =>
  SIOp.word_decodes (Option.some.inj h).symm (left_of_and hw) rfl
theorem cmplei (o : SIOp) : Statement (.cmplei o) := fun _ h hw =>
  SIOp.word_decodes (Option.some.inj h).symm (left_of_and hw) rfl
theorem cmpleui (o : SIOp) : Statement (.cmpleui o) := fun _ h hw =>
  SIOp.word_decodes (Option.some.inj h).symm (left_of_and hw) rfl
theorem tokl (o : SIOp) : Statement (.tokl o) := fun _ h hw =>
  SIOp.word_decodes (Option.some.inj h).symm (left_of_and hw) rfl
theorem movi (o : SKOp) : Statement (.movi o) := fun _ h hw =>
  SKOp.word_decodes (Option.some.inj h).symm hw rfl
theorem movsh (o : SKOp) : Statement (.movsh o) := fun _ h hw =>
  SKOp.word_decodes (Option.some.inj h).symm hw rfl
theorem vadd (o : VOp) : Statement (.vadd o) := fun _ h hw =>
  VOp.word_decodes (Option.some.inj h).symm hw rfl
theorem vsub (o : VOp) : Statement (.vsub o) := fun _ h hw =>
  VOp.word_decodes (Option.some.inj h).symm hw rfl
theorem vmul (o : VOp) : Statement (.vmul o) := fun _ h hw =>
  VOp.word_decodes (Option.some.inj h).symm hw rfl
theorem vfma (o : VOp) : Statement (.vfma o) := fun _ h hw =>
  VOp.word_decodes (Option.some.inj h).symm hw rfl
theorem vfms (o : VOp) : Statement (.vfms o) := fun _ h hw =>
  VOp.word_decodes (Option.some.inj h).symm hw rfl
theorem vfnma (o : VOp) : Statement (.vfnma o) := fun _ h hw =>
  VOp.word_decodes (Option.some.inj h).symm hw rfl
theorem vmin (o : VOp) : Statement (.vmin o) := fun _ h hw =>
  VOp.word_decodes (Option.some.inj h).symm hw rfl
theorem vmax (o : VOp) : Statement (.vmax o) := fun _ h hw =>
  VOp.word_decodes (Option.some.inj h).symm hw rfl
theorem vabs (o : VOp) : Statement (.vabs o) := fun _ h hw =>
  VOp.word_decodes (Option.some.inj h).symm (left_of_and hw) rfl
theorem vneg (o : VOp) : Statement (.vneg o) := fun _ h hw =>
  VOp.word_decodes (Option.some.inj h).symm (left_of_and hw) rfl
theorem vdiv (o : VOp) : Statement (.vdiv o) := fun _ h hw =>
  VOp.word_decodes (Option.some.inj h).symm hw rfl
theorem vsqrt (o : VOp) : Statement (.vsqrt o) := fun _ h hw =>
  VOp.word_decodes (Option.some.inj h).symm (left_of_and hw) rfl
theorem vand (o : VOp) : Statement (.vand o) := fun _ h hw =>
  VOp.word_decodes (Option.some.inj h).symm hw rfl
theorem vor (o : VOp) : Statement (.vor o) := fun _ h hw =>
  VOp.word_decodes (Option.some.inj h).symm hw rfl
theorem vxor (o : VOp) : Statement (.vxor o) := fun _ h hw =>
  VOp.word_decodes (Option.some.inj h).symm hw rfl
theorem vandn (o : VOp) : Statement (.vandn o) := fun _ h hw =>
  VOp.word_decodes (Option.some.inj h).symm hw rfl
theorem vshl (o : VOp) : Statement (.vshl o) := fun _ h hw =>
  VOp.word_decodes (Option.some.inj h).symm hw rfl
theorem vshr (o : VOp) : Statement (.vshr o) := fun _ h hw =>
  VOp.word_decodes (Option.some.inj h).symm hw rfl
theorem vsar (o : VOp) : Statement (.vsar o) := fun _ h hw =>
  VOp.word_decodes (Option.some.inj h).symm hw rfl
theorem vshli (o : VOp) : Statement (.vshli o) := fun _ h hw =>
  VOp.word_decodes (Option.some.inj h).symm hw rfl
theorem vshri (o : VOp) : Statement (.vshri o) := fun _ h hw =>
  VOp.word_decodes (Option.some.inj h).symm hw rfl
theorem vsari (o : VOp) : Statement (.vsari o) := fun _ h hw =>
  VOp.word_decodes (Option.some.inj h).symm hw rfl
theorem vmulhi (o : VOp) : Statement (.vmulhi o) := fun _ h hw =>
  VOp.word_decodes (Option.some.inj h).symm hw rfl
theorem vmulhiu (o : VOp) : Statement (.vmulhiu o) := fun _ h hw =>
  VOp.word_decodes (Option.some.inj h).symm hw rfl
theorem vadc (o : VOp) : Statement (.vadc o) := fun _ h hw =>
  VOp.word_decodes (Option.some.inj h).symm (left_of_and hw) rfl
theorem vsbc (o : VOp) : Statement (.vsbc o) := fun _ h hw =>
  VOp.word_decodes (Option.some.inj h).symm (left_of_and hw) rfl
theorem vmacw (o : VOp) : Statement (.vmacw o) := fun _ h hw =>
  VOp.word_decodes (Option.some.inj h).symm hw rfl
theorem vcmpeq (o : VOp) : Statement (.vcmpeq o) := fun _ h hw =>
  VOp.word_decodes (Option.some.inj h).symm (left_of_and hw) rfl
theorem vcmplt (o : VOp) : Statement (.vcmplt o) := fun _ h hw =>
  VOp.word_decodes (Option.some.inj h).symm (left_of_and hw) rfl
theorem vcmple (o : VOp) : Statement (.vcmple o) := fun _ h hw =>
  VOp.word_decodes (Option.some.inj h).symm (left_of_and hw) rfl
theorem vcmpltu (o : VOp) : Statement (.vcmpltu o) := fun _ h hw =>
  VOp.word_decodes (Option.some.inj h).symm (left_of_and hw) rfl
theorem vcmpleu (o : VOp) : Statement (.vcmpleu o) := fun _ h hw =>
  VOp.word_decodes (Option.some.inj h).symm (left_of_and hw) rfl
theorem vclass (o : VOp) : Statement (.vclass o) := fun _ h hw =>
  VOp.word_decodes (Option.some.inj h).symm (left_of_and hw) rfl
theorem vsel (o : VOp) : Statement (.vsel o) := fun _ h hw =>
  VOp.word_decodes (Option.some.inj h).symm hw rfl
theorem vmov (o : VOp) : Statement (.vmov o) := fun _ h hw =>
  VOp.word_decodes (Option.some.inj h).symm (left_of_and hw) rfl
theorem vmovx (o : VOp) : Statement (.vmovx o) := fun _ h hw =>
  VOp.word_decodes (Option.some.inj h).symm (left_of_and (left_of_and (left_of_and hw))) rfl
theorem vbcast (o : VOp) : Statement (.vbcast o) := fun _ h hw =>
  VOp.word_decodes (Option.some.inj h).symm (left_of_and (left_of_and hw)) rfl
theorem vext (o : VOp) : Statement (.vext o) := fun _ h hw =>
  VOp.word_decodes (Option.some.inj h).symm (left_of_and (left_of_and hw)) rfl
theorem vperm (o : VOp) : Statement (.vperm o) := fun _ h hw =>
  VOp.word_decodes (Option.some.inj h).symm hw rfl
theorem viota (o : VOp) : Statement (.viota o) := fun _ h hw =>
  VOp.word_decodes (Option.some.inj h).symm (left_of_and (left_of_and hw)) rfl
theorem vredadd (o : VOp) : Statement (.vredadd o) := fun _ h hw =>
  VOp.word_decodes (Option.some.inj h).symm (left_of_and hw) rfl
theorem vredmax (o : VOp) : Statement (.vredmax o) := fun _ h hw =>
  VOp.word_decodes (Option.some.inj h).symm (left_of_and hw) rfl
theorem vredmin (o : VOp) : Statement (.vredmin o) := fun _ h hw =>
  VOp.word_decodes (Option.some.inj h).symm (left_of_and hw) rfl
theorem vcvt (o : VOp) : Statement (.vcvt o) := fun _ h hw =>
  VOp.word_decodes (Option.some.inj h).symm (left_of_and hw) rfl
theorem vqnt (o : VOp) : Statement (.vqnt o) := fun _ h hw =>
  VOp.word_decodes (Option.some.inj h).symm hw rfl
theorem vdqnt (o : VOp) : Statement (.vdqnt o) := fun _ h hw =>
  VOp.word_decodes (Option.some.inj h).symm hw rfl
theorem vpack (o : VOp) : Statement (.vpack o) := fun _ h hw =>
  VOp.word_decodes (Option.some.inj h).symm hw rfl
theorem vunpk (o : VOp) : Statement (.vunpk o) := fun _ h hw =>
  VOp.word_decodes (Option.some.inj h).symm (left_of_and hw) rfl
theorem vclz (o : VOp) : Statement (.vclz o) := fun _ h hw =>
  VOp.word_decodes (Option.some.inj h).symm (left_of_and hw) rfl
theorem vpopc (o : VOp) : Statement (.vpopc o) := fun _ h hw =>
  VOp.word_decodes (Option.some.inj h).symm (left_of_and hw) rfl
theorem vscan (o : VOp) : Statement (.vscan o) := fun _ h hw =>
  VOp.word_decodes (Option.some.inj h).symm (left_of_and hw) rfl
theorem kand (o : VOp) : Statement (.kand o) := fun _ h hw =>
  VOp.word_decodes (Option.some.inj h).symm (left_of_and (left_of_and (left_of_and hw))) rfl
theorem kor (o : VOp) : Statement (.kor o) := fun _ h hw =>
  VOp.word_decodes (Option.some.inj h).symm (left_of_and (left_of_and (left_of_and hw))) rfl
theorem kxor (o : VOp) : Statement (.kxor o) := fun _ h hw =>
  VOp.word_decodes (Option.some.inj h).symm (left_of_and (left_of_and (left_of_and hw))) rfl
theorem kmov (o : VOp) : Statement (.kmov o) := fun _ h hw =>
  VOp.word_decodes (Option.some.inj h).symm (left_of_and (left_of_and (left_of_and hw))) rfl
theorem kpopc (o : VOp) : Statement (.kpopc o) := fun _ h hw =>
  VOp.word_decodes (Option.some.inj h).symm (left_of_and (left_of_and hw)) rfl
theorem kfirst (o : VOp) : Statement (.kfirst o) := fun _ h hw =>
  VOp.word_decodes (Option.some.inj h).symm (left_of_and (left_of_and hw)) rfl
theorem fexp2 (o : FOp) : Statement (.fexp2 o) := fun _ h _ => FOp.word_decodes (Option.some.inj h).symm rfl
theorem flog2 (o : FOp) : Statement (.flog2 o) := fun _ h _ => FOp.word_decodes (Option.some.inj h).symm rfl
theorem frcp (o : FOp) : Statement (.frcp o) := fun _ h _ => FOp.word_decodes (Option.some.inj h).symm rfl
theorem frsq (o : FOp) : Statement (.frsq o) := fun _ h _ => FOp.word_decodes (Option.some.inj h).symm rfl
theorem fsinpi (o : FOp) : Statement (.fsinpi o) := fun _ h _ => FOp.word_decodes (Option.some.inj h).symm rfl
theorem fcospi (o : FOp) : Statement (.fcospi o) := fun _ h _ => FOp.word_decodes (Option.some.inj h).symm rfl
theorem ftanh (o : FOp) : Statement (.ftanh o) := fun _ h _ => FOp.word_decodes (Option.some.inj h).symm rfl
theorem fsigm (o : FOp) : Statement (.fsigm o) := fun _ h _ => FOp.word_decodes (Option.some.inj h).symm rfl
theorem ferf (o : FOp) : Statement (.ferf o) := fun _ h _ => FOp.word_decodes (Option.some.inj h).symm rfl
theorem frand (o : FOp) : Statement (.frand o) := fun _ h _ => FOp.word_decodes (Option.some.inj h).symm rfl
theorem fmovx (o : FOp) : Statement (.fmovx o) := fun _ h _ => FOp.word_decodes (Option.some.inj h).symm rfl
theorem dpt (o : FOp) : Statement (.dpt o) := fun _ h _ => FOp.word_decodes (Option.some.inj h).symm rfl
theorem dfrom (o : FOp) : Statement (.dfrom o) := fun _ h _ => FOp.word_decodes (Option.some.inj h).symm rfl
theorem dadd (o : FOp) : Statement (.dadd o) := fun _ h _ => FOp.word_decodes (Option.some.inj h).symm rfl
theorem dsub (o : FOp) : Statement (.dsub o) := fun _ h _ => FOp.word_decodes (Option.some.inj h).symm rfl
theorem dmul (o : FOp) : Statement (.dmul o) := fun _ h _ => FOp.word_decodes (Option.some.inj h).symm rfl
theorem dmax (o : FOp) : Statement (.dmax o) := fun _ h _ => FOp.word_decodes (Option.some.inj h).symm rfl
theorem dmin (o : FOp) : Statement (.dmin o) := fun _ h _ => FOp.word_decodes (Option.some.inj h).symm rfl
theorem daff (o : FOp) : Statement (.daff o) := fun _ h _ => FOp.word_decodes (Option.some.inj h).symm rfl
theorem dmap (o : FOp) : Statement (.dmap o) := fun _ h _ => FOp.word_decodes (Option.some.inj h).symm rfl
theorem dtag (o : FOp) : Statement (.dtag o) := fun _ h _ => FOp.word_decodes (Option.some.inj h).symm rfl
theorem dtags (o : FOp) : Statement (.dtags o) := fun _ h _ => FOp.word_decodes (Option.some.inj h).symm rfl
theorem dcanon (o : FOp) : Statement (.dcanon o) := fun _ h _ => FOp.word_decodes (Option.some.inj h).symm rfl
theorem dmom (o : FOp) : Statement (.dmom o) := fun _ h _ => FOp.word_decodes (Option.some.inj h).symm rfl
theorem dqnt (o : FOp) : Statement (.dqnt o) := fun _ h _ => FOp.word_decodes (Option.some.inj h).symm rfl
theorem dcdf (o : FOp) : Statement (.dcdf o) := fun _ h _ => FOp.word_decodes (Option.some.inj h).symm rfl
theorem dmov (o : FOp) : Statement (.dmov o) := fun _ h _ => FOp.word_decodes (Option.some.inj h).symm rfl
theorem dsupp (o : FOp) : Statement (.dsupp o) := fun _ h _ => FOp.word_decodes (Option.some.inj h).symm rfl
theorem mcall (o : MCallOp) : Statement (.mcall o) := fun _ h _ =>
  have h := MCallOp.word_fields (Option.some.inj h).symm; decodeOp_M h.2.1 h.2.2 (congrArg (some ∘ Instr.mcall) h.1)
theorem mclr (o : MClrOp) : Statement (.mclr o) := fun _ h _ =>
  have h := MClrOp.word_fields (Option.some.inj h).symm; decodeOp_M h.2.1 h.2.2 (congrArg (some ∘ Instr.mclr) h.1)
theorem mstat (o : MStatOp) : Statement (.mstat o) := fun _ h _ =>
  have h := MStatOp.word_fields (Option.some.inj h).symm; decodeOp_M h.2.1 h.2.2 (congrArg (some ∘ Instr.mstat) h.1)
theorem msig (o : MSigOp) : Statement (.msig o) := fun _ h _ =>
  have h := MSigOp.word_fields (Option.some.inj h).symm; decodeOp_M h.2.1 h.2.2 (congrArg (some ∘ Instr.msig) h.1)
theorem mabort (o : MAbortOp) : Statement (.mabort o) := fun _ h _ =>
  have h := MAbortOp.word_fields (Option.some.inj h).symm; decodeOp_M h.2.1 h.2.2 (congrArg (some ∘ Instr.mabort) h.1)
theorem mload (o : MLoadOp) : Statement (.mload o) := fun _ h _ =>
  have h := MLoadOp.word_fields (Option.some.inj h).symm; decodeOp_M h.2.1 h.2.2 (congrArg (some ∘ Instr.mload) h.1)
theorem ldB (o : LOp) : Statement (.ldB o) := fun _ h hw =>
  have h := (Option.some.inj h).symm; LOp.word_decodes h (left_of_and hw) (congrArg (some ∘ Instr.ldB) (LOp.word_fields h).1)
theorem ldBz (o : LOp) : Statement (.ldBz o) := fun _ h hw =>
  have h := (Option.some.inj h).symm; LOp.word_decodes h (left_of_and hw) (congrArg (some ∘ Instr.ldBz) (LOp.word_fields h).1)
theorem ldH (o : LOp) : Statement (.ldH o) := fun _ h hw =>
  have h := (Option.some.inj h).symm; LOp.word_decodes h (left_of_and hw) (congrArg (some ∘ Instr.ldH) (LOp.word_fields h).1)
theorem ldHz (o : LOp) : Statement (.ldHz o) := fun _ h hw =>
  have h := (Option.some.inj h).symm; LOp.word_decodes h (left_of_and hw) (congrArg (some ∘ Instr.ldHz) (LOp.word_fields h).1)
theorem ldW (o : LOp) : Statement (.ldW o) := fun _ h hw =>
  have h := (Option.some.inj h).symm; LOp.word_decodes h (left_of_and hw) (congrArg (some ∘ Instr.ldW) (LOp.word_fields h).1)
theorem ldWz (o : LOp) : Statement (.ldWz o) := fun _ h hw =>
  have h := (Option.some.inj h).symm; LOp.word_decodes h (left_of_and hw) (congrArg (some ∘ Instr.ldWz) (LOp.word_fields h).1)
theorem ldD (o : LOp) : Statement (.ldD o) := fun _ h hw =>
  have h := (Option.some.inj h).symm; LOp.word_decodes h (left_of_and hw) (congrArg (some ∘ Instr.ldD) (LOp.word_fields h).1)
theorem ldQ (o : LOp) : Statement (.ldQ o) := fun _ h hw =>
  have h := (Option.some.inj h).symm; LOp.word_decodes h (left_of_and hw) (congrArg (some ∘ Instr.ldQ) (LOp.word_fields h).1)
theorem ldv256 (o : LOp) : Statement (.ldv256 o) := fun _ h hw =>
  have h := (Option.some.inj h).symm; LOp.word_decodes h (left_of_and (left_of_and hw)) (congrArg (some ∘ Instr.ldv256) (LOp.word_fields h).1)
theorem ldv512 (o : LOp) : Statement (.ldv512 o) := fun _ h hw =>
  have h := (Option.some.inj h).symm; LOp.word_decodes h (left_of_and (left_of_and hw)) (congrArg (some ∘ Instr.ldv512) (LOp.word_fields h).1)
theorem ldv1024 (o : LOp) : Statement (.ldv1024 o) := fun _ h hw =>
  have h := (Option.some.inj h).symm; LOp.word_decodes h (left_of_and (left_of_and hw)) (congrArg (some ∘ Instr.ldv1024) (LOp.word_fields h).1)
theorem ldk (o : LOp) : Statement (.ldk o) := fun _ h hw =>
  have h := (Option.some.inj h).symm; LOp.word_decodes h (left_of_and (left_of_and hw)) (congrArg (some ∘ Instr.ldk) (LOp.word_fields h).1)
theorem ldd (o : LOp) : Statement (.ldd o) := fun _ h hw =>
  have h := (Option.some.inj h).symm; LOp.word_decodes h (left_of_and (left_of_and hw)) (congrArg (some ∘ Instr.ldd) (LOp.word_fields h).1)
theorem ldxD (o : LOp) : Statement (.ldxD o) := fun _ h hw =>
  have h := (Option.some.inj h).symm; LOp.word_decodes h (left_of_and hw) (congrArg (some ∘ Instr.ldxD) (LOp.word_fields h).1)
theorem ldxW (o : LOp) : Statement (.ldxW o) := fun _ h hw =>
  have h := (Option.some.inj h).symm; LOp.word_decodes h (left_of_and hw) (congrArg (some ∘ Instr.ldxW) (LOp.word_fields h).1)
theorem stB (o : LOp) : Statement (.stB o) := fun _ h hw =>
  have h := (Option.some.inj h).symm; LOp.word_decodes h (left_of_and hw) (congrArg (some ∘ Instr.stB) (LOp.word_fields h).1)
theorem stH (o : LOp) : Statement (.stH o) := fun _ h hw =>
  have h := (Option.some.inj h).symm; LOp.word_decodes h (left_of_and hw) (congrArg (some ∘ Instr.stH) (LOp.word_fields h).1)
theorem stW (o : LOp) : Statement (.stW o) := fun _ h hw =>
  have h := (Option.some.inj h).symm; LOp.word_decodes h (left_of_and hw) (congrArg (some ∘ Instr.stW) (LOp.word_fields h).1)
theorem stD (o : LOp) : Statement (.stD o) := fun _ h hw =>
  have h := (Option.some.inj h).symm; LOp.word_decodes h (left_of_and hw) (congrArg (some ∘ Instr.stD) (LOp.word_fields h).1)
theorem stQ (o : LOp) : Statement (.stQ o) := fun _ h hw =>
  have h := (Option.some.inj h).symm; LOp.word_decodes h (left_of_and hw) (congrArg (some ∘ Instr.stQ) (LOp.word_fields h).1)
theorem stv256 (o : LOp) : Statement (.stv256 o) := fun _ h hw =>
  have h := (Option.some.inj h).symm; LOp.word_decodes h (left_of_and (left_of_and hw)) (congrArg (some ∘ Instr.stv256) (LOp.word_fields h).1)
theorem stv512 (o : LOp) : Statement (.stv512 o) := fun _ h hw =>
  have h := (Option.some.inj h).symm; LOp.word_decodes h (left_of_and (left_of_and hw)) (congrArg (some ∘ Instr.stv512) (LOp.word_fields h).1)
theorem stv1024 (o : LOp) : Statement (.stv1024 o) := fun _ h hw =>
  have h := (Option.some.inj h).symm; LOp.word_decodes h (left_of_and (left_of_and hw)) (congrArg (some ∘ Instr.stv1024) (LOp.word_fields h).1)
theorem stk (o : LOp) : Statement (.stk o) := fun _ h hw =>
  have h := (Option.some.inj h).symm; LOp.word_decodes h (left_of_and (left_of_and hw)) (congrArg (some ∘ Instr.stk) (LOp.word_fields h).1)
theorem std (o : LOp) : Statement (.std o) := fun _ h hw =>
  have h := (Option.some.inj h).symm; LOp.word_decodes h (left_of_and (left_of_and hw)) (congrArg (some ∘ Instr.std) (LOp.word_fields h).1)
theorem stxD (o : LOp) : Statement (.stxD o) := fun _ h hw =>
  have h := (Option.some.inj h).symm; LOp.word_decodes h (left_of_and hw) (congrArg (some ∘ Instr.stxD) (LOp.word_fields h).1)
theorem stxW (o : LOp) : Statement (.stxW o) := fun _ h hw =>
  have h := (Option.some.inj h).symm; LOp.word_decodes h (left_of_and hw) (congrArg (some ∘ Instr.stxW) (LOp.word_fields h).1)
theorem vgather (o : LOp) : Statement (.vgather o) := fun _ h hw =>
  have h := (Option.some.inj h).symm; LOp.word_decodes h (left_of_and (left_of_and (left_of_and hw))) (congrArg (some ∘ Instr.vgather) (LOp.word_fields h).1)
theorem vscatter (o : LOp) : Statement (.vscatter o) := fun _ h hw =>
  have h := (Option.some.inj h).symm; LOp.word_decodes h (left_of_and (left_of_and (left_of_and hw))) (congrArg (some ∘ Instr.vscatter) (LOp.word_fields h).1)
theorem ldaW (o : LOp) : Statement (.ldaW o) := fun _ h hw =>
  have h := (Option.some.inj h).symm; LOp.word_decodes h (left_of_and (left_of_and hw)) (congrArg (some ∘ Instr.ldaW) (LOp.word_fields h).1)
theorem ldaD (o : LOp) : Statement (.ldaD o) := fun _ h hw =>
  have h := (Option.some.inj h).symm; LOp.word_decodes h (left_of_and (left_of_and hw)) (congrArg (some ∘ Instr.ldaD) (LOp.word_fields h).1)
theorem stlW (o : LOp) : Statement (.stlW o) := fun _ h hw =>
  have h := (Option.some.inj h).symm; LOp.word_decodes h (left_of_and (left_of_and hw)) (congrArg (some ∘ Instr.stlW) (LOp.word_fields h).1)
theorem stlD (o : LOp) : Statement (.stlD o) := fun _ h hw =>
  have h := (Option.some.inj h).symm; LOp.word_decodes h (left_of_and (left_of_and hw)) (congrArg (some ∘ Instr.stlD) (LOp.word_fields h).1)
theorem fence (o : FenceOp) : Statement (.fence o) := fun _ h hw => by
  obtain ⟨h1, h2, h3⟩ := FenceOp.word_fields (Option.some.inj h).symm
  obtain hu | hu := unitL_toNat (left_of_and hw) <;> simp [decodeOp, opL, h1, h2, h3, hu]
theorem drain (o : LOp) : Statement (.drain o) := fun _ h hw =>
  have h := (Option.some.inj h).symm; LOp.word_decodes h (left_of_and (left_of_and (left_of_and (left_of_and hw)))) (congrArg (some ∘ Instr.drain) (LOp.word_fields h).1)
theorem pref (o : LOp) : Statement (.pref o) := fun _ h hw =>
  have h := (Option.some.inj h).symm; LOp.word_decodes h (left_of_and (left_of_and hw)) (congrArg (some ∘ Instr.pref) (LOp.word_fields h).1)
theorem aaddW (o : LOp) : Statement (.aaddW o) := fun _ h hw =>
  have h := (Option.some.inj h).symm; LOp.word_decodes h (left_of_and (left_of_and hw)) (congrArg (some ∘ Instr.aaddW) (LOp.word_fields h).1)
theorem aandW (o : LOp) : Statement (.aandW o) := fun _ h hw =>
  have h := (Option.some.inj h).symm; LOp.word_decodes h (left_of_and (left_of_and hw)) (congrArg (some ∘ Instr.aandW) (LOp.word_fields h).1)
theorem aorW (o : LOp) : Statement (.aorW o) := fun _ h hw =>
  have h := (Option.some.inj h).symm; LOp.word_decodes h (left_of_and (left_of_and hw)) (congrArg (some ∘ Instr.aorW) (LOp.word_fields h).1)
theorem axorW (o : LOp) : Statement (.axorW o) := fun _ h hw =>
  have h := (Option.some.inj h).symm; LOp.word_decodes h (left_of_and (left_of_and hw)) (congrArg (some ∘ Instr.axorW) (LOp.word_fields h).1)
theorem aminW (o : LOp) : Statement (.aminW o) := fun _ h hw =>
  have h := (Option.some.inj h).symm; LOp.word_decodes h (left_of_and (left_of_and hw)) (congrArg (some ∘ Instr.aminW) (LOp.word_fields h).1)
theorem amaxW (o : LOp) : Statement (.amaxW o) := fun _ h hw =>
  have h := (Option.some.inj h).symm; LOp.word_decodes h (left_of_and (left_of_and hw)) (congrArg (some ∘ Instr.amaxW) (LOp.word_fields h).1)
theorem aminuW (o : LOp) : Statement (.aminuW o) := fun _ h hw =>
  have h := (Option.some.inj h).symm; LOp.word_decodes h (left_of_and (left_of_and hw)) (congrArg (some ∘ Instr.aminuW) (LOp.word_fields h).1)
theorem amaxuW (o : LOp) : Statement (.amaxuW o) := fun _ h hw =>
  have h := (Option.some.inj h).symm; LOp.word_decodes h (left_of_and (left_of_and hw)) (congrArg (some ∘ Instr.amaxuW) (LOp.word_fields h).1)
theorem aswpW (o : LOp) : Statement (.aswpW o) := fun _ h hw =>
  have h := (Option.some.inj h).symm; LOp.word_decodes h (left_of_and (left_of_and hw)) (congrArg (some ∘ Instr.aswpW) (LOp.word_fields h).1)
theorem acasW (o : LOp) : Statement (.acasW o) := fun _ h hw =>
  have h := (Option.some.inj h).symm; LOp.word_decodes h (left_of_and (left_of_and (left_of_and hw))) (congrArg (some ∘ Instr.acasW) (LOp.word_fields h).1)
theorem afaddW (o : LOp) : Statement (.afaddW o) := fun _ h hw =>
  have h := (Option.some.inj h).symm; LOp.word_decodes h (left_of_and (left_of_and hw)) (congrArg (some ∘ Instr.afaddW) (LOp.word_fields h).1)
theorem aaddD (o : LOp) : Statement (.aaddD o) := fun _ h hw =>
  have h := (Option.some.inj h).symm; LOp.word_decodes h (left_of_and (left_of_and hw)) (congrArg (some ∘ Instr.aaddD) (LOp.word_fields h).1)
theorem aandD (o : LOp) : Statement (.aandD o) := fun _ h hw =>
  have h := (Option.some.inj h).symm; LOp.word_decodes h (left_of_and (left_of_and hw)) (congrArg (some ∘ Instr.aandD) (LOp.word_fields h).1)
theorem aorD (o : LOp) : Statement (.aorD o) := fun _ h hw =>
  have h := (Option.some.inj h).symm; LOp.word_decodes h (left_of_and (left_of_and hw)) (congrArg (some ∘ Instr.aorD) (LOp.word_fields h).1)
theorem axorD (o : LOp) : Statement (.axorD o) := fun _ h hw =>
  have h := (Option.some.inj h).symm; LOp.word_decodes h (left_of_and (left_of_and hw)) (congrArg (some ∘ Instr.axorD) (LOp.word_fields h).1)
theorem aminD (o : LOp) : Statement (.aminD o) := fun _ h hw =>
  have h := (Option.some.inj h).symm; LOp.word_decodes h (left_of_and (left_of_and hw)) (congrArg (some ∘ Instr.aminD) (LOp.word_fields h).1)
theorem amaxD (o : LOp) : Statement (.amaxD o) := fun _ h hw =>
  have h := (Option.some.inj h).symm; LOp.word_decodes h (left_of_and (left_of_and hw)) (congrArg (some ∘ Instr.amaxD) (LOp.word_fields h).1)
theorem aminuD (o : LOp) : Statement (.aminuD o) := fun _ h hw =>
  have h := (Option.some.inj h).symm; LOp.word_decodes h (left_of_and (left_of_and hw)) (congrArg (some ∘ Instr.aminuD) (LOp.word_fields h).1)
theorem amaxuD (o : LOp) : Statement (.amaxuD o) := fun _ h hw =>
  have h := (Option.some.inj h).symm; LOp.word_decodes h (left_of_and (left_of_and hw)) (congrArg (some ∘ Instr.amaxuD) (LOp.word_fields h).1)
theorem aswpD (o : LOp) : Statement (.aswpD o) := fun _ h hw =>
  have h := (Option.some.inj h).symm; LOp.word_decodes h (left_of_and (left_of_and hw)) (congrArg (some ∘ Instr.aswpD) (LOp.word_fields h).1)
theorem acasD (o : LOp) : Statement (.acasD o) := fun _ h hw =>
  have h := (Option.some.inj h).symm; LOp.word_decodes h (left_of_and (left_of_and (left_of_and hw))) (congrArg (some ∘ Instr.acasD) (LOp.word_fields h).1)
theorem oadd (o : LOp) : Statement (.oadd o) := fun _ h hw =>
  have h := (Option.some.inj h).symm; LOp.word_decodes h (left_of_and hw) (congrArg (some ∘ Instr.oadd) (LOp.word_fields h).1)
theorem oswp (o : LOp) : Statement (.oswp o) := fun _ h hw =>
  have h := (Option.some.inj h).symm; LOp.word_decodes h (left_of_and hw) (congrArg (some ∘ Instr.oswp) (LOp.word_fields h).1)
theorem ocas (o : LOp) : Statement (.ocas o) := fun _ h hw =>
  have h := (Option.some.inj h).symm; LOp.word_decodes h (left_of_and (left_of_and hw)) (congrArg (some ∘ Instr.ocas) (LOp.word_fields h).1)
theorem copy (o : COp) : Statement (.copy o) := fun _ h hw =>
  COp.word_decodes (Option.some.inj h).symm (left_of_and hw) rfl
theorem copy2 (o : COp) : Statement (.copy2 o) := fun _ h hw =>
  COp.word_decodes (Option.some.inj h).symm (left_of_and hw) rfl
theorem send (o : COp) : Statement (.send o) := fun _ h hw =>
  COp.word_decodes (Option.some.inj h).symm (left_of_and hw) rfl
theorem fetch (o : COp) : Statement (.fetch o) := fun _ h hw =>
  COp.word_decodes (Option.some.inj h).symm (left_of_and hw) rfl
theorem scopy (o : COp) : Statement (.scopy o) := fun _ h hw =>
  COp.word_decodes (Option.some.inj h).symm (left_of_and hw) rfl
theorem coll (o : COp) : Statement (.coll o) := fun _ h hw =>
  COp.word_decodes (Option.some.inj h).symm (left_of_and (left_of_and hw)) rfl
theorem czero (o : COp) : Statement (.czero o) := fun _ h hw =>
  COp.word_decodes (Option.some.inj h).symm (left_of_and hw) rfl
theorem cflush (o : COp) : Statement (.cflush o) := fun _ h hw =>
  COp.word_decodes (Option.some.inj h).symm (left_of_and hw) rfl
theorem bprep (o : PrepOp) : Statement (.bprep o) := fun _ h _ => by
  obtain ⟨h1, h2, h3, h4⟩ := PrepOp.word_fields (Option.some.inj h).symm
  simp [decodeOp, h1, h2, h3, h4]
theorem bcall (o : PrepOp) : Statement (.bcall o) := fun _ h _ => by
  obtain ⟨h1, h2, h3, h4⟩ := PrepOp.word_fields2 (Option.some.inj h).symm
  simp [decodeOp, h1, h2, h3, h4]
theorem bprepx (o : PrepXOp) : Statement (.bprepx o) := fun _ h _ =>
  have h := PrepXOp.word_fields (Option.some.inj h).symm; decodeOp_B h.2.1 h.2.2.1 h.2.2.2 (congrArg (some ∘ Instr.bprepx) h.1)
theorem bcallx (o : PrepXOp) : Statement (.bcallx o) := fun _ h _ =>
  have h := PrepXOp.word_fields (Option.some.inj h).symm; decodeOp_B h.2.1 h.2.2.1 h.2.2.2 (congrArg (some ∘ Instr.bcallx) h.1)
theorem ret (o : RetOp) : Statement (.ret o) := fun _ h _ =>
  have h := RetOp.word_fields (Option.some.inj h).symm; decodeOp_B h.2.1 h.2.2.1 h.2.2.2 (congrArg (some ∘ Instr.ret) h.1)
theorem loop (o : LoopOp) : Statement (.loop o) := fun _ h _ =>
  have h := LoopOp.word_fields (Option.some.inj h).symm; decodeOp_B h.2.1 h.2.2.1 h.2.2.2 (congrArg (some ∘ Instr.loop) h.1)
theorem loopi (o : LoopIOp) : Statement (.loopi o) := fun _ h _ =>
  have h := LoopIOp.word_fields (Option.some.inj h).symm; decodeOp_B h.2.1 h.2.2.1 h.2.2.2 (congrArg (some ∘ Instr.loopi) h.1)
theorem trap (o : CodeOp) : Statement (.trap o) := fun _ h _ =>
  have h := CodeOp.word_fields (Option.some.inj h).symm; decodeOp_B h.2.1 h.2.2.1 h.2.2.2 (congrArg (some ∘ Instr.trap) h.1)
theorem syscall (o : CodeOp) : Statement (.syscall o) := fun _ h _ =>
  have h := CodeOp.word_fields (Option.some.inj h).symm; decodeOp_B h.2.1 h.2.2.1 h.2.2.2 (congrArg (some ∘ Instr.syscall) h.1)
theorem eret (o : PlainOp) : Statement (.eret o) := fun _ h _ => by
  obtain ⟨h1, h2, h3, h4, h5⟩ := PlainOp.word_fields (Option.some.inj h).symm
  exact decodeOp_B h2 h3 h4 (by simp [opB, h1, h5])
theorem eretS (o : PlainOp) : Statement (.eretS o) := fun _ h _ => by
  obtain ⟨h1, h2, h3, h4, h5⟩ := PlainOp.word_fields2 (Option.some.inj h).symm
  exact decodeOp_B h2 h3 h4 (by simp [opB, h1, h5])
theorem twait (o : TWaitOp) : Statement (.twait o) := fun _ h _ =>
  have h := TWaitOp.word_fields (Option.some.inj h).symm; decodeOp_B h.2.1 h.2.2.1 h.2.2.2 (congrArg (some ∘ Instr.twait) h.1)
theorem tpoll (o : TPollOp) : Statement (.tpoll o) := fun _ h _ =>
  have h := TPollOp.word_fields (Option.some.inj h).symm; decodeOp_B h.2.1 h.2.2.1 h.2.2.2 (congrArg (some ∘ Instr.tpoll) h.1)
theorem waitwp (o : WaitWpOp) : Statement (.waitwp o) := fun _ h _ =>
  have h := WaitWpOp.word_fields (Option.some.inj h).symm; decodeOp_B h.2.1 h.2.2.1 h.2.2.2 (congrArg (some ∘ Instr.waitwp) h.1)
theorem setfmt (o : RegOp) : Statement (.setfmt o) := fun _ h _ =>
  have h := RegOp.word_fields (Option.some.inj h).symm; decodeOp_B h.2.1 h.2.2.1 h.2.2.2 (congrArg (some ∘ Instr.setfmt) h.1)
theorem setbank (o : SetBankOp) : Statement (.setbank o) := fun _ h _ =>
  have h := SetBankOp.word_fields (Option.some.inj h).symm; decodeOp_B h.2.1 h.2.2.1 h.2.2.2 (congrArg (some ∘ Instr.setbank) h.1)
theorem sync (o : PlainOp) : Statement (.sync o) := fun _ h _ =>
  have h := PlainOp.word_fields (Option.some.inj h).symm; decodeOp_B h.2.1 h.2.2.1 h.2.2.2.1 (congrArg (some ∘ Instr.sync) h.1)
theorem mfs (o : SysOp) : Statement (.mfs o) := fun _ h _ =>
  have h := SysOp.word_fields (Option.some.inj h).symm; decodeOp_B h.2.1 h.2.2.1 h.2.2.2 (congrArg (some ∘ Instr.mfs) h.1)
theorem mts (o : SysOp) : Statement (.mts o) := fun _ h _ =>
  have h := SysOp.word_fields (Option.some.inj h).symm; decodeOp_B h.2.1 h.2.2.1 h.2.2.2 (congrArg (some ∘ Instr.mts) h.1)
theorem ifence (o : PlainOp) : Statement (.ifence o) := fun _ h _ =>
  have h := PlainOp.word_fields (Option.some.inj h).symm; decodeOp_B h.2.1 h.2.2.1 h.2.2.2.1 (congrArg (some ∘ Instr.ifence) h.1)
theorem ovl (o : OvlOp) : Statement (.ovl o) := fun _ h _ =>
  have h := OvlOp.word_fields (Option.some.inj h).symm; decodeOp_B h.2.1 h.2.2.1 h.2.2.2 (congrArg (some ∘ Instr.ovl) h.1)
theorem launch (o : RegOp) : Statement (.launch o) := fun _ h _ =>
  have h := RegOp.word_fields (Option.some.inj h).symm; decodeOp_B h.2.1 h.2.2.1 h.2.2.2 (congrArg (some ∘ Instr.launch) h.1)
theorem launchg (o : KeyOp) : Statement (.launchg o) := fun _ h _ =>
  have h := KeyOp.word_fields (Option.some.inj h).symm; decodeOp_B h.2.1 h.2.2.1 h.2.2.2 (congrArg (some ∘ Instr.launchg) h.1)
theorem shape (o : KeyOp) : Statement (.shape o) := fun _ h _ =>
  have h := KeyOp.word_fields (Option.some.inj h).symm; decodeOp_B h.2.1 h.2.2.1 h.2.2.2 (congrArg (some ∘ Instr.shape) h.1)
theorem predict (o : PredictOp) : Statement (.predict o) := fun _ h _ =>
  have h := PredictOp.word_fields (Option.some.inj h).symm; decodeOp_B h.2.1 h.2.2.1 h.2.2.2 (congrArg (some ∘ Instr.predict) h.1)
theorem alloc (o : AllocOp) : Statement (.alloc o) := fun _ h _ =>
  have h := AllocOp.word_fields (Option.some.inj h).symm; decodeOp_B h.2.1 h.2.2.1 h.2.2.2 (congrArg (some ∘ Instr.alloc) h.1)
theorem free (o : RegOp) : Statement (.free o) := fun _ h _ =>
  have h := RegOp.word_fields (Option.some.inj h).symm; decodeOp_B h.2.1 h.2.2.1 h.2.2.2 (congrArg (some ∘ Instr.free) h.1)
theorem yield (o : PlainOp) : Statement (.yield o) := fun _ h _ =>
  have h := PlainOp.word_fields (Option.some.inj h).symm; decodeOp_B h.2.1 h.2.2.1 h.2.2.2.1 (congrArg (some ∘ Instr.yield) h.1)
theorem halt (o : PlainOp) : Statement (.halt o) := fun _ h _ =>
  have h := PlainOp.word_fields (Option.some.inj h).symm; decodeOp_B h.2.1 h.2.2.1 h.2.2.2.1 (congrArg (some ∘ Instr.halt) h.1)
theorem evset (o : EventOp) : Statement (.evset o) := fun _ h _ => by
  obtain ⟨h1, h2, h3, h4, h5⟩ := EventOp.word_fields (Option.some.inj h).symm
  exact decodeOp_B h2 h3 h4 (by simp [opB, h1, h5])
theorem evsetClear (o : EventOp) : Statement (.evsetClear o) := fun _ h _ => by
  obtain ⟨h1, h2, h3, h4, h5⟩ := EventOp.word_fields2 (Option.some.inj h).symm
  exact decodeOp_B h2 h3 h4 (by simp [opB, h1, h5])
theorem evwait (o : EventOp) : Statement (.evwait o) := fun _ h _ =>
  have h := EventOp.word_fields (Option.some.inj h).symm; decodeOp_B h.2.1 h.2.2.1 h.2.2.2.1 (congrArg (some ∘ Instr.evwait) h.1)
theorem endR (o : UOp) : Statement (.endR o) := nofun
theorem lda (o : UOp) : Statement (.lda o) := nofun
theorem ldb (o : UOp) : Statement (.ldb o) := nofun
theorem ldsa (o : UOp) : Statement (.ldsa o) := nofun
theorem ldsb (o : UOp) : Statement (.ldsb o) := nofun
theorem mma (o : UOp) : Statement (.mma o) := nofun
theorem zero (o : UOp) : Statement (.zero o) := nofun
theorem tld (o : UOp) : Statement (.tld o) := nofun
theorem epi (o : UOp) : Statement (.epi o) := nofun
theorem stt (o : UOp) : Statement (.stt o) := nofun
theorem sigchk (o : UOp) : Statement (.sigchk o) := nofun
theorem loopMicroOp (o : UOp) : Statement (.loopMicroOp o) := nofun
theorem endl (o : UOp) : Statement (.endl o) := nofun
theorem gadv (o : UOp) : Statement (.gadv o) := nofun
theorem setp (o : UOp) : Statement (.setp o) := nofun
theorem powerOn (v : StartView) : Statement (.powerOn v) := nofun
theorem hostReset (v : StartView) : Statement (.hostReset v) := nofun
theorem startComplete (v : StartEnd) : Statement (.startComplete v) := nofun
theorem startTimeout (reason : BitVec 8) : Statement (.startTimeout reason) := nofun
theorem restartDelay (v : StartView) : Statement (.restartDelay v) := nofun
theorem restart (v : StartView) : Statement (.restart v) := nofun
theorem getVersion : Statement (.getVersion) := nofun
theorem getCapabilities : Statement (.getCapabilities) := nofun
theorem negotiateAlgorithms : Statement (.negotiateAlgorithms) := nofun
theorem getDigests : Statement (.getDigests) := nofun
theorem getCertificate (slot off len : Nat) : Statement (.getCertificate slot off len) := nofun
theorem challenge (slot : Nat) (nonce : BitVec 256) : Statement (.challenge slot nonce) := nofun
theorem getMeasurements (block : Nat) : Statement (.getMeasurements block) := nofun
theorem spdmUnsupportedRequest (code : BitVec 8) : Statement (.spdmUnsupportedRequest code) := nofun
theorem thermtrip (die tj thbm : Nat) : Statement (.thermtrip die tj thbm) := nofun
theorem thermalClockStep (die tj thbm : Nat) : Statement (.thermalClockStep die tj thbm) := nofun
theorem registerWrite (r : HostReg) (v : BitVec 64) : Statement (.registerWrite r v) := nofun
theorem qtailWrite (q : BitVec 6) (v : BitVec 64) : Statement (.qtailWrite q v) := nofun
theorem queueEnable (q : BitVec 6) (v : BitVec 64) : Statement (.queueEnable q v) := nofun
theorem queueDisable (q : BitVec 6) (v : BitVec 64) : Statement (.queueDisable q v) := nofun
theorem gdoorWrite (q : BitVec 6) (v : BitVec 64) : Statement (.gdoorWrite q v) := nofun
theorem gpatchWrite (q : BitVec 6) (v : BitVec 64) : Statement (.gpatchWrite q v) := nofun
theorem create (c : BitVec 6) : Statement (.create c) := nofun
theorem destroy (c : BitVec 6) : Statement (.destroy c) := nofun
theorem invasid (c : BitVec 6) : Statement (.invasid c) := nofun
theorem invrange (c : BitVec 6) : Statement (.invrange c) := nofun
theorem ctxcmdBadCommand (op : BitVec 3) (c : BitVec 6) : Statement (.ctxcmdBadCommand op c) := nofun
theorem dieFence (v : BitVec 64) : Statement (.dieFence v) := nofun
theorem eccCounterClear : Statement (.eccCounterClear) := nofun
theorem matrixCounterClear : Statement (.matrixCounterClear) := nofun
theorem avsEnable (die : Nat) (v : BitVec 64) : Statement (.avsEnable die v) := nofun
theorem avsDisable (die : Nat) (v : BitVec 64) : Statement (.avsDisable die v) := nofun
theorem avsRaisePoint (die : Nat) : Statement (.avsRaisePoint die) := nofun
theorem avsResume (die : Nat) : Statement (.avsResume die) := nofun
theorem avsStep (die : Nat) : Statement (.avsStep die) := nofun
theorem iftStart (v : BitVec 64) : Statement (.iftStart v) := nofun
theorem iftComplete (failing : BitVec 7) : Statement (.iftComplete failing) := nofun
theorem retrain (p : Nat) (bad : BitVec 17) : Statement (.retrain p bad) := nofun
theorem up (p : Nat) : Statement (.up p) := nofun
theorem down (p : Nat) : Statement (.down p) := nofun
theorem atsInvalidateRequest (port page : Nat) : Statement (.atsInvalidateRequest port page) := nofun
theorem stokerFrame (die : Nat) (longRunning : List Nat) : Statement (.stokerFrame die longRunning) := nofun
theorem priorityAging (who : AgingWho) : Statement (.priorityAging who) := nofun
theorem taskStart (task : Nat) : Statement (.taskStart task) := nofun
theorem virtualCycleAdvance (task : Nat) : Statement (.virtualCycleAdvance task) := nofun
theorem resultLanding (core : Nat) : Statement (.resultLanding core) := nofun
theorem fmtWriteEffect (core : Nat) : Statement (.fmtWriteEffect core) := nofun
theorem preparedTransferTrigger (core : Nat) : Statement (.preparedTransferTrigger core) := nofun
theorem loopEndTest (core : Nat) : Statement (.loopEndTest core) := nofun
theorem accessComplete (core n : Nat) : Statement (.accessComplete core n) := nofun
theorem pageWalkComplete (core : Nat) : Statement (.pageWalkComplete core) := nofun
theorem overlayFetchComplete (core bank : Nat) : Statement (.overlayFetchComplete core bank) := nofun
theorem spillRefillComplete (core : Nat) : Statement (.spillRefillComplete core) := nofun
theorem remoteAccessTimeout (core : Nat) (w : TimeoutWho) : Statement (.remoteAccessTimeout core w) := nofun
theorem preemption (task : Nat) : Statement (.preemption task) := nofun
theorem lazyClaim (core : Nat) : Statement (.lazyClaim core) := nofun
theorem tokenWaitEnd (core : Nat) : Statement (.tokenWaitEnd core) := nofun
theorem writePointerWaitEnd (core : Nat) : Statement (.writePointerWaitEnd core) := nofun
theorem barrierComplete (task : Nat) : Statement (.barrierComplete task) := nofun
theorem eventWaitEnd (core : Nat) : Statement (.eventWaitEnd core) := nofun
theorem greenShareSpaceAvailable (core : Nat) : Statement (.greenShareSpaceAvailable core) := nofun
theorem matrixEntryStart (core : Nat) : Statement (.matrixEntryStart core) := nofun
theorem assayComplete (hearth : Nat) : Statement (.assayComplete hearth) := nofun
theorem runnerOperationStart (core ch : Nat) : Statement (.runnerOperationStart core ch) := nofun
theorem runnerOperationComplete (core ch : Nat) : Statement (.runnerOperationComplete core ch) := nofun
theorem scopyFarWrite (core ch : Nat) (flip : BitVec 64) : Statement (.scopyFarWrite core ch flip) := nofun
theorem collectiveComplete (ctx group : Nat) : Statement (.collectiveComplete ctx group) := nofun
theorem orderedAtomicRequest (n : Nat) : Statement (.orderedAtomicRequest n) := nofun
theorem orderedAtomicResend (n : Nat) : Statement (.orderedAtomicResend n) := nofun
theorem fabricPacketReceive (p : Nat) (pkt : Packet) : Statement (.fabricPacketReceive p pkt) := nofun
theorem fabricAckReceive (p : Nat) (seq : BitVec 16) : Statement (.fabricAckReceive p seq) := nofun
theorem fabricNakReceive (p : Nat) (seq : BitVec 16) : Statement (.fabricNakReceive p seq) := nofun
theorem ackIdleTimer (p : Nat) : Statement (.ackIdleTimer p) := nofun
theorem laneFailure (p lane : Nat) : Statement (.laneFailure p lane) := nofun
theorem retrainComplete (p stall : Nat) : Statement (.retrainComplete p stall) := nofun
theorem partnerTimeout (p : Nat) : Statement (.partnerTimeout p) := nofun
theorem cxlContainment (p : Nat) : Statement (.cxlContainment p) := nofun
theorem hostLinkDown (p : Nat) : Statement (.hostLinkDown p) := nofun
theorem correctedEccError (cls inst : Nat) : Statement (.correctedEccError cls inst) := nofun
theorem uncorrectedEccError (site : EccSite) : Statement (.uncorrectedEccError site) := nofun
theorem handlerCountAdvance (core : Nat) : Statement (.handlerCountAdvance core) := nofun
theorem powerLoss (standby : Bool) : Statement (.powerLoss standby) := nofun
theorem hostWritesToDeviceMemory (addr : Nat) (bytes : List (BitVec 8)) : Statement (.hostWritesToDeviceMemory addr bytes) := nofun

end Sys2Proof.Laws.Words
end

