-- ==== Sys2Proof/Tests/Slice0.lean ====
section
/-! SUPPORT. Small tests: ill-formed terms refused, words of spec/opcode_table.json decoded, results worked out by hand from the
rules and the worked examples of spec/, and for every statement states that meet its hypotheses. -/

set_option maxRecDepth 8000

namespace Sys2Proof.Tests

open Sys2Proof Sys2Proof.Machine

/-! ## Small states -/

/-- Core 0 runs a task of its own, with a 16 KiB partition. -/
def demo : State := placeSlot State.reset 0
/-- `demo` with its core changed. -/
def withCore (f : Core → Core) : State := modCore demo 0 f
/-- `demo` with registers of its core changed. -/
def withRegs (f : Regs → Regs) : State := withCore fun c => { c with regs := f c.regs }
/-- `demo` with a scalar register set. -/
def withX (r : Nat) (v : W64) : State := withRegs fun g => { g with x := tabSet g.x r v }
/-- `demo` with system registers changed. -/
def withSys (f : Sys → Sys) : State := withCore fun c => { c with sys := f c.sys }
/-- `demo` with a value in FMT. -/
def withFmt (v : W32) : State := withSys fun y => { y with fmt := v }
/-- A state with the task of its core 0 changed. -/
def taskIn (s : State) (f : Task → Task) : State := modTask s 0 f
/-- `demo` with its task changed. -/
def withTask (f : Task → Task) : State := taskIn demo f
/-- The task's scratchpad window (spec/10 R226). -/
def window : W64 := 0x100000000000000
/-- A started device with nothing running. -/
def up : State := { State.reset with boot := { begun := true, phase := .normal, lead := some 0 } }
/-- A cached translation of page 0 of context 0 to OFF 0, with these low leaf bits. -/
def withLeaf (bits : W64) : State :=
  { demo with hearths := tabSet demo.hearths 0 { tlb := [{ asid := 0, base := 0, bits := 12, leaf := bits }] } }

/-- Whether an access passes its checks. -/
def passes (r : Checked) : Bool := match r with | .ok (_ :: _) => true | _ => false
/-- The core 0 that an outcome leaves, with everything that it put in flight landed. -/
def landed (o : Out) : Core :=
  match o with
  | .next t => landDue { getCore t 0 with flight := (getCore t 0).flight ++ (getCore t 0).fresh } 100 true
  | _ => {}
/-- Scalar register r after an instruction. -/
def xAfter (i : Instr) (s : State) (r : Nat) : W64 := tabGet (landed (exec i s)).regs.x r 0
/-- Predicate q after an instruction. -/
def qAfter (i : Instr) (s : State) (r : Nat) : Bool := tabGet (landed (exec i s)).regs.q r false
/-- The cause of the trap that an instruction took, 0 when it took none. -/
def causeAfter (i : Instr) (s : State) : BitVec 8 :=
  match exec i s with
  | .next t => (match (getCore t 0).mark with | .trapped k => k | _ => 0)
  | _ => 0

/-! ## Ill-formed terms (spec/03 R42, R43, R46, R47; each operation's own entry) -/

theorem test_wf_units : ∀ i ∈ [Instr.add ⟨0, 2, 0, 1, 2, 3⟩, .vadd ⟨0, 1, 0, 0, 1, 2, 3⟩, .vadd ⟨0, 5, 0, 0, 1, 2, 3⟩, .ldD ⟨0, 8, 0, 0, 1, 2, 0⟩,
    .copy ⟨0, 7, 0, 0, 0, 0, 0⟩, .guard ⟨0, 1, 0, 0, 1, 1⟩, .fence ⟨0, 5, 0, 0, 0, 0⟩, .movi ⟨0, 12, 0, 1, 1⟩], i.wf = false := by decide
theorem test_wf_widths : (Instr.vadd ⟨0, 2, 0, 3, 1, 2, 3⟩).wf = false ∧ (Instr.vadd ⟨0, 2, 0, 2, 1, 2, 3⟩).wf = true := by decide
theorem test_wf_carry_pairs : ∀ g ∈ [(0 : BitVec 4), 1, 3, 15], (Instr.addc ⟨0, 0, g, 1, 2, 3⟩).wf = false ∧ (Instr.vsbc ⟨0, 2, g, 0, 1, 2, 3⟩).wf = false := by
  decide
theorem test_wf_compare_pairs : ∀ d ∈ [(0 : BitVec 5), 8, 31], (Instr.cmpeq ⟨0, 0, 0, d, 2, 3⟩).wf = false ∧ (Instr.cmplti ⟨0, 0, 0, d, 2, 3⟩).wf = false ∧
    (Instr.vcmpeq ⟨0, 2, 0, 0, d, 2, 3⟩).wf = false := by decide
theorem test_wf_reserved_codes : ∀ i ∈ [Instr.sext ⟨0, 0, 0, 1, 2, 3⟩, .zext ⟨0, 0, 0, 1, 2, 3⟩, .clz ⟨0, 0, 0, 1, 2, 1⟩, .movx ⟨0, 0, 0, 1, 2, 6⟩,
    .movx ⟨0, 0, 0, 1, 2, 0⟩, .movp ⟨0, 0, 0, 8, 2, 0⟩, .movfp ⟨0, 0, 0, 1, 8, 0⟩, .gset ⟨0, 0, 0, 1, 2, 5⟩, .gget ⟨0, 0, 0, 1, 8, 0⟩,
    .hset ⟨0, 0, 0, 1, 2, 9⟩, .hget ⟨0, 0, 0, 1, 2, 9⟩, .rdvc ⟨0, 0, 0, 1, 1, 0⟩, .pand ⟨0, 0, 0, 1, 16, 2⟩, .shli ⟨0, 0, 0, 1, 2, 64⟩,
    .tokl ⟨0, 0, 0, 1, 2, 64⟩], i.wf = false := by decide
theorem test_wf_vector_codes : ∀ i ∈ [Instr.vabs ⟨0, 2, 0, 0, 1, 2, 1⟩, .vmovx ⟨0, 2, 0, 0, 1, 2, 1⟩, .vmovx ⟨0, 2, 0, 0, 1, 2, 2⟩, .vbcast ⟨0, 2, 0, 0, 1, 2, 6⟩,
    .vext ⟨0, 2, 0, 1, 1, 2, 0⟩, .vext ⟨0, 2, 0, 0, 1, 2, 2⟩, .viota ⟨0, 2, 0, 0, 1, 1, 0⟩, .vcvt ⟨0, 2, 0, 0, 1, 2, 12⟩, .vunpk ⟨0, 2, 0, 0, 1, 2, 2⟩,
    .kand ⟨0, 2, 0, 0, 16, 2, 3⟩, .kmov ⟨0, 2, 0, 0, 1, 2, 1⟩, .kpopc ⟨0, 2, 0, 0, 1, 16, 0⟩], i.wf = false := by decide
theorem test_wf_special_codes : ∀ i ∈ [Instr.fexp2 ⟨0, 0, 1, 2, 1⟩, .frand ⟨0, 0, 1, 1, 0⟩, .fmovx ⟨0, 0, 1, 2, 5⟩, .dpt ⟨0, 0, 16, 2, 0⟩, .dadd ⟨0, 0, 1, 2, 16⟩,
    .dfrom ⟨0, 0, 1, 2, 5⟩, .dfrom ⟨0, 0, 1, 2, 31⟩, .dmap ⟨0, 0, 1, 2, 7⟩, .dmom ⟨0, 0, 1, 2, 8⟩, .dsupp ⟨0, 0, 1, 2, 4⟩, .dsupp ⟨0, 0, 1, 2, 10⟩],
    i.wf = false := by decide
theorem test_wf_access_fields : ∀ i ∈ [Instr.ldD ⟨0, 6, 0, 2, 1, 2, 0⟩, .ldQ ⟨0, 6, 0, 0, 1, 2, 0⟩, .ldQ ⟨0, 6, 0, 6, 2, 2, 0⟩, .ldv256 ⟨0, 6, 0, 1, 1, 2, 0⟩,
    .ldk ⟨0, 6, 0, 6, 1, 2, 0⟩, .stk ⟨0, 6, 0, 7, 16, 2, 0⟩, .ldd ⟨0, 6, 0, 6, 16, 2, 0⟩, .vgather ⟨0, 6, 0, 5, 1, 2, 0⟩, .vscatter ⟨0, 6, 0, 2, 31, 2, 0⟩,
    .ldaD ⟨0, 6, 0, 0, 1, 2, 5⟩, .stlW ⟨0, 6, 0, 0, 1, 2, 8⟩, .fence ⟨0, 6, 0, 1, 1, 5⟩, .drain ⟨0, 6, 0, 0, 0, 1, 0⟩, .aaddW ⟨0, 6, 0, 0, 1, 2, 13⟩,
    .acasD ⟨0, 6, 0, 0, 31, 2, 0⟩, .ocas ⟨0, 6, 0, 0, 31, 2, 0⟩], i.wf = false := by decide
theorem test_wf_engine_fields : ∀ i ∈ [Instr.copy ⟨0, 8, 0, 0, 0, 0, 1⟩, .scopy ⟨0, 8, 0, 0, 0, 0, 2⟩, .coll ⟨0, 8, 0, 0, 0, 0, 16⟩, .coll ⟨0, 8, 0, 0, 0, 0, 3⟩,
    .bprep ⟨0, 0, 0, 0, 5⟩, .bcallx ⟨0, 0, 0, 0, 5⟩, .ret ⟨0, 0, 0, 0⟩, .setbank ⟨0, 0, 3, 1⟩, .predict ⟨0, 0, 3, 1, 1⟩], i.wf = false := by decide

theorem test_wf_events : ∀ i ∈ [Instr.avsStep 4, .avsEnable 4 0, .thermtrip 4 0 0, .retrain 18 0, .up 24, .down 18, .atsInvalidateRequest 2 0, .stokerFrame 4 []],
    i.wf = false := by decide

/-! ## Words of the opcode table

Each word is put together from the fixed bits of its row in spec/opcode_table.json and from operand fields at the places that spec/03
R46 and the operation's entry draw. -/

theorem test_decode_s_r_1 :
    decode 0x098019AB = .ok (.add ⟨0, 1, 3, 6, 13, 11⟩) ∧
    decode 0x8C0099AB = .ok (.sub ⟨1, 1, 8, 6, 13, 11⟩) ∧
    decode 0x0E8119AB = .ok (.mul ⟨0, 1, 13, 6, 13, 11⟩) ∧
    decode 0x890199AB = .ok (.mulh ⟨1, 1, 2, 6, 13, 11⟩) ∧
    decode 0x0B8219AB = .ok (.mulhu ⟨0, 1, 7, 6, 13, 11⟩) ∧
    decode 0x8E0299AB = .ok (.div ⟨1, 1, 12, 6, 13, 11⟩) ∧
    decode 0x088319AB = .ok (.divu ⟨0, 1, 1, 6, 13, 11⟩) ∧
    decode 0x8B0399AB = .ok (.rem ⟨1, 1, 6, 6, 13, 11⟩) ∧
    decode 0x0D8419AB = .ok (.remu ⟨0, 1, 11, 6, 13, 11⟩) ∧
    decode 0x880499AB = .ok (.and ⟨1, 1, 0, 6, 13, 11⟩) ∧
    decode 0x0A8519AB = .ok (.or ⟨0, 1, 5, 6, 13, 11⟩) ∧
    decode 0x8D0599AB = .ok (.xor ⟨1, 1, 10, 6, 13, 11⟩) ∧
    decode 0x0F8619AB = .ok (.andn ⟨0, 1, 15, 6, 13, 11⟩) ∧
    decode 0x8A0699AB = .ok (.shl ⟨1, 1, 4, 6, 13, 11⟩) ∧
    decode 0x0C8719AB = .ok (.shr ⟨0, 1, 9, 6, 13, 11⟩) ∧
    decode 0x8F0799AB = .ok (.sar ⟨1, 1, 14, 6, 13, 11⟩) :=
  ⟨rfl, rfl, rfl, rfl, rfl, rfl, rfl, rfl, rfl, rfl, rfl, rfl, rfl, rfl, rfl, rfl⟩

theorem test_decode_s_r_2 :
    decode 0x098819AB = .ok (.ror ⟨0, 1, 3, 6, 13, 11⟩) ∧
    decode 0x8C0899AB = .ok (.min ⟨1, 1, 8, 6, 13, 11⟩) ∧
    decode 0x0E8919AB = .ok (.max ⟨0, 1, 13, 6, 13, 11⟩) ∧
    decode 0x890999AB = .ok (.minu ⟨1, 1, 2, 6, 13, 11⟩) ∧
    decode 0x0B8A19AB = .ok (.maxu ⟨0, 1, 7, 6, 13, 11⟩) ∧
    decode 0x8E0A99A0 = .ok (.clz ⟨1, 1, 12, 6, 13, 0⟩) ∧
    decode 0x088B19A0 = .ok (.ctz ⟨0, 1, 1, 6, 13, 0⟩) ∧
    decode 0x8B0B99A0 = .ok (.popc ⟨1, 1, 6, 6, 13, 0⟩) ∧
    decode 0x0D8C19A2 = .ok (.sext ⟨0, 1, 11, 6, 13, 2⟩) ∧
    decode 0x880C99A1 = .ok (.zext ⟨1, 1, 0, 6, 13, 1⟩) ∧
    decode 0x090D19AB = .ok (.addc ⟨0, 1, 2, 6, 13, 11⟩) ∧
    decode 0x890D99AB = .ok (.subb ⟨1, 1, 2, 6, 13, 11⟩) ∧
    decode 0x0F9019AB = .ok (.cmpeq ⟨0, 1, 15, 6, 13, 11⟩) ∧
    decode 0x8A1099AB = .ok (.cmplt ⟨1, 1, 4, 6, 13, 11⟩) ∧
    decode 0x0C9119AB = .ok (.cmpltu ⟨0, 1, 9, 6, 13, 11⟩) ∧
    decode 0x8F1199AB = .ok (.cmple ⟨1, 1, 14, 6, 13, 11⟩) :=
  ⟨rfl, rfl, rfl, rfl, rfl, rfl, rfl, rfl, rfl, rfl, rfl, rfl, rfl, rfl, rfl, rfl⟩

theorem test_decode_s_r_3 :
    decode 0x099219AB = .ok (.cmpleu ⟨0, 1, 3, 6, 13, 11⟩) ∧
    decode 0x8C1299AB = .ok (.pand ⟨1, 1, 8, 6, 13, 11⟩) ∧
    decode 0x0E9319AB = .ok (.por ⟨0, 1, 13, 6, 13, 11⟩) ∧
    decode 0x891399AB = .ok (.pxor ⟨1, 1, 2, 6, 13, 11⟩) ∧
    decode 0x0B9819A5 = .ok (.movx ⟨0, 1, 7, 6, 13, 5⟩) ∧
    decode 0x8E1899A0 = .ok (.movp ⟨1, 1, 12, 6, 13, 0⟩) ∧
    decode 0x089918A0 = .ok (.movfp ⟨0, 1, 1, 6, 5, 0⟩) ∧
    decode 0x8B1999A3 = .ok (.gset ⟨1, 1, 6, 6, 13, 3⟩) ∧
    decode 0x0D9A18A4 = .ok (.gget ⟨0, 1, 11, 6, 5, 4⟩) ∧
    decode 0x881A99A7 = .ok (.hset ⟨1, 1, 0, 6, 13, 7⟩) ∧
    decode 0x0A9B18A8 = .ok (.hget ⟨0, 1, 5, 6, 5, 8⟩) ∧
    decode 0x851B81AB = .ok (.guard ⟨1, 0, 10, 0, 13, 11⟩) ∧
    decode 0x0F9C1800 = .ok (.rdvc ⟨0, 1, 15, 6, 0, 0⟩) :=
  ⟨rfl, rfl, rfl, rfl, rfl, rfl, rfl, rfl, rfl, rfl, rfl, rfl, rfl⟩

theorem test_decode_s_i :
    decode 0x8A4066AD = .ok (.addi ⟨1, 1, 4, 6, 13, 45⟩) ∧
    decode 0x0CC266AD = .ok (.andi ⟨0, 1, 9, 6, 13, 45⟩) ∧
    decode 0x8F4466AD = .ok (.ori ⟨1, 1, 14, 6, 13, 45⟩) ∧
    decode 0x09C666AD = .ok (.xori ⟨0, 1, 3, 6, 13, 45⟩) ∧
    decode 0x8C4866AD = .ok (.shli ⟨1, 1, 8, 6, 13, 45⟩) ∧
    decode 0x0ECA66AD = .ok (.shri ⟨0, 1, 13, 6, 13, 45⟩) ∧
    decode 0x894C66AD = .ok (.sari ⟨1, 1, 2, 6, 13, 45⟩) ∧
    decode 0x0BCE66AD = .ok (.rori ⟨0, 1, 7, 6, 13, 45⟩) ∧
    decode 0x8E5066AD = .ok (.muli ⟨1, 1, 12, 6, 13, 45⟩) ∧
    decode 0x08D266AD = .ok (.cmpeqi ⟨0, 1, 1, 6, 13, 45⟩) ∧
    decode 0x8B5466AD = .ok (.cmplti ⟨1, 1, 6, 6, 13, 45⟩) ∧
    decode 0x0DD666AD = .ok (.cmpltui ⟨0, 1, 11, 6, 13, 45⟩) ∧
    decode 0x885866AD = .ok (.cmplei ⟨1, 1, 0, 6, 13, 45⟩) ∧
    decode 0x0ADA66AD = .ok (.cmpleui ⟨0, 1, 5, 6, 13, 45⟩) ∧
    decode 0x8D5C66AD = .ok (.tokl ⟨1, 1, 10, 6, 13, 45⟩) :=
  ⟨rfl, rfl, rfl, rfl, rfl, rfl, rfl, rfl, rfl, rfl, rfl, rfl, rfl, rfl, rfl⟩

theorem test_decode_s_k :
    decode 0x07E35ABC = .ok (.movi ⟨0, 0, 15, 6, 23228⟩) ∧
    decode 0x82733FFF = .ok (.movsh ⟨1, 0, 4, 6, 16383⟩) :=
  ⟨rfl, rfl⟩

theorem test_decode_v_1 :
    decode 0x1C8099AB = .ok (.vadd ⟨0, 3, 9, 1, 6, 13, 11⟩) ∧
    decode 0x9F0299AB = .ok (.vsub ⟨1, 3, 14, 1, 6, 13, 11⟩) ∧
    decode 0x198499AB = .ok (.vmul ⟨0, 3, 3, 1, 6, 13, 11⟩) ∧
    decode 0x9C0699AB = .ok (.vfma ⟨1, 3, 8, 1, 6, 13, 11⟩) ∧
    decode 0x1E8899AB = .ok (.vfms ⟨0, 3, 13, 1, 6, 13, 11⟩) ∧
    decode 0x990A99AB = .ok (.vfnma ⟨1, 3, 2, 1, 6, 13, 11⟩) ∧
    decode 0x1B8C99AB = .ok (.vmin ⟨0, 3, 7, 1, 6, 13, 11⟩) ∧
    decode 0x9E0E99AB = .ok (.vmax ⟨1, 3, 12, 1, 6, 13, 11⟩) ∧
    decode 0x189099A0 = .ok (.vabs ⟨0, 3, 1, 1, 6, 13, 0⟩) ∧
    decode 0x9B1299A0 = .ok (.vneg ⟨1, 3, 6, 1, 6, 13, 0⟩) ∧
    decode 0x1D9499AB = .ok (.vdiv ⟨0, 3, 11, 1, 6, 13, 11⟩) ∧
    decode 0x981699A0 = .ok (.vsqrt ⟨1, 3, 0, 1, 6, 13, 0⟩) ∧
    decode 0x1A9899AB = .ok (.vand ⟨0, 3, 5, 1, 6, 13, 11⟩) ∧
    decode 0x9D1A99AB = .ok (.vor ⟨1, 3, 10, 1, 6, 13, 11⟩) ∧
    decode 0x1F9C99AB = .ok (.vxor ⟨0, 3, 15, 1, 6, 13, 11⟩) ∧
    decode 0x9A1E99AB = .ok (.vandn ⟨1, 3, 4, 1, 6, 13, 11⟩) :=
  ⟨rfl, rfl, rfl, rfl, rfl, rfl, rfl, rfl, rfl, rfl, rfl, rfl, rfl, rfl, rfl, rfl⟩

theorem test_decode_v_2 :
    decode 0x1CA099AB = .ok (.vshl ⟨0, 3, 9, 1, 6, 13, 11⟩) ∧
    decode 0x9F2299AB = .ok (.vshr ⟨1, 3, 14, 1, 6, 13, 11⟩) ∧
    decode 0x19A499AB = .ok (.vsar ⟨0, 3, 3, 1, 6, 13, 11⟩) ∧
    decode 0x9C2699AB = .ok (.vshli ⟨1, 3, 8, 1, 6, 13, 11⟩) ∧
    decode 0x1EA899AB = .ok (.vshri ⟨0, 3, 13, 1, 6, 13, 11⟩) ∧
    decode 0x992A99AB = .ok (.vsari ⟨1, 3, 2, 1, 6, 13, 11⟩) ∧
    decode 0x1BAC99AB = .ok (.vmulhi ⟨0, 3, 7, 1, 6, 13, 11⟩) ∧
    decode 0x9E2E99AB = .ok (.vmulhiu ⟨1, 3, 12, 1, 6, 13, 11⟩) ∧
    decode 0x193099AB = .ok (.vadc ⟨0, 3, 2, 1, 6, 13, 11⟩) ∧
    decode 0x993299AB = .ok (.vsbc ⟨1, 3, 2, 1, 6, 13, 11⟩) ∧
    decode 0x1DB499AB = .ok (.vmacw ⟨0, 3, 11, 1, 6, 13, 11⟩) ∧
    decode 0x984099AB = .ok (.vcmpeq ⟨1, 3, 0, 1, 6, 13, 11⟩) ∧
    decode 0x1AC299AB = .ok (.vcmplt ⟨0, 3, 5, 1, 6, 13, 11⟩) ∧
    decode 0x9D4499AB = .ok (.vcmple ⟨1, 3, 10, 1, 6, 13, 11⟩) ∧
    decode 0x1FC699AB = .ok (.vcmpltu ⟨0, 3, 15, 1, 6, 13, 11⟩) ∧
    decode 0x9A4899AB = .ok (.vcmpleu ⟨1, 3, 4, 1, 6, 13, 11⟩) :=
  ⟨rfl, rfl, rfl, rfl, rfl, rfl, rfl, rfl, rfl, rfl, rfl, rfl, rfl, rfl, rfl, rfl⟩

theorem test_decode_v_3 :
    decode 0x1CCA99A0 = .ok (.vclass ⟨0, 3, 9, 1, 6, 13, 0⟩) ∧
    decode 0x9F4C99AB = .ok (.vsel ⟨1, 3, 14, 1, 6, 13, 11⟩) ∧
    decode 0x19CE99A0 = .ok (.vmov ⟨0, 3, 3, 1, 6, 13, 0⟩) ∧
    decode 0x9C5099A5 = .ok (.vmovx ⟨1, 3, 8, 1, 6, 13, 5⟩) ∧
    decode 0x1ED299A4 = .ok (.vbcast ⟨0, 3, 13, 1, 6, 13, 4⟩) ∧
    decode 0x995419A1 = .ok (.vext ⟨1, 3, 2, 0, 6, 13, 1⟩) ∧
    decode 0x1BD699AB = .ok (.vperm ⟨0, 3, 7, 1, 6, 13, 11⟩) ∧
    decode 0x9E589800 = .ok (.viota ⟨1, 3, 12, 1, 6, 0, 0⟩) ∧
    decode 0x18DA99A0 = .ok (.vredadd ⟨0, 3, 1, 1, 6, 13, 0⟩) ∧
    decode 0x9B5C99A0 = .ok (.vredmax ⟨1, 3, 6, 1, 6, 13, 0⟩) ∧
    decode 0x1DDE99A0 = .ok (.vredmin ⟨0, 3, 11, 1, 6, 13, 0⟩) ∧
    decode 0x986099AA = .ok (.vcvt ⟨1, 3, 0, 1, 6, 13, 10⟩) ∧
    decode 0x1AE299AB = .ok (.vqnt ⟨0, 3, 5, 1, 6, 13, 11⟩) ∧
    decode 0x9D6499AB = .ok (.vdqnt ⟨1, 3, 10, 1, 6, 13, 11⟩) ∧
    decode 0x1FE699AB = .ok (.vpack ⟨0, 3, 15, 1, 6, 13, 11⟩) ∧
    decode 0x9A6899A1 = .ok (.vunpk ⟨1, 3, 4, 1, 6, 13, 1⟩) :=
  ⟨rfl, rfl, rfl, rfl, rfl, rfl, rfl, rfl, rfl, rfl, rfl, rfl, rfl, rfl, rfl, rfl⟩

theorem test_decode_v_4 :
    decode 0x1CEA99A0 = .ok (.vclz ⟨0, 3, 9, 1, 6, 13, 0⟩) ∧
    decode 0x9F6C99A0 = .ok (.vpopc ⟨1, 3, 14, 1, 6, 13, 0⟩) ∧
    decode 0x19EE99A0 = .ok (.vscan ⟨0, 3, 3, 1, 6, 13, 0⟩) ∧
    decode 0x9C7099AB = .ok (.kand ⟨1, 3, 8, 1, 6, 13, 11⟩) ∧
    decode 0x1EF299AB = .ok (.kor ⟨0, 3, 13, 1, 6, 13, 11⟩) ∧
    decode 0x997499AB = .ok (.kxor ⟨1, 3, 2, 1, 6, 13, 11⟩) ∧
    decode 0x1BF699A0 = .ok (.kmov ⟨0, 3, 7, 1, 6, 13, 0⟩) ∧
    decode 0x9E7899A0 = .ok (.kpopc ⟨1, 3, 12, 1, 6, 13, 0⟩) ∧
    decode 0x18FA99A0 = .ok (.kfirst ⟨0, 3, 1, 1, 6, 13, 0⟩) :=
  ⟨rfl, rfl, rfl, rfl, rfl, rfl, rfl, rfl, rfl⟩

theorem test_decode_f_1 :
    decode 0xD30019A0 = .ok (.fexp2 ⟨1, 6, 6, 13, 0⟩) ∧
    decode 0x558099A0 = .ok (.flog2 ⟨0, 11, 6, 13, 0⟩) ∧
    decode 0xD00119A0 = .ok (.frcp ⟨1, 0, 6, 13, 0⟩) ∧
    decode 0x528199A0 = .ok (.frsq ⟨0, 5, 6, 13, 0⟩) ∧
    decode 0xD50219A0 = .ok (.fsinpi ⟨1, 10, 6, 13, 0⟩) ∧
    decode 0x578299A0 = .ok (.fcospi ⟨0, 15, 6, 13, 0⟩) ∧
    decode 0xD20319A0 = .ok (.ftanh ⟨1, 4, 6, 13, 0⟩) ∧
    decode 0x548399A0 = .ok (.fsigm ⟨0, 9, 6, 13, 0⟩) ∧
    decode 0xD70419A0 = .ok (.ferf ⟨1, 14, 6, 13, 0⟩) ∧
    decode 0x51849800 = .ok (.frand ⟨0, 3, 6, 0, 0⟩) ∧
    decode 0xD40519A4 = .ok (.fmovx ⟨1, 8, 6, 13, 4⟩) ∧
    decode 0x56A019A0 = .ok (.dpt ⟨0, 13, 6, 13, 0⟩) ∧
    decode 0xD12099A9 = .ok (.dfrom ⟨1, 2, 6, 13, 9⟩) ∧
    decode 0x53A119AB = .ok (.dadd ⟨0, 7, 6, 13, 11⟩) ∧
    decode 0xD62199AB = .ok (.dsub ⟨1, 12, 6, 13, 11⟩) ∧
    decode 0x50A219AB = .ok (.dmul ⟨0, 1, 6, 13, 11⟩) :=
  ⟨rfl, rfl, rfl, rfl, rfl, rfl, rfl, rfl, rfl, rfl, rfl, rfl, rfl, rfl, rfl, rfl⟩

theorem test_decode_f_2 :
    decode 0xD32299AB = .ok (.dmax ⟨1, 6, 6, 13, 11⟩) ∧
    decode 0x55A319AB = .ok (.dmin ⟨0, 11, 6, 13, 11⟩) ∧
    decode 0xD02399AB = .ok (.daff ⟨1, 0, 6, 13, 11⟩) ∧
    decode 0x52A419A6 = .ok (.dmap ⟨0, 5, 6, 13, 6⟩) ∧
    decode 0xD52519AB = .ok (.dtag ⟨1, 10, 6, 13, 11⟩) ∧
    decode 0x57A599AB = .ok (.dtags ⟨0, 15, 6, 13, 11⟩) ∧
    decode 0xD22619A0 = .ok (.dcanon ⟨1, 4, 6, 13, 0⟩) ∧
    decode 0x54A699A6 = .ok (.dmom ⟨0, 9, 6, 13, 6⟩) ∧
    decode 0xD72719AB = .ok (.dqnt ⟨1, 14, 6, 13, 11⟩) ∧
    decode 0x51A799AB = .ok (.dcdf ⟨0, 3, 6, 13, 11⟩) ∧
    decode 0xD42819A0 = .ok (.dmov ⟨1, 8, 6, 13, 0⟩) ∧
    decode 0x56A899A9 = .ok (.dsupp ⟨0, 13, 6, 13, 9⟩) :=
  ⟨rfl, rfl, rfl, rfl, rfl, rfl, rfl, rfl, rfl, rfl, rfl, rfl⟩

theorem test_decode_m :
    decode 0xA9052CB3 = .ok (.mcall ⟨1, 2, 165, 37, 19⟩) ∧
    decode 0x2B8AD4A0 = .ok (.mclr ⟨0, 7, 90, 37⟩) ∧
    decode 0xAE1095A0 = .ok (.mstat ⟨1, 12, 37, 13⟩) ∧
    decode 0x289E95A0 = .ok (.msig ⟨0, 1, 6, 37, 13⟩) ∧
    decode 0xAB200000 = .ok (.mabort ⟨1, 6⟩) ∧
    decode 0x2DA895AB = .ok (.mload ⟨0, 11, 37, 13, 11⟩) :=
  ⟨rfl, rfl, rfl, rfl, rfl, rfl⟩

theorem test_decode_l_1 :
    decode 0xB8004CD9 = .ok (.ldB ⟨1, 7, 0, 1, 6, 13, 9⟩) ∧
    decode 0x3A824CD9 = .ok (.ldBz ⟨0, 7, 5, 1, 6, 13, 9⟩) ∧
    decode 0xBD044CD9 = .ok (.ldH ⟨1, 7, 10, 1, 6, 13, 9⟩) ∧
    decode 0x3F864CD9 = .ok (.ldHz ⟨0, 7, 15, 1, 6, 13, 9⟩) ∧
    decode 0xBA084CD9 = .ok (.ldW ⟨1, 7, 4, 1, 6, 13, 9⟩) ∧
    decode 0x3C8A4CD9 = .ok (.ldWz ⟨0, 7, 9, 1, 6, 13, 9⟩) ∧
    decode 0xBF0C4CD9 = .ok (.ldD ⟨1, 7, 14, 1, 6, 13, 9⟩) ∧
    decode 0x398ECCD9 = .ok (.ldQ ⟨0, 7, 3, 3, 6, 13, 9⟩) ∧
    decode 0xBC108CD9 = .ok (.ldv256 ⟨1, 7, 8, 2, 6, 13, 9⟩) ∧
    decode 0x3E934CD9 = .ok (.ldv512 ⟨0, 7, 13, 5, 6, 13, 9⟩) ∧
    decode 0xB9150CD9 = .ok (.ldv1024 ⟨1, 7, 2, 4, 6, 13, 9⟩) ∧
    decode 0x3B97CCD9 = .ok (.ldk ⟨0, 7, 7, 7, 6, 13, 9⟩) ∧
    decode 0xBE198CD9 = .ok (.ldd ⟨1, 7, 12, 6, 6, 13, 9⟩) ∧
    decode 0x389A4CD9 = .ok (.ldxD ⟨0, 7, 1, 1, 6, 13, 9⟩) ∧
    decode 0xBB1C4CD9 = .ok (.ldxW ⟨1, 7, 6, 1, 6, 13, 9⟩) ∧
    decode 0x3DA04CD9 = .ok (.stB ⟨0, 7, 11, 1, 6, 13, 9⟩) :=
  ⟨rfl, rfl, rfl, rfl, rfl, rfl, rfl, rfl, rfl, rfl, rfl, rfl, rfl, rfl, rfl, rfl⟩

theorem test_decode_l_2 :
    decode 0xB8224CD9 = .ok (.stH ⟨1, 7, 0, 1, 6, 13, 9⟩) ∧
    decode 0x3AA44CD9 = .ok (.stW ⟨0, 7, 5, 1, 6, 13, 9⟩) ∧
    decode 0xBD264CD9 = .ok (.stD ⟨1, 7, 10, 1, 6, 13, 9⟩) ∧
    decode 0x3FA8CCD9 = .ok (.stQ ⟨0, 7, 15, 3, 6, 13, 9⟩) ∧
    decode 0xBA2A8CD9 = .ok (.stv256 ⟨1, 7, 4, 2, 6, 13, 9⟩) ∧
    decode 0x3CAD4CD9 = .ok (.stv512 ⟨0, 7, 9, 5, 6, 13, 9⟩) ∧
    decode 0xBF2F0CD9 = .ok (.stv1024 ⟨1, 7, 14, 4, 6, 13, 9⟩) ∧
    decode 0x39B1CCD9 = .ok (.stk ⟨0, 7, 3, 7, 6, 13, 9⟩) ∧
    decode 0xBC338CD9 = .ok (.std ⟨1, 7, 8, 6, 6, 13, 9⟩) ∧
    decode 0x3EB44CD9 = .ok (.stxD ⟨0, 7, 13, 1, 6, 13, 9⟩) ∧
    decode 0xB9364CD9 = .ok (.stxW ⟨1, 7, 2, 1, 6, 13, 9⟩) ∧
    decode 0x3BB90CD9 = .ok (.vgather ⟨0, 7, 7, 4, 6, 13, 9⟩) ∧
    decode 0xBE3B0CD9 = .ok (.vscatter ⟨1, 7, 12, 4, 6, 13, 9⟩) ∧
    decode 0x38C04CD4 = .ok (.ldaW ⟨0, 7, 1, 1, 6, 13, 4⟩) ∧
    decode 0xBB424CD4 = .ok (.ldaD ⟨1, 7, 6, 1, 6, 13, 4⟩) ∧
    decode 0x3DC44CD4 = .ok (.stlW ⟨0, 7, 11, 1, 6, 13, 4⟩) :=
  ⟨rfl, rfl, rfl, rfl, rfl, rfl, rfl, rfl, rfl, rfl, rfl, rfl, rfl, rfl, rfl, rfl⟩

theorem test_decode_l_3 :
    decode 0xB8464CD4 = .ok (.stlD ⟨1, 7, 0, 1, 6, 13, 4⟩) ∧
    decode 0x32C96A6C = .ok (.fence ⟨0, 6, 5, 45, 19, 3⟩) ∧
    decode 0xBD4A0000 = .ok (.drain ⟨1, 7, 10, 0, 0, 0, 0⟩) ∧
    decode 0x3FCC00D9 = .ok (.pref ⟨0, 7, 15, 0, 0, 13, 9⟩) ∧
    decode 0xBA504CD9 = .ok (.aaddW ⟨1, 7, 4, 1, 6, 13, 9⟩) ∧
    decode 0x3CD24CD9 = .ok (.aandW ⟨0, 7, 9, 1, 6, 13, 9⟩) ∧
    decode 0xBF544CD9 = .ok (.aorW ⟨1, 7, 14, 1, 6, 13, 9⟩) ∧
    decode 0x39D64CD9 = .ok (.axorW ⟨0, 7, 3, 1, 6, 13, 9⟩) ∧
    decode 0xBC584CD9 = .ok (.aminW ⟨1, 7, 8, 1, 6, 13, 9⟩) ∧
    decode 0x3EDA4CD9 = .ok (.amaxW ⟨0, 7, 13, 1, 6, 13, 9⟩) ∧
    decode 0xB95C4CD9 = .ok (.aminuW ⟨1, 7, 2, 1, 6, 13, 9⟩) ∧
    decode 0x3BDE4CD9 = .ok (.amaxuW ⟨0, 7, 7, 1, 6, 13, 9⟩) ∧
    decode 0xBE604CD9 = .ok (.aswpW ⟨1, 7, 12, 1, 6, 13, 9⟩) ∧
    decode 0x38E24CD9 = .ok (.acasW ⟨0, 7, 1, 1, 6, 13, 9⟩) ∧
    decode 0xBB644CD9 = .ok (.afaddW ⟨1, 7, 6, 1, 6, 13, 9⟩) ∧
    decode 0x3DE64CD9 = .ok (.aaddD ⟨0, 7, 11, 1, 6, 13, 9⟩) :=
  ⟨rfl, rfl, rfl, rfl, rfl, rfl, rfl, rfl, rfl, rfl, rfl, rfl, rfl, rfl, rfl, rfl⟩

theorem test_decode_l_4 :
    decode 0xB8684CD9 = .ok (.aandD ⟨1, 7, 0, 1, 6, 13, 9⟩) ∧
    decode 0x3AEA4CD9 = .ok (.aorD ⟨0, 7, 5, 1, 6, 13, 9⟩) ∧
    decode 0xBD6C4CD9 = .ok (.axorD ⟨1, 7, 10, 1, 6, 13, 9⟩) ∧
    decode 0x3FEE4CD9 = .ok (.aminD ⟨0, 7, 15, 1, 6, 13, 9⟩) ∧
    decode 0xBA704CD9 = .ok (.amaxD ⟨1, 7, 4, 1, 6, 13, 9⟩) ∧
    decode 0x3CF24CD9 = .ok (.aminuD ⟨0, 7, 9, 1, 6, 13, 9⟩) ∧
    decode 0xBF744CD9 = .ok (.amaxuD ⟨1, 7, 14, 1, 6, 13, 9⟩) ∧
    decode 0x39F64CD9 = .ok (.aswpD ⟨0, 7, 3, 1, 6, 13, 9⟩) ∧
    decode 0xBC784CD9 = .ok (.acasD ⟨1, 7, 8, 1, 6, 13, 9⟩) ∧
    decode 0x3EFA4CD9 = .ok (.oadd ⟨0, 7, 13, 1, 6, 13, 9⟩) ∧
    decode 0xB97C4CD9 = .ok (.oswp ⟨1, 7, 2, 1, 6, 13, 9⟩) ∧
    decode 0x3BFE4CD9 = .ok (.ocas ⟨0, 7, 7, 1, 6, 13, 9⟩) :=
  ⟨rfl, rfl, rfl, rfl, rfl, rfl, rfl, rfl, rfl, rfl, rfl, rfl⟩

theorem test_decode_c :
    decode 0xCE059660 = .ok (.copy ⟨1, 9, 12, 5, 37, 19, 0⟩) ∧
    decode 0x488D9660 = .ok (.copy2 ⟨0, 9, 1, 5, 37, 19, 0⟩) ∧
    decode 0xCB159660 = .ok (.send ⟨1, 9, 6, 5, 37, 19, 0⟩) ∧
    decode 0x4D9D9660 = .ok (.fetch ⟨0, 9, 11, 5, 37, 19, 0⟩) ∧
    decode 0xC8259661 = .ok (.scopy ⟨1, 9, 0, 5, 37, 19, 1⟩) ∧
    decode 0x4AAD966D = .ok (.coll ⟨0, 9, 5, 5, 37, 19, 13⟩) ∧
    decode 0xCD359660 = .ok (.czero ⟨1, 9, 10, 5, 37, 19, 0⟩) ∧
    decode 0x4FBD9660 = .ok (.cflush ⟨0, 9, 15, 5, 37, 19, 0⟩) :=
  ⟨rfl, rfl, rfl, rfl, rfl, rfl, rfl, rfl⟩

theorem test_decode_b_1 :
    decode 0xDA14FFF1 = .ok (.bprep ⟨1, 4, 2, 9, 32753⟩) ∧
    decode 0x5CB48123 = .ok (.bcall ⟨0, 9, 2, 9, 291⟩) ∧
    decode 0xDF41A5A0 = .ok (.bprepx ⟨1, 14, 2, 9, 13⟩) ∧
    decode 0x59C2A5A0 = .ok (.bcallx ⟨0, 3, 2, 9, 13⟩) ∧
    decode 0xDC43A400 = .ok (.ret ⟨1, 8, 2, 9⟩) ∧
    decode 0x5EC46D55 = .ok (.loop ⟨0, 13, 13, 1365⟩) ∧
    decode 0xD9459235 = .ok (.loopi ⟨1, 2, 146, 53⟩) ∧
    decode 0x5BC61234 = .ok (.trap ⟨0, 7, 4660⟩) ∧
    decode 0xDE471234 = .ok (.syscall ⟨1, 12, 4660⟩) ∧
    decode 0x58C80000 = .ok (.eret ⟨0, 1⟩) ∧
    decode 0xDB480001 = .ok (.eretS ⟨1, 6⟩) ∧
    decode 0x5DC99400 = .ok (.twait ⟨0, 11, 37⟩) ∧
    decode 0xD84A94C5 = .ok (.tpoll ⟨1, 0, 37, 6, 5⟩) ∧
    decode 0x5ACBB400 = .ok (.waitwp ⟨0, 5, 1, 13⟩) ∧
    decode 0xDD4C6800 = .ok (.setfmt ⟨1, 10, 13⟩) ∧
    decode 0x5FCD40FE = .ok (.setbank ⟨0, 15, 1, 254⟩) :=
  ⟨rfl, rfl, rfl, rfl, rfl, rfl, rfl, rfl, rfl, rfl, rfl, rfl, rfl, rfl, rfl, rfl⟩

theorem test_decode_b_2 :
    decode 0xDA4E0000 = .ok (.sync ⟨1, 4⟩) ∧
    decode 0x5CCF6136 = .ok (.mfs ⟨0, 9, 388, 1, 22⟩) ∧
    decode 0xDF506136 = .ok (.mts ⟨1, 14, 388, 1, 22⟩) ∧
    decode 0x59D10000 = .ok (.ifence ⟨0, 3⟩) ∧
    decode 0xDC52C300 = .ok (.ovl ⟨1, 8, 195⟩) ∧
    decode 0x5ED36800 = .ok (.launch ⟨0, 13, 13⟩) ∧
    decode 0xD9546DB8 = .ok (.launchg ⟨1, 2, 13, 183⟩) ∧
    decode 0x5BD56DB8 = .ok (.shape ⟨0, 7, 13, 183⟩) ∧
    decode 0xDE565B6E = .ok (.predict ⟨1, 12, 1, 13, 183⟩) ∧
    decode 0x58D76AC0 = .ok (.alloc ⟨0, 1, 13, 11⟩) ∧
    decode 0xDB586800 = .ok (.free ⟨1, 6, 13⟩) ∧
    decode 0x5DD90000 = .ok (.yield ⟨0, 11⟩) ∧
    decode 0xD85A0000 = .ok (.halt ⟨1, 0⟩) ∧
    decode 0x5ADB1A00 = .ok (.evset ⟨0, 5, 13⟩) ∧
    decode 0xDD5B5A00 = .ok (.evsetClear ⟨1, 10, 13⟩) ∧
    decode 0x5FDC1A00 = .ok (.evwait ⟨0, 15, 13⟩) :=
  ⟨rfl, rfl, rfl, rfl, rfl, rfl, rfl, rfl, rfl, rfl, rfl, rfl, rfl, rfl, rfl, rfl⟩

theorem test_decode_micro_ops :
    decodeUop 0x00A7C00001020304 = some (.endR ⟨1, 2, 3, 7, 16909060⟩) ∧
    decodeUop 0x0631800002040608 = some (.lda ⟨4, 3, 0, 6, 33818120⟩) ∧
    decodeUop 0x0BCB40000306090C = some (.ldb ⟨7, 4, 5, 5, 50727180⟩) ∧
    decodeUop 0x0D55000004080C10 = some (.ldsa ⟨2, 5, 2, 4, 67636240⟩) ∧
    decodeUop 0x12EEC000050A0F14 = some (.ldsb ⟨5, 6, 7, 3, 84545300⟩) ∧
    decodeUop 0x14788000060C1218 = some (.mma ⟨0, 7, 4, 2, 101454360⟩) ∧
    decodeUop 0x19824000070E151C = some (.zero ⟨3, 0, 1, 1, 118363420⟩) ∧
    decodeUop 0x1F1C000008101820 = some (.tld ⟨6, 1, 6, 0, 135272480⟩) ∧
    decodeUop 0x20A7C00009121B24 = some (.epi ⟨1, 2, 3, 7, 152181540⟩) ∧
    decodeUop 0x263180000A141E28 = some (.stt ⟨4, 3, 0, 6, 169090600⟩) ∧
    decodeUop 0x2BCB40000B16212C = some (.sigchk ⟨7, 4, 5, 5, 185999660⟩) ∧
    decodeUop 0x2D5500000C182430 = some (.loopMicroOp ⟨2, 5, 2, 4, 202908720⟩) ∧
    decodeUop 0x32EEC0000D1A2734 = some (.endl ⟨5, 6, 7, 3, 219817780⟩) ∧
    decodeUop 0x347880000E1C2A38 = some (.gadv ⟨0, 7, 4, 2, 236726840⟩) ∧
    decodeUop 0x398240000F1E2D3C = some (.setp ⟨3, 0, 1, 1, 253635900⟩) :=
  ⟨rfl, rfl, rfl, rfl, rfl, rfl, rfl, rfl, rfl, rfl, rfl, rfl, rfl, rfl, rfl⟩

/-! ## States that meet the hypotheses of the statements -/

/-! ### The S slots -/

theorem test_witness_scalar : guardOn demo 0 = true ∧ (2 : BitVec 5).toNat ≤ 2 ∧ (63 : BitVec 7).toNat < 64 := by decide
theorem test_witness_guard_false : guardOn demo 1 = false ∧ guardOf (.add ⟨0, 0, 1, 1, 2, 3⟩) = some 1 := by decide
theorem test_witness_sets_and_copies : seeX demo (me demo) 0 = seeY demo (me demo) 0 ∧ (me demo).blocked = none ∧
    ∀ f, f < 3 → BanksReady demo [f] := by unfold BanksReady; decide

/-! ### The V and F slots -/

/-- A V operation in slot V0 on 1,024 bits. -/
def vOp0 : VOp := ⟨1, 2, 0, 2, 1, 2, 3⟩
theorem test_witness_float_types : ∀ p ∈ [((0 : W32), fp32), (1, bf16), (2, fp16), (9, e4m3), (10, e5m2)], VReady vOp0 (withFmt p.1) (.flt p.2) [] := by
  unfold VReady BanksReady; decide
theorem test_witness_integer_types : ∀ p ∈ [((7 : W32), 8, true), (8, 8, false), (5, 16, true), (6, 16, false)],
    VReady vOp0 (withFmt p.1) (.int p.2.1 p.2.2) [] ∧ (p.2.1, p.2.2) ∈ intKinds := by unfold VReady BanksReady; decide
theorem test_witness_wide_integer_types : ∀ p ∈ [((3 : W32), 32, true), (4, 32, false), (11, 64, true)],
    VReady vOp0 (withFmt p.1) (.int p.2.1 p.2.2) [] ∧ (p.2.1, p.2.2) ∈ intKinds := by unfold VReady BanksReady; decide
theorem test_witness_undefined_types : vCode (me (withFmt 12)) (vFile vOp0.u) = 12 ∧ vCode (me (withFmt 15)) (vFile vOp0.u) = 15 := ⟨rfl, rfl⟩
theorem test_witness_arithmetic_types : arithTypes.has (.flt fp32) = true ∧ arithTypes.has (.int 64 true) = true := by decide
theorem test_witness_copies_to_files : ∀ b ∈ [(2 : BitVec 5), 3, 4, 5], VReady vOp0 demo (.flt fp32) (copyBanks b.toNat) := by
  unfold VReady BanksReady; decide
theorem test_witness_pack_and_unpack : (ETy.int 64 true, ETy.int 32 true) ∈ packPairs ∧ (ETy.flt fp32, ETy.flt bf16) ∈ packPairs ∧
    (ETy.int 8 false, ETy.int 16 false) ∈ unpackPairs ∧ (ETy.flt fp16, ETy.flt fp32) ∈ unpackPairs ∧ etyOf 11 = some (.int 64 true) := by decide
theorem test_witness_enabled_elements : enabledAt demo 0 0 = true ∧ enabledAt demo 1 0 = false ∧
    ((List.range 32).filter (fun e => enabledAt demo 1 (e * 4))) = [] ∧ ((List.range 32).filter (fun e => enabledAt demo 0 (e * 4))) ≠ [] := by decide
theorem test_witness_running_sums (en : Nat → Bool) (first : Nat → Nat) (add : Nat → Nat → Nat) : ∃ sums : Nat → Option Nat, sums 0 = none ∧
    ∀ e, sums (e + 1) = if en e then some (match sums e with | none => first e | some y => add y e) else sums e :=
  ⟨fun n => n.rec none (fun e r => if en e then some (match r with | none => first e | some y => add y e) else r), rfl, fun _ => rfl⟩
theorem test_witness_special_types : ftOf 0 = some fp32 ∧ ftOf 0x100000 = some bf16 ∧ ftOf 0x200000 = some fp16 := by decide

/-! ### The L slots -/

/-- A scalar access through x1, with no displacement. -/
def viaX1 : LOp := ⟨1, 6, 0, 0, 4, 1, 0⟩
theorem test_witness_loads : guardOn (withX 1 window) 0 = true ∧ BanksReady (withX 1 window) [0, 1, 2] ∧ seeS (withX 1 window) false 1 = window ∧
    ∀ n ∈ [1, 2, 4, 8, 16, 32, 64, 128, 768], passes (checkAll (withX 1 window) { r := true } (parts window.toNat n)) = true := by
  unfold BanksReady; decide
theorem test_witness_global_load : passes (checkAll (withLeaf 0x25) { r := true } (parts 0x10 8)) = true := by decide
theorem test_witness_stores : greenOf demo demo.cur = false ∧
    ∀ n ∈ [1, 8, 32], passes (checkAll demo { w := true } (parts (window.toNat + 16384 - n) n)) = true := by decide
theorem test_witness_wide_stores : ∀ n ∈ [128], passes (checkAll demo { w := true } (parts (window.toNat + 16384 - n) n)) = true := by decide
theorem test_witness_distribution_store : passes (checkAll demo { w := true } (parts window.toNat 768)) = true := by decide
theorem test_witness_gather_types : vCode (me (withFmt 0)) 0 = 0 ∧ vCode (me (withFmt 3)) 0 = 3 ∧ vCode (me (withFmt 4)) 0 = 4 ∧ vCode (me (withFmt 11)) 0 = 11 :=
  ⟨rfl, rfl, rfl, rfl⟩
theorem test_witness_gather : passes (checkAll demo { r := true } (gatherParts 32 ((List.range 32).map (fun e => (e, window.toNat))))) = true ∧
    passes (checkAll demo { w := true } (gatherParts 64 ((List.range 16).map (fun e => (e, window.toNat + 8 * e))))) = true := by decide
theorem test_witness_misaligned : (seeS (withX 1 (window + 1)) false 1).toNat % 2 ^ 57 % 4 ≠ 0 ∧ (seeS (withX 1 (window + 4)) false 1).toNat % 2 ^ 57 % 8 ≠ 0 ∧
    (seeS (withX 1 window) false 1).toNat % 2 ^ 57 % 8 = 0 := by decide
theorem test_witness_atomics : passes (checkAll demo { r := true, w := true } (parts window.toNat 4)) = true ∧
    passes (checkAll demo { r := true, w := true } (parts window.toNat 8)) = true := by decide
/-- `demo` with a provisional task that holds a store. -/
def greenHolder : State := withTask fun k => { k with green := true, held := [{ core := 0, rows := [] }] }
theorem test_witness_green : greenOf greenHolder greenHolder.cur = true ∧ holdsStore greenHolder = true ∧ holdsStore demo = false ∧
    (0b100010 : BitVec 6).getLsbD 1 = true ∧ (0b100010 : BitVec 6).getLsbD 5 = true ∧ (0b011101 : BitVec 6).getLsbD 1 = false := by decide
theorem test_witness_traps : checkAll demo { r := true } (parts (window.toNat + 16384) 8) = .trap 5 (window.toNat + 16384) 0 ∧
    checkAll demo { w := true } (parts (window.toNat + 16380) 8) = .trap 5 (window.toNat + 16384) 1 ∧
    checkAll demo { r := true } (parts 0x10 8) = .hold (.walk 0x10 false) ∧ checkAll demo { w := true } (parts 0x10 8) = .hold (.walk 0x10 true) ∧
    translateMe (withLeaf 0x21) 0x10 { r := true } = .fault 5 false ∧ (parts 0x10 8).head? = some (0x10, 0, 8) := by decide

/-! ### Accesses at their home -/

/-- A store of the task to OFF 0x40. -/
def aStore : Acc := { id := 0, kind := .store, pa := 0x40, n := 8, data := [1, 2, 3, 4, 5, 6, 7, 8], no := 0, task := some 0 }
/-- `demo` with outstanding accesses. -/
def withAcc (l : List Acc) : State := withCore fun c => { c with acc := l }
theorem test_witness_store_at_home : MemOk (withAcc [aStore]) ∧ (getCore (withAcc [aStore]) 0).acc[0]? = some aStore ∧
    (writePa (withAcc [aStore]) (dieOf 0) aStore.mt aStore.pa aStore.data).toOption.isSome = true ∧ canPerform (withAcc [aStore]) 0 0 = true ∧
    (List.range 8).all (fun i => !inResident (withAcc [aStore]) (accCtx (withAcc [aStore]) aStore) (aStore.pa + i)) = true := by
  unfold MemOk; decide
theorem test_witness_host_store : (writePa demo 0 2 0x40 [1]).toOption.isSome = true := by decide
theorem test_witness_atomic_at_home : ∀ op ∈ [AtomOp.add, .and, .or, .xor, .min, .max, .minu, .maxu, .swap, .cas], ∀ n ∈ [4, 8],
    (atomicAt demo 0 { aStore with n := n } op 7 9 0).toOption.isSome = true := by decide
theorem test_witness_event_at_home : canPerform (withAcc [{ id := 0, kind := .signal (.event 5 true), no := 0, task := some 0 }]) 0 0 = true ∧
    tabFind (withAcc []).tasks 0 = some placedTask := by decide
/-- A load after `aStore`, from its second half on, in a later bundle. -/
def aLoad : Acc := { id := 1, kind := .load, pa := 0x44, n := 8, no := 1, task := some 0 }
theorem test_witness_shared_bytes : canPerform (withAcc [aStore, aLoad]) 0 1 = false ∧ aStore.no < aLoad.no ∧ aStore.task = aLoad.task ∧
    aStore.mt = aLoad.mt ∧ aStore.pa < aLoad.pa + aLoad.n ∧ aLoad.pa < aStore.pa + aStore.n := by decide
theorem test_witness_orders : ∀ l ∈ [[{ aStore with win := true }, { aLoad with win := true, pa := 0x400 }], [{ aLoad with no := 0, acq := some 0 }, { aStore with no := 1, pa := 0x400 }],
      [{ aLoad with no := 0 }, { aStore with no := 1, rel := some 0, pa := 0x400 }]],
    canPerform (withAcc l) 0 1 = false ∧ (l.map Acc.no) = [0, 1] := by decide
theorem test_witness_fence_order :
    canPerform (withAcc [{ aStore with pa := 0x400 }, { id := 5, kind := .fence 2 1 0, no := 0, task := some 0 }, aLoad]) 0 2 = false ∧
    (1 : BitVec 6).getLsbD 0 = true := by decide
theorem test_witness_unordered : canPerform (withAcc [aStore, { aLoad with pa := 0x48 }]) 0 1 = true := by decide
theorem test_witness_first_touch : MemOk demo ∧ blockOwnerOf demo 0 4095 ≠ some 0 := by unfold MemOk; decide

/-! ### The B slot -/

/-- `demo` with a loop stack. -/
def withLoops (l : List LoopLvl) : State := withCore fun c => { c with ctl := { c.ctl with loops := l } }
/-- A level whose body ends at word 4. -/
def level4 (n : BitVec 32) : LoopLvl := { lc := n, start := 1, stop := 4 }
theorem test_witness_loops : (me demo).ctl.loops.length ≠ 4 ∧ (seeX (withX 2 7) (me (withX 2 7)) 2).extractLsb' 0 32 ≠ 0 ∧
    (seeX demo (me demo) 2).extractLsb' 0 32 = 0 ∧ (me (withLoops (List.replicate 4 (level4 2)))).ctl.loops.length = 4 := by decide
/-- `demo` whose core has committed the bundle at word 4 with an armed transfer whose count is `n`. -/
def withPost (n : BitVec 4) (cond triggered : Bool) : State := withCore fun c =>
  let t : Tab Target := [(2, { armed := true, call := true, count := n, target := 0x30 })]
  { c with ctl := { c.ctl with tgt := t, loops := [level4 3], post := some { addr := 4, seqNext := 5, next := 5, old := t, conds := [(2, cond)], triggered := triggered } } }
theorem test_witness_trigger : ∀ p ∈ [((1 : BitVec 4), true), (1, false), (2, true)],
    ((getCore (withPost p.1 p.2 false) 0).ctl.post.map (fun q => (q.triggered, q.old, q.armed))) = some (false, (getCore (withPost p.1 p.2 false) 0).ctl.tgt, none) ∧
    (tabGet (getCore (withPost p.1 p.2 false) 0).ctl.tgt 2 {}).armed = true ∧ (tabGet (getCore (withPost p.1 p.2 false) 0).ctl.tgt 0 {}).armed = false := by decide
theorem test_witness_loop_end : ((getCore (withPost 1 true true) 0).ctl.post.map (fun q => (q.triggered, q.addr))) = some (true, 4) ∧
    (getCore (withPost 1 true true) 0).ctl.loops = [] ++ [level4 3] ∧ (level4 3).stop = 4 ∧ (level4 1).lc = 1 ∧ (level4 3).pend = none := by decide
/-- `demo` with traps enabled at word 0x40. -/
def trapsOn : State := withSys fun y => { y with trapvec := 0x10040 }
/-- `demo` inside a handler, at supervisor level. -/
def inHandler : State := modCore trapsOn 0 fun c => { c with handler := true, sys := { c.sys with priv := 1, estate := 4 } }
theorem test_witness_trap_entry : (me trapsOn).sys.trapvec.getLsbD 16 = true ∧ (me trapsOn).sys.estate.getLsbD 2 = false ∧ (me trapsOn).handler = false ∧
    (me trapsOn).ctl.pc < 65536 ∧ (me trapsOn).sys.fmtPend.Pairwise (fun a b => a.1 < b.1) ∧ (∀ p ∈ (me trapsOn).sys.fmtPend, nowOf trapsOn 0 < p.1) := by decide
theorem test_witness_pending_format : let s := modCore trapsOn 0 fun c => { c with sys := { c.sys with fmtPend := [(1, 5), (3, 6)] } }
    (me s).sys.fmtPend.Pairwise (fun a b => a.1 < b.1) ∧ ∀ p ∈ (me s).sys.fmtPend, nowOf s 0 < p.1 ∧ p.1 ≤ nowOf s 0 + 3 := by decide
theorem test_witness_task_ends : (me demo).sys.trapvec.getLsbD 16 = false ∧ (me demo).task = some 0 ∧ (tabFind demo.tasks 0).map (fun k => k.error) = some none ∧
    (me inHandler).sys.estate.getLsbD 2 = true := by decide
theorem test_witness_return : (me inHandler).sys.priv = 1 ∧ (me inHandler).sys.estate.getLsbD 2 = true ∧ (me inHandler).flight = [] ∧
    (me inHandler).fresh = [] ∧ (me inHandler).sys.fmtPend = [] ∧ (me inHandler).ctl.post = none ∧ ¬ ((me demo).sys.priv = 1) ∧ guardOn inHandler 0 = true := by decide
theorem test_witness_system_registers : (me demo).sys.priv ≠ 1 ∧ (0x200 : BitVec 10).toNat = 0x200 ∧ (0x1FF : BitVec 10).toNat = 0x1FF ∧
    (taskOf demo demo.cur).map (fun k => k.idx) = some 0 ∧ (me demo).blocked = none ∧ greenOf demo demo.cur = false ∧
    (0x214 : Nat) ∉ [0x000, 0x010, 0x011, 0x012, 0x013] ∧ (7 : W64).getLsbD 1 = true ∧ (5 : W64).getLsbD 1 = false ∧ (4096 : W64).toNat % 4096 = 0 := by decide
theorem test_witness_reads_at_issue : let s := withCore fun c => { c with blocked := some { regs := c.regs, fmt := 0, tok := [(5, .err 2)], mfs := some 77 } }
    ((me s).blocked.map (fun b => (b.mfs, tabGet b.tok 5 .ok))) = some (some 77, .err 2) ∧ (0x003 : Nat) < 0x200 := by decide
/-- `demo` with two banks and window bank `w`, spill limit `l`. -/
def withBanks (w : BitVec 16) (l : BitVec 16) : State := withSys fun y => { y with bankLo := 2, bankHi := 3, window := [(1, w)], spillLim := l }
theorem test_witness_banks : (me (withBanks 1 0)).sys.bankLo ≤ (me (withBanks 1 0)).sys.bankHi ∧ ((tabGet (me (withBanks 1 0)).sys.window 1 0).toNat : Int) = 1 ∧
    (me (withBanks 1 0)).sys.spillLim.toNat = (tabGet (me (withBanks 1 0)).sys.spilled 1 0).toNat := by decide
/-- `withBanks` with a spill count of file vb and a spill area in the partition. -/
def withSpilled (w sp : BitVec 16) : State := modCore (withBanks w 9) 0 fun c => { c with sys := { c.sys with spilled := [(1, sp)], spillBase := 0x100000000000000 } }
theorem test_witness_bank_moves : (me (withSpilled 1 0)).sys.spillLim.toNat ≠ (tabGet (me (withSpilled 1 0)).sys.spilled 1 0).toNat ∧
    bankForeign (withSpilled 1 0) (me (withSpilled 1 0)) 66 = false ∧ (tabGet (me (withSpilled 0 1)).sys.window 1 0).toNat < (tabGet (me (withSpilled 0 1)).sys.spilled 1 0).toNat ∧
    passes (checkAll (withSpilled 0 1) { r := true } (parts 0x100000000001000 96)) = true := by decide
theorem test_witness_bank_store : passes (checkAll demo { w := true } (parts 0x100000000001000 96)) = true := by decide
/-- `demo` whose task has segment 9 in bank 3. -/
def withSegment : State := withTask fun k => { k with segs := [(9, 0x10, 4, 3)] }
theorem test_witness_overlay : (me withSegment).handler = false ∧ (taskOf withSegment 0).map (fun k => (tabFind k.segs 9, tabFind k.segs 8)) = some (some (0x10, 4, 3), none) ∧
    (me inHandler).handler = true := by decide
/-- `demo` with a token's state. -/
def withTok (n : Nat) (t : Tok) : State := withCore fun c => { c with tok := tabSet c.tok n t }
theorem test_witness_waits : tokOf (me demo) 5 = .ok ∧ tokOf (me (withTok 5 .pending)) 5 = .pending ∧ tokOf (me (withTok 5 (.err 7))) 5 = .err 7 ∧
    (chanOf (me demo) 1).count.toNat < (seeX (withX 3 9) (me (withX 3 9)) 3).toNat % 2 ^ 48 ∧ (seeX demo (me demo) 3).toNat % 2 ^ 48 ≤ (chanOf (me demo) 1).count.toNat := by decide
/-- `demo` with event 5 of context 0 set. -/
def withEvent : State := { demo with ctxs := [(0, { events := [5] })] }
theorem test_witness_events : eventSet withEvent (ctxOf withEvent 0) 5 = true ∧ eventDue (me withEvent) 5 = false ∧ eventSet demo (ctxOf demo 0) 5 = false ∧
    eventSet demo (ctxOf demo 0) 4095 = false := by decide
theorem test_witness_sync : (taskOf (withTask fun k => { k with size := 2 }) 0).map (fun k => k.size) = some 2 ∧ (taskOf demo 0).map (fun k => k.size) = some 1 ∧
    (me demo).handler = false := by decide
theorem test_witness_launch : passes (checkAll demo { r := true } (parts window.toNat 128)) = true ∧ window.toNat % 128 = 0 ∧ (window.toNat + 64) % 128 ≠ 0 := by decide
/-- `demo` whose bundle blocked on a count that was refused or accepted. -/
def withAnswer (a : Bool) (r : Option (BitVec 1)) : State := withCore fun c => { c with blocked := some { regs := c.regs, fmt := 0, accepted := a, refused := r } }
theorem test_witness_shape : (me demo).blocked = none ∧ ((me (withAnswer true none)).blocked.map (fun b => b.accepted)) = some true ∧
    ((me (withAnswer false (some 1))).blocked.map (fun b => (b.accepted, b.refused))) = some (false, some 1) := by decide
theorem test_witness_alloc : inPart placedTask window.toNat 8 = true ∧ inPart placedTask (window.toNat + 16384) 8 = false ∧ (window.toNat + 4) % 8 ≠ 0 ∧
    passes (checkAll demo { w := true } (parts window.toNat 8)) = true ∧ tabFind demo.tasks 0 = some placedTask ∧ placedTask.green = false := by decide
theorem test_witness_yield : yieldsTo demo 0 placedTask = false := by decide
theorem test_witness_yield_to_another : yieldsTo { demo with turns := [(1, 1)], tasks := tabSet demo.tasks 1 { placedTask with st := 3, level := 3 } } 0 placedTask = true := by decide

/-! ### The matrix unit and the runners -/

/-- `demo` with a running routine. -/
def withRun (r : MRun) : State := withCore fun c => { c with mu := { c.mu with run := some r } }
/-- A routine at its first micro-op, with set 1 at the start of the partition. -/
def aRun : MRun := { entry := { placedEntry with g := [(1, { base := 0x100000000000000, str0 := 128, ext0 := 1, ext1 := 128 })], tok := 3 }, upc := 0 }
theorem test_witness_micro : MicroReady (withRun aRun) aRun 0 placedTask ∧ NoVictims (withRun aRun) := by unfold MicroReady NoVictims; decide
theorem test_witness_matrix_queue : combOk 0 = true ∧ queueDepth (me demo).mu < 16 ∧ tokOf (me demo) 4 ≠ .pending ∧ (me inHandler).sys.priv = 1 ∧
    16 ≤ queueDepth { (me demo).mu with queue := List.replicate 16 placedEntry } ∧ combOk 0x4000 = false ∧ checkingIn (me demo) = false := by decide
/-- `demo` with an M operation at the head of its queue. -/
def withEntry (e : MEntry) : State := withCore fun c => { c with mu := { c.mu with queue := [e] }, tok := [(7, .err 2)] }
theorem test_witness_matrix_start : listDone (me (withEntry placedEntry)) placedEntry.list = true ∧ listFailed (me (withEntry placedEntry)) placedEntry.list = false ∧
    listFailed (me (withEntry placedEntry)) 71 = true ∧ engineHeld (me (withEntry placedEntry)) (some 0) 0x30 0 = false ∧ victimOn (withEntry placedEntry) 0 = none ∧
    (me (withEntry placedEntry)).mu.run = none ∧ placedTask.preempt = false := by decide
/-- Whether operand bytes could be staged. -/
def staged (r : Staged) : Bool := match r with | .ok _ _ _ => true | _ => false
theorem test_witness_scale_load : staged (stageBytes demo placedTask 0 [window.toNat] 512 512) = true ∧ extOk { ext0 := 1, ext1 := 128 } = true := by decide
theorem test_witness_operand_load : staged (stageBytes demo placedTask 0 [window.toNat, window.toNat + 128] 128 128) = true := by decide
/-- A tile of a routine of `withRun`, with what it holds. -/
def withTile (r : MRun) (x : Tile) : State := withCore fun c => { c with mu := { c.mu with run := some r, tiles := [(2, x)] } }
theorem test_witness_step : let s := withTile { aRun with a := some { elems := [], grp := [0], rows := [] }, b := some { elems := [], grp := [1], rows := [] } } { epoch := some {} }
    (tileOf (me s) 2).bad = 0 ∧ (tileOf (me s) 2).accint = false ∧ s.faults = [] ∧ ([0] : List Nat).any (fun g => [1].contains g) = false ∧
    (scaleOf 0 = false ∨ isFp8 0 = false) := by decide
theorem test_witness_scaled_formats : ∃ fmt : W32, scaleOf fmt = true ∧ isFp8 fmt = true ∧ combOk fmt = true ∧ accCode fmt ≠ 1 := ⟨0x4000000, by decide⟩
theorem test_witness_integer_formats : ∃ fmt : W32, accCode fmt = 1 ∧ combOk fmt = true := ⟨0x64000, by decide⟩
theorem test_witness_images : outFmt 0 = some (.flt fp32) ∧ outFmt 4 = some (.flt e5m2) ∧ outFmt 7 = some (.int 8 false) ∧ (0x14 : BitVec 32).getLsbD 4 = true := by decide
/-- A row held for tile 2. -/
def aRow (b : Byte) : HeldRow := { va := 0x100000000000000, pa := 0x10000000000, mt := 0, bytes := [b] }
theorem test_witness_checks : signature ([] : List HeldRow) = signature [] ∧ signature [aRow 1] ≠ signature [aRow 2] ∧ ¬ (aRow 1 = aRow 2) := by decide
theorem test_witness_stored_rows : (placeFor demo (whoTask 0 placedTask false) { w := true } (rowParts [window.toNat] 512)).toOption.isSome = true ∧
    footHit demo 0 0x10000000000 512 = none ∧ heldBytes (me demo) + 1 * 128 * 4 ≤ 65536 ∧ (∀ k, k < 1 → (window.toNat + k) % 4 = 0) := by decide
theorem test_witness_routine_loops : (0x00300002 : BitVec 32).toNat / 2 ^ 20 ≠ 0 ∧ (0x00300002 : BitVec 32).toNat % 2 ^ 20 = 2 ∧ aRun.loops.length ≠ 4 ∧
    ({ aRun with loops := [(1, 4)] } : MRun).loops = [] ++ [(1, 4)] ∧ routineHolds (me (withRun aRun)) = false ∧
    routineHolds (me (withTile { aRun with mine := [2] } { epoch := some { held := [aRow 1] } })) = true ∧ (0x00300000 : BitVec 32).toNat % 2 ^ 20 = 0 := by decide
/-- `demo` whose tile 2 stands before the assay path of hearth 0. -/
def inAssay : State :=
  { withTile aRun { epoch := some { held := [aRow 1], drag := [aRow 2], checking := true } } with hearths := [(0, { assay := [(0, 2, 0)] })] }
theorem test_witness_assay : (getHearth inAssay 0).assay = [(0, 2, 0)] ∧ (getCore inAssay 0).task = some 0 ∧ (tabFind inAssay.tasks 0).isSome = true ∧
    (tileOf (getCore inAssay 0) 2).epoch.map (fun e => e.checking) = some true ∧ checkingIn (me inAssay) = true := by decide
/-- A runner operation of the task of `demo`: one row of `len` bytes within the partition. -/
def anOp (op : ROp) (len : BitVec 32) : REntry :=
  { op := op, set := { src := 0x100000000000000, dst := 0x100000000000100, len := len, rows := 1 }, tok := 6, list := 0, aux := 0, ctx := 0, task := 0, priv := 0, no := 0 }
/-- `demo` with channel 1 as given. -/
def withChan (q : Chan) : State := withCore fun c => { c with chan := tabSet c.chan 1 q }
theorem test_witness_runner_queue : tokOf (me demo) 6 ≠ .pending ∧ (chanOf (me demo) 1).queue.length + (if (chanOf (me demo) 1).run.isSome then 1 else 0) < 16 ∧
    greenWaits { placedTask with green := true } 0 .send {} 0 = true ∧ greenWaits { placedTask with green := true } 0 .cflush {} 0 = false ∧
    (List.replicate 16 (anOp .copy 8)).length = 16 := by decide
theorem test_witness_runner_start : let s := withChan { queue := [anOp .copy 8] }
    (chanOf (getCore s 0) 1).run = none ∧ (getCore s 0).task = some (anOp .copy 8).task ∧ listDone (getCore s 0) 0 = true ∧
    listFailed (getCore s 0) 0 = false ∧ engineHeld (getCore s 0) (some 0) 0x0C 0 = false := by decide
theorem test_witness_runner_end : runnerTotal { e := anOp .copy 8, done := 8 } ≤ 8 ∧ 7 < runnerTotal { e := anOp .copy 8, done := 7 } ∧
    runnerTotal { e := anOp .czero 0, done := 0 } ≤ 0 ∧ runnerTotal { e := anOp .scopy 8, done := 8, ready := true } ≤ 8 := by decide
theorem test_witness_flush : (flushRange demo (anOp .cflush 128) 0 (parts window.toNat 128)).2 = none := by decide
theorem test_witness_sealed_copy : crc64 [0x31] ^^^ 0 = crc64 [0x31] ∧ ¬ (crc64 [0x31] ^^^ 1 = crc64 [0x31]) := by decide
/-- `demo` with one ordered request on its way. -/
def withRequest (r : OReq) : State := { withAcc [{ id := 4, kind := .ordered .add 5 0 2 0 true, pa := 0x80, n := 8, no := 0, task := some 0 }] with oreqs := [r] }
/-- A request of flow 2 with number 0. -/
def aRequest : OReq := { core := 0, id := 4, flow := 2, seq := 0, start := false, slice := 0 }
theorem test_witness_ordered : (withRequest aRequest).oreqs = [aRequest] ∧ aRequest.backoff = false ∧ aRequest.buffered = false ∧
    tabGet (withRequest aRequest).expect (flowKey aRequest) 0 = aRequest.seq ∧ flowKey aRequest = aRequest.slice * 2 ^ 13 + aRequest.core * 16 + aRequest.flow ∧
    tabGet (withRequest { aRequest with seq := 3 }).expect (flowKey { aRequest with seq := 3 }) 0 ≠ 3 ∧ ({ aRequest with seq := 3, start := true } : OReq).start = true ∧
    ((withRequest aRequest).oreqs.filter (fun x => x.buffered && x.slice == aRequest.slice)).length < 32 ∧
    ((List.replicate 32 { aRequest with buffered := true }).filter (fun x => x.buffered && x.slice == aRequest.slice)).length = 32 ∧
    (withRequest { aRequest with backoff := true }).oreqs.map OReq.backoff = [true] := by decide
theorem test_witness_ordered_performs : let s := withRequest aRequest
    (getCore s 0).acc.map (fun e => (e.id, e.kind)) = [(4, .ordered .add 5 0 2 0 true)] ∧ (∀ e ∈ (getCore s 0).acc, footHit s e.mt e.pa e.n = none ∧
      (atomicAt s (dieOf 0) e .add 5 0 0).toOption.isSome = true) := by decide
/-- `demo` with a group of one in its partition and the one member's `COLL` joined (spec/12 R284). -/
def withColl : State :=
  { withChan { run := some { e := { anOp .coll 4 with set := { src := 0x100000000000100, dst := 0x100000000000200, len := 4 } } } } with
    ctxs := [(0, { desc := [(7, window)] })]
    hearths := [(0, { blockOwner := [(0, some 0)] })]
    mem := [(0x10000000000, 1), (0x10000000008, 0x20), (0x1000000000F, 1), (0x10000000022, 4)]
    colls := [{ ctx := 0, group := 0, joined := [(0, 0, 1)] }] }
theorem test_witness_collective : let r := (chanOf (getCore withColl 0) 1).run
    (r.map (fun r => match groupOf withColl r.e with
      | (.ok l, s1) => l == [0x40000] && s1.colls == withColl.colls && s1.cores == withColl.cores && readWaits s1 0 r.e false (parts r.e.set.src.toNat 4) == false
          && lostMember withColl { ctx := 0, group := 0, joined := [(0, 0, 1)] } l == none && (contribution s1 [(0, 0, 1)] 0 4).1.toOption == some [0, 0, 0, 0]
      | _ => false)) = some true ∧ (r.map (fun r => collLenOk r.e (.flt fp32) 1)) = some true ∧ (r.map (fun r => collType r.e)) = some (some (.flt fp32)) ∧ (0x40000 : W64).toNat % 512 = ownDev withColl := by decide

/-! ### Virtual cycles, landings, walks and waits -/

/-- `demo` whose core has made its issue decision. -/
def decided : State := withCore fun c => { c with decided := true }
theorem test_witness_advance : tabFind decided.tasks 0 = some placedTask ∧ placedTask.verdict = none ∧ mayAdvance decided 0 placedTask = true ∧
    mayAdvance demo 0 placedTask = false := by decide
theorem test_witness_format_effect : taskOf demo 0 = some placedTask ∧ (getCore demo 0).retPend = none ∧ gangStopped demo placedTask = false ∧
    (getCore (withSys fun y => { y with fmtPend := [(4, 7)] }) 0).sys.fmtPend = [(4, 7)] := by decide
/-- `trapsOn` whose core has trapped and whose handler has not begun. -/
def trappedCore : State := modCore trapsOn 0 fun c => { c with trapped := true, decided := true }
theorem test_witness_handler_entry : gangRuns placedTask = true ∧ placedTask.preempt = false ∧ gangStopped trappedCore placedTask = true ∧
    (getCore trappedCore 0).handler = false ∧ (getCore trappedCore 0).trapped = true ∧
    ∀ i ∈ gangOf placedTask, (getCore trappedCore i).hold = .none ∧ (getCore trappedCore i).ctl.post = none ∧ (getCore trappedCore i).flight = [] := by decide
theorem test_witness_handler_count : let s := modCore inHandler 0 fun c => { c with decided := true }
    (getCore s 0).handler = true ∧ coreDecided (getCore s 0) = true ∧ (getCore s 0).hold = .none ∧ (getCore s 0).ctl.post = none ∧
    arrivedBy (getCore s 0) ((getCore s 0).ctl.hcount + 1) = true ∧ (getCore s 0).retPend = none := by decide
theorem test_witness_landing : (Flight.mk 4 (.known [.x 5 9])).due ≤ 4 ∧ flightLands (.load 0 1 (.scalar false 1 8 false) 0 0) = none ∧ (5 : Nat) ≠ 0 := by decide
theorem test_witness_elements : ∀ p ∈ [(1, 128), (2, 64), (4, 32), (8, 16)], p.1 ∈ [1, 2, 4, 8] ∧ p.2 - 1 < p.2 ∧ p.2 * p.1 ≤ 128 := by decide
theorem test_witness_issue : mayIssue demo 0 = true ∧ bankOf (getCore demo 0) (getCore demo 0).ctl.pc 1 = none ∧ (getCore demo 0).blocked = none ∧
    frameOf (getCore demo 0) = ([0x80000000], true) := by decide
/-- `demo` with a word at the program counter. -/
def withWord (w : W32) : State := withCore fun c => { c with imem := [(0, w)] }
theorem test_witness_illegal_words : frameOf (getCore (withWord 0xE0000000) 0) = ([0xE0000000], true) ∧ unitOf 0xE0000000 = 12 ∧ unitOf 0x80000000 = 0 ∧
    mayIssue (withWord 0xE0000000) 0 = true := by decide
theorem test_witness_illegal_bundles : (illegal [0xE0000000] true).map Prod.fst = some 0x02 ∧ (([0, 0x80000000] : List W32).map unitOf).Nodup = False ∧
    (illegal [0] false).map Prod.fst = some 0x01 := ⟨rfl, by decide, rfl⟩
/-- `demo` with the state of bank 0. -/
def withIBank (b : IBank) : State := withCore fun c => { c with ibank := [(0, b)] }
theorem test_witness_instruction_banks : bankOf (getCore (withIBank .empty) 0) 0 1 = some (0, .empty) ∧
    bankOf (getCore (withIBank (.failed 9 5)) 0) 0 1 = some (0, .failed 9 5) ∧ bankOf (getCore (withIBank (.failedImage 5)) 0) 0 1 = some (0, .failedImage 5) ∧ bankOf (getCore (withIBank (.loading 9)) 0) 0 1 = some (0, .loading 9) ∧
    mayIssue (withIBank .empty) 0 = true := by decide
/-- `demo` whose core waits for the walk of an address of context 0, whose root table at OFF 0x1000 has this first entry. -/
def walking (entry : Byte) : State :=
  { withCore (fun c => { c with hold := .walk 0x10 false }) with ctxs := [(0, { desc := [(0, 0x1000)] })], mem := if entry = 0 then [] else [(0x1000, entry)] }
theorem test_witness_walks : walk (walking 0) 0 0 0x10 = .absent ∧ tableOk (walking 0) 0 0x1000 = true ∧ eccHits (walking 0) (memKey (walking 0) 0x1000) 8 = [] := by decide
theorem test_witness_leaf : walkFrom (walking 0x27) 0 0 0x10 1 0x1000 = .leaf 0x27 12 ∧ walkFrom (walking 0x27) 0 0 0x10 5 0x1000 = .absent ∧
    walkFrom (walking 0x26) 0 0 0x10 1 0x1000 = .absent ∧ (getDie (walking 0) 0).walks = [] := by decide
theorem test_witness_walk_error : walk { walking 0 with eccBad := [⟨0x1000, 32, 7, 0⟩] } 0 0 0x10 = .ecc 0x1000 := by decide
theorem test_witness_walk_cache : (getDie { walking 0 with dies := [(0, { walks := [⟨0, 4, 0, 0x2001⟩] })] } 0).walks.map (fun k => (k.asid, k.level, k.base)) = [(0, 4, 0)] := by decide
theorem test_witness_translation : (cached (withLeaf 0x2D) 0 0 0x10).map (fun t => t.leaf) = some 0x2D ∧ (0x2D : W64).extractLsb' 6 2 ≠ 2 ∧
    translate (withLeaf 0x2D) 0 0 16384 0 0x10 { r := true, w := true } true = .ok 0x10 0 false ∧
    translate (withLeaf 0x25) 0 0 16384 0 0x10 { w := true } true = .fault 5 false ∧ translate (withLeaf 0x0D) 0 0 16384 0 0x10 { r := true } true = .fault 5 false ∧
    translate demo 0 0 16384 0 (2 ^ 56 + 16383) {} true = .ok (2 ^ 40 + 3 * 2 ^ 22 + 4095) 0 true ∧ translate demo 0 0 16384 0 (2 ^ 56 + 16384) {} true = .fault 5 false ∧
    translate demo 0 0 16384 0 (2 ^ 56 + 2 ^ 24 - 1) {} true = .fault 5 false ∧ translate demo 0 0 16384 0 (2 ^ 56 + 2 ^ 24) {} true = .fault 4 false := by decide
/-- `demo` with a fetch under way into bank 3. -/
def fetching (src : Nat) : State := withCore fun c => { c with fetch := [(3, { seg := 9, src := src, len := 2, no := 0 })] }
theorem test_witness_overlay_fetch : (fetchBytes (fetching window.toNat) 0 window.toNat 2).1.toOption = some [0, 0, 0, 0, 0, 0, 0, 0] ∧
    (fetchBytes (fetching window.toNat) 0 window.toNat 2).2.cores = (fetching window.toNat).cores ∧ fetchWaits (fetching window.toNat) 0 { seg := 9, src := window.toNat, len := 2, no := 0 } = false ∧
    (fetchBytes (fetching 0x10) 0 0x10 2).1.toOption = none ∧ (fetchBytes (fetching 0x10) 0 0x10 2).2.cores = (fetching 0x10).cores ∧
    (fetching 0x10).boot = demo.boot ∧ tabFind (getCore (fetching 0x10) 0).fetch 3 = some { seg := 9, src := 0x10, len := 2, no := 0 } := by decide
/-- A cached translation of page 0 of context 0 to the first page of device 1. -/
def farLeaf (s : State) : State := { s with hearths := tabSet s.hearths 0 { tlb := [{ asid := 0, base := 0, bits := 12, leaf := 0x80000000037 }] } }
theorem test_witness_overlay_late : fetchRemote (farLeaf (fetching 0x10)) 0 { seg := 9, src := 0x10, len := 2, no := 0 } = true ∧
    fetchWaits (modCore (fetching 0x10) 0 fun c => { c with acc := [{ id := 3, kind := .signal .ifence, no := 0 }] }) 0 { seg := 9, src := 0x10, len := 2, no := 1 } = true := by decide
/-- `demo` held for a spill of the file va, its words naming `SETBANK` with a step. -/
def spilling (step : BitVec 8) (spilled : BitVec 16) : State := withCore fun c => { c with
  hold := .spill 0, imem := [(0, 0xD8000000#32 ||| 0x0#32 ||| (0xD84D0000#32 &&& 0x007F0000#32) ||| step.setWidth 32)]
  sys := { c.sys with window := [(0, 1)], spilled := [(0, spilled)], spillBase := 0x100000000000000, spillLim := 9 } }
theorem test_witness_spill : spillsUp (getCore (spilling 1 0) 0) 0 = true ∧ spillOf (getCore (spilling 1 0) 0) 0 = 0 ∧
    spillsUp (getCore (spilling 0xFF 1) 0) 0 = false ∧ spillOf (getCore (spilling 0xFF 1) 0) 0 = 1 ∧ NoVictims (spilling 1 0) ∧
    (getCore (spilling 1 0) 0).hold = .spill 0 ∧ (getCore (spilling 1 0) 0).task = some 0 ∧ (getCore (spilling 1 0) 0).flight = [] ∧
    (getCore (spilling 1 0) 0).acc = [] ∧ shownTo (spilling 1 0) 0 = [] := by unfold NoVictims; decide
theorem test_witness_spill_place : (∃ l, placeFor demo (whoTask 0 placedTask false) { w := true } [(2 ^ 56, 0, 4096)] = .ok l ∧ ∀ p ∈ l, footHit demo p.mt p.pa p.n = none ∧
    lineWrites demo 0 p.pa p.n demo.tick = false) := ⟨_, rfl, by decide⟩
theorem test_witness_claims : let s := { withCore (fun c => { c with hold := .claimBank 3, bankOwner := [(3, some 0)] }) with hearths := [(0, { blockOwner := [(7, some 0)] })] }
    (getCore s 0).hold = .claimBank 3 ∧ tabGet (getCore s 0).bankOwner 3 none = some 0 ∧ tabFind s.tasks 0 = some placedTask ∧ blockOwnerOf s 0 7 = some 0 := by decide
theorem test_witness_late_wake : wakesLate demo 0 = false ∧ wakesLate (withTask fun k => { k with preempt := true }) 0 = true := by decide
theorem test_witness_wait_ends : ∀ w ∈ [Wait.token 5, .pointer 1 0, .event 5, .green], (getCore (withCore fun c => { c with wait := w }) 0).wait = w := by decide
theorem test_witness_green_space : greenUsed demo 0 < 262144 ∧ demo.shape.asked = [] := by decide
theorem test_witness_barrier : let s := withCore fun c => { c with wait := .sync }
    heldGang s 0 placedTask = true ∧ allAtBarrier ((gangOf placedTask).map (getCore s)) = true := by decide
theorem test_witness_timeouts : isRemote demo (2 ^ 43 + 0x80) = true ∧ (chanOf (getCore (withChan { run := some { e := anOp .send 8 } }) 0) 1).run.isSome = true ∧
    (anOp .send 8).tok ≠ 0 ∧ (getCore demo 0).task = some (anOp .send 8).task := by decide

/-! ### Tasks and the stokers -/

/-- A device with one task spawned and not yet started, its image in its partition. -/
def spawned : State :=
  { up with
    launches := [(0, { rcd := { placedRec with prog := 0x100000000000000 }, die := 0, n := 1, next := 1, eligible := true })]
    tasks := [(0, { placedTask with st := 0 })], nextUid := 1 }
theorem test_witness_task_start : (tabFind spawned.tasks 0).map (fun k => (k.st, k.ended)) = some (0, false) ∧ gangOf placedTask = [0] ∧ (getCore spawned 0).task = none ∧
    ((tabFind spawned.launches 0).map (fun l => ((loadTask spawned 0 placedTask l.rcd).toOption.map Loads.image, l.rcd.params.length))) = some (some [0], 8) := by decide
theorem test_witness_preemption : let s := taskIn decided fun k => { k with preempt := true }
    canStop s 0 { placedTask with preempt := true } = true ∧ tabFind s.tasks 0 = some { placedTask with preempt := true } ∧ canStop demo 0 placedTask = false := by decide
/-- A device with one launch of one task waiting for its turn. -/
def waiting : State := { up with launches := [(5, { rcd := placedRec, die := 0, n := 1, eligible := true })], turns := [(0, 5)], nextUid := 6, ctxs := [(0, { live := true, desc := [(3, 1)] })] }
theorem test_witness_placement : waiting.boot.phase = .normal ∧ fenced waiting 0 = false ∧ healthyDies waiting placedRec = [0] ∧
    nextPlacement waiting 0 [3, 2, 1, 0] = some (0, 5, ⟨0, 0, 0, 0⟩, []) := by decide
theorem test_witness_command : let s := { up with ctxBlock := { busy := true } }
    s.ctxBlock.waits = [] ∧ leadDie s = 0 ∧ s.launches = [] ∧ s.turns = [] ∧ s.shape = {} := by decide
theorem test_witness_aging : (tabFind waiting.launches 5).map launchLevel = some 0 ∧ (0, 5) ∈ waiting.turns ∧ savedLevel { placedTask with level := 3, st := 3 } = 3 := by decide

/-! ### The host, recovery and starts -/

theorem test_witness_bar : up.boot.phase ≠ .bisque ∧ ({ up with boot := { phase := .bisque } } : State).boot.phase = .bisque ∧ (4 ≠ 8 ∨ 0x10 % 8 ≠ 0) ∧ (1 : W64).getLsbD 0 = true := by decide
theorem test_witness_registers : barOpen up = true ∧ barOpen State.reset = false ∧ (getQueue up 5).en = false ∧
    (getQueue { up with queues := [(5, { en := true })] } 5).en = true := by decide
/-- A descriptor for context 0 at OFF 0: table root OFF 0x1000, a group table, event base, valid. -/
def described : State := { up with mem := [(0x1, 0x10), (0x18, 1), (0x40, 1)] }
theorem test_witness_contexts : (getCtx up 0).live = false ∧ (readDescriptor described 0).isSome = true ∧ (readDescriptor described 0).map (descriptorOk described) = some true ∧
    (readDescriptor up 0).map (descriptorOk up) = some false ∧ readDescriptor { up with ctxBlock := { tab := 0x10000000000 } } 0 = none ∧
    (getCtx { up with ctxs := [(0, { live := true })] } 0).live = true ∧ ctxBusy waiting 0 = true ∧ ctxBusy up 0 = false ∧ accessesOf up 0 = [] ∧
    accessesOf (withAcc [aStore]) 0 ≠ [] ∧ (5 : BitVec 3) ≥ 5 := by decide
theorem test_witness_fences : (0x4 : W64).extractLsb' 0 4 = BitVec.ofNat 4 (2 ^ 2) ∧ fenced up 2 = false ∧ fenced { up with dies := [(2, { state := 3 })] } 2 = true ∧
    up.shape = {} ∧ up.colls = [] ∧ (0x10 : W64).extractLsb' 0 4 = 0 := by decide
theorem test_witness_counters : tabGet up.recovery.ecc (eccKey 0 0) 0 ≠ BitVec.allOnes 32 ∧ (∀ c ∈ [0, 1, 2, 3, 4, 5, 6, 7, 8], 0 < eccInstances c) ∧
    eccChosen up = (0, 0) ∧ tabGet { up.recovery with thresh := [(0, 1)] }.thresh 0 0 ≤ 1 ∧ (up.recovery.mcsel.extractLsb' 0 9).toNat = 0 ∧
    (getDie { up with dies := [(0, { avs := { en := true } })] } (eccDie 0 0)).avs.en = true ∧ (getDie up (eccDie 0 0)).avs.en = false := by decide
theorem test_witness_error_sites : isScratchKey 0x10000000000 = true ∧ (0x5FFFFFFFFF : Nat) < 0x6000000000 ∧ inSlices 0x5FFFFFFFFF = true ∧ inSlices 0x3FFFFFFFFFF = true ∧
    isRemote up 0x80 = false ∧ 0x80 / 128 ∈ (getDie { up with dies := [(1, { dirty := [1] })] } 1).dirty ∧ [aRow 1] = aRow 1 :: [] ∧
    (tileOf (getCore inAssay 0) 2).epoch.map (fun e => e.held) = some [aRow 1] := by decide
theorem test_witness_voltage : (0x3FFFFF : W64).extractLsb' 22 2 = 0 ∧ (750 : BitVec 10) ≤ 790 ∧ (790 : BitVec 10) < 795 ∧
    (getDie up 0).avs.frozen = false ∧ fenced up 0 = false := by decide
theorem test_witness_tests : let v : W64 := 0x85
    (v.extractLsb' 0 7).toNat < 96 ∧ v.getLsbD 7 = true ∧ (getDie { up with dies := [(0, { dispmask := 0xFFFFDF })] } 0).dispmask.getLsbD 5 = false ∧
    hearthUsed up 5 = false ∧ up.recovery.iftBusy = false ∧ (getDie up 0).dispmask.getLsbD 5 = true := by decide
theorem test_witness_ports : portTakes up 3 = true ∧ portTakes State.reset 3 = false ∧ (getPort up 3).state = 2 ∧ (getPort up 3).failed.getLsbD 16 = false ∧
    (getPort up 3).lanes.getLsbD 15 = true ∧ (getPort up 3).lanes.getLsbD 16 = false ∧ (getPort up 3).training = false ∧ (getPort up 3).unacked < 3 ∧
    (getPort up 3).recvLast + 1 = 0 := by decide
theorem test_witness_lanes : ((List.range 17).filter (fun n => !(1 : BitVec 17).getLsbD n)).length = 16 ∧ ((List.range 17).filter (fun n => !(3 : BitVec 17).getLsbD n)).length = 15 ∧
    ((List.range 17).filter (fun n => !(0x3FF : BitVec 17).getLsbD n)).length = 7 ∧ ((List.range 17).filter (fun n => !(0x1FF : BitVec 17).getLsbD n)).length = 8 := by decide
theorem test_witness_removals : up.hostUp.getLsbD 1 = true ∧ ¬ (2 ∈ up.cxlRemoved) ∧ 2 ∈ { up with cxlRemoved := [2] }.cxlRemoved ∧
    (getPort { up with ports := [(3, { state := 3 })] } 3).state = 3 ∧ ({ up with hostUp := 1 } : State).hostUp.getLsbD 1 = false := by decide
theorem test_witness_host_write : footHit up 0 (localPa up 0x40) 1 = none ∧ up.ctxs.all (fun c => !c.2.live) = true ∧ (writePa up ((hostPort up).getD 0) 0 (localPa up 0x40) (hostBytes up (localPa up 0x40) [1])).toOption.isSome = true ∧
    (writePa up ((hostPort up).getD 0) 0 (localPa up 0x7FFFFFFFFFF) [1]).toOption.isSome = false ∧ up.queues.all (fun q => q.2.graphs.isEmpty) = true := by decide
theorem test_witness_footprint_write : footHit (withTile aRun { epoch := some { foot := [0x200000001] } }) 0 0x10000000080 4 ≠ none := by decide
theorem test_witness_packets : addrClass up (portDie 3) (localPa up (paOff 0x40)) = 0 ∧ eccHits up (memKey up (localPa up (paOff 0x40))) 1 = [] ∧ MemOk up ∧
    footHit up 0 (localPa up (paOff 0x40)) 1 = none ∧ (getCtx up 5).live = false ∧
    (tabGet (getCtx { up with ctxs := [(0, { live := true, desc := [(8, 1)] })] } 0).desc 8 0).getLsbD 1 = false := by unfold MemOk; decide
theorem test_witness_lane_report : (getPort { up with ports := [(3, { state := 1, training := true, before := [(0, 4)] })] } 3).before = [(0, 4)] ∧ (getPort up 3).before = [] := by decide
theorem test_witness_starts : State.reset.boot.phase = .starting ∧ State.reset.boot.begun = false ∧ State.reset.boot.tripped = false ∧ up.boot.phase = .normal ∧ up.hostUp ≠ 0 ∧
    (2 : BitVec 8) ≤ 7 ∧ State.reset.boot.lead = none ∧ ({ begun := true, lead := some 0 } : Boot).phase = .starting ∧ (0 : BitVec 8) ≠ 0xFF ∧ fenced State.reset 0 = false := by decide
theorem test_witness_heat : (100 < 101 ∨ 90 < (0 : Nat)) ∧ ¬ (100 < 100 ∨ 90 < (90 : Nat)) ∧ ¬ ((95 : Nat) < 95 ∧ 84 < 85) ∧ (115 ≤ 115 ∨ 100 ≤ (0 : Nat)) := by decide
theorem test_witness_spdm : spdmUp up = true ∧ spdmUp State.reset = false ∧ (6 : Nat) < 7 ∧ (7 : Nat) ≠ 255 := by decide

/-! ### Words, steps and reset -/

theorem test_witness_encode : encodeWord (.add ⟨1, 0, 0, 31, 31, 31⟩) = some 0x80007FFF ∧ (Instr.add ⟨1, 0, 0, 31, 31, 31⟩).WF ∧
    encodeUop (.mma ⟨7, 7, 7, 7, 0xFFFFFFFF⟩) = some 0x17FFC000FFFFFFFF := by decide
theorem test_witness_step_issue : demo.boot.power = true ∧ demo.agenda.head? = some (.issue 0) ∧
    mayIssue { demo with tick := demo.tick + 1, agenda := demo.agenda.tail } 0 = true := by decide
theorem test_witness_step_unit : victimOn (placeMicro State.reset 0x1500000000000000) 0 = none := by decide
theorem test_witness_step_runs_add : decode 0x80000000 = .ok (.add ⟨1, 0, 0, 0, 0, 0⟩) := rfl
theorem test_witness_step_micro : (placeMicro State.reset 0x1500000000000000).agenda.head? = some (.micro 0) ∧
    (getCore (placeMicro State.reset 0x1500000000000000) 0).mu.suspended = false ∧
    ((getCore (placeMicro State.reset 0x1500000000000000) 0).mu.run.map (fun r => r.upc)) = some 0 := by decide
theorem test_witness_memory : MemOk demo := by unfold MemOk; decide

/-! ### Traps, footprints and banks -/

theorem test_witness_guard_differs : let s := modCore trapsOn 0 fun c => { c with regs := { c.regs with x := [(2, 9)] } }
    guardOn s 0 = true ∧ seeX s (me s) 2 ≠ seeY s (me s) 3 ∧ (me s).sys.trapvec.getLsbD 16 = true ∧ (me s).sys.estate.getLsbD 2 = false := by decide
/-- `demo` with row 0 of its partition in the footprint of an open epoch. -/
def footed : State := withTile aRun { epoch := some { foot := [0x200000001] } }
theorem test_witness_footprint_store : let v := window.toNat + 128
    (parts v 8 = [(v, 0, 8)]) ∧ keptPlaces footed (parts v 8) = none ∧
    translateMe footed v { w := true } = .ok 0x10000000080 0 true ∧ footHit footed 0 0x10000000080 8 = some 0 ∧ footHit footed 0 0x10000000078 16 = some 8 ∧
    checkAll footed { w := true } (parts v 8) = .trap 0x0A v 0 := by decide
theorem test_witness_later_part : parts (window.toNat + 16380) 8 = [(window.toNat + 16380, 0, 4)] ++ (window.toNat + 16384, 4, 4) :: [] ∧
    keptPlaces demo (parts (window.toNat + 16380) 8) = none ∧ translateMe demo (window.toNat + 16380) { w := true } = .ok 0x10000C00FFC 0 true ∧
    translateMe demo (window.toNat + 16384) { w := true } = .fault 5 false := by decide
theorem test_witness_footprint_of_a_later_part : let v := window.toNat + 124
    parts v 8 = [(v, 0, 4), (v + 4, 4, 4)] ∧ translateMe footed v { w := true } = .ok 0x1000000007C 0 true ∧ footHit footed 0 0x1000000007C 4 = none ∧
    translateMe footed (v + 4) { w := true } = .ok 0x10000000080 0 true ∧ footHit footed 0 0x10000000080 4 = some 0 := by decide
theorem test_witness_plain_places : (List.range 8).all (fun i => !inImage (withAcc [aStore]) 0 (aStore.va + i) && !inResident (withAcc [aStore]) 0 (aStore.pa + i)) = true ∧
    (tabFind (withAcc [aStore]).tasks 0).map (fun k => (k.held, k.frees, k.ended)) = some ([], [], false) ∧ isSuspended (withAcc [aStore]) 0 = false := by decide
theorem test_witness_direct : flushes (withAcc [aStore]) 0 aStore = false ∧ flushes (withAcc [{ aStore with held := true }]) 0 { aStore with held := true } = true ∧
    allShown (withAcc [aStore]) = [] ∧ entryAt (withAcc [aStore]) 0 aStore = some 0 ∧
    (let s := withAcc [{ aStore with shown := true, seen := 1 }, { aStore with id := 7, pa := 0x48, held := true }]
     canPerform s 0 1 = true ∧ allShown s ≠ [] ∧ entryAt (homeShown s) 0 { aStore with id := 7, pa := 0x48, held := true } = some 0) := by decide
theorem test_witness_releases : releasedAt aLoad 0 = false ∧ releasedAt aStore 1 = false ∧ releasedAt { aStore with shown := true, seen := 1 } 2 = false ∧
    releasedAt { aStore with shown := true } 3 = false ∧ releasedAt aStore 0 = true ∧ releasedAt { aStore with shown := true, seen := 1 } 1 = true := by decide
theorem test_witness_first_entry : bankAt (me (withBanks 1 0)) 1 1 ∉ (me (withBanks 1 0)).enter ∧
    66 ∈ (me (modCore (withBanks 1 0) 0 fun c => { c with enter := [66] })).enter ∧ (me demo).late = [] ∧
    (me (withCore fun c => { c with late := [(window, 0)] })).late = (window, 0) :: [] := by decide

/-! ### The matrix unit -/

theorem test_witness_entry_starts : mustStop (withEntry placedEntry) 0 placedTask = false ∧ entryWaits (withEntry placedEntry) 0 placedTask placedEntry = false ∧
    entryWaits (withEntry { placedEntry with kind := .load window.toNat 0x10000 }) 0 placedTask { placedEntry with kind := .load window.toNat 0x10000 } = false := by decide
theorem test_witness_routine_stops : let s := withRun { aRun with loops := [(2, 0)] }
    mustStop s 0 placedTask = false ∧ mustStop s 0 { placedTask with preempt := true } = true ∧ mustStop s 0 { placedTask with st := 3 } = true ∧
    routineHolds (me s) = false ∧ ({ aRun with loops := [(2, 0)] } : MRun).loops = [] ++ [(2, 0)] ∧
    mustStop (withCore fun c => { c with halted := true }) 0 { placedTask with preempt := true } = false := by decide
/-- A tile whose epoch holds rows. -/
def withRows (h d : List HeldRow) : State := withTile aRun { epoch := some { held := h, drag := d } }
/-- The state in which the rows of an agreed epoch are released. -/
def closed (h : List HeldRow) : State := closeEpoch (withRows h h) 0 0 2 { cope := signature h, drag := signature h, assay := 0, outcome := 1 }
theorem test_witness_agreeing_rows : signature [aRow 1] = signature [aRow 1] ∧ (aRow 1).bad = false ∧ footHit (closed [aRow 1]) (aRow 1).mt (aRow 1).pa 1 = none ∧
    MicroReady (withRows [aRow 1] [aRow 1]) aRun 0 placedTask ∧ NoVictims (withRows [aRow 1] [aRow 1]) ∧
    ((tileOf (me (withRows [aRow 1] [aRow 1])) 2).epoch.map (fun e => (e.held, e.drag))) = some ([aRow 1], [aRow 1]) := by
  unfold MicroReady NoVictims; decide
theorem test_witness_bad_rows : ∃ q ∈ [{ aRow 1 with bad := true }], q.bad = true := ⟨_, List.mem_singleton_self _, rfl⟩
/-- `closed` with the row in the footprint of another open epoch of the core. -/
def footedRows : State := withCore fun c => { c with mu := { c.mu with run := some aRun, tiles :=
  [(2, { epoch := some { held := [aRow 1], drag := [aRow 1] } }), (3, { epoch := some { foot := [0x200000000] } })] } }
theorem test_witness_rows_in_a_footprint : footHit (closeEpoch footedRows 0 0 2 {}) (aRow 1).mt (aRow 1).pa (aRow 1).bytes.length ≠ none := by decide
/-- A dispute before the assay path: cope's rows, drag's rows, and a log whose rows the assay path computes anew. -/
def disputed (h d : List HeldRow) (log : List EpochOp) : State :=
  { withTile aRun { epoch := some { held := h, drag := d, log := log, checking := true } } with hearths := [(0, { assay := [(0, 2, 0)] })] }
/-- The rows of the assay path for `disputed`. -/
def assayRows (h d : List HeldRow) (log : List EpochOp) : Option (List HeldRow) :=
  match (tileOf (getCore (disputed h d log) 0) 2).epoch with
  | some e => let a := assayRun (disputed h d log) 0 0 2 e; if a.bad = none then some a.rows else none
  | none => none
theorem test_witness_assay_decides : let h := [aRow 1]
    (assayRows [] h []).map signature = some (signature []) ∧ (assayRows h [] []).map (fun r => (decide (signature r = signature h), decide (signature r = signature []))) = some (false, true) ∧
    (assayRows h [aRow 2] []).map (fun r => (decide (signature r = signature h), decide (signature r = signature [aRow 2]))) = some (false, false) := by decide
theorem test_witness_assay_unread : (match (tileOf (getCore (disputed [] [aRow 1] [.tld false [0x7FFFFFFFF80]]) 0) 2).epoch with
    | some e => (assayRun (disputed [] [aRow 1] [.tld false [0x7FFFFFFFF80]]) 0 0 2 e).bad.isSome | none => false) = true := by decide
/-- A row of the first page of context 0, stored at task level. -/
def pageRow : HeldRow := { va := 0x10, pa := 0x10, mt := 0, bytes := [7] }
theorem test_witness_row_released : (placeRow (withLeaf 0x2D) placedTask pageRow).map (fun p => (p.pa, p.mt)) = some (0x10, 0) ∧
    placeRow (withLeaf 0x0D) placedTask pageRow = none ∧ placeRow (withLeaf 0x25) placedTask pageRow = none ∧
    (placeRow (withLeaf 0x0D) placedTask { pageRow with sup := true }).map (fun p => p.pa) = some 0x10 ∧
    ownBlock (withLeaf 0x2D) 0 ⟨0x10, 0, 1, 0x10, 0, false⟩ = false ∧ mayBreach (withLeaf 0x2D) 0 = false ∧ isRemote (withLeaf 0x2D) 0x10 = false ∧
    (writePa (withLeaf 0x2D) 0 0 0x10 [7]).toOption.isSome = true ∧ placedTask.st ≠ 3 := by decide

/-! ### Runners, collectives, landings -/

/-- The state of `withChan` for a running operation. -/
def running (r : RRun) : State := withChan { run := some r }
/-- Where the bytes of a run go. -/
def goesTo (s : State) (e : REntry) (va n : Nat) : Option (Nat × Nat) := match placeRun s e (farDest s e) true va n with | .ok _ p => some (p.pa, p.mt) | .fault _ _ _ _ => none
theorem test_witness_runner_writes : let e := anOp .czero 40
    let s := running { e := e, done := 32 }
    MemOk s ∧ (chanOf (getCore s 0) 1).run = some { e := e, done := 32 } ∧ 32 < runnerTotal { e := e, done := 32 } ∧ isStaged e = false ∧
    goesTo s e (window.toNat + 0x120) 8 = some (0x10000400000 - 0x400000 + 0x120, 0) ∧ (match placeRun s e (farDest s e) true (window.toNat + 0x120) 8 with
      | .ok s2 p => decide ((getCore s2 0).task = some e.task) && linkRoom s2 (dieOf 0) p.mt p.pa && decide (footHit s2 p.mt p.pa 8 = none) && decide (mayBreach s2 e.ctx = false)
          && decide (Memory.wf s2.mem = true) && decide (Memory.wf s2.hostMem = true) && (writePa s2 (dieOf 0) p.mt p.pa (List.replicate 8 0)).toOption.isSome
      | .fault _ _ _ _ => false) = true := by unfold MemOk; decide
theorem test_witness_runner_reads : let e := anOp .copy 40
    let s := running { e := e }
    readWaits s 0 e (farSource s e) (parts window.toNat 32) = false ∧ wholePieces e 0 32 = 32 ∧ wholePieces e 0 24 = 32 ∧
    (let q := readRange (freshFor s 0 (some e.task) e.no) 0 e (farSource s e) (parts window.toNat 32)
     (q.2.1.length, q.2.2) = (32, none)) ∧
    (match placeRun s e false false window.toNat 32 with
      | .ok s2 p => (isRemote s2 p.pa, p.mt, (readPa s2 (dieOf 0) p.mt p.pa 32).toOption.isSome) | .fault _ _ _ _ => (true, 2, false)) = (false, 0, true) := by decide
theorem test_witness_staged_runs : let r : RRun := { e := anOp .scopy 8, bytes := [1, 2, 3, 4, 5, 6, 7, 8], ready := true }
    isStaged r.e = true ∧ r.done < runnerTotal r ∧ (r.bytes.drop r.done).take 8 = [1, 2, 3, 4, 5, 6, 7, 8] := by decide
theorem test_witness_two_members : let e := { anOp .coll 8 with set := { src := 0, dst := 0, len := 8 } }
    collKind e = 0 ∧ collOp e = 0 ∧ collResult e (.int 32 false) 0 [[1, 0, 0, 0, 5, 0, 0, 0], [2, 0, 0, 0, 6, 0, 0, 0]] = [3, 0, 0, 0, 11, 0, 0, 0] ∧
    (∃ f : BitVec 5, collOp { e with aux := f } = 1) ∧ (∃ f : BitVec 5, collOp { e with aux := f } = 2) ∧ (∃ f : BitVec 5, collKind { e with aux := f } = 2) ∧
    ∃ f : BitVec 5, collKind { e with aux := f } = 3 := ⟨by decide, by decide, by decide, by decide, by decide, by decide, by decide⟩
theorem test_witness_contributions : (chanOf (getCore withColl 0) 1).run.map (fun r => match groupOf withColl r.e with
      | (.ok l, s1) => let q := contributions s1 [(0, 0, 1)] 4 (givingRanks r.e l.length)
        (l.length, (q.1.toOption.map (fun c => c)), decide (q.2.cores = withColl.cores), decide (q.2.colls = withColl.colls), sameColl r.e r.e)
      | _ => (0, none, false, false, false)) = some (1, some [[0, 0, 0, 0]], true, true, true) ∧ ([(0, 1)] : List (Nat × Nat)).Nodup := by decide
theorem test_witness_landing_registers : (31 : Nat) ≠ 0 ∧ tabGet (landRegs {} (.x 31 7)).x 31 0 = 7 ∧ tabGet (landRegs {} (.x 0 7)).x 0 0 = 0 ∧
    tabGet (landRegs {} (.q 1 true)).q 1 false = false ∧ tabGet (landRegs {} (.q 2 true)).q 2 false = true ∧
    (tabGet (landRegs {} (.g 7 4 3)).g 7 {}).ext1 = 3 ∧ (tabGet (landRegs {} (.h 7 8 3)).h 7 {}).group = 3 ∧ (tabGet (landRegs {} (.h 7 9 3)).h 7 {}) = {} ∧
    (∀ l ∈ [Land.x 0 0, .y 0 0, .v 0 0 0, .w 0 0 0, .k 0 0 0, .q 0 true, .p 0 0, .g 0 0 0, .h 0 0 0], ∀ i v, l ≠ .sys i v) := by
  refine ⟨by decide, by decide, by decide, by decide, by decide, by decide, by decide, by decide, ?_⟩; intro l hl i v; fin_cases hl <;> simp
theorem test_witness_late : (getCore (withCore fun c => { c with late := [(window, 0)] }) 0).late = (window, 0) :: [] ∧ mayIssue (withCore fun c => { c with late := [(window, 0)] }) 0 = true ∧
    (getCore demo 0).late = [] := by decide

/-! ### Spills, claims and late accesses -/

theorem test_witness_refill : (∃ l, placeFor demo (whoTask 0 placedTask false) { r := true } [(2 ^ 56, 0, 4096)] = .ok l ∧ (∀ p ∈ l, linkRoom demo (dieOf 0) p.mt p.pa = true) ∧
    (∀ p ∈ l, p.mt = 2 ∨ lineWrites demo (dieOf 0) p.pa p.n demo.tick = false) ∧ (readParts demo (dieOf 0) l).toOption.isSome = true) := ⟨_, rfl, by decide⟩
/-- A bank of core 0 and a block of hearth 0 that hold the state of task 1, whose image of slot 0 stands at virtual 0. -/
def claiming (leaf : W64) : State :=
  let s := withCore fun c => { c with bankOwner := [(3, some 1)], hold := .claimBank 3 }
  { s with tasks := tabSet s.tasks 1 { placedTask with st := 3 }
           hearths := [(0, { blockOwner := [(7, some 1)], tlb := [{ asid := 0, base := 0, bits := 30, leaf := leaf }] })] }
theorem test_witness_claim_saved : let s := claiming 0x2F
    tabFind s.tasks 1 = some { placedTask with st := 3 } ∧ (getCore s 0).fileBad = false ∧ eccHits s (2 ^ 40 + 7 * 4096) 4096 = [] ∧
    (placeFor s { whoTask 1 { placedTask with st := 3 } false with part := 0 } { w := true }
      (parts ((imageBase s { placedTask with st := 3 } + (0x800000 + blockOffset { placedTask with st := 3 } 7)) % 2 ^ 57) 4096)).toOption.isSome = true := by decide
theorem test_witness_claim_lost : let s := claiming 0
    (placeFor s { whoTask 1 { placedTask with st := 3 } false with part := 0 } { w := true }
      (parts ((imageBase s { placedTask with st := 3 } + (0x800000 + blockOffset { placedTask with st := 3 } 7)) % 2 ^ 57) 4096)).toOption = none ∧
    ({ placedTask with st := 3 } : Task).lost = none := by decide
/-- A load of the task from another device, under way. -/
def farLoad : Acc := { id := 0, kind := .load, pa := 2 ^ 43 + 0x80, n := 8, no := 0, task := some 0 }
theorem test_witness_late_access : ∀ k ∈ [AccKind.load, .store, .atomic .add 0 0 true 0, .atomic .add 0 0 false 0], let e := { farLoad with kind := k }
    let s := { withAcc [e] with ring := { log2 := 4 } }
    (getCore s 0).acc[0]? = some e ∧ isRemote s e.pa = true ∧ e.got = false ∧ e.held = false ∧ entryAt s 0 e = some 0 ∧ (getCore s 0).task = e.task ∧
    ringTakes s (mkReport 0 5 0 (BitVec.ofNat 14 (0 + 1536)) 0 0 0 0 0 0) = true ∧ ((getCore s 0).sys.lderr &&& 3) = 0 := by decide
theorem test_witness_side_told : ((3 : BitVec 16) &&& 3) ≠ 0 ∧ ringTakes demo (mkReport 0 5 0 0 0 0 0 0 0 0) = false := by decide

/-! ### The stokers -/

/-- A queue of context 0 on die 0 with records from virtual 0 on, four of size, and a count of pending ones. -/
def queued (pend : BitVec 32) : State :=
  { up with queues := [(5, { base := 0, size := 2, tail := pend, en := true })], ctxs := [(0, { live := true })]
            hearths := [(0, { tlb := [{ asid := 0, base := 0, bits := 12, leaf := 0x05 }] })] }
theorem test_witness_queues : let x := getQueue (queued 1) 5
    x.patchDue = false ∧ x.en = true ∧ x.ovf = false ∧ x.doors = [] ∧ x.nodes = [] ∧ x.size ≠ 0 ∧ x.size.toNat ≤ 16 ∧ fenced (queued 1) x.die.toNat = false ∧
    (getCtx (queued 1) x.ctx.toNat).live = true ∧ 0 < (x.tail - x.head).toNat ∧ (x.tail - x.head).toNat ≤ 2 ^ x.size.toNat ∧ tableUsed (queued 1) 0 < 1024 ∧
    (getQueue (queued 0) 5).tail - (getQueue (queued 0) 5).head = 0 ∧ 2 ^ x.size.toNat < ((getQueue (queued 5) 5).tail - (getQueue (queued 5) 5).head).toNat ∧
    (4 : BitVec 32).toNat ≤ 2 ^ x.size.toNat ∧ (getQueue up 5).en = false ∧ (getCtx up 0).live = false := by decide
theorem test_witness_records_read : (engRead (queued 1) (whoStoker 0 0) { r := true } 0 128).1.toOption = some (List.replicate 128 0) ∧
    (engRead (queued 1) (whoStoker 0 0) { r := true } 4096 128).1.toOption = none := by decide
/-- The bytes of a record that only names PLEN 1, one bank, every die and a grid. -/
def goodRecord (grid keyv : Nat) : List Byte := List.replicate 8 0 ++ [1] ++ List.replicate 27 0 ++ bytesOf grid 4 ++ [BitVec.ofNat 8 (64 * keyv), 0, 1, 15] ++ List.replicate 84 0
theorem test_witness_records : rejectBits (parseRec (goodRecord 3 0)) 0 = 0 ∧ (parseRec (goodRecord 3 0)).grid = 3 ∧ (parseRec (goodRecord 0 0)).grid = 0 ∧
    (parseRec (goodRecord 3 0)).keyv = false ∧ (parseRec (goodRecord 3 1)).keyv = true ∧ rejectBits (parseRec (List.replicate 128 0)) 0 = 43 := by decide
theorem test_witness_record_limits : let r := parseRec (goodRecord 3 0)
    ∀ p ∈ [({ r with plen := 65536 }, 0), ({ r with plen := 65537 }, 1), ({ r with entry := 1 }, 2), ({ r with gang := 3 }, 4), ({ r with banks := 64 }, 0), ({ r with banks := 65 }, 8),
      ({ r with scratch := 16777216 }, 0), ({ r with scratch := 16777217 }, 16), ({ r with diemask := 0 }, 32), ({ r with ctx := 1 }, 64), ({ r with prog := 2 }, 128),
      ({ r with segt := 8 }, 128), ({ r with rout := 4 }, 128), ({ r with rfirst := 4095, rcount := 1 }, 0), ({ r with rfirst := 4095, rcount := 2 }, 256)],
    rejectBits p.1 0 = p.2 := by decide
/-- A launch of die 0 whose one task has halted, or still runs. -/
def lastTask (st : BitVec 3) : State :=
  { up with launches := [(5, { rcd := { placedRec with cea := 0x40, setev := 9 }, die := 0, n := 1, next := 1, eligible := true })]
            tasks := [(6, { placedTask with launch := 5, st := st })], nextUid := 7 }
theorem test_witness_completion : (tabFind (lastTask 5).launches 5).map (fun l => (launchOver (lastTask 5) 5 l, homeOf (lastTask 5) l, l.done, l.tailOf, l.tail)) = some (true, 0, false, none, none) ∧
    (tabFind (lastTask 1).launches 5).map (fun l => launchOver (lastTask 1) 5 l) = some false := by decide
/-- A context whose first page may be written. -/
def writable : State := { up with hearths := [(0, { tlb := [{ asid := 0, base := 0, bits := 12, leaf := 0x0D }] })] }
theorem test_witness_entry_written : (engWrite writable (whoStoker 0 0) 0x40 (List.replicate 32 0)).2.isNone = true ∧
    (engWrite up (whoStoker 0 0) 0x40 (List.replicate 32 0)).2.isSome = true ∧ (0x40 : Nat) % 32 = 0 ∧ (0x48 : Nat) % 32 ≠ 0 := by decide
theorem test_witness_error_entry : let l : Launch := { rcd := placedRec, die := 0, n := 4, err := some ⟨4, 0, 1536, 0x40, 9⟩ }
    l.wasGreen = false ∧ l.err = some ⟨4, 0, 1536, 0x40, 9⟩ ∧ ({ l with err := none } : Launch).dispute = none ∧ ({ l with err := none } : Launch).refused = false := by decide

/-! ### Green launches -/

theorem test_witness_predictors : let p : Pred := { mode := 1, nh := 2, hint := 9, h := [(0, 3), (1, 7)] }
    predicted p = 7 ∧ predicted { p with mode := 0 } = 3 ∧ predicted { p with mode := 2 } = 9 ∧ predicted { p with nh := 0 } = 9 ∧ (3 : Nat) < 2 ^ 32 := by decide
/-- A green launch of context 0 with key 7, registered, with `next` of its four predicted tasks dispatched, and what stands banked. -/
def green (next : Nat) (banked : List (Nat × Nat × Nat)) : State :=
  { demo with launches := tabSet demo.launches 5 { rcd := { placedRec with key := 7, keyv := true }, die := 0, n := 4, pr := 4, next := next, green := true, wasGreen := true, eligible := true }
              shape := { regs := [(0, 7, 5)], banked := banked }, turns := [(0, 5)], nextUid := 6 }
theorem test_witness_resolution : ∀ p ∈ [(2, 2), (4, 2), (6, 4), (0, 0)], (tabFind (green p.2 []).launches 5).map (fun l => (l.pr, l.tailOf, l.next)) = some (4, none, p.2) ∧
    5 ≠ (green p.2 []).nextUid ∧ ((0, 7, 5) : Nat × Nat × Nat) ∈ (green p.2 []).shape.regs := by decide
theorem test_witness_banked_counts : (green 0 [(0, 7, 3)]).shape.banked = (placedRec.ctx.toNat, 7, 3) :: [] ∧
    (∀ b ∈ (green 0 [(1, 7, 3)]).shape.banked, b.1 ≠ placedRec.ctx.toNat ∨ b.2.1 ≠ 7) := by decide
/-- A count of key `key` that core 0 publishes. -/
def asks (key : Nat) : Asked := { core := 0, ctx := 0, key := key, count := 3 }
/-- `green` with core 0 waiting for its count. -/
def asking (banked : List (Nat × Nat × Nat)) : State := modCore (green 2 banked) 0 fun c => { c with wait := .shape, blocked := some { regs := c.regs, fmt := 0 } }
theorem test_witness_counts_served : let four := List.replicate 4 (0, 8, 1)
    taskOf (asking four) 0 = some placedTask ∧ (getCore (asking four) 0).wait = .shape ∧ (getCore (asking four) 0).acc = [] ∧ (getCore (asking four) 0).blocked.isSome = true ∧
    oldestReg (asking []) 0 7 = some 5 ∧ oldestReg (asking []) 0 8 = none ∧ ((asking []).shape.banked.filter (fun b => b.1 == 0 && b.2.1 == 8)).length < 4 ∧
    4 ≤ ((asking four).shape.banked.filter (fun b => b.1 == 0 && b.2.1 == 8)).length := by decide
/-- `demo` with its one task provisional, of a launch that is resolved with a count, or not. -/
def provisional (count : Option Nat) : State := { demo with
  tasks := [(0, { placedTask with green := true })]
  launches := [(0, { rcd := placedRec, die := 0, n := 1, pr := 1, next := 1, green := count.isNone, wasGreen := true, count := count, eligible := true })] }
theorem test_witness_verdicts : (provisional (some 1)).tasks = [(0, { placedTask with green := true })] ∧ taskDie (provisional (some 1)) { placedTask with green := true } = 0 ∧
    (tabFind (provisional (some 1)).launches 0).map (fun l => (l.green, !l.shapeFault && decide (0 < l.count.getD 0))) = some (false, true) ∧
    (tabFind (provisional none).launches 0).map (fun l => l.green) = some true ∧ (tabFind (provisional (some 0)).launches 0).map (fun l => decide (0 < l.count.getD 0)) = some false := by decide
theorem test_witness_verdict_waits : pausedTask (modCore (provisional (some 1)) 0 fun c => { c with hold := .walk 0 false }) { placedTask with green := true } = true ∧
    pausedTask (provisional (some 1)) { placedTask with green := true } = false := by decide
theorem test_witness_confirmation : let s := provisional (some 1)
    tabFind s.tasks 0 = some { placedTask with green := true } ∧ (∃ i ∈ gangOf placedTask, (getCore s i).halted = false) ∧
    (getCore (modCore s 0 fun c => { c with wait := .green }) 0).wait = .green ∧ gangOf placedTask = [0] ∧ (getCore s 0).mu = {} ∧ (getCore s 0).chan = [] ∧
    (∀ a ∈ (getCtx s 0).allocs, a.2.2 ≠ some 0) ∧ (getHearth s 0).assay = [] := ⟨by decide, ⟨0, by decide⟩, by decide, by decide, by decide, by decide, by decide, by decide⟩

/-! ### Host commands, ports and reports -/

/-- A device with some dies fenced. -/
def without (l : List Nat) : State := { up with dies := l.map (fun d => (d, { state := 3 })) }
theorem test_witness_host_chains : hostChain up 2 = true ∧ hostChain (without [0, 1]) 2 = false ∧ hostChain (without [0]) 2 = true ∧ hostChain (without [0, 3]) 2 = false ∧
    barOpen (without [0, 3]) = true ∧ portDie 12 = 2 ∧ fenced (without [0, 3]) 2 = false := by decide
theorem test_witness_mirror : up.hostUp.getLsbD 1 = true ∧ fenced up 1 = false ∧ barOpen up = true ∧ ({ up with boot := { phase := .bisque }, hostUp := 0 } : State).hostUp = 0 := by decide
/-- A die whose freeze is still to be reported. -/
def frozenNamed : State := { up with dies := [(0, { avs := { en := true, frozen := true, named := some (7, 0, 745) } })] }
theorem test_witness_named_freeze : (getDie frozenNamed 0).avs.named = some (7, 0, 745) ∧ (getDie frozenNamed 0).avs.frozen = true ∧ (getDie up 0).avs.named = none ∧
    (getDie up 0).avs.frozen = false := by decide
theorem test_witness_waiting_packet : let k : Packet := { seq := 0, ctx := none, writes := [(0x40, 1)], crcOk := true }
    (getPort { up with ports := [(3, { later := [k] })] } 3).later = [k] ∧ (getPort up 3).later = [] ∧ (getPort up 3).sent = [] ∧ (getPort up 3).replay.length < 512 := by decide
theorem test_witness_clean_copies : let s : State := { up with dies := [(1, { clean := [4] })] }
    sectorOf s 0x80 ∉ (getDie s 1).dirty ∧ sectorOf s 0x80 ∈ (getDie s 1).clean := by decide
theorem test_witness_idle : up.cores = [] ∧ (getCore up 9).acc = [] ∧ (chanOf (getCore up 9) 0).run = none := by decide
/-- The class with which a host write of one byte is refused. -/
def refusedWith (s : State) (a : Nat) : Option Nat := match writePa s ((hostPort s).getD 0) 0 a [1] with | .error f => some f | .ok _ => none
theorem test_witness_host_refusals : up.queues = [] ∧ (refusedWith up (localPa up 0x7FFFFFFFFFF)).any (fun f => f != 3) = true ∧ footHit footed 0 0x10000000080 4 = some 0 := by decide
theorem test_witness_ats : (∀ c ∈ up.cores, ∀ a ∈ c.2.acc, a.mt ≠ 2) ∧ (let e : Nat × Nat × Nat := (1, 5, 4 * 9 + 3); e.1 = 1 ∧ e.2.1 % 2 ^ 52 = 5) :=
  ⟨fun c hc => absurd hc (List.not_mem_nil), by decide⟩
theorem test_witness_iommu_waits : let s := { withAcc [{ aLoad with mt := 2, pa := hostPa 1 (9 * 4096) }] with ats := [(1, 5, 4 * 9)] }
    (1, 5, 4 * 9) ∈ s.ats ∧ ((getCore s 0).acc.any (fun b => b.mt == 2 && b.n != 0 && b.pa / 4096 == hostPa 1 (4 * 9 / 4 * 4096) / 4096)) = true := by decide

/-! ### Bundles of several words and steps -/

/-- The words of some operations. -/
def encodeAll (l : List Instr) : List W32 := l.filterMap encodeWord
/-- The reason bit of a bundle, shown by TSLOTS. -/
noncomputable def reasonBit (l : List Instr) (b : Nat) : Bool := match illegal (encodeAll l) true with | some (c, x) => c == 1 && x.getLsbD (12 + b) | none => false
/-- A MOVI into x2, a LD.D into x2, one into x6 in the second L slot, and three V words of 1,024 bits. -/
def someOps : List Instr := [.movi ⟨0, 0, 0, 2, 3⟩, .ldD ⟨0, 6, 0, 0, 2, 3, 0⟩, .ldD ⟨1, 7, 0, 0, 6, 3, 0⟩, .vmov ⟨0, 2, 0, 2, 1, 2, 0⟩, .vmov ⟨0, 3, 0, 2, 1, 2, 0⟩, .vmov ⟨1, 4, 0, 2, 1, 2, 0⟩]
/-- Some of `someOps`, by their places. -/
def pickOps (l : List Nat) : List Instr := l.filterMap (fun i => someOps[i]?)
theorem test_witness_reason_order : reasonBit (pickOps [2, 1]) 3 = true := by decide
theorem test_witness_reason_destination : reasonBit (pickOps [0, 1]) 6 = true ∧ (0, 2) ∈ destsOf (.movi ⟨0, 0, 0, 2, 3⟩) ∧ (0, 2) ∈ destsOf (.ldD ⟨0, 6, 0, 0, 2, 3, 0⟩) := by decide
theorem test_witness_reason_port : reasonBit (pickOps [1, 2]) 7 = true ∧ (0, 0) ∈ portsOf (.ldD ⟨0, 6, 0, 0, 2, 3, 0⟩) := by decide
theorem test_witness_reason_width : reasonBit (pickOps [3, 4, 5]) 8 = true ∧ ((encodeAll (pickOps [3, 4, 5])).map wordWidth).sum = 3072 := by decide
theorem test_witness_legal_bundle : illegal (encodeAll (pickOps [0, 2])) true = none ∧ (encodeAll (pickOps [0, 2])).length = 2 ∧ (encodeAll (pickOps [0, 3, 4])).map wordWidth = [0, 1024, 1024] := ⟨by decide, by decide, by decide⟩
/-- Core 0 before a bundle of two words. -/
def twoWords (a b : Instr) : State := withCore fun c => { c with imem := (encodeAll [a, b]).zipIdx.map (fun x => (x.2, x.1)) }
/-- A privileged operation in slot B, one whose type traps in V0, a GUARD that fails. -/
def trapping : State := modCore (twoWords (.guard ⟨0, 0, 0, 0, 1, 1⟩) (.eret ⟨1, 0⟩)) 0 fun c => { c with regs := { c.regs with x := [(1, 5)] } }
theorem test_witness_bundle_of_two : mayIssue trapping 0 = true ∧ (frameOf (getCore trapping 0)).2 = true ∧ (frameOf (getCore trapping 0)).1.length = 2 ∧
    illegal (frameOf (getCore trapping 0)).1 (frameOf (getCore trapping 0)).2 = none ∧ bankOf (getCore trapping 0) 0 2 = none ∧
    slotsOf (frameOf (getCore trapping 0)).1 = [.guard ⟨0, 0, 0, 0, 1, 1⟩] ++ .eret ⟨1, 0⟩ :: [] := ⟨by decide, by decide, by decide, by decide, by decide, by decide⟩
theorem test_witness_trap_choice : markOf (runSlot { trapping with cur := 0 } (.guard ⟨0, 0, 0, 0, 1, 1⟩)) 0 = .trapped 7 ∧
    markOf (runSlot { trapping with cur := 0 } (.eret ⟨1, 0⟩)) 0 = .trapped 3 ∧
    (let s := withFmt 0xF; markOf (runSlot { s with cur := 0 } (.vadd ⟨0, 2, 0, 2, 1, 2, 3⟩)) 0 = .trapped 9) ∧
    markOf (runSlot { trapping with cur := 0 } (.add ⟨0, 1, 0, 4, 2, 3⟩)) 0 = .none := by decide
theorem test_witness_all_commit : (runSlots 0 (slotOrder [.add ⟨0, 0, 0, 5, 6, 7⟩, .add ⟨1, 1, 0, 5, 6, 7⟩]) demo).2 = true := by decide
theorem test_witness_power_off : let s : State := { State.reset with boot := { power := false }, agenda := [.issue 0] }
    s.boot.power = false ∧ s.agenda.head? = some (.issue 0) := by decide
theorem test_witness_step_engines : let s := placeMicro State.reset 0x1500000000000000
    allShown s = [] ∧ owes s 0 = false ∧ isQuiet s (.event (.accessComplete 0 0)) = true ∧ isQuiet s (.event (.powerOn { rom := 15, bound := 15 })) = false ∧
    allShown (withAcc [{ aStore with shown := true }]) ≠ [] := by decide

/-! ### Provisional stores, wider groups of requests, acknowledgements -/

theorem test_witness_provisional_store : (me greenHolder).task = some 0 ∧ (tabFind greenHolder.tasks 0).isSome = true ∧ greenOf greenHolder greenHolder.cur = true ∧
    greenUsed greenHolder (hearthOf greenHolder.cur) = 0 ∧ passes (checkAll greenHolder { w := true } (parts window.toNat 8)) = true ∧
    passes (checkAll { greenHolder with hearths := (withLeaf 0x2D).hearths } { w := true } (parts 0x10 8)) = true ∧
    (match checkAll { greenHolder with hearths := (withLeaf 0x2D).hearths } { w := true } (parts 0x10 8) with | .ok p => (p.filter (fun q => !q.win)).map (fun q => q.n) | _ => []) = [8] := by decide
theorem test_witness_full_share : (∀ b : List Byte, greenUsed (withTask fun k => { k with green := true, held := [{ core := 0, rows := [{ va := 0, pa := 0, mt := 0, bytes := b }] }] }) 0 = b.length) ∧
    ∃ b : List Byte, 262144 < b.length + 1 := ⟨fun _ => rfl, List.replicate 262144 0, by rw [List.length_replicate]; omega⟩
theorem test_witness_live_access : accGone (withAcc [aStore]) aStore = false ∧ isSuspended (withAcc [aStore]) 0 = false ∧ isSuspended (withRequest aRequest) 0 = false := by decide
theorem test_witness_float_code : ((withFmt 0x300000 : State).cores.map (fun c => (c.2.sys.fmt.extractLsb' 20 3).toNat)) = [3] ∧ guardOn (withFmt 0x700000) 0 = true ∧
    ftOf 0x300000 = none := by decide
theorem test_witness_stays_on : StaysOn demo placedTask ∧ StaysOn inAssay placedTask ∧ ackOut (withEntry placedEntry) 0 (some 0) isMatrixSent = false ∧
    ackOut (placeMicro State.reset 0x1500000000000000) 0 (some 0) isMatrixSent = false := by unfold StaysOn; decide
/-- A write of core 0 under way in a packet of port 3. -/
def aSent (k : SentKind) : Sent := { seq := 4, core := 0, task := some 0, pa := 2 ^ 43 + 0x80, kind := k }
/-- A state with a write under way. -/
def withSent (s : State) (k : SentKind) : State := { s with ports := [(3, { sent := [aSent k] })] }
theorem test_witness_unacknowledged : unackedOf (withChan {}) 0 1 = [] ∧ unackedOf (withSent demo (.runner 1)) 0 1 = [aSent (.runner 1)] ∧
    ackOut (withSent demo .row) 0 (some 0) isMatrixSent = true ∧ unackedOf (withSent demo .store) 0 1 = [] ∧ sentBy (withSent demo .store) 0 = [aSent .store] ∧
    (getCore (withSent demo .store) 0).task = (aSent .store).task ∧ isSuspended (withSent demo .store) 0 = false := by decide
theorem test_witness_far_starts : ∀ op ∈ [ROp.send, .fetch, .scopy, .coll], let e := { anOp op 8 with aux := 1 }
    let s := withChan { queue := [e] }
    (chanOf (getCore s 0) 1).run = none ∧ (chanOf (getCore s 0) 1).queue = e :: [] ∧ (getCore s 0).task = some e.task ∧ listDone (getCore s 0) e.list = true ∧
    listFailed (getCore s 0) e.list = false ∧ engineHeld (getCore s 0) (some e.task) 0x0C e.no = false ∧ e.set.dev.toNat < 432 ∧
    432 ≤ ({ e.set with dev := 432 } : CopySet).dev.toNat ∧ readWaits s 0 e false (parts e.set.src.toNat e.set.len.toNat) = false := by decide
/-- `demo` with an `SCOPY` of a byte of the partition at the head of channel 1 and a seal of that byte with a CRC. -/
def sealedByte (crc : W64) : State := { withChan { queue := [anOp .scopy 1] } with
  hearths := [(0, { blockOwner := [(0, some 0)], seals := [(0, { addr := 0x100000000000000, len := 1, crc := crc, valid := true })] })] }
theorem test_witness_seal_found : (findSeal (getHearth (sealedByte 7) 0) (anOp .scopy 1)).map (fun x => x.crc) = some 7 ∧ (findSeal (getHearth demo 0) (anOp .scopy 1)).isSome = false ∧
    (let s1 := modCore (sealedByte 7) 0 fun c => { c with chan := tabSet c.chan 1 { queue := [] } }
     let q := readRange (freshFor s1 0 (some 0) 0) 0 (anOp .scopy 1) false (parts window.toNat 1)
     (q.2.1, q.2.2, (getCore q.1 0).task)) = ([0], none, some 0) := by decide
theorem test_witness_seal_crc : (∃ crc : W64, crc64 [0] = crc) ∧ ∃ crc : W64, crc64 [0] ≠ crc := ⟨⟨_, rfl⟩, ⟨crc64 [0] + 1, by decide⟩⟩
theorem test_witness_member_starts : let s := { withColl with colls := [], cores := (withChan { queue := [anOp .coll 4] }).cores }
    groupWaits s (anOp .coll 4) = false ∧ (match groupOf s (anOp .coll 4) with
      | (.ok l, t) => (l.map (fun w => (w.toNat % 512, w.toNat / 512 % 512)), (getCore t 0).task, rankOf t 0 1 l, rankOf t 0 2 l, lostMember t { ctx := 0, group := 0, joined := [(0, 0, 1)] } l)
      | _ => ([], none, none, none, none)) = ([(0, 0)], some 0, some 0, none, none) := by decide
/-- `withRequest` with the requests of two flows. -/
def withRequests (r q : OReq) : State := { withRequest r with oreqs := [q, r] }
theorem test_witness_other_requests : let q : OReq := { aRequest with id := 9, flow := 3, seq := 1, buffered := true }
    let k : OReq := { aRequest with buffered := true }
    let due := fun (s : State) (x : OReq) => x.buffered && tabGet s.expect (flowKey x) 0 == x.seq
    (withRequests aRequest q).oreqs[1]? = some aRequest ∧ (withRequests aRequest q).oreqs.find? (due (withRequests aRequest q)) = none ∧
    (withRequests k q).oreqs.find? (due (withRequests k q)) = some k ∧ ((withRequests k q).oreqs.filter (fun x => x.buffered)).length ≤ 32 ∧
    accGone (withRequests aRequest q) { aStore with id := 4 } = false := by decide

/-! ### Bundles, formats, loops, landings -/

theorem test_witness_two_formats : (getCore (withSys fun y => { y with fmtPend := [(4, 7), (6, 8)] }) 0).sys.fmtPend = [(4, 7), (6, 8)] ∧ (4 : Nat) ≤ 6 ∧
    nowOf (withTask fun k => { k with vcc := 3 }) 0 = 3 ∧ nowOf (withTask fun k => { k with vcc := 5 }) 0 = 5 ∧ nowOf (withTask fun k => { k with vcc := 6 }) 0 = 6 := by decide
theorem test_witness_asks_no_preemption : preemptsNow demo placedTask = false ∧ preemptsNow demo { placedTask with preempt := true } = true := by decide
/-- `withPost` whose bundle itself arms an entry. -/
def armsEntry (e : Nat) : State := modCore (withPost 1 true false) 0 fun c => { c with ctl := { c.ctl with post := c.ctl.post.map (fun p => { p with armed := some e }) } }
theorem test_witness_armed_by_itself : ∀ e ∈ [2, 3], ((getCore (armsEntry e) 0).ctl.post.map (fun p => (p.armed, p.triggered, (tabGet p.old 2 {}).armed, (tabGet p.old 3 {}).armed))) =
    some (some e, false, true, false) := by decide
/-- The count of a level as the end test finds it. -/
def levelCount (v : LoopLvl) : BitVec 32 := match v.pend with | some w => if w = 0 then 1 else w | none => v.lc
theorem test_witness_nested_ends : let m := [level4 1, { level4 9 with pend := some 0 }, { level4 9 with pend := some 1 }]
    (∀ x ∈ m, x.stop = 4 ∧ levelCount x = 1) ∧ levelCount (level4 2) ≠ 1 ∧ levelCount { level4 1 with pend := some 5 } ≠ 1 ∧
    (getCore (withLoops (level4 2 :: m)) 0).ctl.loops = [] ++ level4 2 :: m ∧ m.length ≤ 3 ∧
    (∀ v, ([{ level4 2 with stop := 7 }] : List LoopLvl).getLast? = some v → v.stop ≠ 4) := by
  refine ⟨by decide, by decide, by decide, by decide, by decide, ?_⟩; intro v h; simp only [List.getLast?_singleton, Option.some.injEq] at h; subst h; decide
theorem test_witness_stop_in_a_hold : let s := taskIn (withCore fun c => { c with hold := .walk 0x10 false }) fun k => { k with preempt := true }
    canStop s 0 { placedTask with preempt := true } = true ∧ (getCore s 0).hold ≠ .none ∧ (getCore s 0).handler = false ∧ placedTask.issued = false ∧
    (getCore decided 0).hold = .none := by decide
theorem test_witness_table_entries : tableOk demo 0 0x1000 = true ∧ tableOk demo 0 (2 ^ 43) = false ∧ tableOk demo 0 0x7000000000 = false := by decide
/-- `demo` with a bundle that spilled bank 66 and writes two of its registers. -/
def spilledOwn : Blocked := { regs := {}, fmt := 0, lands := [.v (66 * 32 + 1) (BitVec.allOnes 1024) 7, .v (67 * 32) (BitVec.allOnes 1024) 8]
                              spills := [(66, [{ va := window.toNat, off := 0, n := 4096, pa := 0x10000000000, mt := 0, win := true }])] }
theorem test_witness_own_results : spilledOwn.spills ≠ [] ∧ (spilledOwn.lands.filter (landInBank 66)).length = 1 ∧ ({ spilledOwn with spills := [] } : Blocked).spills = [] := by decide
theorem test_witness_start_reads : (tabFind spawned.launches 0).map (fun l => readsWait spawned (whoTask 0 placedTask false) (loadRanges l.rcd)) = some false := by decide
theorem test_witness_row_places : rowHit (closed [aRow 1]) 0 [aRow 1] = none ∧ rowHit (closeEpoch footedRows 0 0 2 {}) 0 [aRow 1] ≠ none ∧
    (tabFind (closed [aRow 1]).tasks 0).isSome = true := by decide
theorem test_witness_level_pops : ((7 : W64).extractLsb' 0 3).toNat = 7 ∧ ((1 : W64).extractLsb' 0 3).toNat < (withLoops [level4 1, level4 2]).cores.length + 1 ∧
    (0xA : W64).getLsbD 1 = true := by decide

/-! ### Hosts, ports, words -/

theorem test_witness_named_resume : (getDie frozenNamed 0).avs.named = some (7, 0, 745) ∧ barOpen frozenNamed = true ∧ hostChain frozenNamed 0 = true ∧ (getDie up 0).avs.named = none := by decide
theorem test_witness_acknowledged_runner : let s := { running { e := anOp .send 8, done := 8 } with ports := [(3, { sent := [aSent (.runner 1)] })] }
    (getPort s 3).sent = [aSent (.runner 1)] ∧ ((4 : BitVec 16) - (aSent (.runner 1)).seq).toNat < 32768 ∧ (getCore s 0).task = some (anOp .send 8).task ∧
    (chanOf (getCore s 0) 1).run.map (fun r => (r.counted, r.done)) = some (0, 8) ∧ unackedOf (modPort s 3 fun y => freePackets y 4) 0 1 = [] ∧
    (∀ k ∈ [SentKind.store, .row], ∀ j ∈ (getPort (withSent up k) 3).sent, j.kind = .store ∨ j.kind = .row) := by decide
theorem test_witness_several_fences : ∀ d ∈ [1, 2], (0x6 : W64).getLsbD d = true ∧ fenced up d = false ∧ (0x6 : W64).getLsbD 0 = false ∧ fenced (without [1]) 1 = true := by decide
theorem test_witness_die_translations : let s := { up with dies := [(0, { tlb2 := [{ asid := 0, base := 5, bits := 12, leaf := 1 }], walks := [⟨0, 0, 5, 1⟩] })], ctxBlock := { vpn := 5 } }
    (getDie s 0).tlb2.map (fun e => (e.asid, e.bits, e.base)) = [(0, 12, 5)] ∧ (getDie s 0).walks.map (fun e => (e.asid, e.level, e.base)) = [(0, 0, 5)] ∧
    0x5678 / 4096 = s.ctxBlock.vpn.toNat ∧ s.ctxBlock.busy = false := by decide
theorem test_witness_host_bytes : up.ctxs = [] ∧ hostBytes up (localPa up 0x40) [7, 8] = [7, 8] := by decide
theorem test_witness_kinds_of_instructions : isMicroOp (.add ⟨0, 0, 0, 1, 2, 3⟩) = false ∧ isEvent (.add ⟨0, 0, 0, 1, 2, 3⟩) = false ∧ isMicroOp (.mma ⟨7, 7, 7, 7, 0⟩) = true ∧
    isEvent (.taskStart 0) = true ∧ (encodeWord (.add ⟨0, 0, 0, 1, 2, 3⟩)).isSome = true ∧ encodeWord (.taskStart 0) = none := by decide
theorem test_witness_reserved_width : (unitOf 0x10018000 = 2 ∧ unitOf 0x18018000 = 3 ∧ unitOf 0x20018000 = 4) ∧ (0x10018000 : W32).extractLsb' 15 2 = 3 ∧
    (0x18018000 : W32).extractLsb' 15 2 = 3 ∧ (0x20018000 : W32).extractLsb' 15 2 = 3 := ⟨by decide, by decide, by decide, by decide⟩

/-! ## Results worked out by hand

The values come from the rules named and from the worked examples of spec/, not from the model. -/

/-- `demo` with x6 and x7 set. -/
def two (a b : W64) : State := withRegs fun g => { g with x := [(6, a), (7, b)] }
/-- x5 after an S-R operation of x6 and x7. -/
def sr (i : SROp → Instr) (a b : W64) : W64 := xAfter (i ⟨1, 0, 0, 5, 6, 7⟩) (two a b) 5

-- R166
theorem test_add_wraps : sr .add 0xFFFFFFFFFFFFFFFF 2 = 1 := by decide
theorem test_sub_wraps : sr .sub 1 2 = 0xFFFFFFFFFFFFFFFF := by decide
theorem test_mulh_signed : sr .mulh 0xFFFFFFFFFFFFFFFF 1 = 0xFFFFFFFFFFFFFFFF ∧ sr .mulhu 0xFFFFFFFFFFFFFFFF 2 = 1 := by decide
theorem test_div_truncates : sr .div 0xFFFFFFFFFFFFFFF9 2 = 0xFFFFFFFFFFFFFFFD ∧ sr .rem 0xFFFFFFFFFFFFFFF9 2 = 0xFFFFFFFFFFFFFFFF := by decide
theorem test_div_corners : sr .div 5 0 = 0xFFFFFFFFFFFFFFFF ∧ sr .rem 5 0 = 5 ∧ sr .div 0x8000000000000000 0xFFFFFFFFFFFFFFFF = 0x8000000000000000 ∧
    sr .rem 0x8000000000000000 0xFFFFFFFFFFFFFFFF = 0 := by decide
theorem test_divu_remu : sr .divu 0xFFFFFFFFFFFFFFFF 16 = 0x0FFFFFFFFFFFFFFF ∧ sr .remu 0xFFFFFFFFFFFFFFFF 16 = 15 := by decide
theorem test_logic : sr .and 12 10 = 8 ∧ sr .or 12 10 = 14 ∧ sr .xor 12 10 = 6 ∧ sr .andn 12 10 = 4 := by decide
theorem test_shift_count : sr .shl 1 65 = 2 ∧ sr .shr 0x8000000000000000 127 = 1 ∧ sr .sar 0x8000000000000000 63 = 0xFFFFFFFFFFFFFFFF ∧
    sr .ror 1 1 = 0x8000000000000000 := by decide
theorem test_extremes : sr .min 0xFFFFFFFFFFFFFFFF 1 = 0xFFFFFFFFFFFFFFFF ∧ sr .max 0xFFFFFFFFFFFFFFFF 1 = 1 ∧ sr .minu 0xFFFFFFFFFFFFFFFF 1 = 1 ∧
    sr .maxu 0xFFFFFFFFFFFFFFFF 1 = 0xFFFFFFFFFFFFFFFF := by decide
theorem test_counts : sr .clz 0 0 = 64 ∧ sr .clz 1 0 = 63 ∧ sr .ctz 0 0 = 64 ∧ sr .ctz 8 0 = 3 ∧ sr .popc 0xF0F 0 = 8 := by decide
-- R167: the size code is the b field
theorem test_extension : xAfter (.sext ⟨1, 0, 0, 5, 6, 0⟩) (two 0x180 0) 5 = 0xFFFFFFFFFFFFFF80 ∧ xAfter (.zext ⟨1, 0, 0, 5, 6, 1⟩) (two 0x18080 0) 5 = 0x8080 := by decide
-- R48: x0 reads zero and ignores writes
theorem test_x0 : xAfter (.add ⟨1, 0, 0, 0, 6, 7⟩) (two 1 2) 0 = 0 ∧ xAfter (.add ⟨1, 0, 0, 5, 0, 7⟩) (two 1 2) 5 = 2 := by decide
-- R170: the carry goes in and out through the pair q2, q3
theorem test_addc : qAfter (.addc ⟨1, 0, 2, 5, 6, 7⟩) (two 0xFFFFFFFFFFFFFFFF 1) 2 = true ∧ qAfter (.addc ⟨1, 0, 2, 5, 6, 7⟩) (two 1 1) 3 = true := by decide
theorem test_subb : qAfter (.subb ⟨1, 0, 2, 5, 6, 7⟩) (two 1 2) 2 = true ∧ xAfter (.subb ⟨1, 0, 2, 5, 6, 7⟩) (two 5 2) 5 = 3 := by decide
-- R171, R172: the pair 4, 5
theorem test_compares : qAfter (.cmplt ⟨1, 0, 0, 2, 6, 7⟩) (two 0xFFFFFFFFFFFFFFFF 1) 4 = true ∧ qAfter (.cmpltu ⟨1, 0, 0, 2, 6, 7⟩) (two 0xFFFFFFFFFFFFFFFF 1) 4 = false ∧
    qAfter (.cmpltu ⟨1, 0, 0, 2, 6, 7⟩) (two 0xFFFFFFFFFFFFFFFF 1) 5 = true := by decide
theorem test_pxor_complement : qAfter (.pxor ⟨1, 0, 0, 3, 9, 0⟩) demo 6 = true ∧ qAfter (.pxor ⟨1, 0, 0, 3, 9, 0⟩) demo 7 = false := by decide
-- R168, R169, R175
theorem test_immediates : xAfter (.addi ⟨1, 0, 0, 5, 6, 0x7F⟩) (two 3 0) 5 = 2 ∧ xAfter (.muli ⟨1, 0, 0, 5, 6, 0x40⟩) (two 1 0) 5 = 0xFFFFFFFFFFFFFFC0 ∧
    xAfter (.movi ⟨1, 0, 0, 5, 0x4000⟩) demo 5 = 0xFFFFFFFFFFFFC000 := by decide
theorem test_movsh : xAfter (.movsh ⟨1, 0, 0, 6, 5⟩) (two 1 0) 6 = 0x8005 := by decide
-- R44
theorem test_false_guard : exec (.add ⟨1, 0, 1, 5, 6, 7⟩) demo = .next demo := by rfl
-- spec/03's example of a bundle, and the one that names vb4 twice
theorem test_bundle_example : illegal [0x018014C7, 0x08108843, 0x10070443, 0xB014C882] true = none := by rfl
theorem test_bundle_example_words : decode 0x08108843 = .ok (.cmplt ⟨0, 1, 0, 2, 2, 3⟩) ∧ decode 0xB014C882 = .ok (.ldv1024 ⟨1, 6, 0, 3, 4, 8, 2⟩) := ⟨rfl, rfl⟩
theorem test_illegal_bundle_example : illegal [0x018014C7, 0x08108843, 0x18071043, 0xB014C882] true = some (0x01, 0x4040C) := by rfl
-- spec/04's loop example
theorem test_loop_example_words : decode 0xD8450404 = .ok (.loopi ⟨1, 0, 4, 4⟩) ∧ decode 0xDA090004 = .ok (.bprep ⟨1, 4, 1, 2, 4⟩) ∧
    decode 0x80522103 = .ok (.cmpeqi ⟨1, 0, 0, 2, 2, 3⟩) := ⟨rfl, rfl, rfl⟩

/-! ### Numbers (spec/05) -/

/-- The quotient of FP32 bits by 3, rounded to E4M3 by RNE without saturation, as in spec/05's example. -/
def third (v : Nat) : Nat := roundF e4m3 0 false (exDiv (decodeF fp32 v) (decodeF fp32 0x40400000))
theorem test_quantize_example : third 0x404C0000 = 0x38 ∧ third 0x3F800000 = 0x2B ∧ third 0x44AE0000 = 0x7E ∧ third 0x44BB8000 = 0x7F ∧
    third 0x3B400000 = 0x00 ∧ third 0x80000000 = 0x80 ∧ third 0x7FC00000 = 0x7F := by decide
theorem test_saturation : roundF e4m3 0 true (exDiv (decodeF fp32 0x44BB8000) (decodeF fp32 0x40400000)) = 0x7E ∧
    roundF e4m3 2 false (exDiv (decodeF fp32 0x44AE0000) (decodeF fp32 0x40400000)) = 0x7F := by decide
-- spec/06's example: the grouping of four BF16 products 1, 2^-25, 2^-25, 2^-25
/-- A product with 1. -/
def product (x : Nat) : Ex := exMul (decodeF bf16 x) (decodeF bf16 0x3F80)
theorem test_step_grouping : roundF fp32 0 false (exSum [decodeF fp32 0, product 0x3F80, product 0x3300, product 0x3300, product 0x3300] 0) = 0x3F800001 ∧
    roundF fp32 0 false (exSum [decodeF fp32 0, product 0x3F80, product 0x3300] 0) = 0x3F800000 := by decide
-- spec/08's example of a reduction
theorem test_reduction_tree : (treeRoot (fun a b => roundF fp32 0 false (exSum [decodeF fp32 a, decodeF fp32 b] 0)) 3
    ((0x4B800000 :: List.replicate 7 0x3F800000).map some)) = some 0x4B800003 := by decide
-- R203: fixed values, and 2^0.5 and 1/3 correctly rounded
theorem test_special_functions : fnRound .exp2 fp32 0 false 0x3F800000 = 0x40000000 ∧ fnRound .exp2 fp32 0 false 0x3F000000 = 0x3FB504F3 ∧
    fnRound .rcp fp32 0 false 0x40400000 = 0x3EAAAAAB ∧ fnRound .log2 fp32 0 false 0x80000000 = 0xFF800000 := by decide
theorem test_special_function_corners : fnRound .sinpi fp32 0 false 0xC0000000 = 0x80000000 ∧ fnRound .cospi fp32 0 false 0x3F000000 = 0 ∧
    fnRound .tanh fp32 0 false 0xFF800000 = 0xBF800000 ∧ fnRound .rsq fp32 0 false 0x80000000 = 0xFF800000 ∧ fnRound .sigm bf16 0 false 0 = 0x3F00 := by decide
-- spec/09's example: x holds 1.0 with 12,288 and 2.0 with 20,480
/-- The element of spec/09's example. -/
def anElement : List Point := [(0x3F800000, 12288), (0x40000000, 20480)]
theorem test_correlated_sum : condense 0 false 32768 (pairing true (fun a b => exSum [a, b] 0) anElement anElement) = [(0x40000000, 12288), (0x40800000, 20480)] := by decide
theorem test_independent_sum : condense 0 false (2 ^ 30) (pairing false (fun a b => exSum [a, b] 0) anElement anElement) =
    [(0x40000000, 4096), (0x40380000, 4096), (0x40400000, 8192), (0x40480000, 4096), (0x40800000, 12288)] := by decide
theorem test_distribution_words : decode 0xD0250402 = .ok (.dtag ⟨1, 0, 1, 0, 2⟩) ∧ decode 0xD0211022 = .ok (.dadd ⟨1, 0, 4, 1, 2⟩) := ⟨rfl, rfl⟩

/-! ### Vectors (spec/08) -/

/-- The low `w` bits of va1 after a V operation of va2 and va3 under an FMT. -/
def va1After (i : VOp → Instr) (fmt : W32) (a b : W1024) (w : Nat) : Nat :=
  let s := modCore (withFmt fmt) 0 fun c => { c with regs := { c.regs with v := [(vSlot c 0 2, a), (vSlot c 0 3, b)] } }
  (tabGet (landed (exec (i ⟨1, 2, 0, 0, 1, 2, 3⟩) s)).regs.v (vSlot (me s) 0 1) 0).toNat % 2 ^ w
theorem test_vadd_wraps_by_element : va1After .vadd 7 0x01FF 0x0101 16 = 0x0200 := by decide +kernel
theorem test_vmulhi_signed : va1After .vmulhi 8 0xFF 0xFF 8 = 0x00 ∧ va1After .vmulhiu 7 0xFF 0xFF 8 = 0xFE := by decide +kernel
theorem test_vfma_rounds_once : va1After .vadd 0 0x3F800000 0x3F800000 32 = 0x40000000 ∧ va1After .vmul 0 0x3FC00000 0x40000000 32 = 0x40400000 := by decide +kernel
theorem test_vector_sign : va1After .vabs 7 0x80 0 8 = 0x80 ∧ va1After .vneg 0 0x3F800000 0 32 = 0xBF800000 ∧ va1After .vmin 0 0x80000000 0 32 = 0x80000000 := by decide +kernel
theorem test_vector_shifts : va1After .vshl 7 0x81 9 8 = 0x02 ∧ va1After .vsar 8 0x80 1 8 = 0xC0 ∧ va1After .vshri 8 0x80 0 8 = 0x10 := by decide +kernel
theorem test_vector_type_trap : causeAfter (.vshl ⟨1, 2, 0, 0, 1, 2, 3⟩) demo = 0x09 ∧ causeAfter (.vadd ⟨1, 2, 0, 0, 1, 2, 3⟩) (withFmt 12) = 0x09 ∧
    causeAfter (.vadd ⟨1, 2, 0, 0, 1, 2, 3⟩) demo = 0 := by decide

/-! ### Memory (spec/01, spec/10, spec/16) -/

theorem test_core_203 : hearthOf 203 = 50 ∧ dieOf 203 = 2 := by decide
theorem test_home_of_an_address : homeSlice up 0x3000001280 = 2 * 384 + 163 ∧ stackOf 2 0x1280 = 4 := by decide
theorem test_walk_example : leafPa 0x000028300020002F 21 0x00007F2000403A80 = 0x283000203A80 := by decide
theorem test_crc_polynomial : crc64 [0] = 0 ∧ crc64 [1] = 0x42F0E1EBA9EA3693 := by decide
-- R239: pieces end at every 16-byte boundary
theorem test_pieces : parts 24 16 = [(24, 0, 8), (32, 8, 8)] ∧ parts 36 8 = [(36, 0, 8)] := by decide
-- R260: a store's bytes at its address, lowest first, and a load of them with its sign
theorem test_store_little_endian : (performAcc (withAcc [aStore]) 0 0).mem.take 2 = [(0x40, 1), (0x41, 2)] := by decide
/-- spec/11 R243, R244: a store visible at hearth scope is read by its hearth's cores before it performs at its home, not by those of another. -/
theorem test_store_shown_to_its_hearth :
    let s := withAcc [{ aStore with shown := true }]
    ((readSeen s 1 aStore.mt aStore.pa 2).1.toOption, (readSeen s 4 aStore.mt aStore.pa 2).1.toOption) = (some [1, 2], some [0, 0]) := by decide
/-- spec/11 R254, R256: a load that read it stays outstanding until it is home. -/
theorem test_load_waits_for_early_store :
    let s := performAcc (modCore (withAcc [{ aStore with shown := true }]) 1 fun c => { c with acc := [{ aLoad with task := some 1 }] }) 1 0
    (canPerform s 1 0, canPerform (performAcc s 0 0) 1 0) = (false, true) := by decide
theorem test_load_extension : loadLands (.scalar false 4 2 true) 0x8001 0 = [.x 4 0xFFFFFFFFFFFF8001] ∧ loadLands (.scalar true 4 2 false) 0x8001 0 = [.y 4 0x8001] := by decide +kernel
-- R240: a misaligned acquire load
theorem test_misaligned_acquire : causeAfter (.ldaD ⟨1, 6, 0, 0, 4, 1, 0⟩) (withX 1 (window + 4)) = 0x06 := by decide
-- R267: fetch-and-add modulo 2^32
theorem test_atomic_add : ((atomicAt { demo with mem := [(0x40, 0xFF), (0x41, 0xFF), (0x42, 0xFF), (0x43, 0xFF)] } 0 { aStore with n := 4 } .add 3 0 0).toOption.map
    (fun r => (r.1, r.2.mem))) = some (0xFFFFFFFF, [(0x40, 2)]) := by decide

/-! ### Control (spec/04) -/

theorem test_trap_record : (match exec (.trap ⟨1, 0, 0x31⟩) trapsOn with
    | .next t => ((me t).sys.tcause, (me t).ctl.pc, (me t).sys.priv)
    | _ => (0, 0, 0)) = (0x0C, 0x40, 1) := by decide
theorem test_syscall_cause : (match exec (.syscall ⟨1, 0, 0x31⟩) trapsOn with | .next t => (me t).sys.tcause | _ => 0) = 0x0D := by decide
theorem test_eret_privilege : causeAfter (.eret ⟨1, 0⟩) demo = 0x03 := by decide
theorem test_loopi_opens : (match exec (.loopi ⟨1, 0, 4, 4⟩) demo with | .next t => (me t).ctl.loops | _ => []) = [{ lc := 4, start := 1, stop := 4 }] := by decide
theorem test_bprep_arms : (match exec (.bprep ⟨1, 4, 1, 2, 4⟩) demo with | .next t => tabGet (me t).ctl.tgt 1 {} | _ => {}) =
    { armed := true, call := false, cond := 4, count := 2, target := 4 } := by decide
theorem test_system_register_privilege : causeAfter (.mfs ⟨1, 0, 0x200, 0, 5⟩) demo = 0x03 ∧ xAfter (.mfs ⟨1, 0, 0x009, 0, 5⟩) demo 5 = 0 := by decide
theorem test_rdvc : xAfter (.rdvc ⟨1, 0, 0, 5, 0, 0⟩) (withTask fun k => { k with vcc := 77 }) 5 = 77 := by decide

/-! ### Engines (spec/06, spec/07, spec/12) -/

theorem test_privileged_mload : causeAfter (.mload ⟨1, 0, 4, 1, 2⟩) demo = 0x03 := by decide
theorem test_pending_token : causeAfter (.copy ⟨1, 8, 0, 2, 5, 0, 0⟩) (withTok 5 .pending) = 0x10 := by decide
theorem test_copy_takes_its_token : (match exec (.copy ⟨1, 8, 0, 2, 5, 0, 0⟩) demo with | .next t => (tokOf (me t) 5, (chanOf (me t) 0).queue.length) | _ => (.ok, 0)) =
    (.pending, 1) := by decide
/-- The program counter of the routine that a micro-op leaves. -/
def upcAfter (i : Instr) (r : MRun) : Option Nat := match exec i (withRun r) with | .next t => (me t).mu.run.map (fun r => r.upc) | _ => none
theorem test_micro_loop : upcAfter (.loopMicroOp ⟨0, 0, 0, 0, 0x00300002⟩) aRun = some 1 ∧ upcAfter (.endl ⟨0, 0, 0, 0, 0⟩) { aRun with upc := 4, loops := [(2, 1)] } = some 1 ∧
    upcAfter (.endl ⟨0, 0, 0, 0, 0⟩) { aRun with upc := 4, loops := [(1, 1)] } = some 5 := by decide
theorem test_micro_end : upcAfter (.endR ⟨0, 0, 0, 0, 0⟩) aRun = none := by decide

/-! ### The host and recovery (spec/13, spec/17, spec/18) -/

/-- The state after an event. -/
def after (i : Instr) (s : State) : State := match exec i s with | .next t => t | _ => s
theorem test_qtail : (getQueue (after (.qtailWrite 5 0x123456789) up) 5).tail = 0x23456789 := by decide
theorem test_avs_step : (getDie (after (.avsStep 1) { up with dies := [(1, { avs := { en := true, floor := 748 } })] }) 1).avs.point = 748 := by decide
theorem test_clock_step : (getDie (after (.thermalClockStep 0 101 0) up) 0).clk = 1500 ∧ (getDie (after (.thermalClockStep 0 101 0) { up with dies := [(0, { clk := 400 })] }) 0).clk = 400 := by decide
theorem test_lane_failure : (getPort (after (.laneFailure 3 0) up) 3).lanes = 0x1FFFE ∧ (getPort (after (.laneFailure 3 0) { up with ports := [(3, { failed := 2, unfit := 2, lanes := 0x1FFFD })] }) 3).lanes = 0x3FC := by decide
-- R385: a lane that a RETRAIN found healthy fails again, and the spare takes its place
theorem test_lane_after_retrain : (getPort (after (.laneFailure 3 0) { up with ports := [(3, { failed := 3, unfit := 0, lanes := 0xFFFF })] }) 3).lanes = 0x1FFFE := by decide
-- R390: after the removal of die 0's host port a report is lost until the ring is programmed through the mirror
theorem test_ring_mirror : ringPort { up with hostUp := 2 } = none ∧ ringPort (after (.registerWrite .rbase 0) { up with hostUp := 2 }) = some 1 ∧
    ringPort { up with hostUp := 2, dies := [(0, { state := 3 })] } = some 1 := by decide
theorem test_register_read : readReg (after (.registerWrite (.qsize 4) 0xFFFFFFFFFFFFFFFF) up) (.qsize 4) = 31 := by decide
theorem test_measurement : (match (after (.getMeasurements 6) up).spdm with | .measurements [(n, b)] => (n, b.length) | _ => (0, 0)) = (6, 8) := by decide
theorem test_power_loss : (after (.powerLoss false) up).boot.power = false ∧ (after (.powerLoss false) up).boot.phase = .starting := by decide
-- R8, R92: FMT's reserved bits are not kept
theorem test_format_reserved_bits : (match exec (.setfmt ⟨1, 0, 6⟩) (two 0xFFFFFFFFFFFFFFFF 0) with | .next t => (me t).sys.fmtPend.map Prod.snd | _ => []) = [0x07FFFFFF] := by decide
-- R293: QTAIL of queue 5 stands at 0x100000 + 64 * 5 + 0x10, and takes aligned 8-byte writes alone
theorem test_bar_queue_tail : barWrite up 0x100150 8 7 0 ⟨0, 0⟩ = some (.qtailWrite 5 7) ∧ barWrite up 0x100150 4 7 0 ⟨0, 0⟩ = none := ⟨rfl, rfl⟩

end Sys2Proof.Tests
end

/-! SUPPORT. Guards that guard an operation as a whole (spec/03 R43, R44), and the trap of an illegal bundle (R51, R52): O40. -/

namespace Sys2Proof.Guards

open Sys2Proof Sys2Proof.Machine Sys2Proof.Laws

/-! ## Operations whose guard is false -/

/-- The form of an operation that may wait for a bank, trap or block before it has an effect: the guard comes before all of that. -/
theorem ifGuard_off {s : State} {g : BitVec 4} {out : Out} (h : guardOn s g = false) :
    (if guardOn s g then out else .next s) = .next s := by
  simp [h]

/-- The form that `guarded` gives an operation, for the state `t` that its effect would leave. -/
theorem next_ifGuard_off {s t : State} {g : BitVec 4} (h : guardOn s g = false) :
    (.next (if guardOn s g then t else s) : Out) = .next s :=
  guarded_off (f := fun _ => t) h

/-- R44, instruction by instruction: the meaning of every instruction that is guarded as a whole begins with its guard. First those that may
wait for a bank, then those that are `guarded` at once; no other instruction meets the hypothesis. -/
theorem exec_of_guard_false {i : Instr} {s : State} (hoff : (guardOf i).map (guardOn s) = some false) : exec i s = .next s := by
  cases i with
  | movx o | fmovx o
  | ldB o | ldBz o | ldH o | ldHz o | ldW o | ldWz o | ldD o | ldQ o | ldv256 o | ldv512 o | ldv1024 o | ldk o | ldd o
  | ldxD o | ldxW o | stB o | stH o | stW o | stD o | stQ o | stv256 o | stv512 o | stv1024 o | stk o | std o | stxD o
  | stxW o | vgather o | vscatter o | ldaW o | ldaD o | stlW o | stlD o
  | aaddW o | aandW o | aorW o | axorW o | aminW o | amaxW o | aminuW o | amaxuW o | aswpW o | acasW o | afaddW o
  | aaddD o | aandD o | aorD o | axorD o | aminD o | amaxD o | aminuD o | amaxuD o | aswpD o | acasD o
  | oadd o | oswp o | ocas o =>
    exact ifGuard_off (Option.some.inj hoff)
  | add o | sub o | mul o | mulh o | mulhu o | div o | divu o | rem o | remu o | and o | or o | xor o | andn o
  | shl o | shr o | sar o | ror o | min o | max o | minu o | maxu o | clz o | ctz o | popc o | sext o | zext o
  | cmpeq o | cmplt o | cmpltu o | cmple o | cmpleu o | pand o | por o | pxor o | movp o | movfp o | gset o | gget o
  | hset o | hget o | guard o | rdvc o | addi o | andi o | ori o | xori o | shli o | shri o | sari o | rori o | muli o
  | cmpeqi o | cmplti o | cmpltui o | cmplei o | cmpleui o | tokl o | movi o | movsh o
  | fexp2 o | flog2 o | frcp o | frsq o | fsinpi o | fcospi o | ftanh o | fsigm o | ferf o | frand o
  | dpt o | dfrom o | dadd o | dsub o | dmul o | dmax o | dmin o | daff o | dmap o | dtag o | dtags o | dcanon o
  | dmom o | dqnt o | dcdf o | dmov o | dsupp o
  | fence o | drain o | pref o | mcall o | mclr o | mstat o | msig o | mabort o | mload o
  | copy o | copy2 o | send o | fetch o | scopy o | coll o | czero o | cflush o
  | ret o | loop o | loopi o | trap o | syscall o | eret o | eretS o | twait o | tpoll o | waitwp o | setfmt o | setbank o
  | sync o | mfs o | mts o | ifence o | ovl o | launch o | launchg o | shape o | predict o | alloc o | free o | yield o
  | halt o | evset o | evsetClear o | evwait o =>
    exact next_ifGuard_off (Option.some.inj hoff)
  | _ => cases hoff

/-! ## Illegal bundles -/

/-- What stands at the program counter is illegal (R51), no earlier trap and no bank comes before it: the bundle traps, and none of its
slots is executed. -/
theorem issueNow_of_illegal {s : State} {core cause : Nat} {x : BitVec 21}
    (hlate : (getCore s core).handler = true ∨ (getCore s core).late = [])
    (hbank : bankOf (getCore s core) (getCore s core).ctl.pc (frameOf (getCore s core)).1.length = none)
    (hill : illegal (frameOf (getCore s core)).1 (frameOf (getCore s core)).2 = some (cause, x)) :
    issueNow s core = settleCore (modCore (takeTrap s cause x 0 0) core fun c => { c with mark := .none }) core := by
  have hrow : (if (getCore s core).handler then none else (getCore s core).late.head?) = none := by
    rcases hlate with h | h <;> simp [h]
  simp only [issueNow, hrow, hbank, hill]

theorem issueBundle_of_mayIssue {s : State} {core : Nat} (h : mayIssue s core = true) :
    issueBundle s core = noteIssued (issueNow { s with cur := core } core) core (getCore s core).handler := by
  simp [issueBundle, h]

/-- Settles O40: the guard stands before the meaning of each guarded instruction, and legality is decided from the words alone. -/
theorem falseGuardDoesNothing : Obligations.FalseGuardDoesNothing := by
  unfold Obligations.FalseGuardDoesNothing
  constructor
  · intro i s g hg hoff
    exact exec_of_guard_false (by rw [hg, Option.map_some, hoff])
  · intro s core cause x hmay c hlate hbank hill
    have htrap := issueNow_of_illegal (s := { s with cur := core }) hlate hbank hill
    rw [issueBundle_of_mayIssue hmay, htrap]

end Sys2Proof.Guards

/-! SUPPORT. One step of an engine (spec/06 R113, spec/05 R105, R106): the elements of a step, and the order of the terms of an
exact sum: O31. -/

namespace Sys2Proof.MatrixSteps

open Sys2Proof Sys2Proof.Machine

/-! ## The order of the terms of a sum

A term of an exact sum sets a flag for a special value and joins a finite one to a running rational. The flags are disjunctions; the running
rational keeps its denominator, since the terms are dyadic, and the smallest exponent met. Neither depends on the order. -/

/-- A power of two over a range of exponents, split within the range. -/
theorem two_pow_toNat_sub_split {e f g : Int} (hgf : g ≤ f) (hfe : f ≤ e) :
    (2 : Int) ^ (e - g).toNat = 2 ^ (e - f).toNat * 2 ^ (f - g).toNat := by
  rw [← pow_add]
  congr 1
  omega

/-- A dyadic term keeps the denominator. -/
theorem ratAdd_dyadic (a : Int × Nat × Int) (n e : Int) :
    ratAdd a (n, 1, e) =
      (a.1 * 2 ^ (a.2.2 - min a.2.2 e).toNat + n * 2 ^ (e - min a.2.2 e).toNat * a.2.1, a.2.1, min a.2.2 e) := by
  by_cases hd : a.2.1 = 1 <;> simp [ratAdd, hd]

/-- Two dyadic terms join at the smallest of the three exponents. -/
theorem ratAdd_dyadic_twice (a : Int × Nat × Int) (n e m g : Int) :
    ratAdd (ratAdd a (n, 1, e)) (m, 1, g) =
      (a.1 * 2 ^ (a.2.2 - min (min a.2.2 e) g).toNat + (n * 2 ^ (e - min (min a.2.2 e) g).toNat +
        m * 2 ^ (g - min (min a.2.2 e) g).toNat) * a.2.1, a.2.1, min (min a.2.2 e) g) := by
  have hlow : min (min a.2.2 e) g ≤ min a.2.2 e := min_le_left _ _
  rw [ratAdd_dyadic a, ratAdd_dyadic, two_pow_toNat_sub_split hlow (min_le_left a.2.2 e),
    two_pow_toNat_sub_split hlow (min_le_right a.2.2 e)]
  congr 1
  ring

theorem ratAdd_dyadic_right_comm (a : Int × Nat × Int) (n e m g : Int) :
    ratAdd (ratAdd a (n, 1, e)) (m, 1, g) = ratAdd (ratAdd a (m, 1, g)) (n, 1, e) := by
  rw [ratAdd_dyadic_twice, ratAdd_dyadic_twice, min_right_comm a.2.2 g e, add_comm (n * _)]

theorem ratAdd_dyadic_comm (n e m g : Int) : ratAdd (n, 1, e) (m, 1, g) = ratAdd (m, 1, g) (n, 1, e) := by
  rw [ratAdd_dyadic, ratAdd_dyadic, min_comm e g]
  congr 1
  push_cast
  ring

/-- Whether a term is a fraction, neither NaN nor an infinity nor a zero. -/
def isFinite : Ex → Bool
  | .fin _ _ _ _ => true
  | _ => false

/-- The running rational `r` after a term; `any` says that a finite term came before. -/
def joinFinite (any : Bool) (r : Int × Nat × Int) : Ex → Int × Nat × Int
  | .fin s n d e => if any then ratAdd r (if s then -(n : Int) else n, d, e) else (if s then -(n : Int) else n, d, e)
  | _ => r

/-- What a term does to each part of the sum's record. -/
theorem sumTerm_eq (a : SumAcc) (x : Ex) :
    sumTerm a x = {
      nan := a.nan || x == .nan
      posInf := a.posInf || x == .inf false
      negInf := a.negInf || x == .inf true
      posZero := a.posZero || x == .zero false
      negZero := a.negZero || x == .zero true
      any := a.any || isFinite x
      r := joinFinite a.any a.r x } := by
  cases x with
  | nan => simp [sumTerm, isFinite, joinFinite]
  | inf neg => cases neg <;> simp [sumTerm, isFinite, joinFinite]
  | zero neg => cases neg <;> simp [sumTerm, isFinite, joinFinite]
  | fin s n d e => simp [sumTerm, isFinite, joinFinite]

/-- The running rational takes two dyadic terms in either order. -/
theorem joinFinite_right_comm {x y : Ex} (hx : Dyadic x) (hy : Dyadic y) (any : Bool) (r : Int × Nat × Int) :
    joinFinite (any || isFinite x) (joinFinite any r x) y = joinFinite (any || isFinite y) (joinFinite any r y) x := by
  match x, y, hx, hy with
  | .fin s n 1 e, .fin t m 1 g, rfl, rfl =>
    cases any with
    | true => exact ratAdd_dyadic_right_comm ..
    | false => exact ratAdd_dyadic_comm ..
  | .nan, y, _, _ | .inf _, y, _, _ | .zero _, y, _, _ => simp [joinFinite, isFinite]
  | .fin _ _ _ _, .nan, _, _ | .fin _ _ _ _, .inf _, _, _ | .fin _ _ _ _, .zero _, _, _ => simp [joinFinite, isFinite]

theorem sumTerm_right_comm {x y : Ex} (hx : Dyadic x) (hy : Dyadic y) (a : SumAcc) :
    sumTerm (sumTerm a x) y = sumTerm (sumTerm a y) x := by
  simp only [sumTerm_eq, SumAcc.mk.injEq]
  exact ⟨Bool.or_right_comm .., Bool.or_right_comm .., Bool.or_right_comm .., Bool.or_right_comm .., Bool.or_right_comm ..,
    Bool.or_right_comm .., joinFinite_right_comm hx hy a.any a.r⟩

/-- R113: a sum of dyadic terms is the same in every order. -/
theorem exSum_perm {l m : List Ex} (h : l.Perm m) (hl : ∀ x ∈ l, Dyadic x) (rm : BitVec 2) : exSum l rm = exSum m rm := by
  have hfold := h.foldl_eq' (f := sumTerm) (fun x hx y hy z => sumTerm_right_comm (hl x hx) (hl y hy) z) {}
  rw [exSum, exSum, hfold]

/-! ## Grids

The rows and columns of a step are lists of lists. Each is brought to the form `grid 128 128 f`, from which its elements are read off. -/

/-- `m` rows of `n` elements, given by row and column. -/
def grid {α : Type} (m n : Nat) (f : Nat → Nat → α) : List (List α) := (List.range m).map fun r => (List.range n).map (f r)

/-- The elements of such a grid, row after row. -/
def flat {α : Type} (m n : Nat) (f : Nat → Nat → α) : List α := (List.range (m * n)).map fun k => f (k / n) (k % n)

theorem flat_getElem? {α : Type} {m n i j : Nat} (f : Nat → Nat → α) (hi : i < m) (hj : j < n) :
    (flat m n f)[n * i + j]? = some (f i j) := by
  have hn : 0 < n := by omega
  have hlt : n * i + j < m * n :=
    calc n * i + j < n * i + n := by omega
      _ = (i + 1) * n := by ring
      _ ≤ m * n := Nat.mul_le_mul_right n hi
  simp [flat, List.getElem?_range hlt, Nat.mul_add_div hn, Nat.div_eq_of_lt hj, Nat.mod_eq_of_lt hj]

theorem mem_flat {α : Type} {m n : Nat} {f : Nat → Nat → α} {x : α} : x ∈ flat m n f ↔ ∃ i j, i < m ∧ j < n ∧ f i j = x := by
  constructor
  · intro hx
    obtain ⟨k, hk, rfl⟩ := List.mem_map.mp hx
    have hk := List.mem_range.mp hk
    have hn : 0 < n := Nat.pos_of_ne_zero (by rintro rfl; simp at hk)
    exact ⟨k / n, k % n, Nat.div_lt_of_lt_mul (by rwa [Nat.mul_comm]), Nat.mod_lt k hn, rfl⟩
  · rintro ⟨i, j, hi, hj, rfl⟩
    exact List.mem_of_getElem? (flat_getElem? f hi hj)

theorem flatten_grid {α : Type} (m n : Nat) (f : Nat → Nat → α) : (grid m n f).flatten = flat m n f := by
  induction m with
  | zero => simp [grid, flat]
  | succ m ih =>
    have hrow : (List.range n).map (f m) = (List.range n).map fun j => f ((m * n + j) / n) ((m * n + j) % n) := by
      refine List.map_congr_left fun j hj => ?_
      have hj := List.mem_range.mp hj
      rw [Nat.mul_comm m n, Nat.mul_add_div (by omega), Nat.mul_add_mod, Nat.div_eq_of_lt hj, Nat.mod_eq_of_lt hj, Nat.add_zero]
    have hsnoc : grid (m + 1) n f = grid m n f ++ [(List.range n).map (f m)] := by simp [grid, List.range_succ]
    rw [hsnoc, List.flatten_append, ih, List.flatten_singleton, hrow]
    simp [flat, Nat.succ_mul, List.range_add, Function.comp_def]

/-- A list as long as a grid, as its elements. -/
theorem eq_flat {α : Type} {m n : Nat} (d : α) {l : List α} (hl : l.length = m * n) :
    l = flat m n fun r c => (l[n * r + c]?).getD d := by
  refine List.ext_getElem (by simp [flat, hl]) fun k hk _ => ?_
  simp [flat, Nat.div_add_mod, hk]

theorem zipWith_flat {α β γ : Type} (m n : Nat) (h : α → β → γ) (f : Nat → Nat → α) (g : Nat → Nat → β) :
    List.zipWith h (flat m n f) (flat m n g) = flat m n fun r c => h (f r c) (g r c) := by
  simp [flat, List.zipWith_map, List.zipWith_self]

theorem map_flat {α β : Type} (m n : Nat) (h : α → β) (f : Nat → Nat → α) : (flat m n f).map h = flat m n fun r c => h (f r c) := by
  simp [flat, Function.comp_def]

theorem map_map_grid {α β : Type} (m n : Nat) (h : α → β) (f : Nat → Nat → α) :
    (grid m n f).map (fun row => row.map h) = grid m n fun r c => h (f r c) := by
  simp [grid, Function.comp_def]

theorem zipIdx_map_range {α : Type} (n : Nat) (f : Nat → α) : ((List.range n).map f).zipIdx = (List.range n).map fun i => (f i, i) := by
  refine List.ext_getElem (by simp) fun i _ _ => ?_
  simp

theorem map_zipIdx_grid {α β : Type} (m n : Nat) (h : Nat → Nat → α → β) (f : Nat → Nat → α) :
    (grid m n f).zipIdx.map (fun row => row.1.zipIdx.map fun e => h row.2 e.2 e.1) = grid m n fun r c => h r c (f r c) := by
  simp [grid, zipIdx_map_range, Function.comp_def]

/-- Each row of one grid with each row of another. -/
theorem flatMap_grid {α β γ : Type} (m n k : Nat) (h : List α → List β → γ) (f : Nat → Nat → α) (g : Nat → Nat → β) :
    (grid m k f).flatMap (fun row => (grid n k g).map fun col => h row col) =
      flat m n fun i j => h ((List.range k).map (f i)) ((List.range k).map (g j)) := by
  rw [← flatten_grid, List.flatMap_def]
  simp [grid, Function.comp_def]

/-! ### The model's rows and columns as grids -/

theorem chunks_eq_grid {α : Type} (d : α) (n k : Nat) {l : List α} (hl : l.length = k * n) :
    chunks n k l = grid k n fun r c => (l[n * r + c]?).getD d := by
  induction k generalizing l with
  | zero => simp [chunks, grid]
  | succ k ih =>
    have hlen : l.length = n + k * n := by rw [hl]; ring
    have hhead : l.take n = (List.range n).map fun c => (l[c]?).getD d := by
      refine List.ext_getElem (by simp [hlen]) fun c hc _ => ?_
      have hc : c < l.length := by simp at hc; omega
      simp [hc]
    have hindex : ∀ r c, n + (n * r + c) = n * (r + 1) + c := fun r c => by ring
    have htail : chunks n k (l.drop n) = grid k n fun r c => (l[n * (r + 1) + c]?).getD d := by
      rw [ih (by simp [hlen])]
      simp only [List.getElem?_drop, hindex]
    rw [chunks, hhead, htail]
    simp [grid, List.range_succ_eq_map, Function.comp_def]

theorem columns_grid {α : Type} (d : α) (m : Nat) (f : Nat → Nat → α) : columns d (grid m 128 f) = grid 128 m fun j r => f r j := by
  refine List.map_congr_left fun j hj => ?_
  have hj := List.mem_range.mp hj
  simp [grid, Function.comp_def, List.getElem?_range hj]

theorem tileElems_eq_flat {l : List W32} (hl : l.length = 16384) : tileElems l = flat 128 128 fun r c => (l[128 * r + c]?).getD 0 := by
  have hne : ¬ l.isEmpty = true := by
    rw [List.isEmpty_iff_length_eq_zero, hl]
    decide
  rw [tileElems, if_neg hne]
  exact eq_flat 0 hl

/-- Element (r, c) of an operand's bits. -/
def bitsAt (st : Stage) (r c : Nat) : Nat := ((st.elems[128 * r + c]?).getD 0).toNat

/-- The value of element (r, c) of a floating-point operand, without its scale or with it (R106). -/
def valueAt (f : FFmt) (st : Stage) (sc : Option Stage) (r c : Nat) : Ex :=
  match sc with
  | some t => exMul (scaleAt t r c) (decodeF f (bitsAt st r c))
  | none => decodeF f (bitsAt st r c)

theorem intRows_eq_grid (code : Nat) {st : Stage} (h : st.elems.length = 16384) :
    intRows code st = grid 128 128 fun r c => intVal 8 (code == 4) (bitsAt st r c) := by
  rw [intRows, chunks_eq_grid 0 128 128 h, map_map_grid]
  rfl

theorem scaledRows_eq_grid {code : Nat} {f : FFmt} {st : Stage} (sc : Option Stage) (hf : matFmt code = .flt f)
    (h : st.elems.length = 16384) : scaledRows code st sc = grid 128 128 (valueAt f st sc) := by
  rw [scaledRows, chunks_eq_grid 0 128 128 h]
  simp only [hf]
  exact map_zipIdx_grid 128 128 (fun r c (e : W32) => match sc with
    | some t => exMul (scaleAt t r c) (decodeF f e.toNat)
    | none => decodeF f e.toNat) _

/-! ## The elements of a step -/

/-- The exact integer sum of element (i, j) (R105). -/
def intSumAt (fmt : W32) (a b : Stage) (acc : List W32) (i j : Nat) : Int :=
  ((acc[128 * i + j]?).getD 0).toInt +
    ((List.range 128).map fun k => intVal 8 (aCode fmt == 4) (bitsAt a i k) * intVal 8 (bCode fmt == 4) (bitsAt b k j)).sum

/-- Whether an integer is outside the INT32 range. -/
def outsideInt32 (v : Int) : Bool := decide (v < intMin 32 true) || decide (intMax 32 true < v)

theorem outsideInt32_iff (v : Int) : outsideInt32 v = true ↔ v < -(2 ^ 31) ∨ 2 ^ 31 ≤ v := by
  have hmax : 2 ^ 31 - 1 < v ↔ 2 ^ 31 ≤ v := by omega
  simpa [outsideInt32, intMin, intMax] using or_congr_right hmax

/-- The element (i, j) of a floating-point step: one rounding of the accumulator plus the products (R113). -/
def fltAt (fmt : W32) (f g : FFmt) (a b : Stage) (sa sb : Option Stage) (acc : List W32) (i j : Nat) : W32 :=
  BitVec.ofNat 32 (roundF fp32 (rmOf fmt) (satOf fmt) (exSum (decodeF fp32 ((acc[128 * i + j]?).getD 0).toNat ::
    (List.range 128).map fun k => exMul (valueAt f a sa i k) (valueAt g b sb k j)) (rmOf fmt)))

section
variable {fmt : W32} {a b : Stage} {sa sb : Option Stage} {acc : List W32}

theorem stepElems_int (hint : accCode fmt = 1) (ha : a.elems.length = 16384) (hb : b.elems.length = 16384) (hacc : acc.length = 16384) :
    stepElems fmt a b sa sb acc = (flat 128 128 fun i j => BitVec.ofInt 32 (intSumAt fmt a b acc i j),
      (flat 128 128 (intSumAt fmt a b acc)).any outsideInt32) := by
  simp only [stepElems, if_pos hint, intRows_eq_grid _ ha, intRows_eq_grid _ hb, columns_grid, flatMap_grid, tileElems_eq_flat hacc, zipWith_flat,
    map_flat, List.zipWith_map, List.zipWith_self, ← List.sum_eq_foldl]
  rfl

theorem stepElems_int_fst (hint : accCode fmt = 1) (ha : a.elems.length = 16384) (hb : b.elems.length = 16384) (hacc : acc.length = 16384) :
    (stepElems fmt a b sa sb acc).1 = flat 128 128 fun i j => BitVec.ofInt 32 (intSumAt fmt a b acc i j) := by
  rw [stepElems_int hint ha hb hacc]

theorem stepElems_flt_fst {f g : FFmt} (hflt : accCode fmt ≠ 1) (hf : matFmt (aCode fmt) = .flt f) (hg : matFmt (bCode fmt) = .flt g)
    (ha : a.elems.length = 16384) (hb : b.elems.length = 16384) (hacc : acc.length = 16384) :
    (stepElems fmt a b sa sb acc).1 = flat 128 128 (fltAt fmt f g a b sa sb acc) := by
  simp only [stepElems, if_neg hflt, scaledRows_eq_grid sa hf ha, scaledRows_eq_grid sb hg hb, columns_grid, flatMap_grid, tileElems_eq_flat hacc,
    zipWith_flat, List.zipWith_map, List.zipWith_self]
  rfl

theorem stepElems_flt_snd (hflt : accCode fmt ≠ 1) : (stepElems fmt a b sa sb acc).2 = false := by
  rw [stepElems, if_neg hflt]

/-- The overflow of an integer step (R105). -/
theorem stepElems_int_snd_iff (hint : accCode fmt = 1) (ha : a.elems.length = 16384) (hb : b.elems.length = 16384) (hacc : acc.length = 16384) :
    (stepElems fmt a b sa sb acc).2 = true ↔
      ∃ r c, r < 128 ∧ c < 128 ∧ (intSumAt fmt a b acc r c < -(2 ^ 31) ∨ 2 ^ 31 ≤ intSumAt fmt a b acc r c) := by
  rw [stepElems_int hint ha hb hacc, List.any_eq_true]
  simp only [mem_flat, outsideInt32_iff]
  constructor
  · rintro ⟨_, ⟨r, c, hr, hc, rfl⟩, hout⟩
    exact ⟨r, c, hr, hc, hout⟩
  · rintro ⟨r, c, hr, hc, hout⟩
    exact ⟨_, ⟨r, c, hr, hc, rfl⟩, hout⟩

end

/-- Settles O31: the elements of a step are read off its grid, and the terms of a sum commute. -/
theorem matrixStepsAreExactAndOrderFree : Obligations.MatrixStepsAreExactAndOrderFree := by
  unfold Obligations.MatrixStepsAreExactAndOrderFree
  constructor
  · intro fmt a b acc i j hi hj ha hb hacc x y z sum
    have hsum : sum = intSumAt fmt a b acc := rfl
    refine ⟨fun f g hflt hf hg => ?_, fun sa sb f g hflt hf hg => ?_, fun hint => ⟨?_, fun hout => ?_, fun hin => ?_⟩,
      stepElems_flt_snd⟩
    · rw [stepElems_flt_fst hflt hf hg ha hb hacc]
      exact flat_getElem? (fltAt fmt f g a b none none acc) hi hj
    · rw [stepElems_flt_fst hflt hf hg ha hb hacc]
      exact flat_getElem? (fltAt fmt f g a b (some sa) (some sb) acc) hi hj
    · rw [stepElems_int_fst hint ha hb hacc, hsum]
      exact flat_getElem? (fun i j => BitVec.ofInt 32 (intSumAt fmt a b acc i j)) hi hj
    · exact (stepElems_int_snd_iff hint ha hb hacc).mpr ⟨i, j, hi, hj, hout⟩
    · rw [Bool.eq_false_iff]
      intro htrue
      obtain ⟨r, c, hr, hcol, hout⟩ := (stepElems_int_snd_iff hint ha hb hacc).mp htrue
      have hrange := hin r c hr hcol
      rw [hsum] at hrange
      omega
  · intro l m rm hperm hdyadic
    exact exSum_perm hperm hdyadic rm

end Sys2Proof.MatrixSteps

/-! SUPPORT. Counts of bits and elements as integers: what the scalar and the vector operations of spec/08 have in common. -/

namespace Sys2Proof.Values

open Sys2Proof Sys2Proof.Machine

/-! ## Counts of bits (R166, R200, R202) -/

theorem clzNat_le (w x : Nat) : clzNat w x ≤ w := by
  unfold clzNat
  split <;> omega

theorem sub_clzNat {w x : Nat} (hx : x ≠ 0) (h : x < 2 ^ w) : w - clzNat w x = Nat.log2 x + 1 := by
  have hlog : Nat.log2 x < w := (Nat.log2_lt hx).mpr h
  rw [clzNat, if_neg hx]
  omega

theorem lt_two_pow_sub_clzNat {w x : Nat} (h : x < 2 ^ w) : x < 2 ^ (w - clzNat w x) := by
  by_cases hx : x = 0
  · simp [hx]
  · rw [sub_clzNat hx h]
    exact Nat.lt_log2_self

theorem two_pow_le_of_clzNat_lt {w x : Nat} (h : x < 2 ^ w) (hlt : clzNat w x < w) : 2 ^ (w - 1 - clzNat w x) ≤ x := by
  have hx : x ≠ 0 := by
    rintro rfl
    simp [clzNat] at hlt
  have hlog : w - 1 - clzNat w x = Nat.log2 x := by
    have := sub_clzNat hx h
    omega
  rw [hlog]
  exact Nat.log2_self_le hx

theorem ctzNat_le (x n : Nat) : ctzNat x n ≤ n := by
  induction n generalizing x with
  | zero => simp [ctzNat]
  | succ n ih =>
    have := ih (x / 2)
    unfold ctzNat
    split <;> omega

theorem two_pow_ctzNat_dvd (x n : Nat) : 2 ^ ctzNat x n ∣ x := by
  induction n generalizing x with
  | zero => simp [ctzNat]
  | succ n ih =>
    unfold ctzNat
    split
    · simp
    · next heven =>
      have hx : x = 2 * (x / 2) := by omega
      rw [hx, Nat.add_comm, Nat.pow_succ', Nat.mul_div_cancel_left _ two_pos]
      exact Nat.mul_dvd_mul_left 2 (ih (x / 2))

theorem testBit_ctzNat {x n : Nat} (h : ctzNat x n < n) : x.testBit (ctzNat x n) = true := by
  induction n generalizing x with
  | zero => simp at h
  | succ n ih =>
    unfold ctzNat at h ⊢
    split
    · next hodd => simpa using hodd
    · next heven =>
      rw [if_neg heven] at h
      rw [Nat.add_comm, Nat.testBit_succ]
      exact ih (by omega)

/-- The one bits of a number: its lowest bit, and those of its half one place higher. -/
theorem filter_testBit_range_succ (x n : Nat) : (List.range (n + 1)).filter x.testBit =
    (if x % 2 = 1 then [0] else []) ++ ((List.range n).filter (x / 2).testBit).map Nat.succ := by
  rw [List.range_succ_eq_map, List.filter_cons, List.filter_map]
  have hhalf : x.testBit ∘ Nat.succ = (x / 2).testBit := funext fun i => Nat.testBit_succ x i
  rw [hhalf]
  by_cases hodd : x % 2 = 1 <;> simp [hodd]

theorem popNat_eq_length (x n : Nat) : popNat x n = ((List.range n).filter x.testBit).length := by
  induction n generalizing x with
  | zero => rfl
  | succ n ih =>
    rw [popNat, ih, filter_testBit_range_succ, List.length_append, List.length_map]
    rcases Nat.mod_two_eq_zero_or_one x with h | h <;> simp [h]

theorem ctzNat_eq_headD (x n : Nat) : ctzNat x n = ((List.range n).filter x.testBit).headD n := by
  induction n generalizing x with
  | zero => rfl
  | succ n ih =>
    rw [ctzNat, ih, filter_testBit_range_succ]
    split
    · rfl
    · cases (List.range n).filter (x / 2).testBit <;> simp [Nat.add_comm]

theorem ctzNat_zero (n : Nat) : ctzNat 0 n = n := by
  induction n with
  | zero => rfl
  | succ n ih => simp [ctzNat, ih, Nat.add_comm]

/-! ## Elements as integers (R182) -/

theorem elemAt_lt (x w i : Nat) : elemAt x w i < 2 ^ w := Nat.mod_lt _ (Nat.two_pow_pos w)

/-- Both readings of an element, signed and unsigned, agree modulo the element's width. -/
theorem intVal_modEq (w : Nat) (sg : Bool) (x : Nat) : intVal w sg x ≡ x [ZMOD 2 ^ w] := by
  have hmod : ((x % 2 ^ w : Nat) : Int) ≡ x [ZMOD 2 ^ w] := by
    rw [Int.natCast_mod, Nat.cast_pow, Nat.cast_ofNat]
    exact Int.mod_modEq _ _
  unfold intVal toInt
  split
  · split
    · exact hmod
    · exact (Int.modEq_sub_modulus_iff.mpr hmod.symm).symm
  · exact hmod

theorem ofInt_congr {w : Nat} {x y : Int} (h : x ≡ y [ZMOD 2 ^ w]) : ofInt w x = ofInt w y := congrArg Int.toNat h

/-- The high half of an unsigned product needs no wrapping (R187). -/
theorem ofInt_mul_div {w x y : Nat} (hx : x < 2 ^ w) (hy : y < 2 ^ w) : ofInt w ((x : Int) * y / 2 ^ w) = x * y / 2 ^ w := by
  have hlt : x * y / 2 ^ w < 2 ^ w := Nat.div_lt_of_lt_mul (Nat.mul_lt_mul'' hx hy)
  have hcast : (x : Int) * y / 2 ^ w % 2 ^ w = (x * y / 2 ^ w % 2 ^ w : Nat) := by push_cast; rfl
  rw [ofInt, hcast, Int.toNat_natCast, Nat.mod_eq_of_lt hlt]

theorem intVal_inj {w : Nat} {sg : Bool} {x y : Nat} (hx : x < 2 ^ w) (hy : y < 2 ^ w) : intVal w sg x = intVal w sg y ↔ x = y := by
  refine ⟨fun h => ?_, fun h => h ▸ rfl⟩
  have hmod : (x : Int) ≡ y [ZMOD (2 ^ w : Nat)] := by
    have := (intVal_modEq w sg x).symm.trans (h ▸ intVal_modEq w sg y)
    exact_mod_cast this
  exact Nat.ModEq.eq_of_lt_of_lt (Int.natCast_modEq_iff.mp hmod) hx hy

end Sys2Proof.Values

/-! SUPPORT. The S-R operations of spec/08 R166-R172: their values as numbers, and what a guarded operation writes: O1, O2. -/

namespace Sys2Proof.Scalars

open Sys2Proof Sys2Proof.Machine Sys2Proof.Laws Sys2Proof.Values

/-! ## Values as numbers (R166, R167) -/

theorem eq_ofNat {w n : Nat} {v : BitVec w} (h : v.toNat = n) : v = BitVec.ofNat w n := by
  rw [← h, BitVec.ofNat_toNat, BitVec.setWidth_eq]

theorem eq_ofInt {w : Nat} {z : Int} {v : BitVec w} (h : v.toInt = z) : v = BitVec.ofInt w z := by
  rw [← h, BitVec.ofInt_toInt]

theorem add_eq_ofNat (a b : W64) : a + b = BitVec.ofNat 64 (a.toNat + b.toNat) := by
  rw [BitVec.ofNat_add, BitVec.ofNat_toNat, BitVec.ofNat_toNat, BitVec.setWidth_eq, BitVec.setWidth_eq]

theorem mul_eq_ofNat (a b : W64) : a * b = BitVec.ofNat 64 (a.toNat * b.toNat) := by
  rw [BitVec.ofNat_mul, BitVec.ofNat_toNat, BitVec.ofNat_toNat, BitVec.setWidth_eq, BitVec.setWidth_eq]

/-- Subtracting a number, which may be larger than any 64-bit value (R166, R170). -/
theorem sub_ofNat_eq_ofInt (a : W64) (n : Nat) : a - BitVec.ofNat 64 n = BitVec.ofInt 64 ((a.toNat : Int) - n) := by
  rw [Int.sub_eq_add_neg, BitVec.ofInt_add, BitVec.ofInt_neg, BitVec.ofInt_natCast, BitVec.ofInt_natCast, BitVec.ofNat_toNat,
    BitVec.setWidth_eq, BitVec.sub_eq_add_neg]

theorem sub_eq_ofInt (a b : W64) : a - b = BitVec.ofInt 64 ((a.toNat : Int) - b.toNat) := by
  rw [← sub_ofNat_eq_ofInt, BitVec.ofNat_toNat, BitVec.setWidth_eq]

theorem extractHigh_ofInt (z : Int) : (BitVec.ofInt 128 z).extractLsb' 64 64 = BitVec.ofInt 64 (z / 2 ^ 64) := by
  refine BitVec.eq_of_toNat_eq ?_
  simp only [BitVec.extractLsb'_toNat, BitVec.toNat_ofInt, Nat.shiftRight_eq_div_pow]
  omega

theorem mulHigh_eq (a b : W64) : mulHigh a b = BitVec.ofInt 64 (a.toInt * b.toInt / 2 ^ 64) := by
  rw [mulHigh, BitVec.signExtend, BitVec.signExtend, ← BitVec.ofInt_mul, extractHigh_ofInt]

theorem mulHighU_eq (a b : W64) : mulHighU a b = BitVec.ofNat 64 (a.toNat * b.toNat / 2 ^ 64) := by
  have hlt : a.toNat * b.toNat < 2 ^ 64 * 2 ^ 64 := Nat.mul_lt_mul'' a.isLt b.isLt
  refine BitVec.eq_of_toNat_eq ?_
  rw [mulHighU, ← BitVec.ofNat_toNat 128 a, ← BitVec.ofNat_toNat 128 b, ← BitVec.ofNat_mul]
  simp only [BitVec.extractLsb'_toNat, BitVec.toNat_ofNat, Nat.shiftRight_eq_div_pow]
  omega

theorem sdiv_eq_ofInt (a b : W64) : a.sdiv b = BitVec.ofInt 64 (a.toInt.tdiv b.toInt) :=
  BitVec.eq_of_toInt_eq (by rw [BitVec.toInt_sdiv, BitVec.toInt_ofInt])

theorem divS_eq (a b : W64) : divS a b = if b = 0 then BitVec.allOnes 64 else BitVec.ofInt 64 (a.toInt.tdiv b.toInt) := by
  rw [divS, sdiv_eq_ofInt]

theorem divU_eq (a b : W64) : divU a b = if b = 0 then BitVec.allOnes 64 else BitVec.ofNat 64 (a.toNat / b.toNat) := by
  rw [divU, BitVec.udiv_eq, eq_ofNat (BitVec.toNat_udiv (x := a) (y := b))]

theorem remS_eq (a b : W64) : remS a b = if b = 0 then a else BitVec.ofInt 64 (a.toInt.tmod b.toInt) := by
  rw [remS, eq_ofInt (BitVec.toInt_srem a b)]

theorem remU_eq (a b : W64) : remU a b = if b = 0 then a else BitVec.ofNat 64 (a.toNat % b.toNat) := by
  rw [remU, BitVec.umod_eq, eq_ofNat (BitVec.toNat_umod (x := a) (y := b))]

theorem shiftLeft_eq_ofNat (a : W64) (n : Nat) : a <<< n = BitVec.ofNat 64 (a.toNat * 2 ^ n) :=
  BitVec.eq_of_toNat_eq (by rw [BitVec.toNat_shiftLeft, BitVec.toNat_ofNat, Nat.shiftLeft_eq])

theorem ushiftRight_eq_ofNat (a : W64) (n : Nat) : a >>> n = BitVec.ofNat 64 (a.toNat / 2 ^ n) :=
  eq_ofNat (by rw [BitVec.toNat_ushiftRight, Nat.shiftRight_eq_div_pow])

theorem sshiftRight_eq_ofInt (a : W64) (n : Nat) : a.sshiftRight n = BitVec.ofInt 64 (a.toInt / 2 ^ n) :=
  eq_ofInt (by rw [BitVec.toInt_sshiftRight, Int.shiftRight_eq_div_pow, Nat.cast_pow, Nat.cast_ofNat])

/-- A rotation: the low bits move to the top, where the shifted value has zeros. -/
theorem rotateRight_eq_ofNat (a : W64) {n : Nat} (hn : n < 64) :
    a.rotateRight n = BitVec.ofNat 64 (a.toNat / 2 ^ n + a.toNat % 2 ^ n * 2 ^ (64 - n)) := by
  have hsplit : 2 ^ 64 = 2 ^ n * 2 ^ (64 - n) := by
    rw [← Nat.pow_add]
    congr 1
    omega
  have hlow : a.toNat / 2 ^ n < 2 ^ (64 - n) := Nat.div_lt_of_lt_mul (hsplit ▸ a.isLt)
  have htop : a.toNat <<< (64 - n) % 2 ^ 64 = (a.toNat % 2 ^ n) <<< (64 - n) := by
    rw [Nat.shiftLeft_eq, Nat.shiftLeft_eq, hsplit, Nat.mul_mod_mul_right]
  refine eq_ofNat ?_
  rw [BitVec.toNat_rotateRight, Nat.mod_eq_of_lt hn, htop, Nat.shiftRight_eq_div_pow, Nat.or_comm, ← Nat.shiftLeft_add_eq_or_of_lt hlow,
    Nat.shiftLeft_eq, Nat.add_comm]

theorem selectMin_eq (a b : W64) : (if a.slt b then a else b) = BitVec.ofInt 64 (min a.toInt b.toInt) :=
  eq_ofInt (by simp only [BitVec.slt_eq_decide, decide_eq_true_eq, apply_ite BitVec.toInt, min_def_lt])

theorem selectMax_eq (a b : W64) : (if a.slt b then b else a) = BitVec.ofInt 64 (max a.toInt b.toInt) :=
  eq_ofInt (by simp only [BitVec.slt_eq_decide, decide_eq_true_eq, apply_ite BitVec.toInt, max_def_lt])

theorem selectMinu_eq (a b : W64) : (if a.ult b then a else b) = BitVec.ofNat 64 (min a.toNat b.toNat) :=
  eq_ofNat (by simp only [BitVec.ult_eq_decide, decide_eq_true_eq, apply_ite BitVec.toNat, min_def_lt])

theorem selectMaxu_eq (a b : W64) : (if a.ult b then b else a) = BitVec.ofNat 64 (max a.toNat b.toNat) :=
  eq_ofNat (by simp only [BitVec.ult_eq_decide, decide_eq_true_eq, apply_ite BitVec.toNat, max_def_lt])

/-- The top bit of a field tells its sign. -/
theorem toInt_eq_ite_testBit {w : Nat} (hw : 0 < w) (x : Nat) :
    toInt w x = if x.testBit (w - 1) then ((x % 2 ^ w : Nat) : Int) - 2 ^ w else ((x % 2 ^ w : Nat) : Int) := by
  obtain ⟨m, rfl⟩ := Nat.exists_eq_add_one.mpr hw
  have hmod : x % 2 ^ (m + 1) = x % 2 ^ m + 2 ^ m * (x / 2 ^ m % 2) := Nat.mod_pow_succ
  have hlow : x % 2 ^ m < 2 ^ m := Nat.mod_lt _ (Nat.two_pow_pos m)
  have hpow : 2 ^ (m + 1) = 2 * 2 ^ m := Nat.pow_succ'
  have hneg : 2 * (x % 2 ^ (m + 1)) < 2 ^ (m + 1) ↔ ¬ x.testBit m = true := by
    rw [Nat.testBit_eq_decide_div_mod_eq, decide_eq_true_iff, hmod, hpow]
    rcases Nat.mod_two_eq_zero_or_one (x / 2 ^ m) with h | h <;> (rw [h]; omega)
  simp only [toInt, hneg, ite_not, Nat.add_sub_cancel]

theorem sextLow_eq {w : Nat} (hw : 0 < w) (a : W64) :
    sextLow w a = if a.getLsbD (w - 1) then BitVec.ofInt 64 ((a.toNat % 2 ^ w : Nat) - 2 ^ w) else BitVec.ofNat 64 (a.toNat % 2 ^ w) := by
  rw [sextLow, toInt_eq_ite_testBit hw, BitVec.testBit_toNat, apply_ite (BitVec.ofInt 64), BitVec.ofInt_natCast]

/-! ## Forms whose guard holds (R165, R171, R172) -/

theorem sBinary_puts {o : SROp} {s : State} {bound : Nat} {f : W64 → W64 → W64} {v : W64} (h : guardOn s o.g = true)
    (hv : f (seeS s (isY o.u) o.a) (seeS s (isY o.u) o.b) = v) : sBinary o bound f s = .next (emit s bound [landS (isY o.u) o.d v]) := by
  rw [sBinary, guarded_on h, hv]

theorem sUnary_puts {o : SROp} {s : State} {f : W64 → W64} {v : W64} (h : guardOn s o.g = true)
    (hv : f (seeS s (isY o.u) o.a) = v) : sUnary o f s = .next (emit s 1 [landS (isY o.u) o.d v]) := by
  rw [sUnary, guarded_on h, hv]

theorem sCompare_puts {o : SROp} {s : State} {p : W64 → W64 → Bool} {c : Bool} (h : guardOn s o.g = true)
    (hc : p (seeS s (isY o.u) o.a) (seeS s (isY o.u) o.b) = c) :
    sCompare o p s = .next (emit s 1 [.q (2 * o.d.toNat) c, .q (2 * o.d.toNat + 1) (!c)]) := by
  rw [sCompare, guarded_on h, hc, pairLands]

theorem sPred_puts {o : SROp} {s : State} {p : Bool → Bool → Bool} (h : guardOn s o.g = true) :
    let c := p (seeQ s (me s) o.a.toNat) (seeQ s (me s) o.b.toNat)
    sPred o p s = .next (emit s 1 [.q (2 * o.d.toNat) c, .q (2 * o.d.toNat + 1) (!c)]) :=
  guarded_on h

/-- Settles O1: each operation writes its value, and the values are those of the stated arithmetic. -/
theorem scalarOperations : Obligations.ScalarOperations := by
  unfold Obligations.ScalarOperations
  refine ⟨?arithmetic, ?logic, ?oneOperand⟩
  case arithmetic =>
    intro o s h a b put
    exact ⟨show execAdd o s = _ from sBinary_puts h (add_eq_ofNat a b), show execSub o s = _ from sBinary_puts h (sub_eq_ofInt a b),
      show execMul o s = _ from sBinary_puts h (mul_eq_ofNat a b), show execMulh o s = _ from sBinary_puts h (mulHigh_eq a b),
      show execMulhu o s = _ from sBinary_puts h (mulHighU_eq a b), show execDiv o s = _ from sBinary_puts h (divS_eq a b),
      show execDivu o s = _ from sBinary_puts h (divU_eq a b), show execRem o s = _ from sBinary_puts h (remS_eq a b),
      show execRemu o s = _ from sBinary_puts h (remU_eq a b)⟩
  case logic =>
    intro o s h a b n put
    have hn : n < 64 := Nat.mod_lt _ (by decide)
    exact ⟨show execAnd o s = _ from sBinary_puts h rfl, show execOr o s = _ from sBinary_puts h rfl,
      show execXor o s = _ from sBinary_puts h rfl, show execAndn o s = _ from sBinary_puts h rfl,
      show execShl o s = _ from sBinary_puts h (shiftLeft_eq_ofNat a n), show execShr o s = _ from sBinary_puts h (ushiftRight_eq_ofNat a n),
      show execSar o s = _ from sBinary_puts h (sshiftRight_eq_ofInt a n), show execRor o s = _ from sBinary_puts h (rotateRight_eq_ofNat a hn),
      show execMin o s = _ from sBinary_puts h (selectMin_eq a b), show execMax o s = _ from sBinary_puts h (selectMax_eq a b),
      show execMinu o s = _ from sBinary_puts h (selectMinu_eq a b), show execMaxu o s = _ from sBinary_puts h (selectMaxu_eq a b)⟩
  case oneOperand =>
    intro o s h a w put
    have hw : 0 < w := Nat.mul_pos (by decide) (Nat.two_pow_pos _)
    exact ⟨⟨clzNat 64 a.toNat, clzNat_le _ _, lt_two_pow_sub_clzNat a.isLt, two_pow_le_of_clzNat_lt a.isLt,
        show execClz o s = _ from sUnary_puts h rfl⟩,
      ⟨ctzNat a.toNat 64, ctzNat_le _ _, Nat.mod_eq_zero_of_dvd (two_pow_ctzNat_dvd _ _), testBit_ctzNat,
        show execCtz o s = _ from sUnary_puts h rfl⟩,
      show execPopc o s = _ from sUnary_puts h (congrArg (BitVec.ofNat 64) (popNat_eq_length a.toNat 64)),
      fun _ => show execZext o s = _ from sUnary_puts h rfl, fun _ => show execSext o s = _ from sUnary_puts h (sextLow_eq hw a)⟩

/-! ## Carries and equality (R170, R171) -/

theorem ofNat_mod_two_pow (w n : Nat) : BitVec.ofNat w (n % 2 ^ w) = BitVec.ofNat w n :=
  BitVec.eq_of_toNat_eq (by rw [BitVec.toNat_ofNat, BitVec.toNat_ofNat, Nat.mod_mod])

theorem beq_eq_decide_toNat (a b : W64) : (a == b) = decide (a.toNat = b.toNat) := by
  rw [beq_eq_decide, decide_eq_decide, BitVec.toNat_inj]

/-- Settles O2: the carry out is that of the exact sum or difference, and a pair takes its condition with the complement. -/
theorem carriesComparesAndPredicates : Obligations.CarriesComparesAndPredicates := by
  unfold Obligations.CarriesComparesAndPredicates
  constructor
  · intro o s a b c
    have hc : (seeQ s (me s) o.g.toNat).toNat = c := Bool.cond_eq_ite ..
    constructor
    · show execAddc o s = _
      rw [execAddc, addCarry, hc, ofNat_mod_two_pow]
      rfl
    · show execSubb o s = _
      rw [execSubb, subBorrow, hc, sub_ofNat_eq_ofInt]
      rfl
  · intro o s h a b p q put
    exact ⟨show execCmpeq o s = _ from sCompare_puts h (beq_eq_decide_toNat a b), show execCmplt o s = _ from sCompare_puts h BitVec.slt_eq_decide,
      show execCmpltu o s = _ from sCompare_puts h BitVec.ult_eq_decide, show execCmple o s = _ from sCompare_puts h BitVec.sle_eq_decide,
      show execCmpleu o s = _ from sCompare_puts h BitVec.ule_eq_decide, show execPand o s = _ from sPred_puts h,
      show execPor o s = _ from sPred_puts h, show execPxor o s = _ from sPred_puts h⟩

end Sys2Proof.Scalars

/-! SUPPORT. The vector operations of spec/08 R178-R190 and the masks of R200-R202: the forms of the V slots once
the type and the banks are at hand, and what they write: O5, O7, O8. -/

namespace Sys2Proof.Vectors

open Sys2Proof Sys2Proof.Machine Sys2Proof.Laws Sys2Proof.Values

/-! ## Types -/

theorem arithTypes_has_flt {f : FFmt} (hf : f ∈ [fp32, bf16, fp16]) : arithTypes.has (.flt f) = true := by
  revert f
  decide

theorem floatTypes_has_flt {f : FFmt} (hf : f ∈ [fp32, bf16, fp16]) : floatTypes.has (.flt f) = true := by
  revert f
  decide

theorem arithTypes_has_int (w : Nat) (sg : Bool) : arithTypes.has (.int w sg) = true := by cases sg <;> rfl

theorem intTypes_has_int (w : Nat) (sg : Bool) : intTypes.has (.int w sg) = true := by cases sg <;> rfl

theorem allTypes_has (t : ETy) : allTypes.has t = true := by
  cases t with
  | flt f => simp [allTypes, Types.has]
  | int w sg => cases sg <;> rfl

/-! ## Forms with their type and banks at hand -/

/-- An element-wise operation puts, at each enabled element, the value of its element function. -/
theorem vMap_puts {o : VOp} {s : State} {t : ETy} {bound : ETy → Nat} {ok : ETy → Bool} {f : ETy → W32 → Nat → Nat → Nat → Nat} {val : Nat → Nat}
    (h : VReady o s t []) (hok : ok t = true)
    (hval : ∀ e, f t (me s).sys.fmt (elemAt (vReg o s o.a) (etyBits t) e) (elemAt (vReg o s o.b) (etyBits t) e)
      (elemAt (vReg o s o.d) (etyBits t) e) = val e) :
    vMap o bound ok f s = vPut o s t (bound t) val := by
  obtain rfl := funext hval
  exact vOp_ready h.1 hok h.2

theorem vFused_puts_flt {o : VOp} {s : State} {f : FFmt} {fl : BitVec 2 → Ex → Ex → Ex → Ex} {ig : Int → Int → Int → Int}
    (hf : f ∈ [fp32, bf16, fp16]) (h : VReady o s (.flt f) []) :
    vFused o fl ig s = vPut o s (.flt f) 4 fun e => roundF f (rmOf (me s).sys.fmt) (satOf (me s).sys.fmt)
      (fl (rmOf (me s).sys.fmt) (decodeF f (elemAt (vReg o s o.a) (1 + f.e + f.m) e)) (decodeF f (elemAt (vReg o s o.b) (1 + f.e + f.m) e))
        (decodeF f (elemAt (vReg o s o.d) (1 + f.e + f.m) e))) :=
  vMap_puts h (arithTypes_has_flt hf) fun _ => rfl

/-- Integer arithmetic wraps, so that it may be read off the elements as unsigned numbers (R182). -/
theorem vFused_puts_int {o : VOp} {s : State} {w : Nat} {sg : Bool} {fl : BitVec 2 → Ex → Ex → Ex → Ex} {ig : Int → Int → Int → Int}
    {v : Nat → Int} (h : VReady o s (.int w sg) [])
    (hv : ∀ e, ig (intVal w sg (elemAt (vReg o s o.a) w e)) (intVal w sg (elemAt (vReg o s o.b) w e)) (intVal w sg (elemAt (vReg o s o.d) w e))
      ≡ v e [ZMOD 2 ^ w]) :
    vFused o fl ig s = vPut o s (.int w sg) 2 fun e => ofInt w (v e) :=
  vMap_puts h (arithTypes_has_int w sg) fun e => ofInt_congr (hv e)

/-- Settles O5: the element functions of the float operations are those stated; integer results agree modulo the element's width. -/
theorem vectorArithmetic : Obligations.VectorArithmetic := by
  unfold Obligations.VectorArithmetic
  constructor
  · intro o s f hf h fmt w x rnd sum
    have hflt := floatTypes_has_flt hf
    exact ⟨show execVadd o s = _ from vFused_puts_flt hf h, show execVsub o s = _ from vFused_puts_flt hf h,
      show execVmul o s = _ from vFused_puts_flt hf h, show execVfma o s = _ from vFused_puts_flt hf h,
      show execVfms o s = _ from vFused_puts_flt hf h, show execVfnma o s = _ from vFused_puts_flt hf h,
      show execVdiv o s = _ from vMap_puts h hflt fun _ => rfl, show execVsqrt o s = _ from vMap_puts h hflt fun _ => rfl⟩
  · intro o s w sg _ h x put
    have val : ∀ (r : BitVec 5) (e : Nat), intVal w sg (x r e) ≡ x r e [ZMOD 2 ^ w] := fun r e => intVal_modEq w sg (x r e)
    have mul : ∀ e, intVal w sg (x o.a e) * intVal w sg (x o.b e) ≡ x o.a e * x o.b e [ZMOD 2 ^ w] := fun e => (val o.a e).mul (val o.b e)
    have hint := intTypes_has_int w sg
    exact ⟨show execVadd o s = _ from vFused_puts_int h fun e => (val o.a e).add (val o.b e),
      show execVsub o s = _ from vFused_puts_int h fun e => (val o.a e).sub (val o.b e),
      show execVmul o s = _ from vFused_puts_int h mul,
      show execVfma o s = _ from vFused_puts_int h fun e => (mul e).add (val o.d e),
      show execVfms o s = _ from vFused_puts_int h fun e => (mul e).sub (val o.d e),
      show execVfnma o s = _ from vFused_puts_int h fun e => (val o.d e).sub (mul e),
      show execVmulhi o s = _ from vMap_puts h hint fun e => by simp [ofInt, etyBits, x],
      show execVmulhiu o s = _ from vMap_puts h hint fun e => (ofInt_mul_div (elemAt_lt _ w e) (elemAt_lt _ w e)).symm⟩

/-! ## Bits, carries and lanes (R185-R189, R200) -/

/-- A shift operation puts each element shifted by its count, or by the count of the b field, modulo the width (R186). -/
theorem vShiftOp_puts {o : VOp} {s : State} {w : Nat} {sg : Bool} {kind : Nat} {imm : Bool} {val : Nat → Nat} (h : VReady o s (.int w sg) [])
    (hval : ∀ e, vShift w kind (elemAt (vReg o s o.a) w e) ((if imm then o.b.toNat else elemAt (vReg o s o.b) w e) % w) = val e) :
    vShiftOp o kind imm s = vPut o s (.int w sg) 2 val :=
  vMap_puts h (intTypes_has_int w sg) hval

theorem vShift_signed (w x c : Nat) : vShift w 2 x c = (toInt w x / (2 ^ c : Int) % (2 ^ w : Int)).toNat := by simp [vShift, ofInt]

/-- A carry chain writes every element within the width, and the pair at G whatever it held (R188). -/
theorem vCarry_puts {o : VOp} {s : State} {w : Nat} {sg : Bool} {f : Nat → Nat → Nat → Nat → Nat × Bool} (h : VReady o s (.int w sg) []) :
    vCarry o f s =
      let r := fun e => f w (elemAt (vReg o s o.a) w e) (elemAt (vReg o s o.b) w e) (if enabledAt s o.g (e * (w / 8)) then 1 else 0)
      .next (emit s 2 (elemLand (vDest o s) (w / 8) (vBits o.w / w) (fun _ => true) (fun e => (r e).1) ::
        maskPairLands o.g.toNat (w / 8) (vBits o.w / w) (fun _ => true) (fun e => (r e).2))) :=
  vOp_ready h.1 (intTypes_has_int w sg) h.2

/-- The lanes of VMACW for integer elements of 8 or 16 bits (R189). -/
theorem execVmacw_int {o : VOp} {s : State} {w : Nat} {sg : Bool} (hw : w = 8 ∨ w = 16) (h : VReady o s (.int w sg) []) :
    execVmacw o s = .next (emit s 4 [elemLand (vDest o s) 4 (vBits o.w / 32) (fun e => enabledAt s o.g (4 * e)) fun e =>
      ofInt 32 ((elemAt (vReg o s o.d) 32 e : Int) + ((List.range (32 / w)).map fun j =>
        intVal w sg (elemAt (vReg o s o.a) w (e * (32 / w) + j)) * intVal w sg (elemAt (vReg o s o.b) w (e * (32 / w) + j))).sum)]) := by
  have hok : (etyBits (.int w sg) == 8 && intTypes.has (.int w sg) || etyBits (.int w sg) == 16) = true := by
    rcases hw with rfl | rfl <;> simp [etyBits, intTypes_has_int]
  rw [execVmacw, vOp_ready h.1 hok h.2]
  simp only [etyBits, List.map_map, Function.comp_def, add_comm]

/-- The lanes of VMACW for float elements of 16 bits, whose two products are summed with the lane and rounded once (R189). -/
theorem execVmacw_flt {o : VOp} {s : State} {f : FFmt} (hbits : etyBits (.flt f) = 16) (h : VReady o s (.flt f) []) :
    let term := fun e j => exMul (decodeF f (elemAt (vReg o s o.a) 16 (e * 2 + j))) (decodeF f (elemAt (vReg o s o.b) 16 (e * 2 + j)))
    execVmacw o s = .next (emit s 4 [elemLand (vDest o s) 4 (vBits o.w / 32) (fun e => enabledAt s o.g (4 * e)) fun e =>
      roundF fp32 (rmOf (me s).sys.fmt) (satOf (me s).sys.fmt)
        (exSum [decodeF fp32 (elemAt (vReg o s o.d) 32 e), term e 0, term e 1] (rmOf (me s).sys.fmt))]) := by
  have hok : (etyBits (.flt f) == 8 && intTypes.has (.flt f) || etyBits (.flt f) == 16) = true := by simp [hbits]
  rw [execVmacw, vOp_ready h.1 hok h.2]
  simp only [hbits]
  rfl

/-- Settles O7: each form writes what its element function gives; counts of bits are those of the scalar file. -/
theorem vectorBitsCarriesAndLanes : Obligations.VectorBitsCarriesAndLanes := by
  unfold Obligations.VectorBitsCarriesAndLanes
  refine ⟨⟨?bitwise, ?shifts⟩, ?carries, ?intLanes, ?floatLanes⟩
  case bitwise =>
    intro o s t ht h x put
    exact ⟨show execVand o s = _ from vMap_puts h ht fun _ => rfl, show execVor o s = _ from vMap_puts h ht fun _ => rfl,
      show execVxor o s = _ from vMap_puts h ht fun _ => rfl, show execVandn o s = _ from vMap_puts h ht fun _ => rfl⟩
  case shifts =>
    intro o s w sg _ h x n i put
    have hint := intTypes_has_int w sg
    have hlt : ∀ e, x o.a e < 2 ^ w := fun e => elemAt_lt _ w e
    exact ⟨show execVshl o s = _ from vShiftOp_puts h fun _ => rfl, show execVshr o s = _ from vShiftOp_puts h fun _ => rfl,
      show execVsar o s = _ from vShiftOp_puts h fun _ => vShift_signed .., show execVshli o s = _ from vShiftOp_puts h fun _ => rfl,
      show execVshri o s = _ from vShiftOp_puts h fun _ => rfl, show execVsari o s = _ from vShiftOp_puts h fun _ => vShift_signed ..,
      ⟨fun e => clzNat w (x o.a e), fun e => ⟨clzNat_le _ _, lt_two_pow_sub_clzNat (hlt e), two_pow_le_of_clzNat_lt (hlt e)⟩,
        show execVclz o s = _ from vMap_puts h hint fun _ => rfl⟩,
      show execVpopc o s = _ from vMap_puts h hint fun _ => popNat_eq_length ..⟩
  case carries =>
    intro o s w sg _ h sz n x c put
    exact ⟨show execVadc o s = _ from vCarry_puts h, show execVsbc o s = _ from vCarry_puts h⟩
  case intLanes =>
    intro o s w sg hw h r term
    have hw : w = 8 ∨ w = 16 := by simp at hw; omega
    exact execVmacw_int hw h
  case floatLanes =>
    intro o s f hf h fmt term
    have hbits : ∀ f ∈ [bf16, fp16], etyBits (.flt f) = 16 := by decide
    exact execVmacw_flt (hbits f hf) h

/-! ## Compares and masks (R190, R201, R202) -/

theorem vCompare_puts {o : VOp} {s : State} {t : ETy} {ok : ETy → Bool} {c : ETy → Nat → Nat → Bool} {val : Nat → Bool} (h : VReady o s t [])
    (hok : ok t = true) (hval : ∀ e, c t (elemAt (vReg o s o.a) (etyBits t) e) (elemAt (vReg o s o.b) (etyBits t) e) = val e) :
    vCompare o ok c s = vMask o s t val := by
  obtain rfl := funext hval
  exact vOp_ready h.1 hok h.2

theorem kOp_puts {o : VOp} {s : State} {t : ETy} {f : W128 → W128 → W128} (h : VReady o s t []) :
    kOp o f s = .next (emit s 2 [.k o.d.toNat (seeK s (me s) o.g.toNat &&& lowMask 128 (vBits o.w / 8))
      (f (seeK s (me s) o.a.toNat) (seeK s (me s) o.b.toNat))]) :=
  vOp_ready h.1 (allTypes_has t) h.2

theorem getLsbD_lowMask {m n i : Nat} (hn : n ≤ m) (hi : i < n) : (lowMask m n).getLsbD i = true := by
  simp only [lowMask, BitVec.getLsbD_ofNat, Nat.testBit_two_pow_sub_one, hi, Nat.lt_of_lt_of_le hi hn, decide_true, Bool.and_self]

/-- The mask bits that an operation counts: those of `k` that `g` keeps, within the width. -/
theorem filter_testBit_masked {n : Nat} (k g : W128) (hn : n ≤ 128) :
    (List.range n).filter (k &&& g &&& lowMask 128 n).toNat.testBit = (List.range n).filter fun i => k.getLsbD i && g.getLsbD i := by
  refine List.filter_congr fun i hi => ?_
  rw [BitVec.testBit_toNat, BitVec.getLsbD_and, BitVec.getLsbD_and, getLsbD_lowMask hn (List.mem_range.mp hi), Bool.and_true]

/-- A count that depends on the one bits within the width alone, as a list. -/
theorem kCount_puts {o : VOp} {s : State} {t : ETy} {f : Nat → Nat → Nat} {count : List Nat → Nat} (h : VReady o s t []) (hw : o.w ≠ 3)
    (hf : ∀ m, f (vBits o.w / 8) m = count ((List.range (vBits o.w / 8)).filter m.testBit)) :
    kCount o f s = .next (emit s 2 [.v (vDest o s) (lowMask 1024 (vBits o.w)) (BitVec.ofNat 1024 (count
      ((List.range (vBits o.w / 8)).filter fun i => (seeK s (me s) o.a.toNat).getLsbD i && (seeK s (me s) o.g.toNat).getLsbD i)))]) := by
  have hn : vBits o.w / 8 ≤ 128 := by
    have : ∀ w : BitVec 2, w ≠ 3 → vBits w / 8 ≤ 128 := by decide
    exact this o.w hw
  rw [← filter_testBit_masked _ _ hn, ← hf]
  exact vOp_ready h.1 (allTypes_has t) h.2

/-- Settles O8: each compare writes the mask pair of its relation, and the counts of a mask are read off the list of its one bits. -/
theorem vectorComparesAndMasks : Obligations.VectorComparesAndMasks := by
  unfold Obligations.VectorComparesAndMasks
  refine ⟨⟨?floats, ?integers⟩, ?masks⟩
  case floats =>
    intro o s f hf h w x k put
    have hflt := arithTypes_has_flt hf
    exact ⟨show execVcmpeq o s = _ from vCompare_puts h hflt fun _ => rfl, show execVcmplt o s = _ from vCompare_puts h hflt fun _ => rfl,
      show execVcmple o s = _ from vCompare_puts h hflt fun _ => rfl⟩
  case integers =>
    intro o s w sg _ h x v put
    have harith := arithTypes_has_int w sg
    have hint := intTypes_has_int w sg
    have hinj : ∀ e, v o.a e = v o.b e ↔ x o.a e = x o.b e := fun e => intVal_inj (elemAt_lt _ w e) (elemAt_lt _ w e)
    exact ⟨show execVcmpeq o s = _ from vCompare_puts h harith fun e => decide_eq_decide.mpr (hinj e),
      show execVcmplt o s = _ from vCompare_puts h harith fun _ => rfl, show execVcmple o s = _ from vCompare_puts h harith fun _ => rfl,
      show execVcmpltu o s = _ from vCompare_puts h hint fun _ => rfl, show execVcmpleu o s = _ from vCompare_puts h hint fun _ => rfl⟩
  case masks =>
    intro o s t h n k g put on count
    refine ⟨show execKand o s = _ from kOp_puts h, show execKor o s = _ from kOp_puts h, show execKxor o s = _ from kOp_puts h,
      show execKmov o s = _ from kOp_puts h, fun hw => ⟨?popc, ?first⟩⟩
    case popc => exact show execKpopc o s = _ from kCount_puts (count := List.length) h hw fun m => popNat_eq_length m n
    case first =>
      refine show execKfirst o s = _ from kCount_puts (count := fun l => l.headD n) h hw fun m => ?_
      split
      · next hzero => rw [hzero, ← ctzNat_eq_headD, ctzNat_zero]
      · exact ctzNat_eq_headD m n

end Sys2Proof.Vectors

/-! SUPPORT. The decoder and the encoder together (spec/03 R42, R46, spec/07 R149): every instruction through its own lemma of the family
Words, and the one layout of the micro-ops: O54. -/

namespace Sys2Proof.Encoding

open Sys2Proof Sys2Proof.Laws

/-! ## Slot words -/

/-- The word of each instruction names it, by the lemma of its constructor; micro-ops and events have no slot word. -/
theorem encodeWord_names (i : Instr) : Words.Statement i := by
  cases i with
  | add o => exact Words.add o | sub o => exact Words.sub o | mul o => exact Words.mul o | mulh o => exact Words.mulh o
  | mulhu o => exact Words.mulhu o | div o => exact Words.div o | divu o => exact Words.divu o | rem o => exact Words.rem o
  | remu o => exact Words.remu o | and o => exact Words.and o | or o => exact Words.or o | xor o => exact Words.xor o
  | andn o => exact Words.andn o | shl o => exact Words.shl o | shr o => exact Words.shr o | sar o => exact Words.sar o
  | ror o => exact Words.ror o | min o => exact Words.min o | max o => exact Words.max o | minu o => exact Words.minu o
  | maxu o => exact Words.maxu o | clz o => exact Words.clz o | ctz o => exact Words.ctz o | popc o => exact Words.popc o
  | sext o => exact Words.sext o | zext o => exact Words.zext o | addc o => exact Words.addc o | subb o => exact Words.subb o
  | cmpeq o => exact Words.cmpeq o | cmplt o => exact Words.cmplt o | cmpltu o => exact Words.cmpltu o | cmple o => exact Words.cmple o
  | cmpleu o => exact Words.cmpleu o | pand o => exact Words.pand o | por o => exact Words.por o | pxor o => exact Words.pxor o
  | movx o => exact Words.movx o | movp o => exact Words.movp o | movfp o => exact Words.movfp o | gset o => exact Words.gset o
  | gget o => exact Words.gget o | hset o => exact Words.hset o | hget o => exact Words.hget o | guard o => exact Words.guard o
  | rdvc o => exact Words.rdvc o | addi o => exact Words.addi o | andi o => exact Words.andi o | ori o => exact Words.ori o
  | xori o => exact Words.xori o | shli o => exact Words.shli o | shri o => exact Words.shri o | sari o => exact Words.sari o
  | rori o => exact Words.rori o | muli o => exact Words.muli o | cmpeqi o => exact Words.cmpeqi o | cmplti o => exact Words.cmplti o
  | cmpltui o => exact Words.cmpltui o | cmplei o => exact Words.cmplei o | cmpleui o => exact Words.cmpleui o
  | tokl o => exact Words.tokl o | movi o => exact Words.movi o | movsh o => exact Words.movsh o | vadd o => exact Words.vadd o
  | vsub o => exact Words.vsub o | vmul o => exact Words.vmul o | vfma o => exact Words.vfma o | vfms o => exact Words.vfms o
  | vfnma o => exact Words.vfnma o | vmin o => exact Words.vmin o | vmax o => exact Words.vmax o | vabs o => exact Words.vabs o
  | vneg o => exact Words.vneg o | vdiv o => exact Words.vdiv o | vsqrt o => exact Words.vsqrt o | vand o => exact Words.vand o
  | vor o => exact Words.vor o | vxor o => exact Words.vxor o | vandn o => exact Words.vandn o | vshl o => exact Words.vshl o
  | vshr o => exact Words.vshr o | vsar o => exact Words.vsar o | vshli o => exact Words.vshli o | vshri o => exact Words.vshri o
  | vsari o => exact Words.vsari o | vmulhi o => exact Words.vmulhi o | vmulhiu o => exact Words.vmulhiu o | vadc o => exact Words.vadc o
  | vsbc o => exact Words.vsbc o | vmacw o => exact Words.vmacw o | vcmpeq o => exact Words.vcmpeq o | vcmplt o => exact Words.vcmplt o
  | vcmple o => exact Words.vcmple o | vcmpltu o => exact Words.vcmpltu o | vcmpleu o => exact Words.vcmpleu o
  | vclass o => exact Words.vclass o | vsel o => exact Words.vsel o | vmov o => exact Words.vmov o | vmovx o => exact Words.vmovx o
  | vbcast o => exact Words.vbcast o | vext o => exact Words.vext o | vperm o => exact Words.vperm o | viota o => exact Words.viota o
  | vredadd o => exact Words.vredadd o | vredmax o => exact Words.vredmax o | vredmin o => exact Words.vredmin o
  | vcvt o => exact Words.vcvt o | vqnt o => exact Words.vqnt o | vdqnt o => exact Words.vdqnt o | vpack o => exact Words.vpack o
  | vunpk o => exact Words.vunpk o | vclz o => exact Words.vclz o | vpopc o => exact Words.vpopc o | vscan o => exact Words.vscan o
  | kand o => exact Words.kand o | kor o => exact Words.kor o | kxor o => exact Words.kxor o | kmov o => exact Words.kmov o
  | kpopc o => exact Words.kpopc o | kfirst o => exact Words.kfirst o | fexp2 o => exact Words.fexp2 o | flog2 o => exact Words.flog2 o
  | frcp o => exact Words.frcp o | frsq o => exact Words.frsq o | fsinpi o => exact Words.fsinpi o | fcospi o => exact Words.fcospi o
  | ftanh o => exact Words.ftanh o | fsigm o => exact Words.fsigm o | ferf o => exact Words.ferf o | frand o => exact Words.frand o
  | fmovx o => exact Words.fmovx o | dpt o => exact Words.dpt o | dfrom o => exact Words.dfrom o | dadd o => exact Words.dadd o
  | dsub o => exact Words.dsub o | dmul o => exact Words.dmul o | dmax o => exact Words.dmax o | dmin o => exact Words.dmin o
  | daff o => exact Words.daff o | dmap o => exact Words.dmap o | dtag o => exact Words.dtag o | dtags o => exact Words.dtags o
  | dcanon o => exact Words.dcanon o | dmom o => exact Words.dmom o | dqnt o => exact Words.dqnt o | dcdf o => exact Words.dcdf o
  | dmov o => exact Words.dmov o | dsupp o => exact Words.dsupp o | mcall o => exact Words.mcall o | mclr o => exact Words.mclr o
  | mstat o => exact Words.mstat o | msig o => exact Words.msig o | mabort o => exact Words.mabort o | mload o => exact Words.mload o
  | ldB o => exact Words.ldB o | ldBz o => exact Words.ldBz o | ldH o => exact Words.ldH o | ldHz o => exact Words.ldHz o
  | ldW o => exact Words.ldW o | ldWz o => exact Words.ldWz o | ldD o => exact Words.ldD o | ldQ o => exact Words.ldQ o
  | ldv256 o => exact Words.ldv256 o | ldv512 o => exact Words.ldv512 o | ldv1024 o => exact Words.ldv1024 o | ldk o => exact Words.ldk o
  | ldd o => exact Words.ldd o | ldxD o => exact Words.ldxD o | ldxW o => exact Words.ldxW o | stB o => exact Words.stB o
  | stH o => exact Words.stH o | stW o => exact Words.stW o | stD o => exact Words.stD o | stQ o => exact Words.stQ o
  | stv256 o => exact Words.stv256 o | stv512 o => exact Words.stv512 o | stv1024 o => exact Words.stv1024 o | stk o => exact Words.stk o
  | std o => exact Words.std o | stxD o => exact Words.stxD o | stxW o => exact Words.stxW o | vgather o => exact Words.vgather o
  | vscatter o => exact Words.vscatter o | ldaW o => exact Words.ldaW o | ldaD o => exact Words.ldaD o | stlW o => exact Words.stlW o
  | stlD o => exact Words.stlD o | fence o => exact Words.fence o | drain o => exact Words.drain o | pref o => exact Words.pref o
  | aaddW o => exact Words.aaddW o | aandW o => exact Words.aandW o | aorW o => exact Words.aorW o | axorW o => exact Words.axorW o
  | aminW o => exact Words.aminW o | amaxW o => exact Words.amaxW o | aminuW o => exact Words.aminuW o | amaxuW o => exact Words.amaxuW o
  | aswpW o => exact Words.aswpW o | acasW o => exact Words.acasW o | afaddW o => exact Words.afaddW o | aaddD o => exact Words.aaddD o
  | aandD o => exact Words.aandD o | aorD o => exact Words.aorD o | axorD o => exact Words.axorD o | aminD o => exact Words.aminD o
  | amaxD o => exact Words.amaxD o | aminuD o => exact Words.aminuD o | amaxuD o => exact Words.amaxuD o | aswpD o => exact Words.aswpD o
  | acasD o => exact Words.acasD o | oadd o => exact Words.oadd o | oswp o => exact Words.oswp o | ocas o => exact Words.ocas o
  | copy o => exact Words.copy o | copy2 o => exact Words.copy2 o | send o => exact Words.send o | fetch o => exact Words.fetch o
  | scopy o => exact Words.scopy o | coll o => exact Words.coll o | czero o => exact Words.czero o | cflush o => exact Words.cflush o
  | bprep o => exact Words.bprep o | bcall o => exact Words.bcall o | bprepx o => exact Words.bprepx o | bcallx o => exact Words.bcallx o
  | ret o => exact Words.ret o | loop o => exact Words.loop o | loopi o => exact Words.loopi o | trap o => exact Words.trap o
  | syscall o => exact Words.syscall o | eret o => exact Words.eret o | eretS o => exact Words.eretS o | twait o => exact Words.twait o
  | tpoll o => exact Words.tpoll o | waitwp o => exact Words.waitwp o | setfmt o => exact Words.setfmt o
  | setbank o => exact Words.setbank o | sync o => exact Words.sync o | mfs o => exact Words.mfs o | mts o => exact Words.mts o
  | ifence o => exact Words.ifence o | ovl o => exact Words.ovl o | launch o => exact Words.launch o | launchg o => exact Words.launchg o
  | shape o => exact Words.shape o | predict o => exact Words.predict o | alloc o => exact Words.alloc o | free o => exact Words.free o
  | yield o => exact Words.yield o | halt o => exact Words.halt o | evset o => exact Words.evset o
  | evsetClear o => exact Words.evsetClear o | evwait o => exact Words.evwait o
  | _ => exact nofun

/-- A word that names an instruction and is its encoding decodes to it. -/
theorem decode_encodeWord {i : Instr} {w : W32} (henc : encodeWord i = some w) (hwf : i.WF) : decode w = .ok i := by
  have hop : decodeOp w = .ok i := encodeWord_names i w henc hwf
  have hfields : Machine.fieldsOk i = true := hwf
  simp [decode, hop, henc, hfields]

/-- What a word decodes to has that word and keeps the reserved values out. -/
theorem encodeWord_of_decode {i : Instr} {w : W32} (h : decode w = .ok i) : encodeWord i = some w ∧ i.WF := by
  unfold decode at h
  split at h
  · cases h
  · next j _ =>
    split at h
    · next hcheck =>
      cases h
      exact (Bool.and_eq_true_iff.mp hcheck).imp_left of_decide_eq_true
    · cases h

/-! ## Micro-op words (R149, R150) -/

/-- The word of a micro-op with a given code. -/
def uopWord (code : BitVec 6) (o : UOp) : W64 := code ++ o.t ++ o.gA ++ o.gB ++ o.p ++ 0#14 ++ o.imm

/-- The fields of a micro-op as the decoder reads them off a word. -/
def uopFields (w : W64) : UOp := ⟨w.extractLsb' 55 3, w.extractLsb' 52 3, w.extractLsb' 49 3, w.extractLsb' 46 3, w.extractLsb' 0 32⟩

/-- A micro-op's word gives its code, its zero bits and its fields back. -/
theorem uopWord_reads {code : BitVec 6} {o : UOp} {w : W64} (h : uopWord code o = w) :
    w.extractLsb' 58 6 = code ∧ w.extractLsb' 32 14 = 0#14 ∧ uopFields w = o := by
  subst h
  obtain ⟨t, gA, gB, p, imm⟩ := o
  simp only [uopWord, uopFields, UOp.mk.injEq, ← BitVec.toNat_inj, BitVec.extractLsb'_toNat, toNat_appendMul, Nat.shiftRight_eq_div_pow,
    BitVec.toNat_ofNat]
  have := code.isLt; have := t.isLt; have := gA.isLt; have := gB.isLt; have := p.isLt; have := imm.isLt
  simp only [Nat.reducePow, Nat.reduceMod, Nat.div_one] at *
  omega

/-- A word whose zero bits are zero is put together from its code and its fields. -/
theorem uopWord_uopFields {w : W64} (hzero : w.extractLsb' 32 14 = 0#14) : uopWord (w.extractLsb' 58 6) (uopFields w) = w := by
  simp only [uopWord, uopFields, ← BitVec.toNat_inj, BitVec.extractLsb'_toNat, toNat_appendMul, Nat.shiftRight_eq_div_pow,
    BitVec.toNat_ofNat] at hzero ⊢
  have := w.isLt
  simp only [Nat.reducePow, Nat.reduceMod, Nat.div_one] at *
  omega

/-- What a word of 64 bits decodes to has that word. -/
theorem encodeUop_of_decodeUop {i : Instr} {w : W64} (h : decodeUop w = some i) : encodeUop i = some w := by
  simp only [decodeUop] at h
  split at h
  · cases h
  · next hz =>
    have hword : ∀ code : BitVec 6, (w.extractLsb' 58 6).toNat = code.toNat → uopWord code (uopFields w) = w := fun code hcode => by
      rw [← BitVec.eq_of_toNat_eq hcode, uopWord_uopFields (not_not.mp hz)]
    split at h <;> cases h
    all_goals next hcode => exact congrArg some (hword _ hcode)

/-- The word of each micro-op decodes to it; no other instruction has one. -/
theorem decodeUop_of_encodeUop {i : Instr} {w : W64} (h : encodeUop i = some w) : decodeUop w = some i := by
  cases i with
  | endR o | lda o | ldb o | ldsa o | ldsb o | mma o | zero o | tld o | epi o | stt o | sigchk o | loopMicroOp o | endl o | gadv o | setp o =>
    obtain ⟨hcode, hzero, hfields⟩ := uopWord_reads (Option.some.inj h)
    simp [decodeUop, hzero, hcode, ← hfields, uopFields]
  | _ => cases h

/-! ## Which instructions have a word -/

theorem isSome_encodeWord (i : Instr) : (encodeWord i).isSome = !(isMicroOp i || isEvent i) := by cases i <;> rfl

theorem isSome_encodeUop (i : Instr) : (encodeUop i).isSome = isMicroOp i := by cases i <;> rfl

theorem isMicroOp_of_isEvent {i : Instr} (h : isEvent i = true) : isMicroOp i = false := by
  cases i with
  | endR o | lda o | ldb o | ldsa o | ldsb o | mma o | zero o | tld o | epi o | stt o | sigchk o | loopMicroOp o | endl o | gadv o | setp o =>
    cases h
  | _ => rfl

/-- Settles O54: slot words by the lemma of each instruction, micro-op words by the layout that all fifteen share. -/
theorem encodeDecode : Obligations.EncodeDecode := by
  unfold Obligations.EncodeDecode
  refine ⟨fun i => ⟨?slot, ?micro, ?event⟩, fun i w => decode_encodeWord, fun i w => decodeUop_of_encodeUop,
    fun i w => encodeWord_of_decode, fun i w => encodeUop_of_decodeUop⟩
  case slot =>
    intro hmicro hevent
    exact Option.isSome_iff_exists.mp (by rw [isSome_encodeWord, hmicro, hevent]; rfl)
  case micro =>
    intro hmicro
    exact Option.isSome_iff_exists.mp (by rw [isSome_encodeUop, hmicro])
  case event =>
    intro hevent
    have hword : (encodeWord i).isSome = false := by rw [isSome_encodeWord, hevent, Bool.or_true]; rfl
    have huop : (encodeUop i).isSome = false := by rw [isSome_encodeUop, isMicroOp_of_isEvent hevent]
    exact ⟨by simpa using hword, by simpa using huop⟩

end Sys2Proof.Encoding

/-! SUPPORT. The S-I and S-K operations of spec/08 R168, R169, R175, and the copies between files of R173, R174, R176, R177: the forms
with an immediate, and the fields that GGET and HGET return: O3, O4. -/

namespace Sys2Proof.Immediates

open Sys2Proof Sys2Proof.Machine Sys2Proof.Laws Sys2Proof.Scalars

/-! ## The immediate as a number (R168) -/

theorem toInt_imm7 (i : BitVec 7) : (imm7 i).toInt = i.toInt := BitVec.toInt_signExtend_of_le (by decide)

/-- A count given as an immediate: its low six bits, which the extension keeps. -/
theorem count6_imm7 (i : BitVec 7) : count6 (imm7 i) = i.toNat % 64 := by
  revert i
  decide

theorem add_imm7 (a : W64) (i : BitVec 7) : a + imm7 i = BitVec.ofInt 64 (a.toInt + i.toInt) := by
  rw [BitVec.ofInt_add, BitVec.ofInt_toInt, ← toInt_imm7, BitVec.ofInt_toInt]

theorem mul_imm7 (a : W64) (i : BitVec 7) : a * imm7 i = BitVec.ofInt 64 (a.toInt * i.toInt) := by
  rw [BitVec.ofInt_mul, BitVec.ofInt_toInt, ← toInt_imm7, BitVec.ofInt_toInt]

theorem beq_imm7 (a : W64) (i : BitVec 7) : (a == imm7 i) = decide (a.toInt = i.toInt) := by
  rw [beq_eq_decide, decide_eq_decide, ← toInt_imm7, BitVec.toInt_inj]

theorem slt_imm7 (a : W64) (i : BitVec 7) : a.slt (imm7 i) = decide (a.toInt < i.toInt) := by
  rw [BitVec.slt_eq_decide, toInt_imm7]

theorem sle_imm7 (a : W64) (i : BitVec 7) : a.sle (imm7 i) = decide (a.toInt ≤ i.toInt) := by
  rw [BitVec.sle_eq_decide, toInt_imm7]

/-! ## Forms whose guard holds -/

theorem sImm_puts {o : SIOp} {s : State} {bound : Nat} {f : W64 → W64 → W64} {v : W64} (h : guardOn s o.g = true)
    (hv : f (seeS s (isY o.u) o.a) (imm7 o.imm) = v) : sImm o bound f s = .next (emit s bound [landS (isY o.u) o.d v]) := by
  rw [sImm, guarded_on h, hv]

theorem sCompareI_puts {o : SIOp} {s : State} {p : W64 → W64 → Bool} {c : Bool} (h : guardOn s o.g = true)
    (hc : p (seeS s (isY o.u) o.a) (imm7 o.imm) = c) :
    sCompareI o p s = .next (emit s 1 [.q (2 * o.d.toNat) c, .q (2 * o.d.toNat + 1) (!c)]) := by
  rw [sCompareI, guarded_on h, hc, pairLands]

/-- Settles O3: the immediate extended by its sign is read as a number, and a count by its low six bits. -/
theorem scalarImmediates : Obligations.ScalarImmediates := by
  unfold Obligations.ScalarImmediates
  constructor
  · intro o s h a i n put pair
    have hcount : count6 (imm7 o.imm) = n := count6_imm7 o.imm
    have hn : n < 64 := Nat.mod_lt _ (by decide)
    refine ⟨show execAddi o s = _ from sImm_puts h (add_imm7 a o.imm), show execAndi o s = _ from sImm_puts h rfl,
      show execOri o s = _ from sImm_puts h rfl, show execXori o s = _ from sImm_puts h rfl,
      show execMuli o s = _ from sImm_puts h (mul_imm7 a o.imm), show execCmpeqi o s = _ from sCompareI_puts h (beq_imm7 a o.imm),
      show execCmplti o s = _ from sCompareI_puts h (slt_imm7 a o.imm), show execCmpltui o s = _ from sCompareI_puts h BitVec.ult_eq_decide,
      show execCmplei o s = _ from sCompareI_puts h (sle_imm7 a o.imm), show execCmpleui o s = _ from sCompareI_puts h BitVec.ule_eq_decide,
      fun _ => ⟨?shl, ?shr, ?sar, ?ror, show execTokl o s = _ from guarded_on h⟩⟩
    case shl => exact show execShli o s = _ from sImm_puts h (by rw [hcount, shiftLeft_eq_ofNat])
    case shr => exact show execShri o s = _ from sImm_puts h (by rw [hcount, ushiftRight_eq_ofNat])
    case sar => exact show execSari o s = _ from sImm_puts h (by rw [hcount, sshiftRight_eq_ofInt])
    case ror => exact show execRori o s = _ from sImm_puts h (by rw [hcount, rotateRight_eq_ofNat a hn])
  · intro o s h put
    exact ⟨show execMovi o s = _ from guarded_on h, show execMovsh o s = _ from guarded_on h⟩

/-! ## Fields and files (R173, R174, R177) -/

theorem execGget_puts {o : SROp} {s : State} (h : guardOn s o.g = true) :
    execGget o s = .next (emit s 1 [landS (isY o.u) o.d (strideGet (seeG s (me s) (o.a.toNat % 8)) o.b.toNat)]) := guarded_on h

theorem execHget_puts {o : SROp} {s : State} (h : guardOn s o.g = true) :
    execHget o s = .next (emit s 1 [landS (isY o.u) o.d (copyGet (seeH s (me s) (o.a.toNat % 8)) o.b.toNat)]) := guarded_on h

/-- `MOVX` once the bank that it writes, if any, is at hand. -/
theorem execMovx_puts {o : SROp} {s : State} (h : guardOn s o.g = true) (hb : BanksReady s (copyBanks o.b.toNat)) :
    execMovx o s = .next (emit s 2 [copyLand s o.b.toNat o.d (BitVec.allOnes 1024) (BitVec.allOnes 1024)
      ((seeS s (isY o.u) o.a).setWidth 1024)]) := by
  rw [execMovx, if_pos h, needBanks_ready hb]

theorem extractLow_setWidth (a : W64) : (a.setWidth 1024).extractLsb' 0 64 = a := by
  rw [← BitVec.setWidth_eq_extractLsb' (by decide), BitVec.setWidth_setWidth_of_le _ (by decide), BitVec.setWidth_eq]

theorem copyBanks_vector {n f : Nat} (hf : f < 3) (hn : n = f + 2) : copyBanks n = [f] := by
  rw [copyBanks, if_pos (by omega), hn, Nat.add_sub_cancel]

/-- What a copy into a vector file writes. -/
theorem copyLand_vector (s : State) {n f : Nat} (d : BitVec 5) (m wm v : W1024) (hf : f < 3) (hn : n = f + 2) :
    copyLand s n d m wm v = .v (vSlot (me s) f d.toNat) m v := by
  subst hn
  match f, hf with
  | 0, _ | 1, _ | 2, _ => rfl

/-- What a trap that enters a handler leaves in the trap record's registers of the executing core. -/
theorem me_slotTrap_enters {s : State} (hvec : (me s).sys.trapvec.getLsbD 16 = true) (hest : (me s).sys.estate.getLsbD 2 = false)
    (u cause : Nat) (taddr : W64) (hi : BitVec 32) :
    let t := slotTrap s u cause taddr hi
    (me t).sys.tcause = BitVec.ofNat 8 cause ∧ (me t).sys.taddr = taddr ∧ (me t).sys.taux = hi ++ (slotOf (me s) u).2 ∧
      (me t).ctl.pc = ((me s).sys.trapvec.extractLsb' 0 16).toNat ∧ (me t).sys.epc = BitVec.ofNat 16 (me s).ctl.pc := by
  intro t
  obtain ⟨-, -, -, -, -, -, -, -, -, -, -, hepc, hcause, -, haddr, haux, -⟩ := me_takeTrap s cause
    (BitVec.ofNat 21 (2 ^ (slotOf (me s) u).1 + 256 * (frameOf (me s)).1.length)) taddr (hi ++ (slotOf (me s) u).2)
  obtain ⟨-, -, hpc, -⟩ := me_takeTrap_enters hvec hest cause
    (BitVec.ofNat 21 (2 ^ (slotOf (me s) u).1 + 256 * (frameOf (me s)).1.length)) taddr (hi ++ (slotOf (me s) u).2)
  exact ⟨hcause, haddr, haux, hpc, hepc⟩

theorem toNat_append_div (x y : BitVec 32) : (x ++ y).toNat / 2 ^ 32 = x.toNat := by
  rw [toNat_appendMul, Nat.mul_comm, Nat.mul_add_div (by decide), Nat.div_eq_of_lt y.isLt, Nat.add_zero]

/-- Settles O4: each operation's form with its guard true; the trap of a `GUARD` by what a slot's trap leaves. -/
theorem setsParametersAndCopies : Obligations.SetsParametersAndCopies := by
  unfold Obligations.SetsParametersAndCopies
  intro o s h a put
  have gget : ∀ {b : BitVec 5}, o.b = b → execGget o s = put (strideGet (seeG s (me s) (o.a.toNat % 8)) b.toNat) :=
    fun hb => hb ▸ execGget_puts h
  have hget : ∀ {b : BitVec 5}, o.b = b → execHget o s = put (copyGet (seeH s (me s) (o.a.toNat % 8)) b.toNat) :=
    fun hb => hb ▸ execHget_puts h
  have movx : ∀ {b : BitVec 5}, o.b = b → copyBanks b.toNat = [] → execMovx o s =
      .next (emit s 2 [copyLand s b.toNat o.d (BitVec.allOnes 1024) (BitVec.allOnes 1024) (a.setWidth 1024)]) :=
    fun hb hnone => hb ▸ execMovx_puts h (by rw [hb, hnone]; exact nofun)
  refine ⟨show execMovp o s = _ from guarded_on h, show execMovfp o s = _ from guarded_on h, show execGset o s = _ from guarded_on h,
    ⟨gget, gget, gget, gget, gget⟩, show execHset o s = _ from guarded_on h, ⟨hget, hget, hget, hget, hget, hget, hget, hget, hget⟩,
    ?equal, ?differ, ?rdvc, ?x, ?y, fun hb => movx hb rfl, ?vector⟩
  case equal =>
    intro heq
    show execGuard o s = _
    simp only [execGuard, guarded_on h, if_pos heq]
  case differ =>
    intro hne
    have htrap : execGuard o s = .next (slotTrap s 0 0x07 (seeX s (me s) o.a.toNat ^^^ seeY s (me s) o.b.toNat) 0) := by
      simp only [execGuard, guarded_on h, if_neg hne]
    refine ⟨htrap, fun hvec hest => ⟨_, htrap, ?_⟩⟩
    obtain ⟨hcause, haddr, haux, hpc, hepc⟩ := me_slotTrap_enters hvec hest 0 0x07 (seeX s (me s) o.a.toNat ^^^ seeY s (me s) o.b.toNat) 0
    refine ⟨hcause, haddr, ?_, hpc, ?_, slotTrap_mem ..⟩
    · rw [haux, toNat_append_div]
      rfl
    · rw [hepc, BitVec.toNat_ofNat]
  case rdvc =>
    intro hblocked
    show execRdvc o s = _
    simp only [execRdvc, guarded_on h, hblocked]
    rfl
  case x =>
    intro hb
    rw [← extractLow_setWidth a]
    exact movx hb rfl
  case y =>
    intro hb
    rw [← extractLow_setWidth a]
    exact movx hb rfl
  case vector =>
    intro f hf hb hready
    show execMovx o s = _
    rw [execMovx_puts h (copyBanks_vector hf hb ▸ hready), copyLand_vector s o.d _ _ _ hf hb]

end Sys2Proof.Immediates

/-! SUPPORT. Minimum, maximum, sign and class, selection, moves, permutation, indices and copies of spec/08 R183, R191-R194, and the lists of
element types of R179: O6, O11. -/

namespace Sys2Proof.Selection

open Sys2Proof Sys2Proof.Machine Sys2Proof.Laws Sys2Proof.Values Sys2Proof.Vectors Sys2Proof.Immediates

/-! ## Order, sign and magnitude of an element (R183) -/

theorem pick_less {α : Type} (k l : Int) (a b : α) : (if decide (k < l) = true then a else if k = l then a else b) = if k ≤ l then a else b := by
  by_cases h : k < l
  · rw [if_pos (decide_eq_true h), if_pos h.le]
  · by_cases he : k = l
    · simp [he]
    · simp [h, he, show ¬ k ≤ l by omega]

theorem pick_notLess {α : Type} (k l : Int) (a b : α) : (if decide (k < l) = false then a else if k = l then a else b) = if l ≤ k then a else b := by
  by_cases h : k < l
  · simp [h, show ¬ l ≤ k by omega, show k ≠ l by omega]
  · simp [h, show l ≤ k by omega]

/-- The smaller of two elements; the first of two equal ones. -/
theorem vPick_less_flt (f : FFmt) (a b : Nat) : vPick (.flt f) true a b =
    if isNaN f a ∨ isNaN f b then nanOf f else if orderKey f a ≤ orderKey f b then a else b := by
  rw [vPick, pick_less]

theorem vPick_greater_flt (f : FFmt) (a b : Nat) : vPick (.flt f) false a b =
    if isNaN f a ∨ isNaN f b then nanOf f else if orderKey f b ≤ orderKey f a then a else b := by
  rw [vPick, pick_notLess]

theorem vPick_less_int (w : Nat) (sg : Bool) (a b : Nat) : vPick (.int w sg) true a b = if intVal w sg a ≤ intVal w sg b then a else b :=
  pick_less ..

theorem vPick_greater_int (w : Nat) (sg : Bool) (a b : Nat) : vPick (.int w sg) false a b = if intVal w sg b ≤ intVal w sg a then a else b :=
  pick_notLess ..

/-- Flipping the top bit is adding half of the range. -/
theorem xor_topBit {m x : Nat} (hx : x < 2 ^ (m + 1)) : x ^^^ 2 ^ m = (x + 2 ^ m) % 2 ^ (m + 1) := by
  refine Nat.eq_of_testBit_eq fun i => ?_
  rw [Nat.testBit_xor, Nat.testBit_mod_two_pow, Nat.testBit_two_pow, Nat.add_comm x]
  rcases Nat.lt_trichotomy i m with h | h | h
  · simp [Nat.testBit_two_pow_add_gt h, show i < m + 1 by omega, show m ≠ i by omega]
  · subst h
    simp [Nat.testBit_two_pow_add_eq]
  · have htop : x.testBit i = false := Nat.testBit_lt_two_pow (hx.trans_le (Nat.pow_le_pow_right (by decide) h))
    simp [htop, show ¬ i < m + 1 by omega, show m ≠ i by omega]

theorem ofInt_neg {w x : Nat} (hx : x < 2 ^ w) : ofInt w (-(x : Int)) = (2 ^ w - x) % 2 ^ w := by
  have hcast : -(x : Int) ≡ ((2 ^ w - x : Nat) : Int) [ZMOD 2 ^ w] := by
    rw [Nat.cast_sub hx.le, Nat.cast_pow, Nat.cast_ofNat]
    exact (Int.modEq_iff_dvd.mpr ⟨1, by ring⟩)
  rw [ofInt_congr hcast, ofInt]
  exact_mod_cast Int.toNat_natCast _

theorem vNeg_flt {f : FFmt} {x : Nat} (hx : x < 2 ^ (1 + f.e + f.m)) :
    vNeg (.flt f) x = if isNaN f x then nanOf f else (x + 2 ^ (1 + f.e + f.m - 1)) % 2 ^ (1 + f.e + f.m) := by
  have hw : 1 + f.e + f.m = f.e + f.m + 1 := by omega
  rw [hw] at hx ⊢
  rw [vNeg, xor_topBit hx, Nat.add_sub_cancel]

theorem vAbs_flt (f : FFmt) (x : Nat) : vAbs (.flt f) x = if isNaN f x then nanOf f else x % 2 ^ (1 + f.e + f.m - 1) := by
  rw [vAbs, show 1 + f.e + f.m - 1 = f.e + f.m by omega]

theorem vAbs_int (w : Nat) (sg : Bool) (x : Nat) : vAbs (.int w sg) x = if sg then (intVal w sg x).natAbs % 2 ^ w else x := by
  cases sg with
  | false => rfl
  | true =>
    show ofInt w ((intVal w true x).natAbs : Int) = (intVal w true x).natAbs % 2 ^ w
    rw [ofInt]
    exact_mod_cast Int.toNat_natCast _

/-! ## Elements of a result -/

/-- Only the elements below the count are written. -/
theorem elemLand_congr {slot sz n : Nat} {en : Nat → Bool} {v v' : Nat → Nat} (h : ∀ e < n, v e = v' e) :
    elemLand slot sz n en v = elemLand slot sz n en v' := by
  rw [elemLand, elemLand, List.map_congr_left fun e he => h e (List.mem_range.mp he)]

theorem vPut_congr {o : VOp} {s : State} {t : ETy} {bound : Nat} {v v' : Nat → Nat} (h : ∀ e < vBits o.w / etyBits t, v e = v' e) :
    vPut o s t bound v = vPut o s t bound v' := by
  rw [vPut, vPut, elemLand_congr h]

theorem VReady.of_extra {o : VOp} {s : State} {t : ETy} {x : List Nat} (h : VReady o s t x) : VReady o s t [] :=
  ⟨h.1, fun f hf => h.2 f (List.mem_cons.mpr (Or.inl (List.mem_singleton.mp hf)))⟩

/-- The width of a type that a code names. -/
theorem etyBits_of_etyOf {c : Nat} {t : ETy} (h : etyOf c = some t) : etyBits t = 8 ∨ etyBits t = 16 ∨ etyBits t = 32 ∨ t = .int 64 true := by
  unfold etyOf at h
  split at h <;> cases h <;> decide

theorem vBits_le {w : BitVec 2} (hw : w ≠ 3) : vBits w ≤ 1024 := by
  revert w
  decide

theorem vBits_le_2048 (w : BitVec 2) : vBits w ≤ 2048 := by
  revert w
  decide

theorem vCount_le {o : VOp} {t : ETy} {c : Nat} (h : etyOf c = some t) (b : Nat) (hb : vBits o.w ≤ 8 * b) : vBits o.w / etyBits t ≤ b := by
  have h8 : 8 ≤ etyBits t := by
    rcases etyBits_of_etyOf h with h | h | h | rfl
    · omega
    · omega
    · omega
    · decide
  exact Nat.div_le_of_le_mul (hb.trans (Nat.mul_le_mul_right b h8))

/-- The number of an element, read as a signed 64-bit integer. -/
theorem intVal_index {e : Nat} (he : e < 2 ^ 63) : intVal 64 true e = e := by
  have hmod : e % 2 ^ 64 = e := Nat.mod_eq_of_lt (by omega)
  rw [intVal, if_pos rfl, toInt, hmod, if_pos (by omega)]

theorem convert_index_flt {e : Nat} (he : e < 2 ^ 63) (f : FFmt) (rm : BitVec 2) (sat : Bool) :
    convert (.int 64 true) (.flt f) rm sat e = roundF f rm sat (exInt e) := by
  rw [convert, intVal_index he]

/-- A number of at most seven bits is the same in every integer type. -/
theorem convert_index_int {w : Nat} {sg : Bool} {e : Nat} (hw : w = 8 ∨ w = 16 ∨ w = 32 ∨ w = 64) (he : e < 128) (rm : BitVec 2) (sat : Bool) :
    convert (.int 64 true) (.int w sg) rm sat e = e := by
  have hval : intVal 64 true e = e := intVal_index (by omega)
  rw [convert, hval]
  rcases hw with rfl | rfl | rfl | rfl <;> cases sg <;> cases sat <;> simp [clampInt, intMin, intMax, ofInt] <;> omega

/-! ## Forms with their banks at hand -/

theorem vMap_puts_of_extra {o : VOp} {s : State} {t : ETy} {x : List Nat} {b : Nat} {ok : ETy → Bool} {f : ETy → W32 → Nat → Nat → Nat → Nat}
    {val : Nat → Nat} (h : VReady o s t x) (hok : ok t = true)
    (hval : ∀ e, f t (me s).sys.fmt (elemAt (vReg o s o.a) (etyBits t) e) (elemAt (vReg o s o.b) (etyBits t) e)
      (elemAt (vReg o s o.d) (etyBits t) e) = val e) :
    vMap o (fun _ => b) ok f s = vPut o s t b val :=
  vMap_puts (VReady.of_extra h) hok hval

theorem execVperm_puts {o : VOp} {s : State} {t : ETy} (h : VReady o s t []) :
    execVperm o s = vPut o s t 2 fun e =>
      elemAt (vReg o s o.a) (etyBits t) (elemAt (vReg o s o.b) (etyBits t) e % (vBits o.w / etyBits t)) :=
  vOp_ready h.1 (allTypes_has t) h.2

theorem execVsel_puts {o : VOp} {s : State} {t : ETy} (h : VReady o s t []) :
    execVsel o s = .next (emit s 2 [elemLand (vDest o s) (etyBits t / 8) (vBits o.w / etyBits t) (fun _ => true) fun e =>
      if enabledAt s o.g (e * (etyBits t / 8)) then elemAt (vReg o s o.a) (etyBits t) e else elemAt (vReg o s o.b) (etyBits t) e]) :=
  vOp_ready h.1 (allTypes_has t) h.2

theorem execViota_puts {o : VOp} {s : State} {t : ETy} {val : Nat → Nat} (h : VReady o s t []) (hok : arithTypes.has t = true)
    (hval : ∀ e < vBits o.w / etyBits t, convert (.int 64 true) t (rmOf (me s).sys.fmt) (satOf (me s).sys.fmt) e = val e) :
    execViota o s = vPut o s t 2 val := by
  rw [← vPut_congr hval]
  exact vOp_ready h.1 hok h.2

/-- The write of a copy into a vector or a w register. -/
theorem copyLand_wide (s : State) {n : Nat} (d : BitVec 5) (m wm v : W1024) (hlo : 2 ≤ n) (hhi : n ≤ 5) :
    copyLand s n d m wm v = if n = 5 then .w d.toNat wm v else .v (vSlot (me s) (n - 2) d.toNat) m v := by
  match n, hlo, hhi with
  | 2, _, _ | 3, _, _ | 4, _, _ | 5, _, _ => rfl

theorem execVext_off {o : VOp} {s : State} {t : ETy} (h : VReady o s t []) (hoff : enabledAt s o.g 0 = false) : execVext o s = .next s := by
  rw [execVext, vOp_ready h.1 (allTypes_has t) h.2]
  simp [hoff]

/-- The element that `VEXT` copies, as a scalar register takes it: an integer extended by its type's sign (R194). -/
def extElement (t : ETy) (x : Nat) : W64 :=
  match t with
  | .flt _ => BitVec.ofNat 64 x
  | .int k sg => BitVec.ofInt 64 (intVal k sg x)

theorem extractLow_ofNat (x : Nat) : (BitVec.ofNat 1024 x).extractLsb' 0 64 = BitVec.ofNat 64 x := by
  refine BitVec.eq_of_toNat_eq ?_
  simp only [BitVec.extractLsb'_toNat, BitVec.toNat_ofNat, Nat.shiftRight_zero]
  omega

/-- `VEXT` of an enabled element into the x or the y file. -/
theorem execVext_on {o : VOp} {s : State} {t : ETy} (h : VReady o s t []) (hon : enabledAt s o.g 0 = true) (hb : o.b = 0 ∨ o.b = 1) :
    execVext o s = .next (emit s 2 [landS (o.b == 1) o.d (extElement t (elemAt (vReg o s o.a) (etyBits t) 0))]) := by
  rw [execVext, vOp_ready h.1 (allTypes_has t) h.2]
  simp only [hon, if_true]
  cases t with
  | flt f =>
    rw [extElement, ← extractLow_ofNat]
    rcases hb with hb | hb <;> rw [hb] <;> rfl
  | int k sg =>
    rw [extElement, ← extractLow_setWidth (BitVec.ofInt 64 _)]
    rcases hb with hb | hb <;> rw [hb] <;> rfl

/-- Settles O6: the element functions case by case; selection, permutation and copies by their forms with the banks at hand. -/
theorem vectorSelectionAndMoves : Obligations.VectorSelectionAndMoves := by
  unfold Obligations.VectorSelectionAndMoves
  refine ⟨⟨?floats, ?integers⟩, ?moves⟩
  case floats =>
    intro o s f hf h w x k put two one
    have harith := arithTypes_has_flt hf
    have hlt : ∀ r e, x r e < 2 ^ w := fun r e => elemAt_lt _ w e
    exact ⟨show execVmin o s = _ from vMap_puts h harith fun e => vPick_less_flt f _ _,
      show execVmax o s = _ from vMap_puts h harith fun e => vPick_greater_flt f _ _,
      show execVabs o s = _ from vMap_puts h harith fun e => vAbs_flt f _,
      show execVneg o s = _ from vMap_puts h harith fun e => vNeg_flt (hlt o.a e),
      show execVclass o s = _ from vMap_puts h (floatTypes_has_flt hf) fun e => rfl⟩
  case integers =>
    intro o s w sg _ h x v put
    have harith := arithTypes_has_int w sg
    exact ⟨show execVmin o s = _ from vMap_puts h harith fun e => vPick_less_int w sg _ _,
      show execVmax o s = _ from vMap_puts h harith fun e => vPick_greater_int w sg _ _,
      show execVneg o s = _ from vMap_puts h harith fun e => ofInt_neg (elemAt_lt _ w e),
      show execVabs o s = _ from vMap_puts h harith fun e => vAbs_int w sg _⟩
  case moves =>
    intro o s t hx w n x en m low copy
    have h : VReady o s t [] := VReady.of_extra hx
    refine ⟨show execVsel o s = _ from execVsel_puts h, show execVmov o s = _ from vMap_puts h (allTypes_has t) fun e => rfl,
      show execVperm o s = _ from execVperm_puts h, ?iotaFloat, ?iotaInt, ?movx, ?bcast, ?extOff, ?extX, ?extY⟩
    case iotaFloat =>
      rintro f rfl hf
      have hcount : n ≤ 256 := vCount_le h.1 256 (vBits_le_2048 o.w)
      exact show execViota o s = _ from execViota_puts h (arithTypes_has_flt hf) fun e he =>
        convert_index_flt ((he.trans_le hcount).trans_le (by decide)) f _ _
    case iotaInt =>
      rintro k sg rfl hw
      have hcount : n ≤ 128 := vCount_le h.1 128 (vBits_le hw)
      have hk : k = 8 ∨ k = 16 ∨ k = 32 ∨ k = 64 :=
        (etyBits_of_etyOf h.1).imp_right fun h => h.imp_right fun h => h.imp_right fun h =>
          show etyBits (.int k sg) = etyBits (.int 64 true) from congrArg etyBits h
      exact show execViota o s = _ from execViota_puts h (arithTypes_has_int k sg) fun e he =>
        convert_index_int hk (he.trans_le hcount) _ _
    case movx =>
      intro hlo hhi
      show execVmovx o s = _
      rw [execVmovx, vOp_ready hx.1 (allTypes_has t) hx.2]
      dsimp only
      rw [emit1, copyLand_wide s o.d _ _ _ hlo hhi]
    case bcast =>
      intro hlo hhi
      show execVbcast o s = _
      rw [execVbcast, vOp_ready hx.1 (allTypes_has t) hx.2]
      dsimp only
      rw [emit1, copyLand_wide s o.d _ _ _ hlo hhi]
    case extOff => exact show _ → execVext o s = _ from execVext_off h
    case extX =>
      intro hon hb
      have hext := execVext_on h hon (Or.inl hb)
      rw [hb] at hext
      exact show execVext o s = _ from hext
    case extY =>
      intro hon hb
      have hext := execVext_on h hon (Or.inr hb)
      rw [hb] at hext
      exact show execVext o s = _ from hext

end Sys2Proof.Selection

/-! SUPPORT. The lists of element types of spec/08 R179: which V operations a type code stops, whatever their mask: O11. -/

namespace Sys2Proof.TypeTraps

open Sys2Proof Sys2Proof.Machine Sys2Proof.Laws Sys2Proof.Vectors

/-- The type code of the slot names no type of a set. -/
def Refuses (o : VOp) (s : State) (ok : ETy → Bool) : Prop := ∀ t, etyOf (vCode (me s) (vFile o.u)) = some t → ok t = false

/-- The outcome of a V operation of a type outside its list (R93). -/
def Traps (o : VOp) (s : State) (i : Instr) : Prop :=
  exec i s = .next (slotTrap s o.u.toNat 0x09 0 (BitVec.ofNat 32 (vCode (me s) (vFile o.u))))

/-! ## The operations by their lists of types -/

/-- Operations on floats alone. -/
def floatOps (o : VOp) : List Instr := [.vdiv o, .vsqrt o, .vclass o]

/-- Operations on integers alone. -/
def intOps (o : VOp) : List Instr :=
  [.vshl o, .vshr o, .vsar o, .vshli o, .vshri o, .vsari o, .vmulhi o, .vmulhiu o, .vadc o, .vsbc o, .vcmpltu o, .vcmpleu o, .vclz o, .vpopc o]

/-- Arithmetic on floats and integers. -/
def arithOps (o : VOp) : List Instr :=
  [.vadd o, .vsub o, .vmul o, .vfma o, .vfms o, .vfnma o, .vmin o, .vmax o, .vabs o, .vneg o, .vand o, .vor o, .vxor o, .vandn o, .vcmpeq o,
    .vcmplt o, .vcmple o, .vredadd o, .vredmax o, .vredmin o, .vscan o]

/-- Operations on every type. -/
def anyOps (o : VOp) : List Instr :=
  [.vsel o, .vmov o, .vmovx o, .vbcast o, .vext o, .vperm o, .kand o, .kor o, .kxor o, .kmov o, .kpopc o, .kfirst o]

section
variable {o : VOp} {s : State}

theorem floatOps_trap (h : Refuses o s floatTypes.has) : ∀ i ∈ floatOps o, Traps o s i := by
  simp only [floatOps, List.forall_mem_cons]
  exact ⟨vOp_traps h, vOp_traps h, vOp_traps h, nofun⟩

theorem intOps_trap (h : Refuses o s intTypes.has) : ∀ i ∈ intOps o, Traps o s i := by
  simp only [intOps, List.forall_mem_cons]
  exact ⟨vOp_traps h, vOp_traps h, vOp_traps h, vOp_traps h, vOp_traps h, vOp_traps h, vOp_traps h, vOp_traps h, vOp_traps h, vOp_traps h,
    vOp_traps h, vOp_traps h, vOp_traps h, vOp_traps h, nofun⟩

theorem arithOps_trap (h : Refuses o s arithTypes.has) : ∀ i ∈ arithOps o, Traps o s i := by
  simp only [arithOps, List.forall_mem_cons]
  exact ⟨vOp_traps h, vOp_traps h, vOp_traps h, vOp_traps h, vOp_traps h, vOp_traps h, vOp_traps h, vOp_traps h, vOp_traps h, vOp_traps h,
    vOp_traps h, vOp_traps h, vOp_traps h, vOp_traps h, vOp_traps h, vOp_traps h, vOp_traps h, vOp_traps h, vOp_traps h, vOp_traps h,
    vOp_traps h, nofun⟩

theorem anyOps_trap (h : Refuses o s allTypes.has) : ∀ i ∈ anyOps o, Traps o s i := by
  simp only [anyOps, List.forall_mem_cons]
  exact ⟨vOp_traps h, vOp_traps h, vOp_traps h, vOp_traps h, vOp_traps h, vOp_traps h, vOp_traps h, vOp_traps h, vOp_traps h, vOp_traps h,
    vOp_traps h, vOp_traps h, nofun⟩

theorem viota_traps (h : Refuses o s arithTypes.has) : Traps o s (.viota o) := vOp_traps h

theorem vmacw_traps (h : Refuses o s fun t => etyBits t == 8 && intTypes.has t || etyBits t == 16) : Traps o s (.vmacw o) := vOp_traps h

theorem vcvt_traps (h : Refuses o s allTypes.has) : Traps o s (.vcvt o) := vOp_traps h

theorem vqnt_traps (h : Refuses o s ({ fp8 := true } : Types).has) : Traps o s (.vqnt o) := vOp_traps h

theorem vdqnt_traps (h : Refuses o s ({ fp8 := true } : Types).has) : Traps o s (.vdqnt o) := vOp_traps h

theorem vpack_traps (h : Refuses o s fun t => (packType t).isSome) : Traps o s (.vpack o) := vOp_traps h

theorem vunpk_traps (h : Refuses o s fun t => (unpackType t).isSome) : Traps o s (.vunpk o) := vOp_traps h

/-! ## What the codes refuse -/

theorem refuses_of_none (h : etyOf (vCode (me s) (vFile o.u)) = none) (ok : ETy → Bool) : Refuses o s ok := by
  intro t ht
  rw [h] at ht
  cases ht

theorem refuses_of_some {t : ETy} {ok : ETy → Bool} (ht : etyOf (vCode (me s) (vFile o.u)) = some t) (hok : ok t = false) : Refuses o s ok := by
  intro t' ht'
  rwa [← Option.some.inj (ht.symm.trans ht')]

/-- A code of a list, each of which the set refuses. -/
theorem refuses_of_mem {codes : List Nat} {ok : ETy → Bool} (h : vCode (me s) (vFile o.u) ∈ codes)
    (hok : ∀ c ∈ codes, (etyOf c).all (fun t => !ok t) = true) : Refuses o s ok := by
  intro t ht
  have := hok _ h
  simpa [ht] using this

end

theorem etyOf_of_reserved {c : Nat} (h : 12 ≤ c) : etyOf c = none := by
  obtain ⟨n, rfl⟩ := Nat.exists_eq_add_of_le' h
  rfl

theorem floatTypes_has_int (w : Nat) (sg : Bool) : floatTypes.has (.int w sg) = false := by cases sg <;> rfl

theorem intTypes_has_flt (f : FFmt) : intTypes.has (.flt f) = false := by simp [intTypes, Types.has]

theorem fp8_refused {f : FFmt} (hf : f ∈ [e4m3, e5m2]) : floatTypes.has (.flt f) = false ∧ arithTypes.has (.flt f) = false := by
  revert f
  decide

/-- Settles O11: each operation checks its own list of types, so that it is enough to say which codes each list refuses. -/
theorem vectorTypeTraps : Obligations.VectorTypeTraps := by
  unfold Obligations.VectorTypeTraps
  intro o s code traps float int arith conv any
  refine ⟨?reserved, ?ints, ?floats, ?fp8, ?macw, ?quant, ?pack, ?unpack⟩
  case reserved =>
    intro hcode
    have h := fun ok => refuses_of_none (o := o) (s := s) (etyOf_of_reserved hcode) ok
    have hconv : ∀ i ∈ conv, traps i := by
      simp only [conv, List.forall_mem_cons]
      exact ⟨viota_traps (h _), vmacw_traps (h _), vcvt_traps (h _), vqnt_traps (h _), vdqnt_traps (h _), vpack_traps (h _), vunpk_traps (h _), nofun⟩
    simp only [List.forall_mem_append]
    exact ⟨⟨⟨⟨floatOps_trap (h _), intOps_trap (h _)⟩, arithOps_trap (h _)⟩, hconv⟩, anyOps_trap (h _)⟩
  case ints => exact fun w sg ht => floatOps_trap (refuses_of_some ht (floatTypes_has_int w sg))
  case floats => exact fun f ht => intOps_trap (refuses_of_some ht (intTypes_has_flt f))
  case fp8 =>
    intro f ht hf
    obtain ⟨hfloat, harith⟩ := fp8_refused hf
    simp only [List.forall_mem_append, List.forall_mem_singleton]
    exact ⟨⟨⟨floatOps_trap (refuses_of_some ht hfloat), intOps_trap (refuses_of_some ht (intTypes_has_flt f))⟩,
      arithOps_trap (refuses_of_some ht harith)⟩, viota_traps (refuses_of_some ht harith)⟩
  case macw => exact fun hcode => vmacw_traps (refuses_of_mem hcode (by decide))
  case quant =>
    intro hcode
    have hmem : code ∈ [0, 1, 2, 3, 4, 5, 6, 7, 8, 11] := by
      simp
      omega
    exact ⟨vqnt_traps (refuses_of_mem hmem (by decide)), vdqnt_traps (refuses_of_mem hmem (by decide))⟩
  case pack => exact fun hcode => vpack_traps (refuses_of_mem hcode (by decide))
  case unpack => exact fun hcode => vunpk_traps (refuses_of_mem hcode (by decide))

end Sys2Proof.TypeTraps

/-! SUPPORT. Conversions, quantisation, packing and unpacking of spec/08 R197-R199: what each writes once its type and its banks are at hand:
O10. -/

namespace Sys2Proof.Conversions

open Sys2Proof Sys2Proof.Machine Sys2Proof.Laws Sys2Proof.Vectors

theorem fp8_has {f : FFmt} (hf : f ∈ [e4m3, e5m2]) : ({ fp8 := true } : Types).has (.flt f) = true := by
  revert f
  decide

theorem packType_of_mem {t u : ETy} (h : (t, u) ∈ packPairs) : packType t = some u :=
  (by decide : ∀ p ∈ packPairs, packType p.1 = some p.2) _ h

theorem unpackType_of_mem {t u : ETy} (h : (t, u) ∈ unpackPairs) : unpackType t = some u :=
  (by decide : ∀ p ∈ unpackPairs, unpackType p.1 = some p.2) _ h

/-- The type that `VCVT` converts to, where the b field names one. -/
theorem execVcvt_puts {o : VOp} {s : State} {t u : ETy} (h : VReady o s t []) (hu : etyOf o.b.toNat = some u) (hb : o.b.toNat < 12) :
    execVcvt o s = .next (emit s 4 [elemLand (vDest o s) (etyBits u / 8) (vBits o.w / max (etyBits t) (etyBits u))
      (fun e => enabledAt s o.g (e * (max (etyBits t) (etyBits u) / 8)))
      fun e => convert t u (rmOf (me s).sys.fmt) (satOf (me s).sys.fmt) (elemAt (vReg o s o.a) (etyBits t) e)]) := by
  have hcode : (etyOf (o.b.toNat % 16)).getD t = u := by rw [Nat.mod_eq_of_lt (by omega), hu, Option.getD_some]
  rw [execVcvt, vOp_ready h.1 (allTypes_has t) h.2]
  simp only [hcode]

/-- The lane of `VQNT` and of `VDQNT` that byte `4 * e` of the mask enables. -/
theorem enabled_lane (s : State) (g : BitVec 4) : (fun e => enabledAt s g (4 * e)) = fun e => enabledAt s g (e * 4) :=
  funext fun e => by rw [Nat.mul_comm]

theorem execVqnt_puts {o : VOp} {s : State} {f : FFmt} (h : VReady o s (.flt f) []) (hf : f ∈ [e4m3, e5m2]) :
    execVqnt o s = .next (emit s 4 [elemLand (vDest o s) 1 (vBits o.w / 32) (fun e => enabledAt s o.g (e * 4)) fun e =>
      roundF f (rmOf (me s).sys.fmt) (satOf (me s).sys.fmt)
        (exDiv (decodeF fp32 (elemAt (vReg o s o.a) 32 e)) (decodeF fp32 (elemAt (vReg o s o.b) 32 e)))]) := by
  rw [execVqnt, vOp_ready h.1 (fp8_has hf) h.2, ← enabled_lane]

theorem execVdqnt_puts {o : VOp} {s : State} {f : FFmt} (h : VReady o s (.flt f) []) (hf : f ∈ [e4m3, e5m2]) :
    execVdqnt o s = .next (emit s 4 [elemLand (vDest o s) 4 (vBits o.w / 32) (fun e => enabledAt s o.g (e * 4)) fun e =>
      roundF fp32 (rmOf (me s).sys.fmt) (satOf (me s).sys.fmt)
        (exMul (decodeF f (elemAt (vReg o s o.a) 8 e)) (decodeF fp32 (elemAt (vReg o s o.b) 32 e)))]) := by
  rw [execVdqnt, vOp_ready h.1 (fp8_has hf) h.2, ← enabled_lane]

/-- Settles O10: each operation's form, with the type that its table gives. -/
theorem vectorConversions : Obligations.VectorConversions := by
  unfold Obligations.VectorConversions
  intro o s t h fmt w n x cv put
  refine ⟨fun u hu hb => show execVcvt o s = _ from execVcvt_puts h hu hb, ?quant, ?pack, ?unpack⟩
  case quant =>
    rintro f rfl hf
    exact ⟨show execVqnt o s = _ from execVqnt_puts h hf, show execVdqnt o s = _ from execVdqnt_puts h hf⟩
  case pack =>
    intro u hu
    have htype := packType_of_mem hu
    show execVpack o s = _
    rw [execVpack, vOp_ready h.1 (by rw [htype]; rfl) h.2]
    simp only [htype, Option.getD_some]
    rfl
  case unpack =>
    intro u hu
    have htype := unpackType_of_mem hu
    show execVunpk o s = _
    rw [execVunpk, vOp_ready h.1 (by rw [htype]; rfl) h.2]
    simp only [htype, Option.getD_some]
    rfl

end Sys2Proof.Conversions

/-! SUPPORT. The reductions and running sums of spec/08 R195, R196: what the fixed tree combines, in which order the running sums go, and what
both are for integers, where the order does not matter: O9. -/

namespace Sys2Proof.Reductions

open Sys2Proof Sys2Proof.Machine Sys2Proof.Laws Sys2Proof.Values Sys2Proof.Vectors Sys2Proof.Selection

/-! ## The pairwise tree

What stands at a node is combined from the leaves below it, absent ones left out. The nodes of a level are listed with the leaves below each. -/

/-- A value combined from a list of leaves, from left to right in some order of pairs. -/
inductive Combined (comb : Nat → Nat → Nat) : List Nat → Nat → Prop
  | leaf (x : Nat) : Combined comb [x] x
  | node {l m : List Nat} {x y : Nat} : Combined comb l x → Combined comb m y → Combined comb (l ++ m) (comb x y)

/-- A node of the tree and the leaves below it that are there. -/
inductive NodeOf (comb : Nat → Nat → Nat) : Option Nat → List Nat → Prop
  | absent : NodeOf comb none []
  | value {l : List Nat} {x : Nat} : Combined comb l x → NodeOf comb (some x) l

/-- The leaves below the nodes of the next level. -/
def joinPairs : List (List Nat) → List (List Nat)
  | g :: h :: r => (g ++ h) :: joinPairs r
  | l => l

theorem flatten_joinPairs : ∀ gs, (joinPairs gs).flatten = gs.flatten
  | [] | [_] => rfl
  | g :: h :: r => by simp [joinPairs, flatten_joinPairs r]

/-- One level of the tree combines each pair of nodes. -/
theorem treeLevel_nodes {comb : Nat → Nat → Nat} : ∀ {l : List (Option Nat)} {gs : List (List Nat)},
    List.Forall₂ (NodeOf comb) l gs → List.Forall₂ (NodeOf comb) (treeLevel comb l) (joinPairs gs)
  | _, _, .nil => .nil
  | _, _, .cons h .nil => by
    cases h with
    | absent => exact .cons .absent .nil
    | value h => exact .cons (.value h) .nil
  | _, _, .cons (.value hx) (.cons (.value hy) r) => .cons (.value (hx.node hy)) (treeLevel_nodes r)
  | _, _, .cons (.value hx) (.cons .absent r) => .cons (by simpa using .value hx) (treeLevel_nodes r)
  | _, _, .cons .absent (.cons hy r) => .cons hy (treeLevel_nodes r)

theorem length_treeLevel (comb : Nat → Nat → Nat) : ∀ {n : Nat} {l : List (Option Nat)}, l.length = 2 * n → (treeLevel comb l).length = n
  | 0, [], _ => rfl
  | 0, _ :: _, h => by simp at h
  | n + 1, a :: b :: r, h => by
    have hr : (treeLevel comb r).length = n := length_treeLevel comb (by simpa [Nat.mul_add] using h)
    cases a <;> cases b <;> simp [treeLevel, hr]
  | n + 1, [a], h => by simp at h; omega
  | n + 1, [], h => by simp at h

/-- The root of the tree is the node of all the leaves. -/
theorem treeRoot_node {comb : Nat → Nat → Nat} {k : Nat} {l : List (Option Nat)} {gs : List (List Nat)}
    (h : List.Forall₂ (NodeOf comb) l gs) (hl : l.length = 2 ^ k) : NodeOf comb (treeRoot comb k l) gs.flatten := by
  induction k generalizing l gs with
  | zero =>
    match l, gs, h, hl with
    | [a], [g], .cons hnode .nil, _ => simpa [treeRoot] using hnode
  | succ k ih =>
    rw [treeRoot, ← flatten_joinPairs]
    exact ih (treeLevel_nodes h) (length_treeLevel comb (by rw [hl, Nat.pow_succ']))

/-- The root over the enabled elements. -/
theorem treeRoot_enabled {comb : Nat → Nat → Nat} {n : Nat} (hn : 2 ^ Nat.log2 n = n) (en : Nat → Bool) (x : Nat → Nat) :
    NodeOf comb (treeRoot comb (Nat.log2 n) ((List.range n).map fun e => if en e then some (x e) else none))
      (((List.range n).filter en).map x) := by
  have hleaves : ∀ l : List Nat, List.Forall₂ (NodeOf comb) (l.map fun e => if en e then some (x e) else none)
      (l.map fun e => if en e then [x e] else []) := by
    intro l
    induction l with
    | nil => exact .nil
    | cons e r ih =>
      refine .cons ?_ ih
      dsimp only
      cases en e with
      | true => exact .value (.leaf _)
      | false => exact .absent
  have hflat : ∀ l : List Nat, (l.map fun e => if en e then [x e] else []).flatten = (l.filter en).map x := by
    intro l
    induction l with
    | nil => rfl
    | cons e r ih => cases h : en e <;> simp [h, ih]
  rw [← hflat]
  exact treeRoot_node (hleaves _) (by simp [hn])

/-! ## What is combined from integers (R195) -/

theorem vSum2_int (w : Nat) (sg : Bool) (fmt : W32) (a b : Nat) : vSum2 (.int w sg) fmt a b = (a + b) % 2 ^ w := by
  have hsum : ([a, b].map (intVal w sg)).sum ≡ ((a + b : Nat) : Int) [ZMOD 2 ^ w] := by
    simpa using (intVal_modEq w sg a).add (intVal_modEq w sg b)
  show ofInt w ([a, b].map (intVal w sg)).sum = _
  rw [ofInt_congr hsum, ofInt]
  exact_mod_cast Int.toNat_natCast _

theorem sum_of_combined {w : Nat} {sg : Bool} {fmt : W32} {l : List Nat} {r : Nat} (h : Combined (vSum2 (.int w sg) fmt) l r)
    (hl : ∀ x ∈ l, x < 2 ^ w) : r = l.sum % 2 ^ w := by
  induction h with
  | leaf x => simp [Nat.mod_eq_of_lt (hl x (by simp))]
  | node _ _ ihl ihm =>
    rw [vSum2_int, ihl fun x hx => hl x (List.mem_append_left _ hx), ihm fun x hx => hl x (List.mem_append_right _ hx), List.sum_append,
      ← Nat.add_mod]

/-- Of two elements one is picked, and it is extreme. -/
theorem greatest_of_combined {w : Nat} {sg : Bool} {l : List Nat} {r : Nat} (h : Combined (vPick (.int w sg) false) l r) :
    r ∈ l ∧ ∀ x ∈ l, intVal w sg x ≤ intVal w sg r := by
  induction h with
  | leaf x => simp
  | @node l m x y _ _ ihl ihm =>
    rw [vPick_greater_int]
    split
    · exact ⟨List.mem_append_left _ ihl.1, fun z hz => (List.mem_append.mp hz).elim (ihl.2 z) fun hz => (ihm.2 z hz).trans ‹_›⟩
    · exact ⟨List.mem_append_right _ ihm.1, fun z hz => (List.mem_append.mp hz).elim (fun hz => (ihl.2 z hz).trans (by omega)) (ihm.2 z)⟩

theorem least_of_combined {w : Nat} {sg : Bool} {l : List Nat} {r : Nat} (h : Combined (vPick (.int w sg) true) l r) :
    r ∈ l ∧ ∀ x ∈ l, intVal w sg r ≤ intVal w sg x := by
  induction h with
  | leaf x => simp
  | @node l m x y _ _ ihl ihm =>
    rw [vPick_less_int]
    split
    · exact ⟨List.mem_append_left _ ihl.1, fun z hz => (List.mem_append.mp hz).elim (ihl.2 z) fun hz => (ihm.2 z hz).trans' ‹_›⟩
    · exact ⟨List.mem_append_right _ ihm.1, fun z hz => (List.mem_append.mp hz).elim (fun hz => (ihl.2 z hz).trans' (by omega)) (ihm.2 z)⟩

/-! ## Running sums (R196) -/

/-- The running sum after an enabled element: its leaf where none came before, else one more sum. -/
def nextSum (t : ETy) (fmt : W32) (run : Option Nat) (x : Nat) : Nat := run.elim (vLeaf t fmt x) fun y => vSum2 t fmt y x

theorem scanGo_cons (t : ETy) (fmt : W32) (en : Nat → Bool) (x : Nat → Nat) (e : Nat) (r : List Nat) (run : Option Nat) :
    scanGo t fmt en x (e :: r) run =
      if en e then nextSum t fmt run (x e) :: scanGo t fmt en x r (some (nextSum t fmt run (x e))) else 0 :: scanGo t fmt en x r run := by
  cases run <;> rfl

/-- The running sums follow any count of them that each enabled element moves on. -/
theorem scanGo_getD {t : ETy} {fmt : W32} {en : Nat → Bool} {x : Nat → Nat} {sums : Nat → Option Nat}
    (hstep : ∀ e, sums (e + 1) = if en e then some (nextSum t fmt (sums e) (x e)) else sums e) (k n : Nat) {i : Nat} (hi : i < n) :
    (scanGo t fmt en x (List.range' k n) (sums k)).getD i 0 = if en (k + i) then (sums (k + i + 1)).getD 0 else 0 := by
  induction n generalizing k i with
  | zero => omega
  | succ n ih =>
    have htail : ∀ {j}, j < n → (scanGo t fmt en x (List.range' (k + 1) n) (sums (k + 1))).getD j 0 =
        if en (k + (j + 1)) then (sums (k + (j + 1) + 1)).getD 0 else 0 := fun hj => by
      rw [ih (k + 1) hj, Nat.add_assoc k 1, Nat.add_comm 1]
    have hk := hstep k
    rw [List.range'_succ, scanGo_cons]
    cases hen : en k with
    | true =>
      rw [hen, if_pos rfl] at hk
      cases i with
      | zero => simp [hen, hk]
      | succ j => simpa [hk] using htail (by omega)
    | false =>
      rw [hen, if_neg Bool.false_ne_true] at hk
      cases i with
      | zero => simp [hen]
      | succ j => simpa [hk] using htail (by omega)

/-- The sum of the enabled elements below an element, if there is any. -/
def sumBelow (w : Nat) (en : Nat → Bool) (x : Nat → Nat) (e : Nat) : Option Nat :=
  if (List.range e).filter en = [] then none else some ((((List.range e).filter en).map x).sum % 2 ^ w)

theorem sumBelow_succ {w : Nat} (sg : Bool) (fmt : W32) (en : Nat → Bool) {x : Nat → Nat} (hx : ∀ e, x e < 2 ^ w) (e : Nat) :
    sumBelow w en x (e + 1) = if en e then some (nextSum (.int w sg) fmt (sumBelow w en x e) (x e)) else sumBelow w en x e := by
  simp only [sumBelow, List.range_succ, List.filter_append, List.filter_singleton]
  cases hen : en e with
  | false => simp
  | true =>
    by_cases hnil : (List.range e).filter en = []
    · simp [hnil, nextSum, vLeaf, Nat.mod_eq_of_lt (hx e)]
    · simp [hnil, nextSum, vSum2_int]

/-- The elements of a range up to one of them. -/
theorem filter_le_range {n e : Nat} (he : e < n) : (List.range n).filter (fun i => decide (i ≤ e)) = List.range (e + 1) := by
  obtain ⟨m, rfl⟩ := Nat.exists_eq_add_of_le he
  rw [List.range_add, List.filter_append, List.filter_eq_self.mpr fun i hi => decide_eq_true (Nat.le_of_lt_succ (List.mem_range.mp hi)),
    List.filter_eq_nil_iff.mpr (by simp; omega), List.append_nil]

/-! ## Forms with their banks at hand -/

theorem vReduce_puts {o : VOp} {s : State} {t : ETy} {kind : Nat} {comb : ETy → W32 → Nat → Nat → Nat} (h : VReady o s t [])
    (hok : arithTypes.has t = true) :
    vReduce o kind comb s = .next (emit s 6 [.v (vDest o s) (lowMask 1024 (vBits o.w)) (BitVec.ofNat 1024
      ((treeRoot (comb t (me s).sys.fmt) (Nat.log2 (vBits o.w / etyBits t)) ((List.range (vBits o.w / etyBits t)).map fun e =>
        if enabledAt s o.g (e * (etyBits t / 8)) then some (vLeaf t (me s).sys.fmt (elemAt (vReg o s o.a) (etyBits t) e)) else none)).getD
          (emptyRoot t (me s).sys.fmt kind) % 2 ^ etyBits t))]) :=
  vOp_ready h.1 hok h.2

theorem execVscan_puts {o : VOp} {s : State} {t : ETy} (h : VReady o s t []) (hok : arithTypes.has t = true) {val : Nat → Nat}
    (hval : ∀ e < vBits o.w / etyBits t, (scanGo t (me s).sys.fmt (fun e => enabledAt s o.g (e * (etyBits t / 8)))
      (fun e => elemAt (vReg o s o.a) (etyBits t) e) (List.range (vBits o.w / etyBits t)) none).getD e 0 = val e) :
    execVscan o s = .next (emit s 6 [elemLand (vDest o s) (etyBits t / 8) (vBits o.w / etyBits t)
      (fun e => enabledAt s o.g (e * (etyBits t / 8))) val]) := by
  rw [← elemLand_congr hval]
  exact vOp_ready h.1 hok h.2

/-- The number of elements of an integer type is a power of two. -/
theorem pow_log2_vCount {w : Nat} {sg : Bool} (hw : (w, sg) ∈ intKinds) (width : BitVec 2) :
    2 ^ Nat.log2 (vBits width / w) = vBits width / w := by
  have hall : ∀ k ∈ intKinds, ∀ v : BitVec 2, 2 ^ Nat.log2 (vBits v / k.1) = vBits v / k.1 := by decide
  exact hall _ hw width

theorem ofInt_lt (w : Nat) (x : Int) : ofInt w x < 2 ^ w := by
  have hpos : (0 : Int) < 2 ^ w := by positivity
  have hmod := Int.emod_lt_of_pos x hpos
  have hnonneg := Int.emod_nonneg x hpos.ne'
  rw [ofInt, Int.toNat_lt hnonneg]
  exact_mod_cast hmod

/-- The root of an integer reduction, combined from the enabled elements. -/
theorem intReduce_puts {o : VOp} {s : State} {w : Nat} {sg : Bool} (hw : (w, sg) ∈ intKinds) (h : VReady o s (.int w sg) []) (kind : Nat)
    (comb : ETy → W32 → Nat → Nat → Nat) :
    ∃ r, NodeOf (comb (.int w sg) (me s).sys.fmt) r
        (((List.range (vBits o.w / w)).filter fun e => enabledAt s o.g (e * (w / 8))).map fun e => elemAt (vReg o s o.a) w e) ∧
      vReduce o kind comb s = .next (emit s 6 [.v (vDest o s) (lowMask 1024 (vBits o.w))
        (BitVec.ofNat 1024 (r.getD (emptyRoot (.int w sg) (me s).sys.fmt kind) % 2 ^ w))]) :=
  ⟨_, treeRoot_enabled (pow_log2_vCount hw o.w) _ _, vReduce_puts h (arithTypes_has_int w sg)⟩

/-- The sum of a node, 0 where no leaf is there. -/
theorem sum_of_node {w : Nat} {sg : Bool} {fmt : W32} {l : List Nat} {r : Option Nat} (h : NodeOf (vSum2 (.int w sg) fmt) r l)
    (hl : ∀ x ∈ l, x < 2 ^ w) : r.getD 0 = l.sum % 2 ^ w := by
  cases h with
  | absent => simp
  | value h => exact sum_of_combined h hl

theorem node_of_ne_nil {comb : Nat → Nat → Nat} {l : List Nat} {r : Option Nat} (h : NodeOf comb r l) (hl : l ≠ []) :
    ∃ x, r = some x ∧ Combined comb l x := by
  cases h with
  | absent => exact absurd rfl hl
  | value h => exact ⟨_, rfl, h⟩

theorem Combined.ne_nil {comb : Nat → Nat → Nat} {l : List Nat} {x : Nat} (h : Combined comb l x) : l ≠ [] := by
  induction h with
  | leaf => exact List.cons_ne_nil _ _
  | node _ _ ihl _ => exact List.append_ne_nil_of_left_ne_nil ihl _

theorem node_nil {comb : Nat → Nat → Nat} {r : Option Nat} (h : NodeOf comb r []) : r = none := by
  cases h with
  | absent => rfl
  | value h => exact absurd rfl h.ne_nil

/-! ## Empty reductions (R195) -/

theorem emptyRoot_int_greatest (w : Nat) (sg : Bool) (fmt : W32) : emptyRoot (.int w sg) fmt 1 = ofInt w (intMin w sg) := rfl

theorem emptyRoot_int_least (w : Nat) (sg : Bool) (fmt : W32) : emptyRoot (.int w sg) fmt 2 = ofInt w (intMax w sg) := rfl

theorem signPlace (f : FFmt) : 1 + f.e + f.m - 1 = f.e + f.m := by omega

theorem emptyRoot_flt_sum (f : FFmt) (fmt : W32) : emptyRoot (.flt f) fmt 0 = if rmOf fmt = 3 then 2 ^ (1 + f.e + f.m - 1) else 0 := by
  rw [signPlace, emptyRoot, signBit]
  simp

theorem emptyRoot_flt_greatest (f : FFmt) (fmt : W32) :
    emptyRoot (.flt f) fmt 1 = 2 ^ (1 + f.e + f.m - 1) + (2 ^ f.e - 1) * 2 ^ f.m := by
  rw [signPlace]
  rfl

theorem emptyRoot_flt_least (f : FFmt) (fmt : W32) : emptyRoot (.flt f) fmt 2 = (2 ^ f.e - 1) * 2 ^ f.m := rfl

/-- Settles O9: the tree combines the enabled elements, and for integers the sum and the extremes are those of the list of them. -/
theorem vectorReductions : Obligations.VectorReductions := by
  unfold Obligations.VectorReductions
  refine ⟨?integers, ?floats⟩
  case integers =>
    intro o s w sg hw _ h n x v on root
    have hx : ∀ e, x e < 2 ^ w := fun e => elemAt_lt _ w e
    have hmod : ∀ e, x e % 2 ^ w = x e := fun e => Nat.mod_eq_of_lt (hx e)
    obtain ⟨a, hadd, eadd⟩ := intReduce_puts hw h 0 fun t fmt a b => vSum2 t fmt a b
    obtain ⟨g, hmax, emax⟩ := intReduce_puts hw h 1 fun t _ a b => vPick t false a b
    obtain ⟨l, hmin, emin⟩ := intReduce_puts hw h 2 fun t _ a b => vPick t true a b
    change NodeOf _ a (on.map x) at hadd
    change NodeOf _ g (on.map x) at hmax
    change NodeOf _ l (on.map x) at hmin
    refine ⟨?add, ?greatest, ?least, ?empty, ?scan⟩
    case add =>
      have hsum : a.getD 0 = (on.map x).sum % 2 ^ w := sum_of_node hadd fun y hy => by
        obtain ⟨e, -, rfl⟩ := List.mem_map.mp hy
        exact hx e
      show execVredadd o s = _
      rw [execVredadd, eadd, emptyRoot, hsum, Nat.mod_mod]
    case greatest =>
      intro hne
      obtain ⟨r, rfl, hr⟩ := node_of_ne_nil hmax (by simpa using hne)
      obtain ⟨hmem, hgreatest⟩ := greatest_of_combined hr
      obtain ⟨e, he, rfl⟩ := List.mem_map.mp hmem
      refine ⟨e, he, fun i hi => hgreatest _ (List.mem_map_of_mem hi), ?_⟩
      show execVredmax o s = _
      rw [execVredmax, emax, Option.getD_some, hmod]
    case least =>
      intro hne
      obtain ⟨r, rfl, hr⟩ := node_of_ne_nil hmin (by simpa using hne)
      obtain ⟨hmem, hleast⟩ := least_of_combined hr
      obtain ⟨e, he, rfl⟩ := List.mem_map.mp hmem
      refine ⟨e, he, fun i hi => hleast _ (List.mem_map_of_mem hi), ?_⟩
      show execVredmin o s = _
      rw [execVredmin, emin, Option.getD_some, hmod]
    case empty =>
      intro hnil
      rw [hnil] at hmax hmin
      rw [node_nil hmax] at emax
      rw [node_nil hmin] at emin
      constructor
      · show execVredmax o s = _
        rw [execVredmax, emax, Option.getD_none, emptyRoot_int_greatest, Nat.mod_eq_of_lt (ofInt_lt _ _)]
      · show execVredmin o s = _
        rw [execVredmin, emin, Option.getD_none, emptyRoot_int_least, Nat.mod_eq_of_lt (ofInt_lt _ _)]
    case scan =>
      refine show execVscan o s = _ from execVscan_puts h (arithTypes_has_int w sg) fun e (he : e < n) => ?_
      have hscan := scanGo_getD (sumBelow_succ sg (me s).sys.fmt (fun e => enabledAt s o.g (e * (w / 8))) hx) 0 n he
      have hon : on.filter (fun i => decide (i ≤ e)) = (List.range (e + 1)).filter fun e => enabledAt s o.g (e * (w / 8)) := by
        rw [List.filter_comm, filter_le_range he]
      rw [List.range_eq_range', show (none : Option Nat) = sumBelow w (fun e => enabledAt s o.g (e * (w / 8))) x 0 from rfl]
      refine hscan.trans ?_
      rw [Nat.zero_add, hon]
      cases hen : enabledAt s o.g (e * (w / 8)) with
      | false => simp
      | true =>
        have hne : ((List.range (e + 1)).filter fun e => enabledAt s o.g (e * (w / 8))) ≠ [] :=
          List.ne_nil_of_mem (List.mem_filter.mpr ⟨List.self_mem_range_succ, hen⟩)
        simp only [sumBelow, if_neg hne, Option.getD_some, he, and_self, if_true]
  case floats =>
    intro o s f hf h w n fmt rnd x leaves add pick root
    have harith := arithTypes_has_flt hf
    refine ⟨?add, ?greatest, ?least, ?scan⟩
    case add =>
      show execVredadd o s = _
      rw [execVredadd, vReduce_puts h harith, emptyRoot_flt_sum]
      rfl
    case greatest =>
      show execVredmax o s = _
      rw [execVredmax, vReduce_puts h harith, emptyRoot_flt_greatest]
      rfl
    case least =>
      show execVredmin o s = _
      rw [execVredmin, vReduce_puts h harith, emptyRoot_flt_least]
      rfl
    case scan =>
      intro sums hzero hstep
      refine show execVscan o s = _ from execVscan_puts h harith fun e (he : e < n) => ?_
      have hnext : ∀ e, sums (e + 1) = if enabledAt s o.g (e * (w / 8)) then some (nextSum (.flt f) fmt (sums e) (x e)) else sums e := fun e => by
        rw [hstep]
        cases sums e <;> rfl
      rw [List.range_eq_range', ← hzero]
      refine (scanGo_getD hnext 0 n he).trans ?_
      simp only [Nat.zero_add, he, true_and]

end Sys2Proof.Reductions

/-! SUPPORT. The stable sort and the merging of equal values in `Condense` (spec/09 R211): what they keep of a list of points: O14. -/

namespace Sys2Proof.Condense

open Sys2Proof Sys2Proof.Machine

/-! ## The stable sort -/

theorem insertBy_perm {α : Type} (before : α → α → Bool) (x : α) (l : List α) : (insertBy before x l).Perm (x :: l) := by
  induction l with
  | nil => exact .refl _
  | cons y r ih =>
    rw [insertBy]
    split
    · exact .refl _
    · exact (ih.cons y).trans (.swap x y r)

theorem stableSort_perm {α : Type} (before : α → α → Bool) (l : List α) : (stableSort before l).Perm l := by
  have hfold : ∀ acc : List α, (l.foldl (fun acc x => insertBy before x acc) acc).Perm (l ++ acc) := by
    induction l with
    | nil => exact fun acc => .refl _
    | cons x r ih => exact fun acc => (ih _).trans (((insertBy_perm before x acc).append_left r).trans List.perm_middle)
  simpa [stableSort] using hfold []

section
variable {α : Type} (key : α → Int)

/-- The order in which a sort by a key leaves its entries. -/
def Ascending (l : List α) : Prop := l.Pairwise fun a b => key a ≤ key b

theorem insertBy_ascending {x : α} {l : List α} (h : Ascending key l) : Ascending key (insertBy (fun a b => decide (key a < key b)) x l) := by
  induction l with
  | nil => exact List.pairwise_singleton _ _
  | cons y r ih =>
    obtain ⟨hy, hr⟩ := List.pairwise_cons.mp h
    rw [insertBy]
    split
    · next hlt =>
      have hlt : key x < key y := of_decide_eq_true hlt
      refine List.pairwise_cons.mpr ⟨fun z hz => ?_, h⟩
      rcases List.mem_cons.mp hz with rfl | hz
      · exact hlt.le
      · exact hlt.le.trans (hy z hz)
    · next hge =>
      have hge : key y ≤ key x := by simpa using hge
      refine List.pairwise_cons.mpr ⟨fun z hz => ?_, ih hr⟩
      rcases List.mem_cons.mp ((insertBy_perm _ x r).mem_iff.mp hz) with rfl | hz
      · exact hge
      · exact hy z hz

theorem stableSort_ascending (l : List α) : Ascending key (stableSort (fun a b => decide (key a < key b)) l) := by
  have hfold : ∀ acc : List α, Ascending key acc → Ascending key (l.foldl (fun acc x => insertBy (fun a b => decide (key a < key b)) x acc) acc) := by
    induction l with
    | nil => exact fun acc h => h
    | cons x r ih => exact fun acc h => ih _ (insertBy_ascending key h)
  exact hfold [] List.Pairwise.nil

end

/-! ## Merging runs of equal values -/

/-- Merging a point with what the rest merged to: its mass joins that of an equal first value. -/
theorem mergeRuns_cons (p : Point) (r : List Point) :
    (∃ q t, mergeRuns r = q :: t ∧ p.1 = q.1 ∧ mergeRuns (p :: r) = (p.1, p.2 + q.2) :: t) ∨ mergeRuns (p :: r) = p :: mergeRuns r := by
  rw [mergeRuns]
  cases mergeRuns r with
  | nil => exact Or.inr rfl
  | cons q t =>
    by_cases h : p.1 = q.1
    · exact Or.inl ⟨q, t, rfl, h, by simp [h]⟩
    · exact Or.inr (by simp [h])

theorem mergeRuns_ne_nil {l : List Point} (h : l ≠ []) : mergeRuns l ≠ [] := by
  cases l with
  | nil => exact absurd rfl h
  | cons p r =>
    obtain ⟨q, t, -, -, he⟩ | he := mergeRuns_cons p r <;> simp [he]

theorem length_mergeRuns_le (l : List Point) : (mergeRuns l).length ≤ l.length := by
  induction l with
  | nil => exact Nat.le_refl _
  | cons p r ih =>
    obtain ⟨q, t, hr, -, he⟩ | he := mergeRuns_cons p r
    · rw [hr] at ih
      rw [he]
      simp only [List.length_cons] at ih ⊢
      omega
    · simpa [he] using ih

theorem sum_mergeRuns (l : List Point) : ((mergeRuns l).map Prod.snd).sum = (l.map Prod.snd).sum := by
  induction l with
  | nil => rfl
  | cons p r ih =>
    obtain ⟨q, t, hr, -, he⟩ | he := mergeRuns_cons p r
    · rw [hr] at ih
      simp only [he, List.map_cons, List.sum_cons] at ih ⊢
      omega
    · simp [he, ih]

/-- Every value of the merged list stands in the list. -/
theorem value_of_mem_mergeRuns {l : List Point} {x : Point} (h : x ∈ mergeRuns l) : ∃ y ∈ l, x.1 = y.1 := by
  induction l generalizing x with
  | nil => cases h
  | cons p r ih =>
    obtain ⟨q, t, hr, -, he⟩ | he := mergeRuns_cons p r
    · rw [he] at h
      rcases List.mem_cons.mp h with rfl | h
      · exact ⟨p, List.mem_cons_self, rfl⟩
      · obtain ⟨y, hy, hxy⟩ := ih (hr ▸ List.mem_cons_of_mem q h)
        exact ⟨y, List.mem_cons_of_mem p hy, hxy⟩
    · rw [he] at h
      rcases List.mem_cons.mp h with rfl | h
      · exact ⟨x, List.mem_cons_self, rfl⟩
      · obtain ⟨y, hy, hxy⟩ := ih h
        exact ⟨y, List.mem_cons_of_mem p hy, hxy⟩

/-- A property of masses that sums keep holds of the merged masses. -/
theorem mass_of_mem_mergeRuns {P : Nat → Prop} (hadd : ∀ m n, P m → P n → P (m + n)) {l : List Point} (hl : ∀ y ∈ l, P y.2) :
    ∀ x ∈ mergeRuns l, P x.2 := by
  induction l with
  | nil => exact hl
  | cons p r ih =>
    obtain ⟨hp, hr⟩ := List.forall_mem_cons.mp hl
    obtain ⟨q, t, hq, -, he⟩ | he := mergeRuns_cons p r
    · have ht := ih hr
      rw [hq] at ht
      obtain ⟨hq, ht⟩ := List.forall_mem_cons.mp ht
      rw [he]
      exact List.forall_mem_cons.mpr ⟨hadd _ _ hp hq, ht⟩
    · rw [he]
      exact List.forall_mem_cons.mpr ⟨hp, ih hr⟩

theorem mergeRuns_ascending {key : Nat → Int} {l : List Point} (h : Ascending (fun p => key p.1) l) : Ascending (fun p => key p.1) (mergeRuns l) := by
  induction l with
  | nil => exact List.Pairwise.nil
  | cons p r ih =>
    obtain ⟨hp, hr⟩ := List.pairwise_cons.mp h
    have hfirst : ∀ x ∈ mergeRuns r, key p.1 ≤ key x.1 := fun x hx => by
      obtain ⟨y, hy, hxy⟩ := value_of_mem_mergeRuns hx
      rw [hxy]
      exact hp y hy
    obtain ⟨q, t, hq, -, he⟩ | he := mergeRuns_cons p r
    · rw [he]
      rw [hq] at hfirst ih
      exact List.pairwise_cons.mpr ⟨fun x hx => hfirst x (List.mem_cons_of_mem q hx), (List.pairwise_cons.mp (ih hr)).2⟩
    · rw [he]
      exact List.pairwise_cons.mpr ⟨hfirst, ih hr⟩

/-- Settles O14: the eight bins have a mass of 4,096 each; sorting permutes them, and merging keeps the sum and the order. -/
theorem condenseGivesAPopulatedElement : Obligations.CondenseGivesAPopulatedElement := by
  unfold Obligations.CondenseGivesAPopulatedElement
  intro rm sat t c p
  let sorted := stableSort (fun a b => exBefore a.1 b.1) c
  let bins : List Point := (List.range 8).map fun k => (binValue rm sat (t / 8) k sorted 0 [], 4096)
  let order : List Point := stableSort (fun a b => decide (orderKey fp32 a.1 < orderKey fp32 b.1)) bins
  have hperm : order.Perm bins := stableSort_perm _ _
  have hlen : order.length = 8 := hperm.length_eq.trans (by simp [bins])
  have hsum : (order.map Prod.snd).sum = 32768 := (hperm.map Prod.snd).sum_eq.trans (by simp [bins, Function.comp_def])
  have hmass : ∀ q ∈ order, 0 < q.2 ∧ q.2 % 4096 = 0 := fun q hq => by
    obtain ⟨k, -, rfl⟩ := List.mem_map.mp (hperm.mem_iff.mp hq)
    exact ⟨Nat.zero_lt_succ 4095, Nat.mod_self 4096⟩
  have hp : p = mergeRuns order := rfl
  rw [hp]
  refine ⟨List.length_pos_iff.mpr (mergeRuns_ne_nil (List.ne_nil_of_length_pos (by omega))), hlen ▸ length_mergeRuns_le order,
    (sum_mergeRuns order).trans hsum, mass_of_mem_mergeRuns (P := fun m => 0 < m ∧ m % 4096 = 0) (fun m n hm hn => ⟨by omega, by omega⟩) hmass,
    mergeRuns_ascending (stableSort_ascending (fun q => orderKey fp32 q.1) bins)⟩

end Sys2Proof.Condense

/-! SUPPORT. What an earlier outstanding access keeps a later one from (spec/11 R245-R249), what memory holds after bytes were
written, and a task's first access to a scratchpad block (spec/16 R364): O21, O22. -/

namespace Sys2Proof.AccessOrder

open Sys2Proof Sys2Proof.Machine Sys2Proof.Laws

/-! ## Outstanding order -/

/-- An earlier entry of the same task that blocks an entry keeps it from performing. -/
theorem not_canPerform_of_blocks {s : State} {core m n : Nat} {p e : Acc} (hp : (getCore s core).acc[m]? = some p)
    (he : (getCore s core).acc[n]? = some e) (hmn : m < n) (htask : p.task = e.task) (hblocks : blocksAcc s p e = true) :
    canPerform s core n = false := by
  have hmem : p ∈ (getCore s core).acc.take n := List.mem_of_getElem? (by rw [List.getElem?_take_of_lt hmn, hp])
  have horder : orderOk s core n e = false := by
    rw [orderOk, Bool.and_eq_false_iff]
    exact Or.inl (List.all_eq_false.mpr ⟨p, hmem, by simp [htask, hblocks]⟩)
  simp [canPerform, he, horder]

/-- What an earlier load or store keeps a load or store of a later bundle from (R246, R247). -/
theorem blocksAcc_of_later {s : State} {p e : Acc} (hp : p.kind ∈ [.load, .store]) (he : e.kind ∈ [.load, .store]) (hlater : p.no < e.no) :
    blocksAcc s p e = (p.win && e.win && p.id != e.id || shareByte p e || p.acq.isSome ||
      match e.rel with | some sc => !releasedAt p sc | none => false) := by
  have hno : decide (p.no < e.no) = true := decide_eq_true hlater
  simp only [List.mem_cons, List.not_mem_nil, or_false] at hp he
  rcases hp with hp | hp <;> rcases he with he | he <;> cases hrel : e.rel <;>
    simp [blocksAcc, hp, he, hno, hrel, holdsLater, sameFlow, isLoadAcc]

/-- A `FENCE` holds back the accesses of later bundles that its successors name (R249). -/
theorem blocksAcc_of_fence {s : State} {f e : Acc} {pred succ : BitVec 6} {scope : Nat} (hf : f.kind = .fence pred succ scope)
    (hlater : f.no < e.no) (hsucc : succ &&& kindBits e.kind ≠ 0) : blocksAcc s f e = true := by
  simpa [blocksAcc, hf, hlater] using hsucc

/-- The bit of a `FENCE`'s mask that names loads or stores. -/
theorem and_kindBits_ne_zero {k : AccKind} (hk : k ∈ [.load, .store]) {succ : BitVec 6} (h : succ.getLsbD (if k = .load then 0 else 1) = true) :
    succ &&& kindBits k ≠ 0 := by
  simp only [List.mem_cons, List.not_mem_nil, or_false] at hk
  intro hzero
  have hbit := congrArg (fun x : BitVec 6 => x.getLsbD (if k = .load then 0 else 1)) hzero
  rcases hk with rfl | rfl <;> simp [kindBits] at h hbit <;> simp [h] at hbit

/-- Settles O21: each clause is one disjunct of what the earlier entry blocks. -/
theorem orderOfOutstandingAccesses : Obligations.OrderOfOutstandingAccesses := by
  unfold Obligations.OrderOfOutstandingAccesses
  intro s core m n p e hp he hmn htask hpk hek hlater
  have blocked := not_canPerform_of_blocks hp he hmn htask
  have hblocks := blocksAcc_of_later (s := s) hpk hek hlater
  refine ⟨?window, ?share, ?acquire, ?release, ?fence⟩
  case window =>
    intro hpw hew hid
    exact blocked (by simp [hblocks, hpw, hew, hid])
  case share =>
    intro hmt hlo hhi
    exact blocked (by simp [hblocks, shareByte, hmt, hlo, hhi])
  case acquire =>
    intro hacq
    exact blocked (by simp [hblocks, hacq])
  case release =>
    intro sc hrel hout
    exact blocked (by simp [hblocks, hrel, hout])
  case fence =>
    intro q f pred succ scope hf hq hftask hfk hfno hsucc
    exact not_canPerform_of_blocks hf he hq hftask (blocksAcc_of_fence hfk hfno (and_kindBits_ne_zero hek hsucc))

/-! ## Bytes written and read -/

/-- A byte after a run of bytes was written. -/
theorem cellGet_cellsSet {m : List Host.Cell} (hm : Memory.wf m = true) (a : Nat) (b : List Byte) (x : Nat) :
    cellGet (cellsSet m a b) x = if a ≤ x ∧ x < a + b.length then b.getD (x - a) 0 else cellGet m x := by
  induction b generalizing m a with
  | nil => simp [cellsSet, show ¬ (a ≤ x ∧ x < a) by omega]
  | cons y r ih =>
    rw [cellsSet, ih (wf_cellSet m a y hm) (a + 1), cellGet_cellSet m a x y hm, List.length_cons]
    by_cases hx : x = a
    · subst hx
      simp
    · by_cases hin : a + 1 ≤ x ∧ x < a + 1 + r.length
      · have hsub : x - a = x - (a + 1) + 1 := by omega
        rw [if_pos hin, if_pos (by omega), hsub, List.getD_cons_succ]
      · rw [if_neg hin, if_neg hx, if_neg (by omega)]

/-! ## First touches -/

theorem blockOwnerOf_touchBlock {s : State} {u hearth block : Nat} (hown : blockOwnerOf s hearth block ≠ some u) (h b : Nat) :
    blockOwnerOf (touchBlock s u hearth block) h b = if h = hearth ∧ b = block then some u else blockOwnerOf s h b := by
  rw [touchBlock, if_neg hown, blockOwnerOf, getHearth_modHearth]
  by_cases hh : h = hearth
  · subst hh
    simp [tabGet_tabSet, blockOwnerOf, zeroBlock, getHearth]
  · simp [hh, blockOwnerOf, zeroBlock, getHearth]

theorem cellGet_touchBlock {s : State} {u hearth block : Nat} (hown : blockOwnerOf s hearth block ≠ some u) (a : Nat) :
    cellGet (touchBlock s u hearth block).mem a =
      if scratchOff hearth (block * 4096) ≤ a ∧ a < scratchOff hearth (block * 4096) + 4096 then 0 else cellGet s.mem a := by
  rw [touchBlock, if_neg hown, modHearth_mem, cellGet_zeroBlock]
  by_cases hin : scratchOff hearth (block * 4096) ≤ a ∧ a < scratchOff hearth (block * 4096) + 4096
  · rw [if_pos hin, if_neg (by omega)]
  · rw [if_neg hin, if_pos (by omega)]

/-- Settles O22: a run of bytes by induction, a first touch by the range that it removes from memory. -/
theorem memoryReadAfterWrite : Obligations.MemoryReadAfterWrite := by
  unfold Obligations.MemoryReadAfterWrite
  constructor
  · intro m a b hm
    refine ⟨wf_cellsSet m a b hm, fun i hi => ?_, fun x hx => ?_⟩
    · rw [cellGet_cellsSet hm, if_pos (by omega), Nat.add_sub_cancel_left]
    · rw [cellGet_cellsSet hm, if_neg (by omega)]
  · intro s u hearth block _ _ hown t k
    have howner := blockOwnerOf_touchBlock hown
    have hself : blockOwnerOf t hearth block = some u := by rw [howner, if_pos ⟨rfl, rfl⟩]
    refine ⟨fun a => cellGet_touchBlock hown a, hself, ?_, fun h b hne => ?_⟩
    · rw [touchBlock, if_pos hself]
    · rw [howner, if_neg fun heq => hne (Prod.ext heq.1 heq.2)]

end Sys2Proof.AccessOrder

/-! SUPPORT. The F slot (spec/08 R203 to R206, spec/09): the special functions with FT at hand or reserved, random bits and copies, and
the forms of the distribution operations once their guard is true: O12, O13. -/

namespace Sys2Proof.FSlot

open Sys2Proof Sys2Proof.Machine Sys2Proof.Laws Sys2Proof.Immediates

/-! ## Special functions, random bits and copies -/

theorem ftOf_zero {fmt : W32} (h : (fmt.extractLsb' 20 3).toNat = 0) : ftOf fmt = some fp32 := by
  rw [ftOf, h]
  rfl

theorem ftOf_one {fmt : W32} (h : (fmt.extractLsb' 20 3).toNat = 1) : ftOf fmt = some bf16 := by
  rw [ftOf, h]
  rfl

theorem ftOf_two {fmt : W32} (h : (fmt.extractLsb' 20 3).toNat = 2) : ftOf fmt = some fp16 := by
  rw [ftOf, h]
  rfl


/-- The codes 3 to 7 of FT are reserved (spec/05 R92). -/
theorem ftOf_reserved {fmt : W32} (h : 3 ≤ (fmt.extractLsb' 20 3).toNat) : ftOf fmt = none := by
  obtain ⟨n, hn⟩ := Nat.exists_eq_add_of_le' h
  rw [ftOf, hn]
  rfl

theorem fTrans_reserved {o : FOp} {s : State} (fn : Fn) (h : guardOn s o.g = true) (hft : ftOf (me s).sys.fmt = none) :
    fTrans o fn s = .next (slotTrap s 10 0x09 0 (BitVec.ofNat 32 ((me s).sys.fmt.extractLsb' 20 3).toNat)) := by
  simp only [fTrans, guarded_on h, hft]

theorem fTrans_rounds {o : FOp} {s : State} {f : FFmt} (fn : Fn) (h : guardOn s o.g = true) (hft : ftOf (me s).sys.fmt = some f) :
    fTrans o fn s = .next (emit s 14 [.w o.d.toNat (BitVec.allOnes 1024)
      (BitVec.ofNat 1024 (packElems (1 + f.e + f.m) ((List.range (1024 / (1 + f.e + f.m))).map (fun e =>
        fnRound fn f (rmOf (me s).sys.fmt) (satOf (me s).sys.fmt) (elemAt (seeW s (me s) o.a.toNat).toNat (1 + f.e + f.m) e)))))]) := by
  simp only [fTrans, guarded_on h, hft, emit1]

/-- `FMOVX` once the bank that it writes, if any, is at hand. -/
theorem execFmovx_puts {o : FOp} {s : State} (h : guardOn s o.g = true) (hb : BanksReady s (copyBanks o.b.toNat)) :
    execFmovx o s = .next (emit s 2 [copyLand s o.b.toNat o.d (BitVec.allOnes 1024) (BitVec.allOnes 1024) (seeW s (me s) o.a.toNat)]) := by
  rw [execFmovx, if_pos h, needBanks_ready hb]

/-- The low 64 bits of a w register, as a number. -/
theorem extractLow_eq_ofNat (a : W1024) : a.extractLsb' 0 64 = BitVec.ofNat 64 a.toNat := by
  rw [← BitVec.setWidth_eq_extractLsb' (by decide), BitVec.ofNat_toNat]

/-- Settles O12: each special function by its form, for FT reserved and for FT at hand. -/
theorem specialFunctionsAndRandomBits : Obligations.SpecialFunctionsAndRandomBits := by
  unfold Obligations.SpecialFunctionsAndRandomBits
  constructor
  · intro o s h fmt code
    refine ⟨ftOf_zero, ftOf_one, ftOf_two, ?reserved, ?rounds⟩
    case reserved =>
      intro hcode i hi
      have traps := fun fn => fTrans_reserved (o := o) fn h (ftOf_reserved hcode)
      simp only [List.mem_cons, List.not_mem_nil, or_false] at hi
      rcases hi with rfl | rfl | rfl | rfl | rfl | rfl | rfl | rfl | rfl
      exacts [traps .exp2, traps .log2, traps .rcp, traps .rsq, traps .sinpi, traps .cospi, traps .tanh, traps .sigm, traps .erf]
    case rounds =>
      intro f hft w x put
      have rounds : ∀ fn, fTrans o fn s = put fn := fun fn => fTrans_rounds fn h hft
      exact ⟨rounds .exp2, rounds .log2, rounds .rcp, rounds .rsq, rounds .sinpi, rounds .cospi, rounds .tanh, rounds .sigm, rounds .erf⟩
  · intro o s h y a
    refine ⟨show execFrand o s = _ from guarded_on h, ?x, ?y, ?vector⟩
    case x =>
      intro hb
      rw [← extractLow_eq_ofNat]
      exact show execFmovx o s = _ from (execFmovx_puts h (by rw [hb]; exact nofun)).trans (by rw [hb]; rfl)
    case y =>
      intro hb
      rw [← extractLow_eq_ofNat]
      exact show execFmovx o s = _ from (execFmovx_puts h (by rw [hb]; exact nofun)).trans (by rw [hb]; rfl)
    case vector =>
      intro f hf hb hready
      show execFmovx o s = _
      rw [execFmovx_puts h (copyBanks_vector hf hb ▸ hready), copyLand_vector s o.d _ _ _ hf hb]

/-! ## Distribution operations -/

section
variable {o : FOp} {s : State}

theorem dOp_puts {bound : Nat} {f : State → Core → BitVec 2 → Bool → Land} (h : guardOn s o.g = true) :
    dOp o bound f s = .next (emit s bound [f s (me s) (rmOf (me s).sys.fmt) (satOf (me s).sys.fmt)]) := guarded_on h

/-- A binary operation gives an element where both operands have one (R213). -/
theorem dBinary_puts {op : BitVec 2 → Ex → Ex → Ex} (h : guardOn s o.g = true) :
    let rm := rmOf (me s).sys.fmt
    let sat := satOf (me s).sys.fmt
    let ta := seeTag s (me s) o.a.toNat
    let tb := seeTag s (me s) o.b.toNat
    dBinary o op s = .next (emit s 28 [dLand o.d (imageOf ((List.range 16).map (fun e =>
      (canon rm sat (seeD s (me s) o.a.toNat).toNat e).bind (fun p => (canon rm sat (seeD s (me s) o.b.toNat).toNat e).map (fun q =>
        condense rm sat (if ta &&& tb != 0 then 32768 else 2 ^ 30) (pairing (ta &&& tb != 0) (op rm) p q)))))) (ta ||| tb)]) := by
  intro rm sat ta tb
  rw [dBinary, dOp_puts h]
  refine congrArg (fun g => Host.Outcome.next (emit s 28 [dLand o.d (imageOf ((List.range 16).map g)) (ta ||| tb)])) (funext fun e => ?_)
  cases canon rm sat (seeD s (me s) o.a.toNat).toNat e <;> cases canon rm sat (seeD s (me s) o.b.toNat).toNat e <;> rfl

theorem dUnary_puts {bound : Nat} {f : State → Core → BitVec 2 → Bool → Nat → List Point → List Point} (h : guardOn s o.g = true) :
    dUnary o bound f s = .next (emit s bound [dLand o.d (imageOf ((List.range 16).map (fun e =>
      (canon (rmOf (me s).sys.fmt) (satOf (me s).sys.fmt) (seeD s (me s) o.a.toNat).toNat e).map
        (f s (me s) (rmOf (me s).sys.fmt) (satOf (me s).sys.fmt) e)))) (seeTag s (me s) o.a.toNat)]) := dOp_puts h

/-- A read-out gives NaN where the element is empty (R221). -/
theorem dRead_puts {off : Nat} {f : State → Core → BitVec 2 → Bool → Nat → List Point → Nat} (h : guardOn s o.g = true) :
    dRead o off f s = .next (emit s 12 [.w o.d.toNat (BitVec.ofNat 1024 (onesAt (8 * off) 512))
      (BitVec.ofNat 1024 (packElems 32 ((List.range 16).map (fun e =>
        ((canon (rmOf (me s).sys.fmt) (satOf (me s).sys.fmt) (seeD s (me s) o.a.toNat).toNat e).map
          (f s (me s) (rmOf (me s).sys.fmt) (satOf (me s).sys.fmt) e)).getD nan32)) <<< (8 * off)))]) := by
  rw [dRead, dOp_puts h]
  refine congrArg (fun g => Host.Outcome.next (emit s 12 [.w o.d.toNat (BitVec.ofNat 1024 (onesAt (8 * off) 512))
    (BitVec.ofNat 1024 (packElems 32 ((List.range 16).map g) <<< (8 * off)))])) (funext fun e => ?_)
  cases canon (rmOf (me s).sys.fmt) (satOf (me s).sys.fmt) (seeD s (me s) o.a.toNat).toNat e <;> rfl

end

/-- An element of a register's number, as a field of the register. -/
theorem ofNat_elemAt {n : Nat} (img : BitVec n) (w k : Nat) : BitVec.ofNat w (elemAt img.toNat w k) = img.extractLsb' (k * w) w := by
  apply BitVec.eq_of_toNat_eq
  rw [elemAt, BitVec.extractLsb'_toNat, BitVec.toNat_ofNat, Nat.mod_mod]

/-- Settles O13: each operation's form with its guard true. -/
theorem distributionOperations : Obligations.DistributionOperations := by
  unfold Obligations.DistributionOperations
  refine ⟨fun o s h => ?points, fun o s h => ?builders, fun o s h => ?readouts⟩
  case points =>
    exact ⟨show execDadd o s = _ from dBinary_puts h, show execDsub o s = _ from dBinary_puts h, show execDmul o s = _ from dBinary_puts h,
      show execDmax o s = _ from dBinary_puts h, show execDmin o s = _ from dBinary_puts h, show execDaff o s = _ from dUnary_puts h,
      show execDmap o s = _ from dUnary_puts h⟩
  case builders =>
    intro c rm sat img w put all
    refine ⟨show execDpt o s = _ from dOp_puts h, ?dfrom, show execDtag o s = _ from dOp_puts h, ?dtags, ?dcanon,
      show execDmov o s = _ from dOp_puts h⟩
    case dfrom =>
      intro m f n hm hn hf
      subst hm hn hf
      exact show execDfrom o s = _ from dOp_puts h
    case dtags =>
      rw [BitVec.ofNat_toNat]
      exact show execDtags o s = _ from dOp_puts h
    case dcanon =>
      show execDcanon o s = _
      rw [execDcanon, dUnary_puts h]
      simp only [Option.map_id']
      rfl
  case readouts =>
    intro c rm sat img b read raw
    refine ⟨?dmom, show execDqnt o s = _ from dRead_puts h, show execDcdf o s = _ from dRead_puts h, ?low, ?high, ?tags⟩
    case dmom =>
      show execDmom o s = _
      rw [execDmom, dRead_puts h, ← Nat.mul_assoc]
    case low =>
      intro hb
      show execDsupp o s = _
      rw [execDsupp, dOp_puts h, Nat.div_eq_of_lt hb]
      exact congrArg raw ((ofNat_elemAt img 1024 _).trans (by rw [Nat.mul_comm]))
    case high =>
      intro hlo hhi
      show execDsupp o s = _
      rw [execDsupp, dOp_puts h, show o.b.toNat / 8 = 1 by omega]
      exact congrArg raw ((ofNat_elemAt img 1024 _).trans (by rw [Nat.add_mul, Nat.mul_comm (_ % 8)]))
    case tags =>
      intro hb
      show execDsupp o s = _
      rw [execDsupp, dOp_puts h, hb, BitVec.ofNat_toNat]
      rfl

end Sys2Proof.FSlot

/-! SUPPORT. What reading through the caches, sending a packet and a first touch may change: the dies' caches and the ports, or the
scratchpads with their owners and the host's answers. Every other part of the state follows from these two statements. -/

namespace Sys2Proof.Frames

open Sys2Proof Sys2Proof.Machine Sys2Proof.Laws

/-! ## Caches and packets -/

/-- `t` differs from `s` in the dies' caches and the ports at most. -/
def CacheOnly (s t : State) : Prop := ∃ d p, t = { s with dies := d, ports := p }

theorem CacheOnly.refl (s : State) : CacheOnly s s := ⟨s.dies, s.ports, rfl⟩

theorem CacheOnly.trans {s t u : State} (h : CacheOnly s t) (k : CacheOnly t u) : CacheOnly s u := by
  obtain ⟨d, p, rfl⟩ := h
  obtain ⟨d', p', rfl⟩ := k
  exact ⟨d', p', rfl⟩

theorem cacheOnly_modDie (s : State) (die : Nat) (f : Die → Die) : CacheOnly s (modDie s die f) := ⟨_, s.ports, rfl⟩

theorem cacheOnly_packetOut (s : State) (die pa : Nat) (w : List (Nat × Byte)) : CacheOnly s (packetOut s die pa w) := by
  unfold packetOut
  dsimp only
  split
  · exact .refl s
  · exact ⟨s.dies, _, rfl⟩

theorem cacheOnly_sendPacket (s : State) (die pa : Nat) (b : List Byte) : CacheOnly s (sendPacket s die pa b) := cacheOnly_packetOut ..

theorem cacheOnly_sendRequest (s : State) (die mt pa : Nat) : CacheOnly s (sendRequest s die mt pa) := by
  unfold sendRequest
  split
  · exact .refl s
  · exact cacheOnly_packetOut ..

theorem cacheOnly_takeLine (s : State) (die mt pa : Nat) : CacheOnly s (takeLine s die mt pa) := by
  unfold takeLine
  split
  · exact .refl s
  · dsimp only
    split <;> split <;> exact ⟨_, s.ports, rfl⟩

theorem cacheOnly_shareLine (s : State) (die mt pa : Nat) : CacheOnly s (shareLine s die mt pa) := by
  unfold shareLine
  split
  · exact .refl s
  · dsimp only
    split <;> split <;> exact ⟨_, s.ports, rfl⟩

theorem cacheOnly_dropCopies (s : State) (die : Nat) : CacheOnly s (dropCopies s die) := cacheOnly_modDie ..

/-- A read through a die's cache may leave or drop a copy and sends its request. -/
theorem cacheOnly_readCached (s : State) (die mt pa n : Nat) : CacheOnly s (readCached s die mt pa n).2 := by
  unfold readCached
  split
  · dsimp only
    split
    · split
      · exact .refl s
      · exact (cacheOnly_modDie s die _).trans (cacheOnly_sendRequest ..)
    · split
      · split
        · exact (cacheOnly_modDie s die _).trans (cacheOnly_sendRequest ..)
        · exact cacheOnly_sendRequest ..
      · exact .refl s
  · split
    · exact .refl s
    · exact (cacheOnly_sendRequest s die mt pa).trans (cacheOnly_shareLine ..)

theorem cacheOnly_foldl {α β : Type} (l : List α) (st : β → State) (f : β → α → β) (hf : ∀ b a, CacheOnly (st b) (st (f b a))) (b : β) :
    CacheOnly (st b) (st (l.foldl f b)) := by
  induction l generalizing b with
  | nil => exact .refl _
  | cons a r ih => exact (hf b a).trans (ih _)

theorem cacheOnly_readLine (s : State) (die mt pa : Nat) : CacheOnly s (readLine s die mt pa).2 := by
  unfold readLine
  refine cacheOnly_foldl _ Prod.snd _ (fun a o => ?_) (Except.ok [], s)
  split
  · exact .refl _
  · have hread := cacheOnly_readCached a.2 die mt (pa + o) 32
    split <;> simp_all

/-- Copies in the issuing die's cache alone go when stores are issued (spec/10 R237). -/
theorem cacheOnly_invalidateAt (s : State) (l : List Placed) : CacheOnly s (invalidateAt s l) := by
  refine cacheOnly_foldl l id _ (fun a p => ?_) s
  dsimp only [id]
  split
  · exact cacheOnly_modDie ..
  · exact .refl _

/-! ## First touches -/

/-- `t` differs from `s` in the scratchpads, their owners and the host's answers at most. -/
def TouchOnly (s t : State) : Prop := ∃ h m e a, t = { s with hearths := h, mem := m, eccBad := e, ats := a }

theorem TouchOnly.refl (s : State) : TouchOnly s s := ⟨s.hearths, s.mem, s.eccBad, s.ats, rfl⟩

theorem TouchOnly.trans {s t u : State} (h : TouchOnly s t) (k : TouchOnly t u) : TouchOnly s u := by
  obtain ⟨h, m, e, a, rfl⟩ := h
  obtain ⟨h', m', e', a', rfl⟩ := k
  exact ⟨h', m', e', a', rfl⟩

theorem touchOnly_touchBlock (s : State) (u hearth block : Nat) : TouchOnly s (touchBlock s u hearth block) := by
  unfold touchBlock
  split
  · exact .refl s
  · exact ⟨_, _, _, s.ats, rfl⟩

theorem touchOnly_noteHost (s : State) (hearth ctx va : Nat) : TouchOnly s (noteHost s hearth ctx va) := by
  obtain ⟨a, e⟩ := noteHost_eq s hearth ctx va
  exact ⟨s.hearths, s.mem, s.eccBad, a, e⟩

theorem touchOnly_touchAll (s : State) (l : List Placed) : TouchOnly s (touchAll s l) := by
  unfold touchAll
  split
  · exact .refl s
  · rename_i u hu
    clear hu
    induction l generalizing s with
    | nil => exact .refl s
    | cons p r ih =>
      refine TouchOnly.trans ?_ (ih _)
      dsimp only
      split
      · exact touchOnly_touchBlock ..
      · split
        · exact touchOnly_noteHost ..
        · exact .refl s

@[simp] theorem touchAll_cores (s : State) (l : List Placed) : (touchAll s l).cores = s.cores := by
  obtain ⟨h, m, e, a, heq⟩ := touchOnly_touchAll s l
  rw [heq]
@[simp] theorem touchAll_cur (s : State) (l : List Placed) : (touchAll s l).cur = s.cur := by
  obtain ⟨h, m, e, a, heq⟩ := touchOnly_touchAll s l
  rw [heq]
@[simp] theorem touchAll_tick (s : State) (l : List Placed) : (touchAll s l).tick = s.tick := by
  obtain ⟨h, m, e, a, heq⟩ := touchOnly_touchAll s l
  rw [heq]
@[simp] theorem touchAll_tasks (s : State) (l : List Placed) : (touchAll s l).tasks = s.tasks := by
  obtain ⟨h, m, e, a, heq⟩ := touchOnly_touchAll s l
  rw [heq]
@[simp] theorem touchAll_hostMem (s : State) (l : List Placed) : (touchAll s l).hostMem = s.hostMem := by
  obtain ⟨h, m, e, a, heq⟩ := touchOnly_touchAll s l
  rw [heq]
@[simp] theorem invalidateAt_cores (s : State) (l : List Placed) : (invalidateAt s l).cores = s.cores := by
  obtain ⟨d, p, heq⟩ := cacheOnly_invalidateAt s l
  rw [heq]
@[simp] theorem invalidateAt_cur (s : State) (l : List Placed) : (invalidateAt s l).cur = s.cur := by
  obtain ⟨d, p, heq⟩ := cacheOnly_invalidateAt s l
  rw [heq]
@[simp] theorem invalidateAt_tick (s : State) (l : List Placed) : (invalidateAt s l).tick = s.tick := by
  obtain ⟨d, p, heq⟩ := cacheOnly_invalidateAt s l
  rw [heq]
@[simp] theorem invalidateAt_tasks (s : State) (l : List Placed) : (invalidateAt s l).tasks = s.tasks := by
  obtain ⟨d, p, heq⟩ := cacheOnly_invalidateAt s l
  rw [heq]
@[simp] theorem invalidateAt_mem (s : State) (l : List Placed) : (invalidateAt s l).mem = s.mem := by
  obtain ⟨d, p, heq⟩ := cacheOnly_invalidateAt s l
  rw [heq]
@[simp] theorem invalidateAt_hostMem (s : State) (l : List Placed) : (invalidateAt s l).hostMem = s.hostMem := by
  obtain ⟨d, p, heq⟩ := cacheOnly_invalidateAt s l
  rw [heq]

/-! ## What is read off the cores and the tasks -/

theorem getCore_congr {s t : State} (h : t.cores = s.cores) (c : Nat) : getCore t c = getCore s c := by rw [getCore, getCore, h]

theorem taskOf_congr {s t : State} (hcores : t.cores = s.cores) (htasks : t.tasks = s.tasks) (c : Nat) : taskOf t c = taskOf s c := by
  rw [taskOf, taskOf, getCore_congr hcores, htasks]

theorem nowOf_congr {s t : State} (hcores : t.cores = s.cores) (htasks : t.tasks = s.tasks) (c : Nat) : nowOf t c = nowOf s c := by
  rw [nowOf, nowOf, vccOf, vccOf, taskOf_congr hcores htasks, getCore_congr hcores]

theorem greenOf_congr {s t : State} (hcores : t.cores = s.cores) (htasks : t.tasks = s.tasks) (c : Nat) : greenOf t c = greenOf s c := by
  rw [greenOf, greenOf, taskOf_congr hcores htasks]

theorem me_congr {s t : State} (hcores : t.cores = s.cores) (hcur : t.cur = s.cur) : me t = me s := by
  rw [me, me, getCore_congr hcores, hcur]

@[simp] theorem me_touchAll (s : State) (l : List Placed) : me (touchAll s l) = me s := me_congr (touchAll_cores s l) (touchAll_cur s l)
@[simp] theorem me_invalidateAt (s : State) (l : List Placed) : me (invalidateAt s l) = me s :=
  me_congr (invalidateAt_cores s l) (invalidateAt_cur s l)
@[simp] theorem me_modTask (s : State) (u : Nat) (f : Task → Task) : me (modTask s u f) = me s := me_congr (by simp) (by simp)
@[simp] theorem nowOf_touchAll (s : State) (l : List Placed) (c : Nat) : nowOf (touchAll s l) c = nowOf s c :=
  nowOf_congr (touchAll_cores s l) (touchAll_tasks s l) c
@[simp] theorem nowOf_invalidateAt (s : State) (l : List Placed) (c : Nat) : nowOf (invalidateAt s l) c = nowOf s c :=
  nowOf_congr (invalidateAt_cores s l) (invalidateAt_tasks s l) c
@[simp] theorem greenOf_touchAll (s : State) (l : List Placed) (c : Nat) : greenOf (touchAll s l) c = greenOf s c :=
  greenOf_congr (touchAll_cores s l) (touchAll_tasks s l) c

end Sys2Proof.Frames

/-! SUPPORT. The L slots at issue (spec/10 R240, spec/11 R247 to R252, spec/12 R259 to R270): the checks of an access, the form of a
load, of a store, of a gather or scatter and of an atomic once its checks end: O15, O16, O17, O18, O19. -/

namespace Sys2Proof.LoadStore

open Sys2Proof Sys2Proof.Machine Sys2Proof.Laws Sys2Proof.Frames

section
variable {o : LOp} {s : State}

/-! ## The checks of an access -/

theorem withAccess_ok {u : BitVec 4} {need : Need} {l : List (Nat × Nat × Nat)} {k : State → List Placed → State} {p : List Placed}
    (h : checkAll s need l = .ok p) : withAccess s u need l k = k (touchAll s p) p := by rw [withAccess, h]

theorem withAccess_trap {u : BitVec 4} {need : Need} {l : List (Nat × Nat × Nat)} {k : State → List Placed → State} {c a : Nat}
    {hi : BitVec 32} (h : checkAll s need l = .trap c a hi) :
    withAccess s u need l k = slotTrap (if c = 0x0A then noteHit s l else s) u.toNat c (BitVec.ofNat 64 a) hi := by rw [withAccess, h]

theorem withAccess_hold {u : BitVec 4} {need : Need} {l : List (Nat × Nat × Nat)} {k : State → List Placed → State} {w : Hold}
    (h : checkAll s need l = .hold w) : withAccess s u need l k = holdFor s w := by rw [withAccess, h]

/-- A part that faults decides, once the parts before it have their places (R261). -/
theorem placeAll_fault {need : Need} {l1 l2 : List (Nat × Nat × Nat)} {va q n c : Nat} {ecc : Bool}
    (hbefore : ∀ y ∈ l1, ∃ pa mt win, translateMe s y.1 need = .ok pa mt win) (hfault : translateMe s va need = .fault c ecc) :
    placeAll s need (l1 ++ (va, q, n) :: l2) = .trap c va ((if need.w then 1 else 0) + (if ecc then 2 else 0)) := by
  induction l1 with
  | nil => simp [placeAll, hfault]
  | cons x r ih =>
    obtain ⟨pa, mt, win, hx⟩ := hbefore x (List.mem_cons_self ..)
    simp only [List.cons_append, placeAll, hx, ih fun y hy => hbefore y (List.mem_cons_of_mem _ hy)]

theorem placeAll_ok {need : Need} {l : List Placed} (h : ∀ y ∈ l, translateMe s y.va need = .ok y.pa y.mt y.win) :
    placeAll s need (l.map (fun y => (y.va, y.off, y.n))) = .ok l := by
  induction l with
  | nil => rfl
  | cons x r ih =>
    simp only [List.map_cons, placeAll, h x (List.mem_cons_self ..), ih fun y hy => h y (List.mem_cons_of_mem _ hy)]

theorem checkAll_of_placeAll_trap {need : Need} {l : List (Nat × Nat × Nat)} {c a : Nat} {hi : BitVec 32} (hkept : keptPlaces s l = none)
    (h : placeAll s need l = .trap c a hi) : checkAll s need l = .trap c a hi := by
  rw [checkAll, hkept]
  simp only [h]

/-- A store of which a byte lies in a footprint traps with the row's address (R262). -/
theorem checkAll_of_footTrap {l : List (Nat × Nat × Nat)} {p : List Placed} {a : Nat × Nat} (hkept : keptPlaces s l = none)
    (hplace : placeAll s { w := true } l = .ok p) (hfoot : footTrap s p = some a) : checkAll s { w := true } l = .trap 0x0A a.1 0 := by
  rw [checkAll, hkept]
  simp only [hplace, if_true, hfoot]

/-- The first part that meets a footprint of this device decides (R124). -/
theorem footTrap_first {p1 p2 : List Placed} {q : Placed} {i : Nat}
    (hbefore : ∀ y ∈ p1, isRemote s y.pa = true ∨ footHit s y.mt y.pa y.n = none) (hown : isRemote s q.pa = false)
    (hhit : footHit s q.mt q.pa q.n = some i) :
    footTrap s (p1 ++ q :: p2) = some ((q.va + i) % 2 ^ 57 / 128 * 128, footTile s (q.pa + i)) := by
  rw [footTrap]
  induction p1 with
  | nil => simp [hown, hhit]
  | cons x r ih =>
    have hx : (if isRemote s x.pa then none
        else (footHit s x.mt x.pa x.n).map fun i => ((x.va + i) % 2 ^ 57 / 128 * 128, footTile s (x.pa + i))) = none := by
      rcases hbefore x (List.mem_cons_self ..) with h | h <;> simp [h]
    rw [List.cons_append, List.findSome?_cons, hx]
    exact ih fun y hy => hbefore y (List.mem_cons_of_mem _ hy)

/-- The tile of the footprint that a store meets is noted. -/
theorem noteHit_of_footTrap {l : List (Nat × Nat × Nat)} {p : List Placed} {a : Nat × Nat} (hplace : placeAll s { w := true } l = .ok p)
    (hfoot : footTrap s p = some a) : noteHit s l = modMe s fun c => { c with hitTile := a.2 } := by
  simp only [noteHit, hplace, hfoot]

/-! ## Loads -/

/-- A load whose guard is true and whose banks are at hand makes its access. -/
theorem lLoad_on {size : Nat} {ea : State → Nat} {dest : Core → LoadDest} {acq : Option Nat} (h : guardOn s o.g = true)
    (hb : BanksReady s (fileBanks o.f3)) :
    lLoad o size ea dest acq s = .next (withAccess s o.u { r := true } (parts (ea s) size) fun s' l =>
      issueLoad s' (if acq.isSome then 40 else loadBound (ea s)) (dest (me s')) acq l) := by
  rw [lLoad, if_pos h, needBanks_ready hb]

theorem lLoad_issues {size : Nat} {ea : State → Nat} {dest : Core → LoadDest} {acq : Option Nat} {p : List Placed}
    (h : guardOn s o.g = true) (hb : BanksReady s (fileBanks o.f3)) (hp : checkAll s { r := true } (parts (ea s) size) = .ok p) :
    lLoad o size ea dest acq s =
      .next (issueLoad (touchAll s p) (if acq.isSome then 40 else loadBound (ea s)) (dest (me s)) acq p) := by
  rw [lLoad_on h hb, withAccess_ok hp, me_touchAll]

end

/-- Settles O15: every load is one form, whose places its check gives. -/
theorem loadsAtIssue : Obligations.LoadsAtIssue := by
  unfold Obligations.LoadsAtIssue
  constructor
  · intro o s h hb base off idx runs
    have form : ∀ {i : Instr} {ea : State → Nat} {n : Nat} {signed : Bool},
        exec i s = lLoad o n ea (fun _ => .scalar (o.f3 == 1) o.d.toNat n signed) none s → runs i (ea s) n signed :=
      fun hi p hp => hi.trans (lLoad_issues h hb hp)
    exact ⟨form (ea := lOffset o 1) rfl, form (ea := lOffset o 1) rfl, form (ea := lOffset o 2) rfl, form (ea := lOffset o 2) rfl,
      form (ea := lOffset o 4) rfl, form (ea := lOffset o 4) rfl, form (ea := lOffset o 8) rfl, form (ea := lIndex o 8) rfl, form (ea := lIndex o 4) rfl⟩
  · intro o s h hb base off runs wide
    have form : ∀ {i : Instr} {n : Nat} {dest : Core → LoadDest},
        exec i s = lLoad o n (lOffset o n) dest none s → runs i n (dest (me s)) := fun hi p hp => hi.trans (lLoad_issues h hb hp)
    exact ⟨form (dest := fun c => if o.f3.toNat < 2 then .pair (o.f3 == 1) o.d.toNat else wideDest o 128 c) rfl,
      form (dest := wideDest o 256) rfl, form (dest := wideDest o 512) rfl, form (dest := wideDest o 1024) rfl,
      form (dest := fun _ => .kreg o.d.toNat) rfl, form (dest := fun _ => .dreg o.d.toNat) rfl⟩

/-! ## Stores -/

section
variable {o : LOp} {s : State}

/-- A store of a task that is not provisional stands outstanding, and copies of other devices' lines go (R262, spec/10 R237). -/
theorem issueStore_confirmed {rel : Option Nat} {data : List Byte} {l : List Placed} (hgreen : greenOf s s.cur = false) :
    issueStore s rel data l = modMe (invalidateAt s l) fun c => { c with
      acc := c.acc ++ mkAccs c s.tick .store none rel data l, nextId := c.nextId + 1 } := by
  simp [issueStore, hgreen]

/-- A store of a provisional task is held in the green share, but for what goes through the window. -/
theorem greenStore_issueStore (rel : Option Nat) (data : List Byte) (p : List Placed) :
    GreenStore s rel data p (.next (issueStore s rel data p)) := by
  intro u t htask hfind hgreen out size full
  have hout : p.filter (fun q => greenOf s s.cur && !q.win) = out := by simp only [hgreen, Bool.true_and]; rfl
  have hdirect : p.filter (fun q => !(greenOf s s.cur && !q.win)) = p.filter (fun q => q.win) := by
    simp only [hgreen, Bool.true_and, Bool.not_not]
  constructor
  · intro hfull
    have hfull' : (out.map (fun p => p.n)).sum ≠ 0 ∧ greenShare < greenUsed s (hearthOf s.cur) + (out.map (fun p => p.n)).sum := hfull
    rw [issueStore, hout, if_pos hfull']
    rfl
  · intro hroom
    have hroom' : ¬ ((out.map (fun p => p.n)).sum ≠ 0 ∧ greenShare < greenUsed s (hearthOf s.cur) + (out.map (fun p => p.n)).sum) := hroom
    refine ⟨_, rfl, ?_⟩
    rw [issueStore, hout, hdirect, if_neg hroom']
    by_cases hempty : out.isEmpty
    · simp [hempty, hfind]
    · simp [hempty, htask, tabFind_modTask, hfind]

/-- A store whose guard is true and whose banks are at hand makes its access. -/
theorem lStore_on {size : Nat} {ea src : State → Nat} {rel : Option Nat} (h : guardOn s o.g = true) (hb : BanksReady s (fileBanks o.f3)) :
    lStore o size ea src rel s = .next (withAccess s o.u { w := true } (parts (ea s) size) fun s' l =>
      issueStore s' rel (bytesOf (src s) size) l) := by
  rw [lStore, if_pos h, needBanks_ready hb]

theorem lStore_green {size : Nat} {ea src : State → Nat} {rel : Option Nat} {p : List Placed} (h : guardOn s o.g = true)
    (hb : BanksReady s (fileBanks o.f3)) (hp : checkAll s { w := true } (parts (ea s) size) = .ok p) :
    GreenStore (touchAll s p) rel (bytesOf (src s) size) p (lStore o size ea src rel s) := by
  rw [lStore_on h hb, withAccess_ok hp]
  exact greenStore_issueStore _ _ _

theorem lStore_confirmed {size : Nat} {ea src : State → Nat} {rel : Option Nat} {p : List Placed} (h : guardOn s o.g = true)
    (hb : BanksReady s (fileBanks o.f3)) (hgreen : greenOf s s.cur = false) (hp : checkAll s { w := true } (parts (ea s) size) = .ok p) :
    lStore o size ea src rel s = .next (modMe (invalidateAt (touchAll s p) p) fun c => { c with
      acc := c.acc ++ mkAccs c s.tick .store none rel (bytesOf (src s) size) p, nextId := c.nextId + 1 }) := by
  rw [lStore_on h hb, withAccess_ok hp, issueStore_confirmed (by simpa using hgreen), touchAll_tick]

/-! ## Gathers and scatters -/

theorem gatherBits_some {w code : Nat} (h : w = 32 ∧ code ∈ [0, 3, 4] ∨ w = 64 ∧ code = 11) : gatherBits code = some w := by
  simp only [List.mem_cons, List.not_mem_nil, or_false] at h
  obtain ⟨rfl, rfl | rfl | rfl⟩ | ⟨rfl, rfl⟩ := h <;> rfl

/-- A gather or scatter whose guard is true, with its type listed and its banks at hand. -/
theorem gatherOp_on {w : Nat} {k : Nat → List (Nat × Nat) → State → State} (h : guardOn s o.g = true)
    (hb : BanksReady s (fileBanks o.f3)) (hw : gatherBits (vCode (me s) (o.f3.toNat - 2)) = some w) :
    gatherOp o s k = .next (k w (gatherAddrs o w s) s) := by
  rw [gatherOp, if_pos h]
  simp only [hw, needBanks_ready hb]

/-- An element's bound is that of the window when its address lies there. -/
theorem loadBound_beq (ea : Nat) : (loadBound ea == 8) = decide (2 ^ 56 ≤ ea ∧ ea < 2 ^ 56 + 2 ^ 24) := by
  by_cases h : 2 ^ 56 ≤ ea ∧ ea < 2 ^ 56 + 2 ^ 24
  · rw [loadBound, windowBase, if_pos h, decide_eq_true h]
    rfl
  · rw [loadBound, windowBase, if_neg h, decide_eq_false h]
    rfl

end

/-- Settles O16: every store is one form; a gather's addresses are those of its enabled elements. -/
theorem storesAndScatterAtIssue : Obligations.StoresAndScatterAtIssue := by
  unfold Obligations.StoresAndScatterAtIssue
  constructor
  · intro o s h hb base off idx runs x wide
    have form : ∀ {i : Instr} {ea src : State → Nat} {n : Nat}, exec i s = lStore o n ea src none s → runs i (ea s) n (src s) :=
      fun hi p hp => ⟨fun _ => hi ▸ lStore_green h hb hp, fun hgreen => hi.trans (lStore_confirmed h hb hgreen hp)⟩
    exact ⟨form (ea := lOffset o 1) (src := scalarSource o) rfl, form (ea := lOffset o 2) (src := scalarSource o) rfl,
      form (ea := lOffset o 4) (src := scalarSource o) rfl, form (ea := lOffset o 8) (src := scalarSource o) rfl,
      form (ea := lOffset o 16) (src := fun s => if o.f3.toNat < 2 then
        scalarSource o s + 2 ^ 64 * (seeS s (o.f3 == 1) (nextReg o.d)).toNat else wideSource o s) rfl,
      form (ea := lOffset o 32) (src := wideSource o) rfl, form (ea := lOffset o 64) (src := wideSource o) rfl,
      form (ea := lOffset o 128) (src := wideSource o) rfl, form (ea := lOffset o 16) (src := fun s => (seeK s (me s) o.d.toNat).toNat) rfl,
      form (ea := lOffset o 768) (src := fun s => (seeD s (me s) o.d.toNat).toNat) rfl,
      form (ea := lIndex o 8) (src := scalarSource o) rfl, form (ea := lIndex o 4) (src := scalarSource o) rfl⟩
  · intro o s w h hb hw offs on ea l
    have haddrs : gatherAddrs o w s = on.map (fun e => (e, ea e)) := rfl
    have hon := fun k => gatherOp_on (k := k) h hb (gatherBits_some hw)
    refine ⟨fun p hp => ?gather, fun p hgreen hp => ?green, fun p hgreen hp => ?confirmed⟩
    case gather =>
      show execVgather o s = _
      rw [execVgather, hon, haddrs, withAccess_ok hp, me_touchAll, List.all_map, List.map_map]
      simp only [Function.comp_def, loadBound_beq, List.map_id']
    case green =>
      show GreenStore _ _ _ _ (execVscatter o s)
      rw [execVscatter, hon, haddrs, withAccess_ok hp]
      exact greenStore_issueStore _ _ _
    case confirmed =>
      show execVscatter o s = _
      rw [execVscatter, hon, haddrs, withAccess_ok hp, issueStore_confirmed (by simpa using hgreen), touchAll_tick]

/-! ## Acquire, release, fences -/

section
variable {o : LOp} {s : State}

/-- The address of a form without offset: the base modulo 2^57. -/
theorem lPlain_eq (o : LOp) (s : State) : lPlain o s = (seeS s (isY o.u) o.a).toNat % 2 ^ 57 := by
  rw [lPlain, lAddr, lBase, Int.add_zero]
  rfl

theorem scopeOf_eq (m4 : BitVec 4) : scopeOf m4 = m4.toNat % 8 := BitVec.toNat_setWidth ..

theorem aligned_pos {u : BitVec 4} {ea size : Nat} {k : State → Out} (h : ea % size = 0) : aligned s u ea size k = k s := if_pos h

theorem aligned_neg {u : BitVec 4} {ea size : Nat} {k : State → Out} (h : ea % size ≠ 0) :
    aligned s u ea size k = .next (slotTrap s u.toNat 0x06 (BitVec.ofNat 64 ea) 0) := if_neg h

/-- A `FENCE` waits for held stores when its predecessors name stores or the matrix stores: bits 1 and 5. -/
theorem fenceMask_ne_zero (pred : BitVec 6) : (pred &&& 0x22 ≠ 0) ↔ (pred.getLsbD 1 = true ∨ pred.getLsbD 5 = true) := by
  revert pred
  decide

theorem execFence_enters {f : FenceOp} (h : guardOn s f.g = true) (hfree : ¬ ((f.pred.getLsbD 1 = true ∨ f.pred.getLsbD 5 = true) ∧ holdsStore s = true)) :
    execFence f s = .next (issueMarker s (.fence f.pred f.succ f.scope.toNat)) := by
  rw [← fenceMask_ne_zero] at hfree
  rw [execFence, guarded_on h, if_neg hfree]

theorem execFence_waits {f : FenceOp} (h : guardOn s f.g = true) (hbits : f.pred.getLsbD 1 = true ∨ f.pred.getLsbD 5 = true)
    (hholds : holdsStore s = true) : execFence f s = .next (blockFor s .green) := by
  rw [execFence, guarded_on h, if_pos ⟨(fenceMask_ne_zero _).2 hbits, hholds⟩]

/-- A prefetch may change what the caches hold and what the ports carry, and nothing else. -/
theorem execPref_cacheOnly (h : guardOn s o.g = true) : ∃ t, execPref o s = .next t ∧ CacheOnly s t := by
  refine ⟨_, guarded_on h, ?_⟩
  split
  · split
    · exact cacheOnly_readLine ..
    · exact .refl s
  · exact .refl s

end

/-- Settles O17: an aligned acquire or release is a load or store with its scope. -/
theorem orderingInstructions : Obligations.OrderingInstructions := by
  unfold Obligations.OrderingInstructions
  constructor
  · intro o s h a loads stores
    have hplain : lPlain o s = a := lPlain_eq o s
    have load : ∀ {i : Instr} {n : Nat} {signed : Bool}, exec i s = lAcquire o n signed s → loads i n signed := by
      intro i n signed hi
      refine ⟨fun p hb ha hp => ?_, fun ha => ?_⟩
      · rw [← hplain] at ha hp
        rw [hi, lAcquire, if_pos h, aligned_pos ha, lLoad_issues h hb hp, scopeOf_eq]
        rfl
      · rw [← hplain] at ha ⊢
        rw [hi, lAcquire, if_pos h, aligned_neg ha]
    have store : ∀ {i : Instr} {n : Nat}, exec i s = lRelease o n s → stores i n := by
      intro i n hi
      refine ⟨fun p hb _ ha hp => ?_, fun p hb hgreen ha hp => ?_, fun ha => ?_⟩
      · rw [← hplain] at ha hp
        rw [hi, lRelease, if_pos h, aligned_pos ha, ← scopeOf_eq]
        exact lStore_green h hb hp
      · rw [← hplain] at ha hp
        rw [hi, lRelease, if_pos h, aligned_pos ha, lStore_confirmed h hb hgreen hp, scopeOf_eq]
        rfl
      · rw [← hplain] at ha ⊢
        rw [hi, lRelease, if_pos h, aligned_neg ha]
    exact ⟨load rfl, load rfl, store rfl, store rfl⟩
  · refine ⟨fun o s h => ⟨fun hnone => ?_, fun h1 h5 => ?_, fun hholds hbits => ?_⟩, fun o s h => ⟨fun hnone => ?_, fun hholds => ?_, ?_⟩⟩
    · exact show execFence o s = _ from execFence_enters h (by simp [hnone])
    · exact show execFence o s = _ from execFence_enters h (by rw [h1, h5]; simp)
    · exact show execFence o s = _ from execFence_waits h hbits hholds
    · show execDrain o s = _
      rw [execDrain, guarded_on h, hnone]
      rfl
    · show execDrain o s = _
      rw [execDrain, guarded_on h, hholds]
      rfl
    · obtain ⟨t, ht, d, p, rfl⟩ := execPref_cacheOnly (o := o) h
      exact ⟨_, ht, rfl, rfl, rfl, rfl⟩

/-! ## Atomics -/

section
variable {o : LOp} {s : State}

/-- The entries of an atomic and its result in flight, in terms of the state before the checks. -/
theorem issueAtomic_touchAll (size : Nat) (ro : Bool) (kind : AccKind) (scope : Option Nat) (p : List Placed) :
    issueAtomic (touchAll s p) o size ro kind scope p = modMe (invalidateAt (touchAll s p) p) fun c => { c with
      fresh := if ro then c.fresh ++ [⟨nowOf s s.cur + 64, .load c.nextId p.length (.scalar (o.f3 == 1) o.d.toNat size false) 0 0⟩] else c.fresh
      acc := c.acc ++ mkAccs c s.tick kind scope scope [] p
      nextId := c.nextId + 1 } := by
  simp only [issueAtomic, nowOf_invalidateAt, nowOf_touchAll, invalidateAt_cur, touchAll_cur, invalidateAt_tick, touchAll_tick]

theorem lAtomic_issues {size : Nat} {op : AtomOp} {p : List Placed} (h : guardOn s o.g = true) (hgreen : greenOf s s.cur = false)
    (ha : lPlain o s % size = 0) (hp : checkAll s { r := true, w := true } (parts (lPlain o s) size) = .ok p) :
    lAtomic o size op s = .next (issueAtomic (touchAll s p) o size (o.m4.getLsbD 3)
      (.atomic op (seeS s (o.f3 == 1) o.d) (if op = .cas then seeS s (o.f3 == 1) (nextReg o.d) else 0) (o.m4.getLsbD 3) (me s).sys.fmt)
      (some (scopeOf o.m4)) p) := by
  simp only [lAtomic, if_pos h, hgreen, Bool.false_eq_true, if_false, aligned_pos ha, withAccess_ok hp]

theorem lAtomic_waits {size : Nat} {op : AtomOp} (h : guardOn s o.g = true) (hgreen : greenOf s s.cur = true) :
    lAtomic o size op s = .next (blockFor s .green) := by rw [lAtomic, if_pos h, if_pos hgreen]

theorem lAtomic_misaligned {size : Nat} {op : AtomOp} (h : guardOn s o.g = true) (hgreen : greenOf s s.cur = false)
    (ha : lPlain o s % size ≠ 0) : lAtomic o size op s = .next (slotTrap s o.u.toNat 0x06 (BitVec.ofNat 64 (lPlain o s)) 0) := by
  simp only [lAtomic, if_pos h, hgreen, Bool.false_eq_true, if_false, aligned_neg ha]

theorem lOrdered_issues {op : AtomOp} {p : List Placed} (h : guardOn s o.g = true) (hgreen : greenOf s s.cur = false)
    (ha : lPlain o s % 8 = 0) (hp : checkAll s { r := true, w := true } (parts (lPlain o s) 8) = .ok p) :
    lOrdered o op s = .next (modMe (issueAtomic (touchAll s p) o 8 true
      (.ordered op (seeS s (o.f3 == 1) o.d) (if op = .cas then seeS s (o.f3 == 1) (nextReg o.d) else 0) o.m4.toNat
        (tabGet (me s).sys.seq o.m4.toNat 0) false) none p) fun c =>
      { c with sys := { c.sys with seq := tabSet c.sys.seq o.m4.toNat (tabGet (me s).sys.seq o.m4.toNat 0 + 1) } }) := by
  simp only [lOrdered, if_pos h, hgreen, Bool.false_eq_true, if_false, aligned_pos ha, withAccess_ok hp]

theorem lOrdered_waits {op : AtomOp} (h : guardOn s o.g = true) (hgreen : greenOf s s.cur = true) :
    lOrdered o op s = .next (blockFor s .green) := by rw [lOrdered, if_pos h, if_pos hgreen]

theorem lOrdered_misaligned {op : AtomOp} (h : guardOn s o.g = true) (hgreen : greenOf s s.cur = false)
    (ha : lPlain o s % 8 ≠ 0) : lOrdered o op s = .next (slotTrap s o.u.toNat 0x06 (BitVec.ofNat 64 (lPlain o s)) 0) := by
  simp only [lOrdered, if_pos h, hgreen, Bool.false_eq_true, if_false, aligned_neg ha]

end

/-- Settles O18: every atomic is one form, and every ordered atomic another. -/
theorem atomicsAtIssue : Obligations.AtomicsAtIssue := by
  unfold Obligations.AtomicsAtIssue
  constructor
  · intro o s h a ro sc runs
    have hplain : lPlain o s = a := lPlain_eq o s
    have form : ∀ {i : Instr} {n : Nat} {op : AtomOp}, exec i s = lAtomic o n op s → runs i n op := by
      intro i n op hi
      refine ⟨fun p hgreen ha hp => ?_, fun hgreen => hi.trans (lAtomic_waits h hgreen), fun hgreen ha => ?_⟩
      · rw [← hplain] at ha hp
        rw [hi, lAtomic_issues h hgreen ha hp, issueAtomic_touchAll, scopeOf_eq]
        rfl
      · rw [← hplain] at ha ⊢
        rw [hi, lAtomic_misaligned h hgreen ha]
    exact ⟨form rfl, form rfl, form rfl, form rfl, form rfl, form rfl, form rfl, form rfl, form rfl, form rfl, form rfl, form rfl,
      form rfl, form rfl, form rfl, form rfl, form rfl, form rfl, form rfl, form rfl, form rfl⟩
  · intro o s p h a f q runs
    have hplain : lPlain o s = a := lPlain_eq o s
    have form : ∀ {i : Instr} {op : AtomOp}, exec i s = lOrdered o op s → runs i op := by
      intro i op hi
      refine ⟨fun hgreen => hi.trans (lOrdered_waits h hgreen), fun hgreen ha => ?_, fun hgreen ha hp => ?_⟩
      · rw [← hplain] at ha ⊢
        rw [hi, lOrdered_misaligned h hgreen ha]
      · rw [← hplain] at ha hp
        refine ⟨_, hi.trans (lOrdered_issues h hgreen ha hp), ?_⟩
        rw [issueAtomic_touchAll, me_modMe, me_modMe, me_invalidateAt, me_touchAll]
        exact ⟨by rw [tabGet_tabSet, if_pos rfl], fun g hg => by rw [tabGet_tabSet, if_neg hg], rfl, rfl, rfl⟩
    exact ⟨form rfl, form rfl, form rfl⟩

/-! ## Accesses whose checks fail (R124, R261, R262) -/

section
variable {s : State}

theorem byLeaf_fault {ctx bits va c : Nat} {leaf : W64} {n : Need} {ecc : Bool} (h : byLeaf s ctx leaf bits va n = .fault c ecc) : c = 5 := by
  unfold byLeaf at h
  dsimp only at h
  split at h
  · cases h; rfl
  · split at h
    · split at h
      · split at h
        · cases h; rfl
        · cases h
      · cases h; rfl
    · cases h

theorem translate_fault {hearth ctx part qstart va c : Nat} {n : Need} {ecc : Bool}
    (h : Machine.translate s hearth ctx part qstart va n true = .fault c ecc) : c = 4 ∨ c = 5 := by
  unfold Machine.translate at h
  dsimp only at h
  split at h
  · split at h
    · cases h; exact .inl rfl
    · split at h
      · cases h; exact .inr rfl
      · cases h
  · split at h
    · exact .inr (byLeaf_fault h)
    · cases h

/-- A translation fails as absent (4) or refused (5). -/
theorem translateMe_fault {va c : Nat} {n : Need} {ecc : Bool} (h : translateMe s va n = .fault c ecc) : c = 4 ∨ c = 5 := by
  unfold translateMe at h
  dsimp only at h
  split at h
  · cases h; exact .inl rfl
  · split at h
    · split at h
      · split at h
        · cases h; exact .inl rfl
        · cases h
      · cases h
    · exact translate_fault h

theorem placeAll_trap {need : Need} {l : List (Nat × Nat × Nat)} {c a : Nat} {hi : BitVec 32} (h : placeAll s need l = .trap c a hi) :
    c = 4 ∨ c = 5 := by
  induction l with
  | nil => cases h
  | cons x r ih =>
    obtain ⟨va, q, n⟩ := x
    unfold placeAll at h
    split at h
    · cases h
      exact translateMe_fault ‹_›
    · cases h
    · split at h
      · cases h
      · exact ih h

/-- A load traps for its translation alone. -/
theorem checkAll_read_trap {l : List (Nat × Nat × Nat)} {c a : Nat} {hi : BitVec 32} (h : checkAll s { r := true } l = .trap c a hi) :
    c ≠ 0x0A := by
  unfold checkAll at h
  split at h
  · cases h
  · split at h
    · split at h
      · rename_i hfoot
        exact absurd hfoot nofun
      · split at h <;> cases h
    · obtain rfl | rfl := placeAll_trap h <;> decide

end

/-- Settles O19: every load and store is one form, whose check decides; a failing part or a footprint decides the check. -/
theorem accessesThatTrap : Obligations.AccessesThatTrap := by
  unfold Obligations.AccessesThatTrap
  intro o s h hb base off idx loads stores
  have hload : ∀ x ∈ loads, ∃ k, exec x.1 s = .next (withAccess s o.u { r := true } (parts x.2.1 x.2.2) k) := by
    have wide : ∀ {i : Instr} {n : Nat} (dest : Core → LoadDest), exec i s = lLoad o n (lOffset o n) dest none s →
        ∃ k, exec i s = .next (withAccess s o.u { r := true } (parts (lOffset o n s) n) k) := fun _ hi => ⟨_, hi.trans (lLoad_on h hb)⟩
    have scalar : ∀ {i : Instr} {n : Nat} (signed : Bool) (ea : State → Nat), exec i s = lScalar o n signed ea s →
        ∃ k, exec i s = .next (withAccess s o.u { r := true } (parts (ea s) n) k) := fun _ _ hi => ⟨_, hi.trans (lLoad_on h hb)⟩
    simp only [loads, List.forall_mem_cons, List.not_mem_nil, false_imp_iff, implies_true, and_true]
    exact ⟨scalar true (lOffset o 1) rfl, scalar false (lOffset o 1) rfl, scalar true (lOffset o 2) rfl, scalar false (lOffset o 2) rfl,
      scalar true (lOffset o 4) rfl, scalar false (lOffset o 4) rfl, scalar false (lOffset o 8) rfl,
      wide (fun c => if o.f3.toNat < 2 then .pair (o.f3 == 1) o.d.toNat else wideDest o 128 c) rfl, wide (wideDest o 256) rfl,
      wide (wideDest o 512) rfl, wide (wideDest o 1024) rfl, wide (fun _ => .kreg o.d.toNat) rfl, wide (fun _ => .dreg o.d.toNat) rfl,
      scalar false (lIndex o 8) rfl, scalar true (lIndex o 4) rfl⟩
  have hstore : ∀ x ∈ stores, ∃ k, exec x.1 s = .next (withAccess s o.u { w := true } (parts x.2.1 x.2.2) k) := by
    have form : ∀ {i : Instr} {ea src : State → Nat} {n : Nat}, exec i s = lStore o n ea src none s →
        ∃ k, exec i s = .next (withAccess s o.u { w := true } (parts (ea s) n) k) := fun hi => ⟨_, hi.trans (lStore_on h hb)⟩
    simp only [stores, List.forall_mem_cons, List.not_mem_nil, false_imp_iff, implies_true, and_true]
    exact ⟨form (ea := lOffset o 1) rfl, form (ea := lOffset o 2) rfl, form (ea := lOffset o 4) rfl, form (ea := lOffset o 8) rfl,
      form (ea := lOffset o 16) rfl, form (ea := lOffset o 32) rfl, form (ea := lOffset o 64) rfl, form (ea := lOffset o 128) rfl,
      form (ea := lOffset o 16) rfl, form (ea := lOffset o 768) rfl, form (ea := lIndex o 8) rfl, form (ea := lIndex o 4) rfl⟩
  refine ⟨?loadTrap, ?storeTrap, ?loadHold, ?storeHold, ?fault, ?foot⟩
  case loadTrap =>
    intro x hx c a hi hcheck
    obtain ⟨k, hk⟩ := hload x hx
    rw [hk, withAccess_trap hcheck, if_neg (checkAll_read_trap hcheck)]
  case storeTrap =>
    intro x hx c a hi hcheck
    obtain ⟨k, hk⟩ := hstore x hx
    rw [hk, withAccess_trap hcheck]
  case loadHold =>
    intro x hx w hcheck
    obtain ⟨k, hk⟩ := hload x hx
    rw [hk, withAccess_hold hcheck]
  case storeHold =>
    intro x hx w hcheck
    obtain ⟨k, hk⟩ := hstore x hx
    rw [hk, withAccess_hold hcheck]
  case fault =>
    intro x hx need hneed l1 va q n l2 c ecc hparts hkept hbefore hfault
    have hplace := placeAll_fault (l2 := l2) (q := q) (n := n) hbefore hfault
    have hcheck := checkAll_of_placeAll_trap (hparts ▸ hkept) hplace
    have hc : c ≠ 0x0A := by obtain rfl | rfl := translateMe_fault hfault <;> decide
    have trap : ∀ {k}, exec x.1 s = .next (withAccess s o.u need (parts x.2.1 x.2.2) k) → exec x.1 s = .next (slotTrap s o.u.toNat c
        (BitVec.ofNat 64 va) ((if need.w then 1 else 0) + (if ecc then 2 else 0))) := by
      intro k hk
      rw [hk, hparts, withAccess_trap hcheck, if_neg hc]
    by_cases hmem : x ∈ loads
    · rw [if_pos hmem] at hneed
      obtain ⟨k, hk⟩ := hload x hmem
      exact trap (hneed ▸ hk)
    · rw [if_neg hmem] at hneed
      obtain ⟨k, hk⟩ := hstore x ((List.mem_append.1 hx).resolve_left hmem)
      exact trap (hneed ▸ hk)
  case foot =>
    intro x hx p1 p2 q i hparts hkept hplaced hbefore hown hhit
    obtain ⟨k, hk⟩ := hstore x hx
    have hplace : placeAll s { w := true } (parts x.2.1 x.2.2) = .ok (p1 ++ q :: p2) := hparts ▸ placeAll_ok hplaced
    have hfoot := footTrap_first (p2 := p2) hbefore hown hhit
    rw [hk, withAccess_trap (checkAll_of_footTrap hkept hplace hfoot), if_pos rfl, noteHit_of_footTrap hplace hfoot]

end Sys2Proof.LoadStore

/-! SUPPORT. Results in flight and their landing (spec/02 R35, spec/03 R45, R48): which entries land, in what order, and what a write
changes: O38, O39. -/

namespace Sys2Proof.Landing

open Sys2Proof Sys2Proof.Machine Sys2Proof.Laws

/-! ## What a landing leaves of its core -/

/-- `d` differs from `c` in its registers, its system registers, its control state and what is in flight at most. -/
def LandOnly (c d : Core) : Prop := ∃ r y k f, d = { c with regs := r, sys := y, ctl := k, flight := f }

theorem LandOnly.refl (c : Core) : LandOnly c c := ⟨c.regs, c.sys, c.ctl, c.flight, rfl⟩

theorem LandOnly.trans {c d e : Core} (h : LandOnly c d) (k : LandOnly d e) : LandOnly c e := by
  obtain ⟨r, y, k', f, rfl⟩ := h
  obtain ⟨r', y', k'', f', rfl⟩ := k
  exact ⟨r', y', k'', f', rfl⟩

/-- A write of a system register changes the system registers, or the loop stack. -/
theorem landSys_eq (c : Core) (i : Nat) (v : W64) :
    landSys c i v = { c with sys := (landSys c i v).sys, ctl := { c.ctl with loops := (landSys c i v).ctl.loops } } := by
  unfold landSys
  dsimp only
  split
  any_goals rfl
  split <;> rfl

theorem landCore_landOnly (c : Core) (l : Land) : LandOnly c (landCore c l) := by
  cases l with
  | sys i v => exact ⟨c.regs, _, _, c.flight, landSys_eq c i v⟩
  | _ => exact ⟨_, c.sys, c.ctl, c.flight, rfl⟩

theorem foldl_landCore_landOnly (l : List Land) (c : Core) : LandOnly c (l.foldl landCore c) := by
  induction l generalizing c with
  | nil => exact .refl c
  | cons x r ih => exact (landCore_landOnly c x).trans (ih _)

theorem landDue_landOnly (c : Core) (now : Nat) (all : Bool) : LandOnly c (landDue c now all) := by
  unfold landDue
  have hfold : ∀ (l : List Flight) (d : Core), LandOnly d (l.foldl (fun c f => ((flightLands f.val).getD []).foldl landCore c) d) := by
    intro l
    induction l with
    | nil => exact .refl
    | cons f r ih => exact fun d => (foldl_landCore_landOnly _ d).trans (ih _)
  exact (hfold _ c).trans ⟨_, _, _, _, rfl⟩

theorem landDue_retPend (c : Core) (now : Nat) (all : Bool) : (landDue c now all).retPend = c.retPend := by
  obtain ⟨r, y, k, f, h⟩ := landDue_landOnly c now all
  rw [h]

/-! ## Which entries land, and in what order (R35) -/

theorem mem_landDue_flight (c : Core) (now : Nat) (f : Flight) :
    f ∈ (landDue c now false).flight ↔ f ∈ c.flight ∧ (now < f.due ∨ flightLands f.val = none) := by
  have hflight : (landDue c now false).flight = c.flight.filter (fun f => !((false || f.due ≤ now) && (flightLands f.val).isSome)) := rfl
  rw [hflight, List.mem_filter]
  by_cases h : f.due ≤ now <;> simp [h, Nat.not_lt, Nat.not_le.1]

/-- One known result that is due lands, and nothing stays in flight. -/
theorem landDue_single {c : Core} {now : Nat} {f : Flight} {l : Land} (hflight : c.flight = [f]) (hdue : f.due ≤ now)
    (hval : f.val = .known [l]) : landDue c now false = { landCore c l with flight := [] } := by
  simp [landDue, hflight, hdue, hval, flightLands, landingOrder, insertFlight]

/-- Of two results due in one x register the one whose bound ended later stays. -/
theorem landDue_pair_x {c : Core} {now r d e : Nat} {v w : W64} (hr : r ≠ 0)
    (hflight : c.flight = [⟨d, .known [.x r v]⟩, ⟨e, .known [.x r w]⟩]) (hd : d ≤ now) (he : e ≤ now) :
    tabGet (landDue c now false).regs.x r 0 = if e < d then v else w := by
  by_cases h : e < d <;>
    simp [landDue, hflight, hd, he, h, flightLands, landingOrder, insertFlight, landCore, landRegs, hr, tabGet_tabSet]

/-! ## What each kind of write changes (R48) -/

/-- A field of a stride set takes its bits, and the other fields stay (spec/07 R136). -/
theorem strideSet_eq (o : Stride) (f : Nat) (v : W64) : strideSet o f v =
    { base := if f = 0 then v.extractLsb' 0 57 else o.base, str0 := if f = 1 then v.extractLsb' 0 32 else o.str0
      str1 := if f = 2 then v.extractLsb' 0 32 else o.str1, ext0 := if f = 3 then v.extractLsb' 0 8 else o.ext0
      ext1 := if f = 4 then v.extractLsb' 0 8 else o.ext1 } := by
  unfold strideSet
  split <;> simp_all [BitVec.setWidth_eq_extractLsb']

/-- A field of a copy set takes its bits, and the other fields stay (spec/08 R174). -/
theorem copySet_eq (o : CopySet) (f : Nat) (v : W64) : copySet o f v =
    { src := if f = 0 then v.extractLsb' 0 57 else o.src, dst := if f = 1 then v.extractLsb' 0 57 else o.dst
      len := if f = 2 then v.extractLsb' 0 32 else o.len, sstr := if f = 3 then v.extractLsb' 0 32 else o.sstr
      dstr := if f = 4 then v.extractLsb' 0 32 else o.dstr, rows := if f = 5 then v.extractLsb' 0 24 else o.rows
      type := if f = 6 then v.extractLsb' 0 8 else o.type, dev := if f = 7 then v.extractLsb' 0 9 else o.dev
      group := if f = 8 then v.extractLsb' 0 16 else o.group } := by
  unfold copySet
  split <;> simp_all [BitVec.setWidth_eq_extractLsb']

/-- A write of a system register other than LOOPD leaves the control state. -/
theorem landSys_ctl {c : Core} {i : Nat} {v : W64} (h : i ≠ 0x014) : (landSys c i v).ctl = c.ctl := by
  unfold landSys
  dsimp only
  split
  case h_2 => exact absurd rfl h
  any_goals rfl
  split <;> rfl

/-- Settles O38: what lands is told by its bound and its value; each kind of write by the file that it names. -/
theorem resultsLandWhenDue : Obligations.ResultsLandWhenDue := by
  unfold Obligations.ResultsLandWhenDue
  refine ⟨⟨fun c now => ⟨?stays, ?keeps, ?single, ?pair⟩, ?event⟩, fun g => ?lands, ?emit⟩
  case stays => exact fun f hf => (mem_landDue_flight c now f).1 hf
  case keeps => exact fun f hf hwait => (mem_landDue_flight c now f).2 ⟨hf, hwait⟩
  case single => exact fun f l => landDue_single
  case pair => exact fun r v w d e => landDue_pair_x
  case event =>
    intro s core k hk hret c all
    show execResultLanding core s = _
    rw [execResultLanding, hk]
    have hnone : ∀ all, (getCore (modCore s core fun c => landDue c (nowOf s core) all) core).retPend = none := fun all => by
      rw [getCore_modCore_self, landDue_retPend, hret]
    simp only [tryReturn, hnone]
    rfl
  case emit =>
    intro s bound l t
    have hme : me t = { me s with fresh := (me s).fresh ++ [⟨nowOf s s.cur + bound, .known l⟩] } := me_emit s bound l
    rw [hme]
    exact ⟨rfl, rfl, rfl, rfl, rfl, rfl, rfl, rfl, fun k hk => (getCore_emit s bound l k).trans (if_neg hk), fun _ => rfl, fun _ => rfl, rfl, rfl⟩
  case lands =>
    refine ⟨?x, ?y, ?q, ?k, ?v, ?w, ?d, ?dtag, ?dnone, ?p, ?g, ?h, ?scalars, ?vectors, ?mask, ?pred, ?dist, ?sets, ?regs, ?sys, ?see⟩
    case x =>
      intro i v r
      by_cases hi : i = 0 <;> simp [landRegs, hi, tabGet_tabSet]
    case y =>
      intro i v r
      by_cases hi : i = 0 <;> simp [landRegs, hi, tabGet_tabSet]
    case q =>
      intro i b r
      by_cases hi : i ≤ 1
      · simp [landRegs, hi, show ¬ 2 ≤ i by omega]
      · simp [landRegs, hi, show 2 ≤ i by omega, tabGet_tabSet]
    case k =>
      intro i m v r
      by_cases hi : i = 0
      · simp [landRegs, hi]
      · simp only [landRegs, if_neg hi, tabGet_tabSet, blend]
        by_cases hr : r = i <;> simp [hr, hi]
    case v =>
      intro i m v r
      simp only [landRegs, tabGet_tabSet, blend]
      by_cases hr : r = i <;> simp [hr]
    case w =>
      intro i m v r
      simp only [landRegs, tabGet_tabSet, blend]
      by_cases hr : r = i <;> simp [hr]
    case d =>
      intro i m v t r
      by_cases hr : r = i <;> cases t <;> simp [landRegs, tabGet_tabSet, blend, hr]
    case dtag =>
      intro i m v t r
      simp only [landRegs, tabGet_tabSet]
    case dnone => exact fun i m v => rfl
    case p =>
      intro i v r
      simp only [landRegs, tabGet_tabSet]
    case g =>
      intro i f v r o
      simp only [landRegs, tabGet_tabSet, strideSet_eq]
      by_cases hr : r = i <;> simp [hr, o]
    case h =>
      intro i f v r o
      simp only [landRegs, tabGet_tabSet, copySet_eq]
      by_cases hr : r = i <;> simp [hr, o]
    case scalars =>
      intro i v
      by_cases hi : i = 0 <;> simp [landRegs, hi]
    case vectors => exact fun i m v => ⟨rfl, rfl⟩
    case mask =>
      intro i m v
      by_cases hi : i = 0 <;> simp [landRegs, hi]
    case pred =>
      intro i b
      by_cases hi : i ≤ 1 <;> simp [landRegs, hi]
    case dist =>
      intro i m v t
      cases t <;> rfl
    case sets => exact fun i f v => ⟨rfl, rfl⟩
    case regs =>
      intro c l hl
      cases l with
      | sys i v => exact absurd rfl (hl i v)
      | _ => rfl
    case sys => exact fun c i v => ⟨landSys_eq c i v, landSys_ctl, rfl⟩
    case see => exact fun s c => ⟨rfl, rfl, rfl, rfl, rfl⟩

/-! ## Enabled elements alone (R45) -/

theorem testBit_elemAt (x w i b : Nat) : (elemAt x w i).testBit b = (decide (b < w) && x.testBit (i * w + b)) := by
  rw [elemAt, Nat.testBit_mod_two_pow, Nat.testBit_shiftRight]

theorem testBit_onesAt (off len b : Nat) : (onesAt off len).testBit b = decide (off ≤ b ∧ b < off + len) := by
  rw [onesAt, Nat.testBit_shiftLeft, Nat.testBit_two_pow_sub_one]
  by_cases h : off ≤ b
  · simp [h, Nat.sub_lt_iff_lt_add h, Nat.add_comm]
  · simp [h]

/-- The mask of a list of elements covers the bits of those elements. -/
theorem testBit_elemMask (w e b : Nat) (l : List Nat) (hb : b < w) : (elemMask w l).testBit (e * w + b) = decide (e ∈ l) := by
  induction l with
  | nil => simp [elemMask]
  | cons x r ih =>
    have hx : (x * w ≤ e * w + b ∧ e * w + b < x * w + w) ↔ e = x := by
      constructor
      · rintro ⟨hlo, hhi⟩
        rcases Nat.lt_trichotomy e x with h | h | h
        · have := Nat.mul_le_mul_right w (Nat.succ_le_of_lt h)
          rw [Nat.succ_mul] at this
          omega
        · exact h
        · have := Nat.mul_le_mul_right w (Nat.succ_le_of_lt h)
          rw [Nat.succ_mul] at this
          omega
      · rintro rfl
        omega
    rw [elemMask, Nat.testBit_or, testBit_onesAt, ih]
    simp only [hx, List.mem_cons, Bool.decide_or]

/-- A bit of a blend is the new value's where the mask has its bit. -/
theorem testBit_blend {n : Nat} (x mask v : BitVec n) {b : Nat} (hb : b < n) :
    (blend x mask v).toNat.testBit b = if mask.toNat.testBit b then v.toNat.testBit b else x.toNat.testBit b := by
  simp only [BitVec.testBit_toNat, blend, BitVec.getLsbD_or, BitVec.getLsbD_and, BitVec.getLsbD_not, hb, decide_true, Bool.true_and]
  cases mask.getLsbD b <;> simp

theorem testBit_ofNat {n m b : Nat} (hb : b < n) : (BitVec.ofNat n m).toNat.testBit b = m.testBit b := by
  rw [BitVec.testBit_toNat, BitVec.getLsbD_ofNat, decide_eq_true hb, Bool.true_and]

theorem elemAt_packElems (w : Nat) (l : List Nat) (e : Nat) (he : e < l.length) : elemAt (packElems w l) w e = l[e] % 2 ^ w := by
  induction l generalizing e with
  | nil => exact absurd he (Nat.not_lt_zero e)
  | cons x r ih =>
    cases e with
    | zero => simp [elemAt, packElems]
    | succ e =>
      have hrest : elemAt (packElems w (x :: r)) w (e + 1) = elemAt (packElems w r) w e := by
        have hlow : x % 2 ^ w < 2 ^ w := Nat.mod_lt _ (Nat.two_pow_pos w)
        rw [elemAt, elemAt, packElems, Nat.succ_mul, Nat.add_comm (e * w), Nat.shiftRight_add, Nat.shiftRight_eq_div_pow _ w,
          Nat.add_mul_div_left _ _ (Nat.two_pow_pos w), Nat.div_eq_of_lt hlow, Nat.zero_add]
      rw [hrest, ih e (by simpa using he), List.getElem_cons_succ]

/-- Settles O39: bit by bit, the mask holds the element's bits exactly when it is enabled. -/
theorem enabledElementsAlone : Obligations.EnabledElementsAlone := by
  unfold Obligations.EnabledElementsAlone
  intro g slot sz n en val e hsz he hn
  have hval : elemAt (packElems (8 * sz) ((List.range n).map val)) (8 * sz) e = val e % 2 ^ (8 * sz) := by
    rw [elemAt_packElems _ _ _ (by simpa using he)]
    simp
  rw [← hval]
  apply Nat.eq_of_testBit_eq
  intro b
  by_cases hb : b < 8 * sz
  · have hpos : e * (8 * sz) + b < 1024 := by
      have := Nat.mul_le_mul_right (8 * sz) (Nat.succ_le_of_lt he)
      rw [Nat.succ_mul] at this
      have hn' : n * (8 * sz) ≤ 1024 := by
        rw [Nat.mul_left_comm]
        omega
      omega
    have hmask := testBit_elemMask (8 * sz) e b ((List.range n).filter en) hb
    have hland : (tabGet (landRegs g (elemLand slot sz n en val)).v slot 0).toNat.testBit (e * (8 * sz) + b) =
        if en e then (packElems (8 * sz) ((List.range n).map val)).testBit (e * (8 * sz) + b)
        else (tabGet g.v slot 0).toNat.testBit (e * (8 * sz) + b) := by
      simp only [elemLand, landRegs, tabGet_tabSet, if_true]
      rw [testBit_blend _ _ _ hpos, testBit_ofNat hpos, testBit_ofNat hpos, hmask]
      simp [he]
    rw [testBit_elemAt, hland]
    by_cases hen : en e <;> simp [hen, testBit_elemAt]
  · by_cases hen : en e <;> simp [hen, testBit_elemAt, hb]

end Sys2Proof.Landing

/-! SUPPORT. Encodings and their values (spec/05 R93, R98): an encoding is its sign, exponent and mantissa, and the rounding of a value
without remainder puts the same fields together again: O30. -/

namespace Sys2Proof.Rounding

open Sys2Proof Sys2Proof.Machine

/-! ## The fields of an encoding -/

section
variable {f : FFmt} {x : Nat}

/-- The magnitude bits of an encoding: its exponent above its mantissa. -/
theorem mod_eq_fields (f : FFmt) (x : Nat) : x % 2 ^ (f.e + f.m) = x / 2 ^ f.m % 2 ^ f.e * 2 ^ f.m + x % 2 ^ f.m := by
  rw [Nat.add_comm f.e, Nat.pow_add, Nat.mod_mul, Nat.add_comm, Nat.mul_comm]

/-- An encoding is its sign bit and its magnitude bits. -/
theorem signBit_add_mod (hx : x < 2 ^ (1 + f.e + f.m)) :
    signBit f (x / 2 ^ (f.e + f.m) % 2 == 1) + x % 2 ^ (f.e + f.m) = x := by
  have hsign : x / 2 ^ (f.e + f.m) < 2 := by
    rw [Nat.div_lt_iff_lt_mul (Nat.two_pow_pos _), Nat.mul_comm, ← Nat.pow_succ]
    convert hx using 2
    omega
  have hdiv := Nat.div_add_mod x (2 ^ (f.e + f.m))
  rcases Nat.le_one_iff_eq_zero_or_eq_one.1 (Nat.le_of_lt_succ hsign) with h | h
  · rw [h] at hdiv ⊢
    simpa [signBit] using hdiv
  · rw [h] at hdiv ⊢
    simpa [signBit] using hdiv

/-- A field pair that is neither an infinity nor a NaN lies up to the largest finite encoding. -/
theorem fields_le_maxBits {ex mant : Nat} (hex : ex < 2 ^ f.e) (hmant : mant < 2 ^ f.m) (hinf : ¬ (f.inf = true ∧ ex = 2 ^ f.e - 1))
    (htop : ¬ (f.inf = false ∧ ex = 2 ^ f.e - 1 ∧ mant = 2 ^ f.m - 1)) : ex * 2 ^ f.m + mant ≤ maxBits f := by
  have hbelow : ex ≠ 2 ^ f.e - 1 → ex * 2 ^ f.m + 2 ^ f.m ≤ (2 ^ f.e - 1) * 2 ^ f.m := fun hne => by
    rw [← Nat.succ_mul]
    exact Nat.mul_le_mul_right _ (by omega)
  have hpow : (2 ^ f.e - 1) * 2 ^ f.m + 2 ^ f.m = 2 ^ (f.e + f.m) := by
    rw [← Nat.succ_mul, Nat.succ_eq_add_one, Nat.sub_add_cancel (Nat.two_pow_pos _), Nat.pow_add]
  cases hf : f.inf with
  | true =>
    have := hbelow fun h => hinf ⟨hf, h⟩
    simp only [maxBits, hf, if_true]
    omega
  | false =>
    simp only [maxBits, hf, Bool.false_eq_true, if_false]
    by_cases hlast : ex = 2 ^ f.e - 1
    · have : mant ≠ 2 ^ f.m - 1 := fun h => htop ⟨hf, hlast, h⟩
      rw [hlast]
      omega
    · have := hbelow hlast
      omega

/-! ## Rounding without remainder -/

theorem log2Rat_one {n : Nat} (hn : n ≠ 0) : log2Rat n 1 = Nat.log2 n := by
  have hle : 1 * 2 ^ Nat.log2 n ≤ n := by
    rw [Nat.one_mul]
    exact Nat.log2_self_le hn
  have hone : Nat.log2 1 = 0 := by decide
  simp only [log2Rat, hone, Int.natCast_zero, Int.sub_zero, Int.natCast_nonneg, if_true, Int.toNat_natCast, if_pos hle]

/-- A value whose last place is that of its format is its own rounding, in every mode. -/
theorem roundF_of_exact {rm : BitVec 2} {sat neg : Bool} {n : Nat} {e : Int} (hplace : max (log2Rat n 1 + e) (eminOf f) - f.m = e)
    (hmax : (if n < 2 ^ f.m then n else ((e + f.m - eminOf f).toNat + 1) * 2 ^ f.m + (n - 2 ^ f.m)) ≤ maxBits f) :
    roundF f rm sat (.fin neg n 1 e) =
      signBit f neg + (if n < 2 ^ f.m then n else ((e + f.m - eminOf f).toNat + 1) * 2 ^ f.m + (n - 2 ^ f.m)) := by
  have hquot : scaledQuot n 1 0 = (n, 0, 1) := by simp [scaledQuot, Nat.mod_one]
  have hround : roundUp rm neg n 0 1 = false := rfl
  simp only [roundF, hplace, Int.sub_self, hquot, hround, Bool.false_eq_true, if_false]
  rw [if_neg (Nat.not_lt.2 hmax)]

/-- A subnormal value: the mantissa is the encoding. -/
theorem roundF_subnormal {rm : BitVec 2} {sat neg : Bool} {n : Nat} (hn : n ≠ 0) (hlt : n < 2 ^ f.m) (hmax : n ≤ maxBits f) :
    roundF f rm sat (.fin neg n 1 (eminOf f - f.m)) = signBit f neg + n := by
  have hlog : Nat.log2 n < f.m := (Nat.log2_lt hn).2 hlt
  rw [roundF_of_exact (by rw [log2Rat_one hn]; omega) (by rwa [if_pos hlt]), if_pos hlt]

/-- A normal value: exponent and mantissa give the encoding. -/
theorem roundF_normal {rm : BitVec 2} {sat neg : Bool} {ex mant : Nat} (hex : ex ≠ 0) (hmant : mant < 2 ^ f.m)
    (hmax : ex * 2 ^ f.m + mant ≤ maxBits f) :
    roundF f rm sat (.fin neg (2 ^ f.m + mant) 1 ((ex : Int) - biasOf f - f.m)) = signBit f neg + (ex * 2 ^ f.m + mant) := by
  have hlog : Nat.log2 (2 ^ f.m + mant) = f.m := by
    rw [Nat.log2_eq_iff (by have := Nat.two_pow_pos f.m; omega), Nat.pow_succ]
    omega
  have hexp : (((ex : Int) - biasOf f - f.m) + f.m - eminOf f).toNat + 1 = ex := by
    rw [eminOf]
    omega
  have henc : (if 2 ^ f.m + mant < 2 ^ f.m then 2 ^ f.m + mant
      else ((((ex : Int) - biasOf f - f.m) + f.m - eminOf f).toNat + 1) * 2 ^ f.m + (2 ^ f.m + mant - 2 ^ f.m)) = ex * 2 ^ f.m + mant := by
    rw [if_neg (by omega), hexp, Nat.add_sub_cancel_left]
  rw [roundF_of_exact ?_ (henc ▸ hmax), henc]
  rw [log2Rat_one (by have := Nat.two_pow_pos f.m; omega), hlog, eminOf]
  omega

end

/-- Settles O30: the fields of an encoding, in the cases of its decoding, come back from the rounding. -/
theorem roundingKeepsRepresentableValues : Obligations.RoundingKeepsRepresentableValues := by
  unfold Obligations.RoundingKeepsRepresentableValues
  intro f rm sat x _ hx hnan
  have hfields := mod_eq_fields f x
  have hsum := signBit_add_mod hx
  have hex : x / 2 ^ f.m % 2 ^ f.e < 2 ^ f.e := Nat.mod_lt _ (Nat.two_pow_pos _)
  have hmant : x % 2 ^ f.m < 2 ^ f.m := Nat.mod_lt _ (Nat.two_pow_pos _)
  rw [isNaN] at hnan
  generalize hneg : (x / 2 ^ (f.e + f.m) % 2 == 1) = neg at hsum
  generalize hE : x / 2 ^ f.m % 2 ^ f.e = ex at hfields hex
  generalize hM : x % 2 ^ f.m = mant at hfields hmant
  rw [hfields] at hsum
  have hdec : decodeF f x =
      if f.inf ∧ ex = 2 ^ f.e - 1 then (if mant = 0 then .inf neg else .nan)
      else if f.inf = false ∧ ex = 2 ^ f.e - 1 ∧ mant = 2 ^ f.m - 1 then .nan
      else if ex = 0 then (if mant = 0 then .zero neg else .fin neg mant 1 (eminOf f - f.m))
      else .fin neg (2 ^ f.m + mant) 1 ((ex : Int) - biasOf f - f.m) := by
    subst hneg hE hM
    rfl
  rw [hdec] at hnan ⊢
  clear hdec
  by_cases hinf : f.inf ∧ ex = 2 ^ f.e - 1
  · rw [if_pos hinf] at hnan ⊢
    by_cases hm : mant = 0
    · rw [if_pos hm, roundF, if_pos hinf.1, ← hinf.2]
      omega
    · rw [if_neg hm] at hnan
      exact absurd hnan (by decide)
  · rw [if_neg hinf] at hnan ⊢
    by_cases htop : f.inf = false ∧ ex = 2 ^ f.e - 1 ∧ mant = 2 ^ f.m - 1
    · rw [if_pos htop] at hnan
      exact absurd hnan (by decide)
    · rw [if_neg htop]
      have hmax : ex * 2 ^ f.m + mant ≤ maxBits f := fields_le_maxBits hex hmant hinf htop
      by_cases hzero : ex = 0
      · rw [if_pos hzero]
        by_cases hm : mant = 0
        · rw [if_pos hm, roundF]
          simpa [hzero, hm] using hsum
        · rw [if_neg hm, roundF_subnormal hm hmant (by omega)]
          simpa [hzero] using hsum
      · rw [if_neg hzero, roundF_normal hzero hmant hmax, hsum]

end Sys2Proof.Rounding

/-! SUPPORT. Prepared transfers and loop levels (spec/04 R62 to R71): the countdown of the target buffer entry by entry, the trigger, and
the tests of the loops that end at a bundle: O23. -/

namespace Sys2Proof.Transfers

open Sys2Proof Sys2Proof.Machine Sys2Proof.Laws

/-! ## The countdown (R65) -/

/-- What the countdown makes of one entry: `t` as it stands, `o` as it stood before the bundle. -/
def counted (t o : Target) (own : Bool) : Target :=
  if o.armed = false ∨ own then t else if o.count ≤ 1 then { t with armed := false, count := 0 } else { t with count := o.count - 1 }

/-- The countdown treats each entry of its list once, and leaves the others. -/
theorem tabGet_countDown (old : Tab Target) (armed : Option Nat) {l : List Nat} (hl : l.Nodup) (tgt : Tab Target) (e : Nat) :
    tabGet (countDown tgt old armed l) e {} =
      if e ∈ l then counted (tabGet tgt e {}) (tabGet old e {}) (armed = some e) else tabGet tgt e {} := by
  induction l generalizing tgt with
  | nil => rfl
  | cons x r ih =>
    obtain ⟨hx, hr⟩ := List.nodup_cons.1 hl
    have hstep : ∀ e, tabGet (if (tabGet old x {}).armed = false ∨ armed = some x then tgt
        else if (tabGet old x {}).count ≤ 1 then tabSet tgt x { tabGet tgt x {} with armed := false, count := 0 }
        else tabSet tgt x { tabGet tgt x {} with count := (tabGet old x {}).count - 1 }) e {} =
        if e = x then counted (tabGet tgt x {}) (tabGet old x {}) (armed = some x) else tabGet tgt e {} := by
      intro e
      unfold counted
      by_cases hskip : (tabGet old x {}).armed = false ∨ armed = some x
      · simp only [hskip, if_true, decide_eq_true_eq]
        split <;> simp [*]
      · simp only [hskip, if_false, decide_eq_true_eq]
        split <;> simp [tabGet_tabSet]
    rw [countDown, ih hr, hstep]
    by_cases he : e = x
    · subst he
      simp [hx]
    · simp [he]

/-- The first entry of the target buffer for which a test holds. -/
theorem find_entry {f : Nat → Bool} {e : Nat} (he : e < 4) (hfe : f e = true) (hfirst : ∀ k, k < e → f k = false) :
    [0, 1, 2, 3].find? f = some e := by
  rw [show [0, 1, 2, 3] = List.range 4 from rfl, List.find?_range_eq_some]
  exact ⟨hfe, List.mem_range.2 he, fun k hk => by simp [hfirst k hk]⟩

theorem find_no_entry {f : Nat → Bool} (h : ∀ e, e < 4 → f e = false) : [0, 1, 2, 3].find? f = none := by
  rw [show [0, 1, 2, 3] = List.range 4 from rfl, List.find?_range_eq_none]
  exact fun e he => by simp [h e he]

/-! ## The trigger (R65, R66) -/

/-- The trigger counts the target buffer down and marks the transfer that its bundle takes. -/
theorem execPreparedTransferTrigger_spec {s : State} {core : Nat} {p : Post} (hp : (getCore s core).ctl.post = some p)
    (htrig : p.triggered = false) : ∃ t, execPreparedTransferTrigger core s = .next t ∧ t.mem = s.mem ∧
      (getCore t core).regs = (getCore s core).regs ∧ (getCore t core).ctl.tgt = countDown (getCore s core).ctl.tgt p.old p.armed [0, 1, 2, 3] ∧
      (transferOf p = none → (getCore t core).ctl.post = some { p with triggered := true }) ∧
      (∀ x, transferOf p = some x → (getCore t core).ctl.post = some { p with triggered := true, taken := true, next := x.target.toNat } ∧
        (getCore t core).flight = (getCore s core).flight ++ (if x.call then
          [⟨nowOf s core + 1, .known [.x 31 (BitVec.ofNat 64 (p.seqNext % 65536))]⟩] else [])) := by
  refine ⟨_, rfl, ?_⟩
  simp only [hp, htrig, Bool.false_eq_true, if_false]
  cases transferOf p <;> simp

/-! ## Loop tests (R70) -/

/-- The count that a loop level counts down from: the one written for it, 0 as 1, where one is. -/
def countOf (v : LoopLvl) : BitVec 32 := match v.pend with | some w => if w = 0 then 1 else w | none => v.lc

theorem loopTest_succ_append (addr n : Nat) (l : List LoopLvl) (v : LoopLvl) : loopTest addr (n + 1) (l ++ [v]) =
    if v.stop ≠ addr then (l ++ [v], none)
    else if countOf v - 1 ≠ 0 then (l ++ [{ v with lc := countOf v - 1, pend := none }], some v.start)
    else loopTest addr n l := by
  simp only [loopTest, List.getLast?_append, List.getLast?_singleton, Option.some_or, List.dropLast_concat]
  rfl

theorem sub_one_ne_zero (w : BitVec 32) : w - 1 ≠ 0 ↔ w ≠ 1 := by
  rw [Ne, Ne, sub_eq_zero]

/-- Levels that end at the bundle with their last pass done leave the stack. -/
theorem loopTest_leaves (addr : Nat) (l : List LoopLvl) {m : List LoopLvl} {n : Nat} (hn : m.length ≤ n)
    (hm : ∀ x ∈ m, x.stop = addr ∧ countOf x = 1) : loopTest addr n (l ++ m) = loopTest addr (n - m.length) l := by
  induction m using List.reverseRecOn generalizing n with
  | nil => simp
  | append_singleton m v ih =>
    obtain ⟨n, rfl⟩ := Nat.exists_eq_add_of_le' (show 1 ≤ n by simp at hn; omega)
    obtain ⟨hstop, hcount⟩ := hm v (by simp)
    rw [← List.append_assoc, loopTest_succ_append, if_neg (not_not.2 hstop), if_neg (by rw [sub_one_ne_zero, hcount]; exact fun h => h rfl),
      ih (by simpa using hn) fun x hx => hm x (by simp [hx])]
    simp

/-- The innermost level that ends at the bundle with passes left repeats its body. -/
theorem loopTest_repeats {addr n : Nat} (l : List LoopLvl) {v : LoopLvl} (hn : n ≠ 0) (hstop : v.stop = addr) (hcount : countOf v ≠ 1) :
    loopTest addr n (l ++ [v]) = (l ++ [{ v with lc := countOf v - 1, pend := none }], some v.start) := by
  obtain ⟨n, rfl⟩ := Nat.exists_eq_succ_of_ne_zero hn
  rw [loopTest_succ_append, if_neg (not_not.2 hstop), if_pos ((sub_one_ne_zero _).2 hcount)]

/-- A stack whose innermost level ends elsewhere stays. -/
theorem loopTest_elsewhere {addr : Nat} (n : Nat) {l : List LoopLvl} (h : ∀ v, l.getLast? = some v → v.stop ≠ addr) :
    loopTest addr n l = (l, none) := by
  cases n with
  | zero => rfl
  | succ n =>
    rw [loopTest]
    cases hlast : l.getLast? with
    | none => rfl
    | some v => simp only [if_pos (h v hlast)]

/-! ## Opening a loop (R69) -/

section
variable {s : State} {n : BitVec 32} {off : Nat}

theorem openLoop_full (h : (me s).ctl.loops.length = 4) :
    openLoop s n off = takeTrap s 0x01 (BitVec.ofNat 21 (2 ^ (slotOf (me s) 11).1 + 256 * (frameOf (me s)).1.length)) 0 0 := if_pos h

theorem openLoop_zero (h : (me s).ctl.loops.length ≠ 4) (hn : n = 0) : openLoop s n off = modMe s fun c => { c with ctl := { c.ctl with
    skip := some ((((me s).ctl.pc + off) % 65536 + (frameFrom c.imem (((me s).ctl.pc + off) % 65536) 8).1.length) % 65536) } } := by
  simp only [openLoop, if_neg h, if_pos hn]

theorem openLoop_pushes (h : (me s).ctl.loops.length ≠ 4) (hn : n ≠ 0) : openLoop s n off = modMe s fun c => { c with ctl := { c.ctl with
    loops := c.ctl.loops ++ [⟨n, (c.ctl.pc + (frameOf c).1.length) % 65536, ((me s).ctl.pc + off) % 65536, none⟩] } } := by
  simp only [openLoop, if_neg h, if_neg hn]

end

/-- Settles O23: the target buffer entry by entry, the loops from the innermost level on. -/
theorem transfersAndLoops : Obligations.TransfersAndLoops := by
  unfold Obligations.TransfersAndLoops
  refine ⟨fun s => ?prepare, fun s => ?loops, fun s core p hp htrig => ?trigger, fun s core p hp htrig => ?tests⟩
  case prepare =>
    intro pc armed
    have low : ∀ v : W64, v.setWidth 16 = v.extractLsb' 0 16 := fun v => BitVec.setWidth_eq_extractLsb' (by decide)
    simp only [← low]
    exact ⟨fun o => ⟨rfl, rfl⟩, fun o => ⟨rfl, rfl⟩, fun o h => show execRet o s = _ from guarded_on h⟩
  case loops =>
    intro c len opens
    have form : ∀ {i : Instr} {n : BitVec 32} {off : Nat}, exec i s = .next (openLoop s n off) → opens i n off := fun hi =>
      ⟨fun h hn => hi.trans (congrArg _ (openLoop_pushes h hn)), fun h hn => hi.trans (congrArg _ (openLoop_zero h hn)),
        fun h => hi.trans (congrArg _ (openLoop_full h))⟩
    have low : ∀ v : W64, v.setWidth 32 = v.extractLsb' 0 32 := fun v => BitVec.setWidth_eq_extractLsb' (by decide)
    refine ⟨fun o h => form ?_, fun o h => form ?_⟩
    · rw [← low]
      exact show execLoop o s = _ from guarded_on h
    · rw [BitVec.ofNat_toNat]
      exact show execLoopi o s = _ from guarded_on h
  case trigger =>
    intro cur fires
    obtain ⟨t, ht, hmem, hregs, htgt, hnone, hsome⟩ := execPreparedTransferTrigger_spec hp htrig
    have hentry : ∀ e, e < 4 → tabGet (getCore t core).ctl.tgt e {} = counted (tabGet cur e {}) (tabGet p.old e {}) (p.armed = some e) := by
      intro e he
      rw [htgt, tabGet_countDown p.old p.armed (by decide), if_pos (by simp; omega)]
    refine ⟨t, ht, hmem, hregs, fun e he hkeep => ?_, fun e he harmed hother hlast => ?_, fun e he harmed hother hmore => ?_,
      fun hno => hnone ?_, fun e he hfire hfirst => hsome (tabGet p.old e {}) ?_⟩
    · rw [hentry e he, counted, if_pos (by simpa using hkeep)]
    · rw [hentry e he, counted, if_neg (by rw [harmed, decide_eq_false hother]; decide), if_pos hlast]
    · rw [hentry e he, counted, if_neg (by rw [harmed, decide_eq_false hother]; decide), if_neg (BitVec.not_le.2 hmore)]
    · rw [transferOf, find_no_entry hno]
      rfl
    · rw [transferOf, find_entry he hfire hfirst]
      rfl
  case tests =>
    intro c count goes
    have form : ∀ {l : List LoopLvl × Option Nat}, loopTest p.addr 4 c.ctl.loops = l → goes l.1 (l.2.getD p.next) := by
      intro l hl
      show execLoopEndTest core s = _
      subst hl
      simp only [execLoopEndTest, hp, htrig, Bool.true_eq_false, if_false]
      rfl
    refine ⟨fun hnil => ?_, fun l m v hloops hlen hm hstop hcount => ?_, fun l m hloops hlen hm hlast => ?_⟩
    · exact form (l := ([], none)) (by rw [hnil]; rfl)
    · refine form (l := (l ++ [{ v with lc := count v - 1, pend := none }], some v.start)) ?_
      rw [hloops, List.append_cons, loopTest_leaves _ _ (by omega) hm]
      exact loopTest_repeats l (by omega) hstop hcount
    · refine form (l := (l, none)) ?_
      rw [hloops, loopTest_leaves _ _ hlen hm]
      exact loopTest_elsewhere _ hlast

end Sys2Proof.Transfers

/-! SUPPORT. Taking an exception and returning from it (spec/04 R84 to R90): the two ways a trap goes, the FMT writes that the trap holds
and the return puts back: O24, O25. -/

namespace Sys2Proof.TrapReturn

open Sys2Proof Sys2Proof.Machine Sys2Proof.Laws

/-! ## The FMT writes that a trap holds (R86) -/

theorem ofNat_ext_low (j : Nat) : (BitVec.ofNat 8 (2 ^ (4 + min j 3))).extractLsb' 0 4 = 0 := by
  have hj : min j 3 < 4 := by omega
  interval_cases min j 3 <;> decide

/-- Holding FMT writes leaves the low four bits of ESTATE. -/
theorem holdFmt_low (pend : List (Nat × W32)) (now : Nat) (estate : BitVec 8) :
    (holdFmt pend now estate).1.extractLsb' 0 4 = estate.extractLsb' 0 4 := by
  have hfold : ∀ (l : List (Nat × W32)) (e : BitVec 8 × Tab W32), (l.foldl (fun (e, t) p =>
      let j := p.1 - now
      (e ||| BitVec.ofNat 8 (2 ^ (4 + min j 3)), tabSet t (min j 3) p.2)) e).1.extractLsb' 0 4 = e.1.extractLsb' 0 4 := by
    intro l
    induction l with
    | nil => exact fun e => rfl
    | cons p r ih =>
      intro e
      rw [List.foldl_cons, ih]
      show (e.1 ||| BitVec.ofNat 8 (2 ^ (4 + min (p.1 - now) 3))).extractLsb' 0 4 = _
      rw [BitVec.extractLsb'_or, ofNat_ext_low]
      exact BitVec.or_zero
  exact hfold pend (estate, [])

/-- The low bits of the ESTATE that a trap writes: the level before, and a handler running. -/
theorem estate_entered (priv : BitVec 2) {e : BitVec 8} (h : e.extractLsb' 0 4 = (priv.setWidth 8 ||| 4 : BitVec 8).extractLsb' 0 4) :
    e.extractLsb' 0 2 = priv ∧ e.getLsbD 2 = true := by
  revert priv e
  decide

/-- Bit 4 + k of ESTATE tells a write held for the k-th vc (R86). -/
theorem holdFmt_bit (pend : List (Nat × W32)) (now : Nat) (estate : BitVec 8) {k : Nat} (hk : k < 4) :
    (holdFmt pend now estate).1.getLsbD (4 + k) = (estate.getLsbD (4 + k) || pend.any (fun p => min (p.1 - now) 3 == k)) := by
  have hone : ∀ j, j < 4 → (BitVec.ofNat 8 (2 ^ (4 + j))).getLsbD (4 + k) = (j == k) := by
    intro j hj
    interval_cases j <;> interval_cases k <;> decide
  have hfold : ∀ (l : List (Nat × W32)) (e : BitVec 8 × Tab W32), (l.foldl (fun (e, t) p =>
      let j := p.1 - now
      (e ||| BitVec.ofNat 8 (2 ^ (4 + min j 3)), tabSet t (min j 3) p.2)) e).1.getLsbD (4 + k) =
        (e.1.getLsbD (4 + k) || l.any (fun p => min (p.1 - now) 3 == k)) := by
    intro l
    induction l with
    | nil => simp
    | cons p r ih =>
      intro e
      rw [List.foldl_cons, ih]
      show ((e.1 ||| BitVec.ofNat 8 (2 ^ (4 + min (p.1 - now) 3))).getLsbD (4 + k) || _) = _
      rw [BitVec.getLsbD_or, hone _ (by omega), List.any_cons, Bool.or_assoc]
  exact hfold pend (estate, [])

/-- The first of some writes in the order in which they fall due, if it falls due next, and the rest. -/
theorem pending_split {m : Nat} {pend : List (Nat × W32)} (hsorted : pend.Pairwise (fun a b => a.1 < b.1)) (hlater : ∀ p ∈ pend, m < p.1) :
    ∃ (a : Option W32) (rest : List (Nat × W32)), pend = (a.map (fun w => (m + 1, w))).toList ++ rest ∧
      rest.Pairwise (fun a b => a.1 < b.1) ∧ ∀ p ∈ rest, m + 1 < p.1 := by
  cases pend with
  | nil => exact ⟨none, [], rfl, .nil, nofun⟩
  | cons q r =>
    obtain ⟨hq, hr⟩ := List.pairwise_cons.1 hsorted
    have hm := hlater q (List.mem_cons_self ..)
    by_cases h : q.1 = m + 1
    · refine ⟨some q.2, r, ?_, hr, fun p hp => h ▸ hq p hp⟩
      simp [← h]
    · refine ⟨none, q :: r, rfl, hsorted, fun p hp => ?_⟩
      rcases List.mem_cons.1 hp with rfl | hp
      · omega
      · have := hq p hp
        omega

/-- FMT writes in the order in which they fall due, each one to three vc after `now`, are at most one write per vc. -/
theorem pending_forms {now : Nat} {pend : List (Nat × W32)} (hsorted : pend.Pairwise (fun a b => a.1 < b.1))
    (hdue : ∀ p ∈ pend, now < p.1 ∧ p.1 ≤ now + 3) : ∃ a b c : Option W32,
      pend = (a.map (fun w => (now + 1, w))).toList ++ ((b.map (fun w => (now + 2, w))).toList ++ (c.map (fun w => (now + 3, w))).toList) := by
  obtain ⟨a, r1, rfl, hs1, hl1⟩ := pending_split hsorted fun p hp => (hdue p hp).1
  obtain ⟨b, r2, rfl, hs2, hl2⟩ := pending_split hs1 hl1
  obtain ⟨c, r3, rfl, -, hl3⟩ := pending_split hs2 hl2
  have hnone : r3 = [] := List.eq_nil_iff_forall_not_mem.2 fun p hp => by
    have h1 := hl3 p hp
    have h2 := (hdue p (by simp [hp])).2
    omega
  exact ⟨a, b, c, by rw [hnone, List.append_nil]⟩

/-- What the return puts back of the writes that the trap held. -/
theorem unholdFmt_holdFmt {now first : Nat} {pend : List (Nat × W32)} {estate : BitVec 8} (hsorted : pend.Pairwise (fun a b => a.1 < b.1))
    (hdue : ∀ p ∈ pend, now < p.1 ∧ p.1 ≤ now + 3) (hfree : ∀ k, k < 4 → estate.getLsbD (4 + k) = false) :
    unholdFmt (holdFmt pend now estate).1 (holdFmt pend now estate).2 first = pend.map (fun p => (first + (p.1 - now), p.2)) := by
  have hbits : [0, 1, 2, 3].filter (fun j => (holdFmt pend now estate).1.getLsbD (4 + j)) =
      [0, 1, 2, 3].filter (fun j => pend.any (fun p => min (p.1 - now) 3 == j)) := List.filter_congr fun j hj => by
    have hj' : j < 4 := by simp at hj; omega
    rw [holdFmt_bit _ _ _ hj', hfree j hj', Bool.false_or]
  rw [unholdFmt, hbits]
  obtain ⟨a, b, c, rfl⟩ := pending_forms hsorted hdue
  cases a <;> cases b <;> cases c <;> simp [holdFmt, tabGet_tabSet, List.filter_cons]

/-! ## The two ways of a trap (R84, R90) -/

section
variable {s : State} {cause : Nat} {tslots : BitVec 21} {taddr taux : W64}

/-- The core that a trap leaves before its handler (R84). -/
def enteredCore (s : State) (cause : Nat) (tslots : BitVec 21) (taddr taux : W64) (c : Core) : Core :=
  { c with
    mark := .trapped (BitVec.ofNat 8 cause), decided := true, trapped := true, handler := false, blocked := none, hold := .none
    walkFault := none, wait := .none, cause := BitVec.ofNat 8 cause, flight := vccFlight s s.cur (me s)
    sys := { trapRecord c.sys c.ctl.pc cause tslots taddr taux with
      priv := 1, estate := (holdFmt (me s).sys.fmtPend (nowOf s s.cur) ((me s).sys.priv.setWidth 8 ||| 4)).1
      efmt := (holdFmt (me s).sys.fmtPend (nowOf s s.cur) ((me s).sys.priv.setWidth 8 ||| 4)).2, fmtPend := [] }
    ctl := { c.ctl with
      shTgt := c.ctl.tgt, shLoops := c.ctl.loops, tgt := [], loops := [], pc := ((me s).sys.trapvec.extractLsb' 0 16).toNat } }

/-- The core that a trap leaves whose task ends in error (R90). -/
def endedCore (cause : Nat) (tslots : BitVec 21) (taddr taux : W64) (c : Core) : Core :=
  { c with
    mark := .trapped (BitVec.ofNat 8 cause), decided := true, blocked := none, hold := .none, walkFault := none
    cause := BitVec.ofNat 8 cause, sys := trapRecord c.sys c.ctl.pc cause tslots taddr taux }

theorem takeTrap_enters (hvec : (me s).sys.trapvec.getLsbD 16 = true) (hest : (me s).sys.estate.getLsbD 2 = false) :
    takeTrap s cause tslots taddr taux = modMe s (enteredCore s cause tslots taddr taux) := by
  rw [takeTrap, if_neg (by rw [hvec, hest]; decide)]
  rfl

theorem takeTrap_ends {u : Nat} (hno : (me s).sys.trapvec.getLsbD 16 = false ∨ (me s).sys.estate.getLsbD 2 = true)
    (htask : (me s).task = some u) : takeTrap s cause tslots taddr taux =
      endInError (modMe s (endedCore cause tslots taddr taux)) u (causeClass cause) 0 (coreUnit s.cur 3) taddr.toNat (trapInfo (me s) cause) := by
  simp only [takeTrap, if_pos hno, htask]
  rfl

/-- A task that ends in error holds the error, published or not. -/
theorem tabFind_endInError {u cls addr info : Nat} {kind : BitVec 2} {unit : BitVec 14} {k : Task} (hk : tabFind s.tasks u = some k)
    (hnone : k.error = none) : (tabFind (endInError s u cls kind unit addr info).tasks u).bind (fun k => k.error) =
      some ⟨BitVec.ofNat 8 cls, kind, unit, BitVec.ofNat 64 addr, BitVec.ofNat 16 info⟩ := by
  simp only [endInError, hk, hnone, Option.isSome_none, Bool.false_eq_true, if_false]
  split
  · simp [tabFind_modTask, hk]
  · simp [publishError, noteError, tabFind_modTask, hk, ‹¬ k.green = true›]

end

/-! ## The return (R89) -/

theorem finishReturn_mem (s : State) (core : Nat) (skip : Bool) : (finishReturn s core skip).mem = s.mem := rfl

theorem getCore_finishReturn_ne (s : State) {core k : Nat} (skip : Bool) (h : k ≠ core) :
    getCore (finishReturn s core skip) k = getCore s k := getCore_modCore_ne s _ h

/-- With S = 1 the bundle at EPC stays to be counted as committed. -/
theorem getCore_finishReturn_post (s : State) (core : Nat) (skip : Bool) :
    (getCore (finishReturn s core skip) core).ctl.post.isSome = skip := by
  cases skip <;> simp [finishReturn]

section
variable {s : State} {g : BitVec 4}

theorem eretOp_returns {n : Nat} (h : guardOn s g = true) (hpriv : (me s).sys.priv = 1) (hest : (me s).sys.estate.getLsbD 2 = true)
    (hidle : handlerBusy (me s) = false) :
    eretOp g n s = .next (finishReturn (modMe s fun c => { c with retPend := some n }) s.cur (n == 1)) := by
  have hcore : getCore (modMe s fun c => { c with retPend := some n }) s.cur = { me s with retPend := some n } := by
    rw [getCore_modMe, if_pos rfl]
  have hbusy : handlerBusy { me s with retPend := some n } = false := hidle
  rw [eretOp, guarded_on h]
  simp [isSup, hpriv, hest, tryReturn, hcore, hbusy]

theorem eretOp_waits {n : Nat} (h : guardOn s g = true) (hpriv : (me s).sys.priv = 1) (hest : (me s).sys.estate.getLsbD 2 = true)
    (hflight : (me s).flight ≠ []) : eretOp g n s = .next (modMe s fun c => { c with retPend := some n }) := by
  have hcore : getCore (modMe s fun c => { c with retPend := some n }) s.cur = { me s with retPend := some n } := by
    rw [getCore_modMe, if_pos rfl]
  have hbusy : handlerBusy { me s with retPend := some n } = true := by simp [handlerBusy, hflight]
  rw [eretOp, guarded_on h]
  simp [isSup, hpriv, hest, tryReturn, hcore, hbusy]

theorem eretOp_privileged {n : Nat} (h : guardOn s g = true) (hno : ¬ ((me s).sys.priv = 1 ∧ (me s).sys.estate.getLsbD 2 = true)) :
    eretOp g n s = .next (slotTrap s 11 0x03 0 0) := by
  have hcond : isSup (me s) = false ∨ (me s).sys.estate.getLsbD 2 = false := by
    rw [isSup, beq_eq_false_iff_ne, ← Bool.not_eq_true]
    exact not_and_or.1 hno
  rw [eretOp, guarded_on h]
  simp only [if_pos hcond, unitB]

end

/-- Settles O24: the trap that enters, the trap that ends its task, and the return. -/
theorem trapsAndReturns : Obligations.TrapsAndReturns := by
  unfold Obligations.TrapsAndReturns
  refine ⟨fun o s h hvec hest => ?enters, fun s cause u tslots taddr taux k hno htask hk hnone => ?ends, fun o s h => ?returns⟩
  case enters =>
    have entered : ∀ cause, let t := slotTrap s 11 cause 0 0
        let c := me s
        let d := me t
        d.sys.epc = BitVec.ofNat 16 c.ctl.pc ∧ d.sys.tcause = BitVec.ofNat 8 cause ∧ d.sys.taddr = 0 ∧
        d.sys.taux = BitVec.ofNat 64 (slotOf c 11).2.toNat ∧
        d.sys.tslots = BitVec.ofNat 21 (2 ^ (slotOf c 11).1 + 256 * (frameOf c).1.length) ∧
        d.sys.priv = 1 ∧ d.sys.estate.extractLsb' 0 2 = c.sys.priv ∧ d.sys.estate.getLsbD 2 = true ∧
        d.ctl.pc = (c.sys.trapvec.extractLsb' 0 16).toNat ∧ d.ctl.tgt = [] ∧ d.ctl.loops = [] ∧
        d.ctl.shTgt = c.ctl.tgt ∧ d.ctl.shLoops = c.ctl.loops ∧ d.trapped = true ∧
        d.regs = c.regs ∧ t.mem = s.mem ∧ t.hostMem = s.hostMem ∧ t.tasks = s.tasks ∧ (∀ k, k ≠ s.cur → getCore t k = getCore s k) := by
      intro cause t c d
      have ht : t = modMe s (enteredCore s cause (BitVec.ofNat 21 (2 ^ (slotOf c 11).1 + 256 * (frameOf c).1.length)) 0 ((0 : BitVec 32) ++ (slotOf c 11).2)) :=
        takeTrap_enters hvec hest
      have hd : d = enteredCore s cause (BitVec.ofNat 21 (2 ^ (slotOf c 11).1 + 256 * (frameOf c).1.length)) 0 ((0 : BitVec 32) ++ (slotOf c 11).2) c := by
        rw [show d = me t from rfl, ht, me_modMe]
      have hstate := estate_entered (me s).sys.priv (holdFmt_low (me s).sys.fmtPend (nowOf s s.cur) ((me s).sys.priv.setWidth 8 ||| 4))
      have hword : (0 : BitVec 32) ++ (slotOf c 11).2 = BitVec.ofNat 64 (slotOf c 11).2.toNat := by
        apply BitVec.eq_of_toNat_eq
        have := (slotOf c 11).2.isLt
        rw [toNat_appendMul, BitVec.toNat_ofNat, Nat.mod_eq_of_lt (by omega)]
        exact Nat.zero_add _
      rw [hd, ht]
      exact ⟨rfl, rfl, rfl, hword, rfl, rfl, hstate.1, hstate.2, rfl, rfl, rfl, rfl, rfl, rfl, rfl, rfl, rfl, rfl,
        fun k hk => getCore_modCore_ne s _ hk⟩
    intro ic hic
    simp only [List.mem_cons, List.not_mem_nil, or_false] at hic
    rcases hic with rfl | rfl
    · exact ⟨_, show execTrap o s = _ from guarded_on h, entered 0x0C⟩
    · exact ⟨_, show execSyscall o s = _ from guarded_on h, entered 0x0D⟩
  case ends =>
    intro t
    have hme : me t = endedCore cause tslots taddr taux (me s) := by
      rw [show t = _ from takeTrap_ends hno htask, me, getCore_endInError, endInError_cur]
      exact me_modMe s _
    refine ⟨?_, ?_⟩
    · rw [show t = _ from takeTrap_ends hno htask, tabFind_endInError (s := modMe s (endedCore cause tslots taddr taux)) hk hnone, BitVec.ofNat_toNat, BitVec.setWidth_eq]
      rfl
    · rw [hme]
      exact ⟨rfl, rfl, rfl, rfl, rfl, rfl, rfl⟩
  case returns =>
    intro c ready
    refine ⟨fun hready hflight hfresh hfmt hpost is his => ?_, fun hready hflight => ?_, fun hno => ?_⟩
    · have hidle : handlerBusy (me s) = false := by
        rw [handlerBusy, hflight, hfresh, hfmt, hpost]
        rfl
      have returned : ∀ n skip, (n == 1) = skip → ∃ t, eretOp o.g n s = .next t ∧
          let d := me t
          d.sys.priv = c.sys.estate.extractLsb' 0 2 ∧ d.sys.estate.getLsbD 2 = false ∧ d.sys.estate.extractLsb' 4 4 = 0 ∧
          d.ctl.pc = c.sys.epc.toNat ∧ d.ctl.tgt = c.ctl.shTgt ∧ d.ctl.loops = c.ctl.shLoops ∧ d.handler = false ∧
          (d.ctl.post.isSome = skip) ∧ d.regs = c.regs ∧ t.mem = s.mem ∧ (∀ k, k ≠ s.cur → getCore t k = getCore s k) := by
        intro n skip hskip
        refine ⟨_, eretOp_returns h hready.1 hready.2 hidle, ?_⟩
        have hcore : getCore (modMe s fun c => { c with retPend := some n }) s.cur = { me s with retPend := some n } := by
          rw [getCore_modMe, if_pos rfl]
        have hret := getCore_finishReturn (modMe s fun c => { c with retPend := some n }) s.cur (n == 1)
        rw [hcore] at hret
        obtain ⟨hpc, htgt, hloops, hpriv, hest, hhandler, -, hregs, -, -⟩ := hret
        have hlow : ∀ e : BitVec 8, (e &&& 3).getLsbD 2 = false ∧ (e &&& 3).extractLsb' 4 4 = 0 := by decide
        refine ⟨hpriv, ?_, ?_, hpc, htgt, hloops, hhandler, ?_, hregs, rfl, fun k hk => ?_⟩
        · exact hest ▸ (hlow _).1
        · exact hest ▸ (hlow _).2
        · rw [← hskip]
          exact getCore_finishReturn_post ..
        · rw [getCore_finishReturn_ne _ _ hk]
          exact getCore_modCore_ne s _ hk
      simp only [List.mem_cons, List.not_mem_nil, or_false] at his
      rcases his with rfl | rfl
      · exact returned 0 false rfl
      · exact returned 1 true rfl
    · exact ⟨eretOp_waits h hready.1 hready.2 hflight, eretOp_waits h hready.1 hready.2 hflight⟩
    · exact ⟨eretOp_privileged h hno, eretOp_privileged h hno⟩

/-! ## The round trip (R56, R89) -/

/-- Settles O25: the record of the trap is what the return reads; the held writes come back one by one. -/
theorem trapAndReturnRoundTrip : Obligations.TrapAndReturnRoundTrip := by
  unfold Obligations.TrapAndReturnRoundTrip
  intro s cause tslots taddr taux skip c hvec hest hhandler hpc hsorted hdue d
  have ht := takeTrap_enters (cause := cause) (tslots := tslots) (taddr := taddr) (taux := taux) hvec hest
  have hcore : getCore (modMe s (enteredCore s cause tslots taddr taux)) s.cur = enteredCore s cause tslots taddr taux c := by
    rw [getCore_modMe, if_pos rfl]
  have hd : d = getCore (finishReturn (modMe s (enteredCore s cause tslots taddr taux)) s.cur skip) s.cur := by
    show me (finishReturn (takeTrap s cause tslots taddr taux) s.cur skip) = _
    rw [ht]
    rfl
  have hvcc : vccOf (modMe s (enteredCore s cause tslots taddr taux)) s.cur = nowOf s s.cur := by
    have hnow : nowOf s s.cur = vccOf s s.cur := by
      rw [nowOf, if_neg (by rw [show getCore s s.cur = c from rfl, hhandler]; decide)]
    rw [hnow, vccOf, vccOf, taskOf, taskOf, hcore]
    rfl
  have hret := getCore_finishReturn (modMe s (enteredCore s cause tslots taddr taux)) s.cur skip
  rw [hcore, hvcc, ← hd] at hret
  obtain ⟨hdpc, htgt, hloops, hpriv, hestate, -, -, hregs, hflight, hpend⟩ := hret
  have hstate := estate_entered c.sys.priv (holdFmt_low c.sys.fmtPend (nowOf s s.cur) (c.sys.priv.setWidth 8 ||| 4))
  have hfree : ∀ k, k < 4 → (c.sys.priv.setWidth 8 ||| 4 : BitVec 8).getLsbD (4 + k) = false := by
    generalize c.sys.priv = p
    revert p
    decide
  refine ⟨?_, htgt, hloops, hpriv.trans hstate.1, ?_, ?_, hregs, ?_, ?_⟩
  · rw [hdpc]
    exact (BitVec.toNat_ofNat ..).trans (Nat.mod_eq_of_lt hpc)
  · rw [hpend]
    refine (unholdFmt_holdFmt hsorted hdue hfree).trans (List.map_congr_left fun p hp => ?_)
    have := (hdue p hp).1
    cases skip
    · exact Prod.ext (show nowOf s s.cur + 1 + (p.1 - nowOf s s.cur) = p.1 + 1 by omega) rfl
    · exact Prod.ext (show nowOf s s.cur + (p.1 - nowOf s s.cur) = p.1 by omega) rfl
  · rw [hd, finishReturn, getCore_modCore_self, hcore]
    rfl
  · rw [hflight]
    show vccFlight s s.cur c = c.flight
    rw [vccFlight, hhandler]
    rfl
  · rw [hestate]
    generalize (enteredCore s cause tslots taddr taux c).sys.estate = e
    revert e
    decide

end Sys2Proof.TrapReturn

/-! SUPPORT. MFS, MTS and SETFMT, and the writes of system registers that land (spec/03 R55, spec/04 R72, R81 to R83): O26. -/

namespace Sys2Proof.SysRegs

open Sys2Proof Sys2Proof.Machine Sys2Proof.Laws Sys2Proof.Landing

/-! ## Registers as 64-bit numbers -/

theorem setWidth_64 {w : Nat} (x : BitVec w) : x.setWidth 64 = BitVec.ofNat 64 x.toNat := (BitVec.ofNat_toNat ..).symm

theorem eq_ofNat_64 (x : W64) : x = BitVec.ofNat 64 x.toNat := by rw [BitVec.ofNat_toNat, BitVec.setWidth_eq]

/-- Two words as one, the first word high. -/
theorem append_eq_ofNat (x y : W32) : x ++ y = BitVec.ofNat 64 (y.toNat + 2 ^ 32 * x.toNat) := by
  apply BitVec.eq_of_toNat_eq
  have hx := x.isLt
  have hy := y.isLt
  rw [toNat_appendMul, BitVec.toNat_ofNat, Nat.mod_eq_of_lt (by omega)]
  omega

/-! ## MFS (R81) -/

section
variable {o : SysOp} {s : State}

theorem isSup_eq (c : Core) : isSup c = decide (c.sys.priv = 1) := rfl

/-- A read that the level admits gives the register as its bundle found it. -/
theorem execMfs_reads (h : guardOn s o.g = true) (hlevel : o.idx.toNat < 0x200 ∨ (me s).sys.priv = 1) :
    execMfs o s = .next (emit s 2 [landS (o.file == 1) o.r (sysSeen s o.idx.toNat)]) := by
  have hno : ¬ (0x200 ≤ o.idx.toNat ∧ isSup (me s) = false) := by
    rw [isSup_eq, decide_eq_false_iff_not]
    rintro ⟨hi, hp⟩
    exact hlevel.elim (fun h => absurd h (Nat.not_lt.2 hi)) hp
  rw [execMfs, guarded_on h]
  simp only [if_neg hno]

theorem execMfs_privileged (h : guardOn s o.g = true) (hi : 0x200 ≤ o.idx.toNat) (hp : (me s).sys.priv ≠ 1) :
    execMfs o s = .next (slotTrap s 11 0x03 0 0) := by
  have hno : 0x200 ≤ o.idx.toNat ∧ isSup (me s) = false := ⟨hi, decide_eq_false hp⟩
  rw [execMfs, guarded_on h]
  simp only [if_pos hno, unitB]

theorem sysSeen_of_none {i : Nat} (h : (me s).blocked = none) : sysSeen s i = sysRead s i := by rw [sysSeen, h]; rfl

theorem sysSeen_of_some {i : Nat} {b : Blocked} {w : W64} (h : (me s).blocked = some b) (hw : b.mfs = some w) : sysSeen s i = w := by
  rw [sysSeen, h, Option.bind_some, hw]
  rfl

theorem sysRead_low {i : Nat} (h : i < 0x200) : sysRead s i = sysLow s i := if_pos h

theorem sysRead_high {i : Nat} (h : 0x200 ≤ i) : sysRead s i = sysHigh s i := if_neg (Nat.not_lt.2 h)

theorem sysLow_lc {n : Nat} (hn : n < 4) : sysLow s (0x010 + n) = lcOf (me s) n := by
  interval_cases n <;> rfl

theorem sysLow_seq {n : Nat} (hn : n < 16) : sysLow s (0x030 + n) = (tabGet (me s).sys.seq n 0).setWidth 64 := by
  interval_cases n <;> rfl

theorem sysLow_unassigned {j : Nat} (hj : j ∈ [0x009, 0x00F, 0x015, 0x01E, 0x022, 0x042, 0x07F, 0x089, 0x1FF]) :
    j < 0x200 ∧ sysLow s j = BitVec.ofNat 64 0 := by
  simp only [List.mem_cons, List.not_mem_nil, or_false] at hj
  rcases hj with rfl | rfl | rfl | rfl | rfl | rfl | rfl | rfl | rfl <;> exact ⟨by decide, rfl⟩

/-! ## MTS (R83) -/

/-- What `MTS` does once its guard is true, in the order of its tests. -/
theorem execMts_on (h : guardOn s o.g = true) : execMts o s = .next (
    let i := o.idx.toNat
    let v := seeS s (o.file == 1) o.r
    if isSup (me s) = false ∧ 0x200 ≤ i then slotTrap s 11 0x03 0 0
    else if isSup (me s) = false ∧ taskWrites i = false then s
    else if i = 0 then writeFmt s (v.setWidth 32)
    else if 0x010 ≤ i ∧ i < 0x014 then writeLc s (i - 0x010) v
    else if i = 0x214 then clearEvent s (v.toNat % 4096)
    else emit s 1 [.sys i v]) := by
  rw [execMts, guarded_on h]
  dsimp only
  cases hs : isSup (me s) with
  | true => simp
  | false =>
    by_cases hi : 0x200 ≤ o.idx.toNat
    · simp [hi, unitB]
    · simp [hi, show o.idx.toNat ≠ 0x214 by omega]

/-- The registers below 0x200 that `MTS` changes at task level (R83). -/
theorem taskWrites_iff (i : Nat) : taskWrites i = true ↔ i ∈ [0x000, 0x008, 0x010, 0x011, 0x012, 0x013, 0x014, 0x020, 0x021] := by
  simp only [taskWrites, Bool.or_eq_true, beq_iff_eq, Bool.and_eq_true, decide_eq_true_eq, List.mem_cons, List.not_mem_nil, or_false]
  omega

/-- What the level admits goes its own way for FMT, the loop counts and EVCLR, and is a result with bound 1 otherwise. -/
theorem execMts_admitted (h : guardOn s o.g = true) (hlevel : (me s).sys.priv = 1 ∨ (o.idx.toNat < 0x200 ∧ taskWrites o.idx.toNat = true)) :
    execMts o s = .next (
      let i := o.idx.toNat
      let v := seeS s (o.file == 1) o.r
      if i = 0 then writeFmt s (v.setWidth 32)
      else if 0x010 ≤ i ∧ i < 0x014 then writeLc s (i - 0x010) v
      else if i = 0x214 then clearEvent s (v.toNat % 4096)
      else emit s 1 [.sys i v]) := by
  rw [execMts_on h]
  dsimp only
  rcases hlevel with hp | ⟨hi, hw⟩
  · have hs : isSup (me s) = true := decide_eq_true hp
    rw [if_neg (fun h => absurd (hs.symm.trans h.1) (by decide)), if_neg (fun h => absurd (hs.symm.trans h.1) (by decide))]
  · rw [if_neg (fun h => absurd h.2 (Nat.not_le.2 hi)), if_neg (fun h => absurd (hw.symm.trans h.2) (by decide))]

theorem execMts_task (h : guardOn s o.g = true) (hlevel : (me s).sys.priv = 1 ∨ (o.idx.toNat < 0x200 ∧ taskWrites o.idx.toNat = true))
    (hi : o.idx.toNat ∉ [0x000, 0x010, 0x011, 0x012, 0x013, 0x214]) :
    execMts o s = .next (emit s 1 [.sys o.idx.toNat (seeS s (o.file == 1) o.r)]) := by
  simp only [List.mem_cons, List.not_mem_nil, or_false, not_or] at hi
  rw [execMts_admitted h hlevel]
  dsimp only
  rw [if_neg (by omega), if_neg (by omega), if_neg (by omega)]

theorem writeFmt_eq (s : State) (v : W64) : writeFmt s (v.setWidth 32) = modMe s fun c => { c with sys := { c.sys with
    fmtPend := c.sys.fmtPend ++ [(nowOf s s.cur + 4, v.extractLsb' 0 32 &&& 0x07FFFFFF)] } } := by
  rw [← BitVec.setWidth_eq_extractLsb' (by decide)]
  rfl

end

/-! ## Writes that land (R72, R83) -/

theorem setWidth_extract (v : W64) {w : Nat} (h : w ≤ 64) : v.setWidth w = v.extractLsb' 0 w := BitVec.setWidth_eq_extractLsb' h

/-- A write to a read-only or unassigned index changes nothing. -/
theorem landSys_none (c : Core) {i : Nat} (v : W64) (hi : i ∉ [0x008, 0x014, 0x018, 0x019, 0x01A, 0x01B, 0x01C, 0x01D, 0x020, 0x021, 0x080,
    0x081, 0x082, 0x083, 0x084, 0x085, 0x086, 0x087, 0x088, 0x210, 0x212]) (hseq : ¬ (0x030 ≤ i ∧ i ≤ 0x03F)) : landSys c i v = c := by
  have hno : ¬ (0x030 ≤ i ∧ i < 0x040) := by omega
  unfold landSys
  dsimp only
  split
  all_goals simp_all

theorem landSys_seq (c : Core) {n : Nat} (v : W64) (hn : n < 16) :
    tabGet (landSys c (0x030 + n) v).sys.seq n 0 = v.extractLsb' 0 16 := by
  have heq : landSys c (0x030 + n) v = { c with sys := { c.sys with seq := tabSet c.sys.seq n (v.setWidth 16) } } := by
    interval_cases n <;> rfl
  rw [heq, setWidth_extract v (by decide)]
  simp [tabGet_tabSet]

/-- LOOPD takes values up to 4 and pops the levels from its value on (R72). -/
theorem landSys_loopd (c : Core) (v : W64) (hlen : c.ctl.loops.length ≤ 4) : (landSys c 0x014 v).ctl.loops =
    if (v.extractLsb' 0 3).toNat < c.ctl.loops.length then c.ctl.loops.take (v.extractLsb' 0 3).toNat else c.ctl.loops := by
  have hfour : (v.extractLsb' 0 3 ≤ 4) ↔ (v.extractLsb' 0 3).toNat ≤ 4 := Iff.rfl
  show c.ctl.loops.take (if v.extractLsb' 0 3 ≤ 4 then (v.extractLsb' 0 3).toNat else 4) = _
  by_cases hlt : (v.extractLsb' 0 3).toNat < c.ctl.loops.length
  · rw [if_pos (hfour.2 (by omega)), if_pos hlt]
  · rw [if_neg hlt]
    refine List.take_of_length_le ?_
    split <;> omega

/-- ESTATE drops its reserved bit, and PPRIV stays where 2 or 3 is written (log entry 41). -/
theorem estateWritten_eq (old : BitVec 8) (v : W64) : estateWritten old v =
    if v.getLsbD 1 then (v.extractLsb' 0 8 &&& 0xF4) ||| (old &&& 0x03) else v.extractLsb' 0 8 &&& 0xF7 := by
  have hbit : (v.extractLsb' 0 8 &&& 0xF7).getLsbD 1 = v.getLsbD 1 := by
    rw [BitVec.getLsbD_and, BitVec.getLsbD_extractLsb']
    simp
  have hmask : ∀ w : BitVec 8, (w &&& 0xF7) &&& 0xFC = w &&& 0xF4 := by decide
  rw [estateWritten, setWidth_extract v (by decide)]
  rw [hbit, hmask]

/-- Settles O26: each read by the register's number, each write by the way that `MTS` gives it. -/
theorem systemRegisters : Obligations.SystemRegisters := by
  unfold Obligations.SystemRegisters
  refine ⟨fun o s h => ?instructions, fun c i v => ?lands⟩
  case instructions =>
    intro k c y v put reads task fmtWrite
    have value : ∀ {j : Nat} {w : W64}, j < 0x200 → (c.blocked = none → sysLow s j = w) → k = j → c.blocked = none → exec (.mfs o) s = put w := by
      intro j w hj hw hk hb
      show execMfs o s = _
      have hlow : o.idx.toNat < 0x200 := lt_of_eq_of_lt hk hj
      rw [execMfs_reads h (.inl hlow), sysSeen_of_none hb, sysRead_low hlow, show o.idx.toNat = j from hk, hw hb]
    have reg : ∀ {j w : Nat} {x : BitVec w}, j < 0x200 → sysLow s j = x.setWidth 64 → reads j x.toNat := fun hj hx =>
      value hj fun _ => hx.trans (setWidth_64 _)
    have word : ∀ {j : Nat} {x : W64}, j < 0x200 → sysLow s j = x → reads j x.toNat := fun hj hx => value hj fun _ => hx.trans (eq_ofNat_64 _)
    have num : ∀ {j n : Nat}, j < 0x200 → sysLow s j = BitVec.ofNat 64 n → reads j n := fun hj hx => value hj fun _ => hx
    refine ⟨⟨reg (by decide) rfl, ?vcc, ?task, reg (by decide) rfl, reg (by decide) rfl, ?counts, ?nocounts, num (by decide) rfl,
      word (by decide) rfl, word (by decide) rfl, word (by decide) rfl, word (by decide) rfl, num (by decide) (append_eq_ofNat ..),
      num (by decide) (append_eq_ofNat ..), reg (by decide) rfl, reg (by decide) rfl, reg (by decide) rfl, reg (by decide) rfl,
      word (by decide) rfl, word (by decide) rfl, reg (by decide) rfl, reg (by decide) rfl, reg (by decide) rfl, reg (by decide) rfl,
      word (by decide) rfl, word (by decide) rfl, reg (by decide) rfl⟩, ?unassigned, ?seq, ?privileged, ?high, ?any, ?held, ?fmt, ?tasks,
      ?counts', ?dropped, ?sup, ?evclr, ?setfmt⟩
    case vcc => exact value (by decide) fun hb => by simp only [sysLow, show (me s).blocked = none from hb]
    case task =>
      intro t ht
      refine ⟨num (by decide) ?_, reg (x := t.gridn) (by decide) ?_, num (by decide) ?_, num (by decide) ?_, num (by decide) ?_⟩
      · simp only [sysLow, ht]
      · simp only [sysLow, ht]
      · simp only [sysLow, ctxOf, ht]
      · simp only [sysLow, ht]
        rfl
      · simp only [sysLow, ht, taskstateOf]
        cases t.green <;> rfl
    case counts =>
      intro n l hn hl
      exact reg (x := l.lc) (by omega) ((sysLow_lc hn).trans (by simp only [lcOf, show (me s).ctl.loops[n]? = some l from hl]))
    case nocounts =>
      intro n hn hlen
      exact num (by omega) ((sysLow_lc hn).trans (by simp only [lcOf, List.getElem?_eq_none (show (me s).ctl.loops.length ≤ n from hlen)]; rfl))
    case unassigned => exact fun j hj => num (sysLow_unassigned (s := s) hj).1 (sysLow_unassigned hj).2
    case seq => exact fun n hn => reg (by omega) (sysLow_seq hn)
    case privileged =>
      intro hi hp
      refine ⟨execMfs_privileged h hi hp, ?_⟩
      show execMts o s = _
      rw [execMts_on h]
      exact congrArg _ (if_pos ⟨decide_eq_false hp, hi⟩)
    case high =>
      intro hi hp hb
      show execMfs o s = _
      rw [execMfs_reads h (.inr hp), sysSeen_of_none hb, sysRead_high hi]
    case any =>
      intro hlevel hb
      show execMfs o s = _
      rw [execMfs_reads h hlevel, sysSeen_of_none hb]
    case held =>
      intro b w hlevel hb hw
      show execMfs o s = _
      rw [execMfs_reads h hlevel, sysSeen_of_some hb hw]
    case fmt =>
      intro hk
      show execMts o s = _
      have hk' : o.idx.toNat = 0 := hk
      rw [execMts_admitted h (.inr (by rw [hk']; decide)), hk']
      exact congrArg _ (writeFmt_eq s v)
    case tasks =>
      intro hk
      have hlist : o.idx.toNat ∈ [0x008, 0x014, 0x020, 0x021] := hk
      simp only [List.mem_cons, List.not_mem_nil, or_false] at hlist
      refine execMts_task h (.inr ⟨by omega, (taskWrites_iff _).2 ?_⟩) ?_ <;>
        simp only [List.mem_cons, List.not_mem_nil, or_false] <;> omega
    case counts' =>
      intro hlo hhi
      have hlo' : 0x010 ≤ o.idx.toNat := hlo
      have hhi' : o.idx.toNat < 0x014 := hhi
      show execMts o s = _
      rw [execMts_admitted h (.inr ⟨by omega, (taskWrites_iff _).2 (by simp only [List.mem_cons, List.not_mem_nil, or_false]; omega)⟩)]
      dsimp only
      rw [if_neg (by omega), if_pos ⟨hlo', hhi'⟩, writeLc, setWidth_extract _ (by decide)]
      rfl
    case dropped =>
      intro hp hi hk
      show execMts o s = _
      have hno : taskWrites o.idx.toNat = false := by
        rw [← Bool.not_eq_true, taskWrites_iff]
        exact hk
      rw [execMts_on h]
      dsimp only
      rw [if_neg (fun h => absurd h.2 (Nat.not_le.2 hi)), if_pos ⟨decide_eq_false hp, hno⟩]
    case sup => exact fun hp hk => execMts_task h (.inl hp) hk
    case evclr =>
      intro hp hk n
      have hk' : o.idx.toNat = 0x214 := hk
      have hclear : exec (.mts o) s = .next (clearEvent s n) := by
        show execMts o s = _
        rw [execMts_admitted h (.inl hp), hk']
        rfl
      refine ⟨fun hn => ?_, fun hn hgreen => ?_, fun hn hgreen => ?_⟩
      · rw [hclear, clearEvent, if_pos hn]
      · rw [hclear, clearEvent, if_neg hn, if_pos hgreen]
        rfl
      · rw [hclear, clearEvent, if_neg hn, hgreen]
        rfl
    case setfmt =>
      intro r hr
      show execSetfmt r s = _
      rw [execSetfmt, guarded_on hr, writeFmt_eq]
  case lands =>
    refine ⟨landSys_none c v, rfl, setWidth_extract v (by decide), setWidth_extract v (by decide), setWidth_extract v (by decide), rfl, rfl,
      ?three, setWidth_extract v (by decide), setWidth_extract v (by decide), setWidth_extract v (by decide), setWidth_extract v (by decide),
      setWidth_extract v (by decide), setWidth_extract v (by decide), setWidth_extract v (by decide), ?efmt, landSys_loopd c v, ?two, ?one,
      rfl, rfl, fun n hn => landSys_seq c v hn, ?regs⟩
    case three =>
      intro f hf
      interval_cases f <;> exact ⟨rfl, rfl⟩
    case efmt =>
      intro n hn
      interval_cases n <;> simp [landSys, tabGet_tabSet, fmtBits]
    case two =>
      intro hv
      show estateWritten c.sys.estate v = _
      rw [estateWritten_eq, if_pos hv]
    case one =>
      intro hv
      show estateWritten c.sys.estate v = _
      rw [estateWritten_eq, hv]
      rfl
    case regs => rw [landSys_eq]

end Sys2Proof.SysRegs

/-! SUPPORT. The virtual cycle, the delay of FMT and the count of a handler (spec/02 R34, spec/03 R55, spec/04 R87): O37. -/

namespace Sys2Proof.Cycles

open Sys2Proof Sys2Proof.Machine Sys2Proof.Laws Sys2Proof.Landing

/-! ## One change on every core of a list -/

/-- Changing each core of a list without repetition changes each of them once and no other. -/
theorem getCore_foldl_modCore {l : List Nat} (hl : l.Nodup) (f : Core → Core) (s : State) (i : Nat) :
    getCore (l.foldl (fun s i => modCore s i f) s) i = if i ∈ l then f (getCore s i) else getCore s i := by
  induction l generalizing s with
  | nil => rfl
  | cons x r ih =>
    obtain ⟨hx, hr⟩ := List.nodup_cons.1 hl
    rw [List.foldl_cons, ih hr, getCore_modCore]
    by_cases hi : i = x
    · subst hi
      simp [hx]
    · simp [hi]

/-- Changing cores changes nothing but the cores. -/
theorem foldl_modCore_eq (l : List Nat) (f : Core → Core) (s : State) :
    ∃ c, l.foldl (fun s i => modCore s i f) s = { s with cores := c } := by
  induction l generalizing s with
  | nil => exact ⟨s.cores, rfl⟩
  | cons x r ih =>
    obtain ⟨c, hc⟩ := ih (modCore s x f)
    exact ⟨c, hc⟩

theorem gangOf_nodup (t : Task) : (gangOf t).Nodup := List.nodup_range.map fun a b h => by simpa using h

/-! ## The virtual cycle (R34) -/

theorem applyVerdict_none {s : State} {u : Nat} {k : Task} (hk : tabFind s.tasks u = some k) (hnone : k.verdict = none) :
    applyVerdict s u = s := by simp only [applyVerdict, hk, hnone]

theorem execVirtualCycleAdvance_on {s : State} {u : Nat} {k : Task} (hk : tabFind s.tasks u = some k) (hnone : k.verdict = none) :
    execVirtualCycleAdvance u s = .next (if mayAdvance s u k then
      (gangOf k).foldl (fun s i => modCore s i fun c => startVc c (k.vcc + 1))
        (modTask s u fun t => { t with vcc := t.vcc + 1, issued := false, st := if t.st = 4 then 4 else 1 }) else s) := by
  simp only [execVirtualCycleAdvance, applyVerdict_none hk hnone, hk]

/-! ## The delay of FMT (R55) -/

theorem tryReturn_none {s : State} {core : Nat} (h : (getCore s core).retPend = none) : tryReturn s core = s := by rw [tryReturn, h]

theorem landFmt_fmtPend (c : Core) (now : Nat) : (landFmt c now).sys.fmtPend = c.sys.fmtPend.filter (fun p => decide (now < p.1)) := rfl

theorem landFmt_fmt (c : Core) (now : Nat) :
    (landFmt c now).sys.fmt = (c.sys.fmtPend.filter (fun p => p.1 ≤ now)).foldl (fun _ p => p.2) c.sys.fmt := rfl

theorem startVc_retPend (c : Core) (now : Nat) : (startVc c now).retPend = c.retPend := landDue_retPend c now false

/-- Settles O37: each event by its own condition. -/
theorem virtualCyclesAndHandlerCounts : Obligations.VirtualCyclesAndHandlerCounts := by
  unfold Obligations.VirtualCyclesAndHandlerCounts
  refine ⟨fun s u k hk hnone => ⟨fun hmay => ?advance, fun hno => ?stays⟩, fun s core k hk hret => ?fmt, fun s core k hk hruns hpre => ?handler⟩
  case advance =>
    refine ⟨_, show execVirtualCycleAdvance u s = _ from execVirtualCycleAdvance_on hk hnone, ?_⟩
    rw [if_pos hmay]
    obtain ⟨c, hc⟩ := foldl_modCore_eq (gangOf k) (fun c => startVc c (k.vcc + 1))
      (modTask s u fun t => { t with vcc := t.vcc + 1, issued := false, st := if t.st = 4 then 4 else 1 })
    have hcore := getCore_foldl_modCore (gangOf_nodup k) (fun c => startVc c (k.vcc + 1))
      (modTask s u fun t => { t with vcc := t.vcc + 1, issued := false, st := if t.st = 4 then 4 else 1 })
    refine ⟨?_, ?_, fun i hi => ?_, fun i hi => ?_⟩
    · rw [hc]
      simp [tabFind_modTask, hk]
    · rw [hc]
      exact modTask_mem ..
    · rw [hcore, if_pos hi, getCore_modTask]
    · rw [hcore, if_neg hi, getCore_modTask]
  case stays =>
    show execVirtualCycleAdvance u s = _
    rw [execVirtualCycleAdvance_on hk hnone, hno]
    rfl
  case fmt =>
    have hexec : execFmtWriteEffect core s = .next (modCore s core fun c => landFmt c (nowOf s core)) := by
      simp only [execFmtWriteEffect, hk]
      rw [tryReturn_none]
      rw [getCore_modCore_self]
      exact hret
    refine ⟨_, show execFmtWriteEffect core s = _ from hexec, rfl, ?_⟩
    rw [getCore_modCore_self, landFmt_fmtPend, landFmt_fmt]
    refine ⟨rfl, fun p hp => of_decide_eq_true (List.mem_filter.1 hp).2, fun d v hpend hd => ?_, fun d v hpend hd => ?_,
      fun d v e w hpend hde => ⟨fun he => ?_, fun hd he => ?_, fun hd => ?_⟩⟩
    · simp [hpend, hd]
    · simp [hpend, hd]
    · have hd : d ≤ nowOf s core := hde.trans he
      have he : e ≤ nowOf s core := he
      simp [hpend, hd, he]
    · have hd : d ≤ nowOf s core := hd
      have he : nowOf s core < e := he
      simp [hpend, hd, he]
    · have hd : nowOf s core < d := hd
      have he : nowOf s core < e := hd.trans_le hde
      simp [hpend, hd, he]
  case handler =>
    intro c
    have hgo : ¬ (gangRuns k = false ∨ preemptsNow s k = true) := by rw [hruns, hpre]; decide
    refine ⟨fun hno htrapped hstopped hall => ?_, fun hhandler hdecided hhold hpost harrived hret => ?_⟩
    · have hidle : (gangOf k).all (fun i => let k := getCore s i; k.handler || (k.hold == .none && k.ctl.post.isNone && k.flight.isEmpty)) = true := by
        rw [List.all_eq_true]
        intro i hi
        obtain ⟨hhold, hpost, hflight⟩ := hall i hi
        rcases hflight with h | h <;> simp [hhold, hpost, h]
      show execHandlerCountAdvance core s = _
      simp only [execHandlerCountAdvance, hk, if_neg hgo, show (getCore s core).handler = false from hno,
        show (getCore s core).trapped = true from htrapped, hstopped, hidle, Bool.false_eq_true, if_false, if_true, Bool.and_self]
    · have hsteps : (coreDecided (getCore s core) && (getCore s core).hold == .none && (getCore s core).ctl.post.isNone &&
          arrivedBy (getCore s core) ((getCore s core).ctl.hcount + 1)) = true := by
        rw [show coreDecided (getCore s core) = true from hdecided, show (getCore s core).hold = .none from hhold,
          show (getCore s core).ctl.post = none from hpost, show arrivedBy (getCore s core) _ = true from harrived]
        rfl
      show execHandlerCountAdvance core s = _
      simp only [execHandlerCountAdvance, hk, if_neg hgo, show (getCore s core).handler = true from hhandler, hsteps, if_true]
      rw [tryReturn_none]
      · rfl
      · rw [getCore_modCore_self, startVc_retPend]
        exact hret

end Sys2Proof.Cycles

/-! SUPPORT. The words of the manual (spec/03, spec/07) and the SPDM responder (spec/16 R367): O55 and O53. -/

namespace Sys2Proof.Manual

open Sys2Proof Sys2Proof.Machine Sys2Proof.Laws

/-- Settles O55: the decoder evaluated on each word. -/
theorem wordsOfTheManual : Obligations.WordsOfTheManual := by
  unfold Obligations.WordsOfTheManual
  refine ⟨?_, ?_, ?_, ?_, ?_, ?_, ?_, ?_, ?_, ?_⟩ <;> rfl

/-! ## The responder -/

/-- A request is answered by a response that meets `P`, and nothing else changes. -/
def Answers (s : State) (i : Instr) (P : Spdm → Prop) : Prop := ∃ t, exec i s = .next t ∧ t = { s with spdm := t.spdm } ∧ P t.spdm

section
variable {s : State} (r : State → Spdm)

theorem respond_down (h : spdmUp s = false) : respond s r = .next s := by rw [respond, h]; rfl

theorem respond_up (h : spdmUp s = true) : respond s r = .next { s with spdm := r s } := by rw [respond, if_pos h]

theorem respond_answers {r : State → Spdm} {i : Instr} {P : Spdm → Prop} (hi : exec i s = respond s r) (h : spdmUp s = true) (hP : P (r s)) :
    Answers s i P :=
  ⟨{ s with spdm := r s }, hi.trans (respond_up r h), rfl, hP⟩

end

/-- The measurement of a die: 48 bytes, zero in STATE 1 or 2. -/
theorem measurement_die (s : State) {d : Nat} (hd : d < 4) : (measurement s (d + 1)).length = 48 ∧
    ((getDie s d).state = 1 ∨ (getDie s d).state = 2 → measurement s (d + 1) = List.replicate 48 0) := by
  have h6 : d + 1 ≠ 6 := by omega
  have h5 : d + 1 ≠ 5 := by omega
  rw [measurement, if_neg h6, if_neg h5, Nat.add_sub_cancel]
  by_cases h : (getDie s d).state = 1 ∨ (getDie s d).state = 2
  · exact ⟨by rw [if_pos h, List.length_replicate], fun _ => if_pos h⟩
  · exact ⟨by rw [if_neg h, List.length_map, List.length_range], fun h' => absurd h' h⟩

/-- The certificate and the challenge are those of slot 0. -/
theorem slots_answer {s : State} (hup : spdmUp s = true) (slot off len : Nat) (nonce : BitVec 256) :
    (slot = 0 → Answers s (.getCertificate slot off len) fun x => ∃ b, x = .certificate b ∧ b.length ≤ len) ∧
    (slot ≠ 0 → Answers s (.getCertificate slot off len) fun x => ∃ c, x = .error c) ∧
    (slot = 0 → Answers s (.challenge slot nonce) fun x => ∃ b, x = .challengeAuth b ∧ b.length = 96) ∧
    (slot ≠ 0 → Answers s (.challenge slot nonce) fun x => ∃ c, x = .error c) := by
  refine ⟨fun hslot => ?_, fun hslot => ?_, fun hslot => ?_, fun hslot => ?_⟩
  · refine respond_answers (rfl : execGetCertificate slot off len s = respond s _) hup ⟨_, if_neg (not_not_intro hslot), ?_⟩
    rw [List.length_map, List.length_range]
    exact Nat.min_le_left ..
  · exact respond_answers (rfl : execGetCertificate slot off len s = respond s _) hup ⟨_, if_pos hslot⟩
  · exact respond_answers (rfl : execChallenge slot nonce s = respond s _) hup ⟨_, if_neg (not_not_intro hslot), by rw [List.length_map, List.length_range]⟩
  · exact respond_answers (rfl : execChallenge slot nonce s = respond s _) hup ⟨_, if_pos hslot⟩

/-- A single block is measured. -/
theorem getMeasurements_block {s : State} (hup : spdmUp s = true) {block : Nat} {P : Spdm → Prop} (h0 : block ≠ 0) (h6 : block ≤ 6)
    (hP : P (.measurements [(block, measurement s block)])) : Answers s (.getMeasurements block) P := by
  refine respond_answers (rfl : execGetMeasurements block s = respond s _) hup ?_
  rw [if_neg h0, if_neg (by omega), if_pos h6]
  exact hP

theorem blocks_answer {s : State} (hup : spdmUp s = true) (block : Nat) :
    (∀ d, d < 4 → block = d + 1 → Answers s (.getMeasurements block) fun x => ∃ b, x = .measurements [(block, b)] ∧ b.length = 48 ∧
      ((getDie s d).state = 1 ∨ (getDie s d).state = 2 → b = List.replicate 48 0)) ∧
    (block = 5 → Answers s (.getMeasurements block) fun x => ∃ b, x = .measurements [(block, b)] ∧ b.length = 48) ∧
    (block = 6 → Answers s (.getMeasurements block) (· = .measurements [(6, bytesOf (diestatOf s).toNat 8)])) ∧
    (6 < block → block ≠ 255 → Answers s (.getMeasurements block) fun x => ∃ c, x = .error c) := by
  refine ⟨fun d hd hblock => getMeasurements_block hup (by omega) (by omega) ⟨_, rfl, ?_⟩,
    fun hblock => getMeasurements_block hup (by omega) (by omega) ⟨_, rfl, ?_⟩,
    fun hblock => getMeasurements_block hup (by omega) (by omega) ?_, fun hblock hall => ?_⟩
  · rw [hblock]
    exact measurement_die s hd
  · rw [hblock]
    exact (List.length_map ..).trans List.length_range
  · rw [hblock]
    rfl
  · refine respond_answers (rfl : execGetMeasurements block s = respond s _) hup ⟨7, ?_⟩
    rw [if_neg (by omega), if_neg hall, if_neg (by omega)]
    rfl

/-- The requests without an operand. -/
theorem plain_answer {s : State} (hup : spdmUp s = true) (code : BitVec 8) :
    Answers s .getVersion (· = .version) ∧ Answers s .getCapabilities (· = .capabilities) ∧ Answers s .negotiateAlgorithms (· = .algorithms) ∧
    (Answers s .getDigests fun x => ∃ d, x = .digests d ∧ d.length = 48) ∧
    (Answers s (.spdmUnsupportedRequest code) fun x => ∃ c, x = .error c) :=
  ⟨respond_answers (rfl : execGetVersion s = respond s _) hup rfl, respond_answers (rfl : execGetCapabilities s = respond s _) hup rfl,
    respond_answers (rfl : execNegotiateAlgorithms s = respond s _) hup rfl,
    respond_answers (rfl : execGetDigests s = respond s _) hup ⟨_, rfl, (List.length_map ..).trans List.length_range⟩,
    respond_answers (rfl : execSpdmUnsupportedRequest code s = respond s _) hup ⟨7, rfl⟩⟩

/-- Settles O53: each request's response, by the request. -/
theorem spdmResponder : Obligations.SpdmResponder := by
  unfold Obligations.SpdmResponder
  intro s slot off len block nonce code is answers isError
  refine ⟨fun hdown => ?_, fun hup => ?_⟩
  · simp only [is, List.forall_mem_cons]
    exact ⟨show execGetVersion s = _ from respond_down _ hdown, show execGetCapabilities s = _ from respond_down _ hdown,
      show execNegotiateAlgorithms s = _ from respond_down _ hdown, show execGetDigests s = _ from respond_down _ hdown,
      show execGetCertificate slot off len s = _ from respond_down _ hdown, show execChallenge slot nonce s = _ from respond_down _ hdown,
      show execGetMeasurements block s = _ from respond_down _ hdown, show execSpdmUnsupportedRequest code s = _ from respond_down _ hdown, nofun⟩
  · obtain ⟨hversion, hcapabilities, halgorithms, hdigests, hunsupported⟩ := plain_answer hup code
    obtain ⟨hcert, hcertError, hchallenge, hchallengeError⟩ := slots_answer hup slot off len nonce
    obtain ⟨hdie, hrom, hstat, hbeyond⟩ := blocks_answer hup block
    exact ⟨hversion, hcapabilities, halgorithms, hdigests, hcert, hcertError, hchallenge, hchallengeError, hdie, hrom, hstat, hbeyond,
      hunsupported⟩

end Sys2Proof.Manual

/-! SUPPORT. What a report may change (spec/17 R370): the ring, the list of reports and what the port keeps of host memory. -/

namespace Sys2Proof.Posts

open Sys2Proof Sys2Proof.Machine Sys2Proof.Laws

/-- `t` is `s` but for the ring, the reports, host memory and the port's translations. -/
def PostOnly (s t : State) : Prop := ∃ m a g l, t = { s with hostMem := m, ats := a, ring := g, reports := l }

namespace PostOnly

variable {s t u : State}

theorem refl (s : State) : PostOnly s s := ⟨_, _, _, _, rfl⟩

theorem trans (h : PostOnly s t) (h' : PostOnly t u) : PostOnly s u := by
  obtain ⟨m, a, g, l, rfl⟩ := h
  obtain ⟨m, a, g, l, rfl⟩ := h'
  exact ⟨m, a, g, l, rfl⟩

theorem cores (h : PostOnly s t) : t.cores = s.cores := by obtain ⟨m, a, g, l, rfl⟩ := h; rfl
theorem mem (h : PostOnly s t) : t.mem = s.mem := by obtain ⟨m, a, g, l, rfl⟩ := h; rfl
theorem tasks (h : PostOnly s t) : t.tasks = s.tasks := by obtain ⟨m, a, g, l, rfl⟩ := h; rfl
theorem dies (h : PostOnly s t) : t.dies = s.dies := by obtain ⟨m, a, g, l, rfl⟩ := h; rfl
theorem hearths (h : PostOnly s t) : t.hearths = s.hearths := by obtain ⟨m, a, g, l, rfl⟩ := h; rfl
theorem ports (h : PostOnly s t) : t.ports = s.ports := by obtain ⟨m, a, g, l, rfl⟩ := h; rfl
theorem queues (h : PostOnly s t) : t.queues = s.queues := by obtain ⟨m, a, g, l, rfl⟩ := h; rfl
theorem ctxs (h : PostOnly s t) : t.ctxs = s.ctxs := by obtain ⟨m, a, g, l, rfl⟩ := h; rfl
theorem launches (h : PostOnly s t) : t.launches = s.launches := by obtain ⟨m, a, g, l, rfl⟩ := h; rfl

theorem getCore (h : PostOnly s t) (i : Nat) : getCore t i = getCore s i := by rw [Machine.getCore, h.cores]; rfl

end PostOnly

theorem post_postOnly (s : State) (r : Report) : PostOnly s (post s r) := post_eq s r

theorem postEcc_postOnly (s : State) (k : BitVec 2) (n : BitVec 14) (c pa : Nat) : PostOnly s (postEcc s k n c pa) := by
  unfold postEcc
  split
  · exact post_postOnly ..
  · exact PostOnly.refl s

theorem postWalk_postOnly (s : State) (k : BitVec 2) (n : BitVec 14) (ctx va : Nat) : PostOnly s (postWalk s k n ctx va) := by
  unfold postWalk
  split
  · exact postEcc_postOnly ..
  · exact PostOnly.refl s

theorem postAccess_postOnly (s : State) (k : BitVec 2) (n : BitVec 14) (ctx cls a d0 d1 d2 : Nat) :
    PostOnly s (postAccess s k n ctx cls a d0 d1 d2) := by
  unfold postAccess
  refine PostOnly.trans ?_ (post_postOnly ..)
  split
  · exact postEcc_postOnly ..
  · split
    · exact postWalk_postOnly ..
    · exact PostOnly.refl s

end Sys2Proof.Posts

/-! SUPPORT. Page walks and what they cache (spec/16 R356 to R361), and the rights of a leaf (R358): O41. -/

namespace Sys2Proof.Walks

open Sys2Proof Sys2Proof.Machine Sys2Proof.Laws Sys2Proof.Posts

theorem mem_pushBounded {α : Type} (bound : Nat) (l : List α) (x : α) : x ∈ pushBounded bound l x := by simp [pushBounded]

theorem getHearth_modDie (s : State) (d : Nat) (f : Die → Die) (h : Nat) : getHearth (modDie s d f) h = getHearth s h := rfl

/-! ## The end of a walk -/

section
variable (s : State) (hearth ctx va : Nat) (w : W64) (bits : Nat)

theorem noteWalk_cores : (noteWalk s hearth ctx va w bits).cores = s.cores := rfl

theorem noteWalk_mem : (noteWalk s hearth ctx va w bits).mem = s.mem := rfl

theorem mem_noteWalk_tlb : ({ asid := ctx, base := va / 2 ^ bits, bits := bits, leaf := w } : Tlb) ∈
    (getHearth (noteWalk s hearth ctx va w bits) hearth).tlb := by
  unfold noteWalk
  rw [getHearth_modDie, getHearth_modHearth, if_pos rfl]
  exact mem_pushBounded ..

theorem mem_noteWalk_tlb2 : ({ asid := ctx, base := va / 2 ^ bits, bits := bits, leaf := w } : Tlb) ∈
    (getDie (noteWalk s hearth ctx va w bits) (hearth / 24)).tlb2 := by
  unfold noteWalk
  rw [getDie_modDie, if_pos rfl]
  exact mem_pushBounded ..

end

section
variable {s : State} {core va : Nat} {write : Bool} (hold : (getCore s core).hold = .walk va write)
include hold

theorem execPageWalkComplete_leaf {w : W64} {bits : Nat} (h : walk s (dieOf core) (ctxOf s core) (va % 2 ^ 57) = .leaf w bits) :
    execPageWalkComplete core s = .next (modCore (noteWalk s (hearthOf core) (ctxOf s core) (va % 2 ^ 57) w bits) core
      fun c => { c with hold := .none }) := by
  simp only [execPageWalkComplete, hold, h]

theorem execPageWalkComplete_absent (h : walk s (dieOf core) (ctxOf s core) (va % 2 ^ 57) = .absent) :
    execPageWalkComplete core s = .next (modCore s core fun c => { c with
      hold := .none, walkFault := some (va % 2 ^ 57 / 4096, write, false, false) }) := by
  simp only [execPageWalkComplete, hold, h]

theorem execPageWalkComplete_ecc {pa : Nat} (h : walk s (dieOf core) (ctxOf s core) (va % 2 ^ 57) = .ecc pa) :
    execPageWalkComplete core s = .next (postEcc (modCore s core fun c => { c with
      hold := .none, walkFault := some (va % 2 ^ 57 / 4096, write, false, true) }) 0 (coreUnit core 3) (ctxOf s core) pa) := by
  simp only [execPageWalkComplete, hold, h]

end

/-! ## Table entries -/

theorem tableEntry_memory {s : State} {die : Nat} (h : (getDie s die).walks = []) (ctx va level at_ : Nat) :
    tableEntry s die ctx va level at_ = BitVec.ofNat 64 (natOfBytes (cellsGet s.mem (memKey s at_) 8)) := by
  simp only [tableEntry, h, List.find?_nil]

theorem tableEntry_source (s : State) (die ctx va level at_ : Nat) :
    tableEntry s die ctx va level at_ = BitVec.ofNat 64 (natOfBytes (cellsGet s.mem (memKey s at_) 8)) ∨
    ∃ k ∈ (getDie s die).walks, k.asid = ctx ∧ k.level = level ∧ k.base = va / 2 ^ (12 + 9 * level) ∧
      tableEntry s die ctx va level at_ = k.entry := by
  unfold tableEntry
  dsimp only
  split
  next k hk =>
    have hkey := List.find?_some hk
    simp only [Bool.and_eq_true, beq_iff_eq] at hkey
    obtain ⟨⟨hasid, hlevel⟩, hbase⟩ := hkey
    by_cases hfree : Config.freeCopy s.tick (2 ^ 62 + at_) = true
    · exact .inr ⟨k, List.mem_of_find?_eq_some hk, hasid, hlevel, hbase, if_pos hfree⟩
    · exact .inl (if_neg hfree)
  next => exact .inl rfl

section
variable {s : State} {die ctx va n table : Nat}

theorem walkFrom_outside (h : tableOk s die (table + 8 * (va / 2 ^ (12 + 9 * n) % 512)) = false) :
    walkFrom s die ctx va (n + 1) table = .absent := by
  rw [walkFrom, h]
  rfl

variable {at_ : Nat} (hat : at_ = table + 8 * (va / 2 ^ (12 + 9 * n) % 512)) (hok : tableOk s die at_ = true)
  (hecc : eccHits s (memKey s at_) 8 = [])
include hat hok hecc

theorem walkFrom_malformed (h : (tableEntry s die ctx va n at_).getLsbD 0 = false ∨ (tableEntry s die ctx va n at_).extractLsb' 8 4 ≠ 0 ∨
    (tableEntry s die ctx va n at_).extractLsb' 52 12 ≠ 0) : walkFrom s die ctx va (n + 1) table = .absent := by
  subst hat
  rw [walkFrom, hok, hecc]
  exact if_pos h

theorem walkFrom_wellFormed (h0 : (tableEntry s die ctx va n at_).getLsbD 0 = true) (h8 : (tableEntry s die ctx va n at_).extractLsb' 8 4 = 0)
    (h52 : (tableEntry s die ctx va n at_).extractLsb' 52 12 = 0) (h1 : (tableEntry s die ctx va n at_).getLsbD 1 = true) :
    walkFrom s die ctx va (n + 1) table =
      if n = 4 ∨ (tableEntry s die ctx va n at_).extractLsb' 6 2 = 3 ∨ (tableEntry s die ctx va n at_).toNat % 2 ^ (12 + 9 * n) / 2 ^ 12 ≠ 0
      then .absent else .leaf (tableEntry s die ctx va n at_) (12 + 9 * n) := by
  subst hat
  rw [walkFrom, hok, hecc]
  refine (if_neg nofun).trans ((if_neg nofun).trans ((if_neg ?_).trans (if_pos h1)))
  rw [h0, h8, h52]
  decide

theorem walkFrom_highLeaf (hn : n = 4) (h1 : (tableEntry s die ctx va n at_).getLsbD 1 = true) :
    walkFrom s die ctx va (n + 1) table = .absent := by
  by_cases h : (tableEntry s die ctx va n at_).getLsbD 0 = false ∨ (tableEntry s die ctx va n at_).extractLsb' 8 4 ≠ 0 ∨
      (tableEntry s die ctx va n at_).extractLsb' 52 12 ≠ 0
  · exact walkFrom_malformed hat hok hecc h
  · push Not at h
    obtain ⟨h0, h8, h52⟩ := h
    rw [walkFrom_wellFormed hat hok hecc (Bool.eq_true_of_not_eq_false h0) h8 h52 h1, if_pos (.inl hn)]

end

/-! ## Rights -/

theorem leafAllows_iff (leaf : W64) (n : Need) : leafAllows leaf n = true ↔ (n.r = true → leaf.getLsbD 2 = true) ∧
    (n.w = true → leaf.getLsbD 3 = true) ∧ (n.x = true → leaf.getLsbD 4 = true) ∧
    (n.sup = false → n.x = false → n.pref = false → leaf.getLsbD 5 = true) := by
  unfold leafAllows
  cases n.r <;> cases n.w <;> cases n.x <;> cases n.sup <;> cases n.pref <;> simp [and_assoc]

section
variable {s : State} {hearth ctx part qstart va : Nat} {n : Need} {wait : Bool} (hva : va < 2 ^ 57)
include hva

theorem translate_window {o : Nat} (ho : va = 2 ^ 56 + o) (hpart : o < part) (hbound : o < 2 ^ 24) :
    Machine.translate s hearth ctx part qstart va n wait = .ok (localPa s (scratchOff hearth (windowPhys part qstart o))) 0 true := by
  unfold Machine.translate windowBase
  dsimp only
  rw [Nat.mod_eq_of_lt hva, if_pos (by omega), show va - 2 ^ 56 = o by omega, if_neg (by omega), if_neg (by omega)]

theorem translate_beyondPart {o : Nat} (ho : va = 2 ^ 56 + o) (hpart : part ≤ o) (hbound : o < 2 ^ 24) :
    Machine.translate s hearth ctx part qstart va n wait = .fault 5 false := by
  unfold Machine.translate windowBase
  dsimp only
  rw [Nat.mod_eq_of_lt hva, if_pos (by omega), show va - 2 ^ 56 = o by omega, if_neg (by omega), if_pos hpart]

theorem translate_beyondWindow (h : 2 ^ 56 + 2 ^ 24 ≤ va) : Machine.translate s hearth ctx part qstart va n wait = .fault 4 false := by
  unfold Machine.translate windowBase
  dsimp only
  rw [Nat.mod_eq_of_lt hva, if_pos (by omega), if_pos (by omega)]

theorem translate_cached {t : Tlb} (hlow : va < 2 ^ 56) (ht : cached s hearth ctx va = some t) :
    Machine.translate s hearth ctx part qstart va n wait = byLeaf s ctx t.leaf t.bits va n := by
  unfold Machine.translate windowBase
  dsimp only
  rw [Nat.mod_eq_of_lt hva, if_neg (by omega), ht]

end

theorem byLeaf_refuses {s : State} {ctx bits va : Nat} {leaf : W64} {n : Need} (h : leafAllows leaf n = false) :
    byLeaf s ctx leaf bits va n = .fault 5 false := by
  rw [byLeaf, h]
  rfl

theorem byLeaf_device {s : State} {ctx bits va : Nat} {leaf : W64} {n : Need} (h : leafAllows leaf n = true) (hmt : leaf.extractLsb' 6 2 ≠ 2) :
    byLeaf s ctx leaf bits va n = .ok (leafPa leaf bits va) (leaf.extractLsb' 6 2).toNat false := by
  rw [byLeaf, h]
  exact if_neg hmt

/-- Settles O41: the end of a walk by what it found, a table entry by its fields, and a translation by where its address lies. -/
theorem pageWalksAndRights : Obligations.PageWalksAndRights := by
  unfold Obligations.PageWalksAndRights
  refine ⟨fun s core va write hold => ?ends, fun s die ctx va n table => ?entries, fun s hearth ctx part qstart va n wait hva => ?rights⟩
  case ends =>
    refine ⟨fun w bits hw => ⟨_, show execPageWalkComplete core s = _ from execPageWalkComplete_leaf hold hw, ?_, ?_, ?_, ?_⟩,
      fun hw => show execPageWalkComplete core s = _ from execPageWalkComplete_absent hold hw,
      fun pa hw => ⟨_, show execPageWalkComplete core s = _ from execPageWalkComplete_ecc hold hw, ?_, ?_, ?_⟩⟩
    · rw [getCore_modCore_self]
    · exact mem_noteWalk_tlb ..
    · have h := mem_noteWalk_tlb2 s (hearthOf core) (ctxOf s core) (va % 2 ^ 57) w bits
      rwa [show hearthOf core / 24 = core / 96 from Nat.div_div_eq_div_mul ..] at h
    · rfl
    · rw [(postEcc_postOnly ..).getCore, getCore_modCore_self]
    · rw [(postEcc_postOnly ..).getCore, getCore_modCore_self]
    · exact (postEcc_postOnly ..).mem
  case entries =>
    intro at_
    refine ⟨walkFrom_outside, fun hok => ?_⟩
    intro now w hecc
    refine ⟨fun h => tableEntry_memory h .., tableEntry_source .., fun h => walkFrom_malformed rfl hok hecc (.inl h),
      fun h => walkFrom_malformed rfl hok hecc (.inr (.inl h)), fun h => walkFrom_malformed rfl hok hecc (.inr (.inr h)),
      walkFrom_highLeaf rfl hok hecc, fun hn h0 h8 h52 h1 hmt hlow => ⟨?_, rfl⟩⟩
    rw [walkFrom_wellFormed rfl hok hecc h0 h8 h52 h1]
    exact if_neg (by rintro (h | h | h); exacts [absurd hn (by omega), hmt h, h hlow])
  case rights =>
    refine ⟨fun o ho hpart hbound => ⟨_, translate_window hva ho hpart hbound, ?_⟩, fun o ho hpart hbound => translate_beyondPart hva ho hpart hbound,
      translate_beyondWindow hva, fun t hlow ht hmt => ?_⟩
    · simp only [localPa, scratchOff, windowPhys, apertureBase]
      omega
    · rw [translate_cached hva hlow ht]
      refine ⟨fun hr hw hx hu => byLeaf_device ((leafAllows_iff ..).2 ⟨hr, hw, hx, hu⟩) hmt, fun hw h3 => byLeaf_refuses ?_,
        fun hsup hx hpref h5 => byLeaf_refuses ?_⟩
      · refine Bool.eq_false_iff.2 fun h => ?_
        obtain ⟨-, hw', -, -⟩ := (leafAllows_iff ..).1 h
        exact absurd (h3.symm.trans (hw' hw)) nofun
      · refine Bool.eq_false_iff.2 fun h => ?_
        obtain ⟨-, -, -, hu⟩ := (leafAllows_iff ..).1 h
        exact absurd (h5.symm.trans (hu hsup hx hpref)) nofun

end Sys2Proof.Walks

/-! SUPPORT. Numbers and their little-endian bytes (spec/01 R9). -/

namespace Sys2Proof.Bytes

open Sys2Proof Sys2Proof.Machine

@[simp] theorem length_bytesOf (x n : Nat) : (bytesOf x n).length = n := by
  induction n generalizing x with
  | zero => rfl
  | succ n ih => rw [bytesOf, List.length_cons, ih]

theorem natOfBytes_lt (b : List Byte) : natOfBytes b < 256 ^ b.length := by
  induction b with
  | nil => decide
  | cons y r ih =>
    have hy : y.toNat < 256 := y.isLt
    rw [natOfBytes, List.length_cons, Nat.pow_succ]
    omega

theorem natOfBytes_bytesOf (x n : Nat) : natOfBytes (bytesOf x n) = x % 256 ^ n := by
  induction n generalizing x with
  | zero => exact (Nat.mod_one x).symm
  | succ n ih =>
    rw [bytesOf, natOfBytes, ih, BitVec.toNat_ofNat, Nat.pow_succ' (m := 256)]
    exact (Nat.mod_mul (a := 256)).symm

theorem bytesOf_natOfBytes (b : List Byte) : bytesOf (natOfBytes b) b.length = b := by
  induction b with
  | nil => rfl
  | cons y r ih =>
    have hy : y.toNat < 256 := y.isLt
    rw [natOfBytes, List.length_cons, bytesOf, show (y.toNat + 256 * natOfBytes r) / 256 = natOfBytes r by omega, ih]
    congr 1
    apply BitVec.eq_of_toNat_eq
    rw [BitVec.toNat_ofNat]
    omega

/-- The number is the sum of its bytes, each at its place. -/
theorem sum_zipIdx_eq_natOfBytes (b : List Byte) (i : Nat) :
    ((b.zipIdx i).map (fun p => p.1.toNat * 256 ^ p.2)).sum = 256 ^ i * natOfBytes b := by
  induction b generalizing i with
  | nil => rfl
  | cons y r ih =>
    rw [List.zipIdx_cons, List.map_cons, List.sum_cons, ih, natOfBytes]
    ring

end Sys2Proof.Bytes

/-! SUPPORT. What the end of an access does for a task that has nothing held, nothing to free and is neither ended nor suspended (spec/13
R302, spec/14 R319): it may leave its cores, but no register, no memory and no outstanding access changes. -/

namespace Sys2Proof.Quiet

open Sys2Proof Sys2Proof.Machine Sys2Proof.Laws Sys2Proof.Frames

/-- A task with no held store and no deferred return, neither ended nor pre-empted. -/
def Quiet (s : State) (u : Nat) : Prop := ∀ k, tabFind s.tasks u = some k → k.held = [] ∧ k.frees = [] ∧ k.ended = false ∧ k.st ≠ 3

section
variable {s t : State} {u : Nat}

theorem Quiet.congr (hq : Quiet s u) (h : t.tasks = s.tasks) : Quiet t u := fun k hk => hq k (h ▸ hk)

theorem Quiet.leaveSlot (hq : Quiet s u) (k : Machine.Task) : Quiet (leaveSlot s k) u := hq.congr rfl

theorem Quiet.modTask (hq : Quiet s u) (v : Nat) {f : Machine.Task → Machine.Task}
    (hf : ∀ k, (f k).held = k.held ∧ (f k).frees = k.frees ∧ (f k).ended = k.ended ∧ ((f k).st = k.st ∨ (f k).st ≠ 3)) :
    Quiet (modTask s v f) u := by
  intro k hk
  rw [tabFind_modTask] at hk
  split at hk
  next hv =>
    subst hv
    obtain ⟨k0, hk0, rfl⟩ := Option.map_eq_some_iff.1 hk
    obtain ⟨hheld, hfrees, hended, hst⟩ := hq k0 hk0
    obtain ⟨hfheld, hffrees, hfended, hfst⟩ := hf k0
    exact ⟨hfheld.trans hheld, hffrees.trans hfrees, hfended.trans hended, hfst.elim (fun h => h ▸ hst) id⟩
  next => exact hq k hk

theorem quiet_of_fields (h : ∀ k, tabFind s.tasks u = some k → k.held = [] ∧ k.frees = [] ∧ k.ended = false ∧ isSuspended s u = false) :
    Quiet s u := by
  intro k hk
  obtain ⟨hheld, hfrees, hended, hsusp⟩ := h k hk
  refine ⟨hheld, hfrees, hended, fun hst => ?_⟩
  simp [isSuspended, hk, hst] at hsusp

theorem Quiet.not_suspended (hq : Quiet s u) : isSuspended s u = false := by
  unfold isSuspended
  split
  next k hk =>
    obtain ⟨-, -, -, hst⟩ := hq k hk
    exact beq_false_of_ne hst
  next => rfl

end

/-! ## What leaving its cores keeps -/

/-- What of a core the end of its task keeps. -/
def kept (c : Core) := (c.regs, c.acc, c.sys, c.chan, c.tok)

/-- `t` keeps the memories, reports, ports and events of `s`, and of each core its registers, accesses, channels and tokens. -/
structure Settled (s t : State) : Prop where
  mem : t.mem = s.mem
  hostMem : t.hostMem = s.hostMem
  reports : t.reports = s.reports
  ports : t.ports = s.ports
  core : ∀ i, kept (getCore t i) = kept (getCore s i)
  events : ∀ i, (getCtx t i).events = (getCtx s i).events

namespace Settled
variable {s t u : State}

theorem refl (s : State) : Settled s s := ⟨rfl, rfl, rfl, rfl, fun _ => rfl, fun _ => rfl⟩

theorem trans (h : Settled s t) (k : Settled t u) : Settled s u :=
  ⟨k.mem.trans h.mem, k.hostMem.trans h.hostMem, k.reports.trans h.reports, k.ports.trans h.ports, fun i => (k.core i).trans (h.core i),
    fun i => (k.events i).trans (h.events i)⟩

theorem modCore (s : State) (k : Nat) {f : Core → Core} (hf : ∀ c, kept (f c) = kept c) : Settled s (modCore s k f) where
  mem := rfl
  hostMem := rfl
  reports := rfl
  ports := rfl
  core i := by
    rw [getCore_modCore]
    split
    next h => rw [h, hf]
    next => rfl
  events _ := rfl

theorem modTask (s : State) (v : Nat) (f : Machine.Task → Machine.Task) : Settled s (modTask s v f) where
  mem := by simp
  hostMem := by simp
  reports := by simp
  ports := by simp
  core i := by rw [getCore_congr (modTask_cores s v f)]
  events i := by simp [getCtx]

theorem leaveSlot (s : State) (t : Machine.Task) : Settled s (leaveSlot s t) where
  mem := rfl
  hostMem := rfl
  reports := rfl
  ports := rfl
  core _ := rfl
  events i := by
    rw [Machine.leaveSlot, getCtx_modCtx]
    split
    next h => rw [h]
    next => rfl

theorem foldl {α : Type} (l : List α) {f : State → α → State} (hf : ∀ s a, Settled s (f s a)) (s : State) : Settled s (l.foldl f s) := by
  induction l generalizing s with
  | nil => exact refl s
  | cons a r ih => exact (hf s a).trans (ih _)

theorem regs (h : Settled s t) (i : Nat) : (getCore t i).regs = (getCore s i).regs := congrArg Prod.fst (h.core i)
theorem acc (h : Settled s t) (i : Nat) : (getCore t i).acc = (getCore s i).acc := congrArg (fun p => p.2.1) (h.core i)
theorem sys (h : Settled s t) (i : Nat) : (getCore t i).sys = (getCore s i).sys := congrArg (fun p => p.2.2.1) (h.core i)
theorem chan (h : Settled s t) (i : Nat) : (getCore t i).chan = (getCore s i).chan := congrArg (fun p => p.2.2.2.1) (h.core i)
theorem tok (h : Settled s t) (i : Nat) : (getCore t i).tok = (getCore s i).tok := congrArg (fun p => p.2.2.2.2) (h.core i)

end Settled

theorem foldl_tasks {α : Type} (l : List α) {f : State → α → State} (hf : ∀ s a, (f s a).tasks = s.tasks) (s : State) :
    (l.foldl f s).tasks = s.tasks := by
  induction l generalizing s with
  | nil => rfl
  | cons a r ih => exact (ih _).trans (hf s a)

theorem settled_abandonAll (s : State) (core : Nat) : Settled s (abandonAll s core) := by
  refine Settled.foldl _ (fun s tile => ?_) s
  rw [abandonAt]
  exact Settled.modCore s core fun _ => rfl

theorem abandonAll_tasks (s : State) (core : Nat) : (abandonAll s core).tasks = s.tasks := by
  refine foldl_tasks _ (fun s _ => ?_) s
  rfl

theorem settled_leaveCores (l : List Nat) (s : State) : Settled s (l.foldl (fun s c => modCore s c leaveCore) s) :=
  Settled.foldl l (fun s c => Settled.modCore s c (f := leaveCore) fun _ => rfl) s

theorem leaveCores_tasks (l : List Nat) (s : State) : (l.foldl (fun s c => modCore s c leaveCore) s).tasks = s.tasks := by
  refine foldl_tasks l (fun s c => ?_) s
  rfl

theorem settled_abandonSaved (s : State) (t : Machine.Task) : Settled s (abandonSaved s t) := by
  refine Settled.foldl _ (fun s e => ?_) s
  exact Settled.modCore s e.1 fun _ => rfl

theorem abandonSaved_tasks (s : State) (t : Machine.Task) : (abandonSaved s t).tasks = s.tasks := by
  refine foldl_tasks _ (fun s e => ?_) s
  rfl

/-! ## A quiet task settles -/

theorem five_ne_three : (5 : BitVec 3) ≠ 3 := by decide

section
variable {s : State} {u : Nat} (hq : Quiet s u)
include hq

theorem pump_quiet : pump s u = s := by
  unfold pump
  split
  next k hk =>
    obtain ⟨hheld, hfrees, -, -⟩ := hq k hk
    simp only [hheld, hfrees, pumpHeld, hk, List.length_nil]
    split <;> rfl
  next => rfl

theorem settled_settleTask : Settled s (settleTask s u) := by
  unfold settleTask
  split
  · exact .refl s
  next k hk =>
    obtain ⟨-, -, -, hst⟩ := hq k hk
    dsimp only
    split
    · exact (Settled.foldl _ settled_abandonAll s).trans ((settled_leaveCores ..).trans ((Settled.modTask ..).trans (Settled.leaveSlot ..)))
    · split
      · rw [endUnits, if_neg hst, if_neg hst]
        exact (settled_abandonSaved s k).trans (Settled.modTask ..)
      · exact .refl s

theorem quiet_settleTask : Quiet (settleTask s u) u := by
  unfold settleTask
  split
  · exact hq
  next k hk =>
    obtain ⟨-, -, -, hst⟩ := hq k hk
    dsimp only
    split
    · have hmid : Quiet ((gangOf k).foldl (fun s c => modCore s c leaveCore) ((gangOf k).foldl abandonAll s)) u :=
        hq.congr ((leaveCores_tasks ..).trans (foldl_tasks _ abandonAll_tasks s))
      refine Quiet.leaveSlot (Quiet.modTask hmid u ?_) k
      exact fun _ => ⟨rfl, rfl, rfl, .inr five_ne_three⟩
    · split
      · rw [endUnits, if_neg hst, if_neg hst]
        refine Quiet.modTask (hq.congr (abandonSaved_tasks s k)) u ?_
        exact fun _ => ⟨rfl, rfl, rfl, .inr five_ne_three⟩
      · exact hq

theorem freeEnded_quiet : freeEnded s u = s := by
  unfold freeEnded
  split
  · rfl
  next k hk =>
    obtain ⟨-, -, hended, -⟩ := hq k hk
    exact if_pos hended

end

/-- The end of an access of a quiet task. -/
theorem settled_accDone {s : State} {task : Option Nat} (hq : ∀ u, task = some u → Quiet s u) : Settled s (accDone s task) := by
  cases task with
  | none => exact .refl s
  | some u =>
    have hq := hq u rfl
    rw [accDone, pump_quiet hq, freeEnded_quiet (quiet_settleTask hq)]
    exact settled_settleTask hq

end Sys2Proof.Quiet

/-! SUPPORT. Accesses at their home (spec/11, spec/12 R260 to R268): the bytes they read and write, and what their end leaves alone: O20. -/

namespace Sys2Proof.AtHome

open Sys2Proof Sys2Proof.Machine Sys2Proof.Laws Sys2Proof.Frames Sys2Proof.Bytes Sys2Proof.Quiet Sys2Proof.Posts

/-! ## Dropping a die's copies changes no route and no translation -/

section
variable (s : State) (die : Nat)

theorem getDie_dropCopies (d : Nat) : (getDie (dropCopies s die) d).state = (getDie s d).state ∧
    (getDie (dropCopies s die) d).tlb2 = (getDie s d).tlb2 ∧ (getDie (dropCopies s die) d).walks = (getDie s d).walks := by
  rw [dropCopies, getDie_modDie]
  split
  next h => exact h ▸ ⟨rfl, rfl, rfl⟩
  next => exact ⟨rfl, rfl, rfl⟩

@[simp] theorem fenced_dropCopies : fenced (dropCopies s die) = fenced s := by
  funext d
  obtain ⟨hstate, -, -⟩ := getDie_dropCopies s die d
  rw [fenced, hstate, fenced]

@[simp] theorem cutOff_dropCopies : cutOff (dropCopies s die) = cutOff s := by
  funext a b
  rw [cutOff, fenced_dropCopies, cutOff]

@[simp] theorem addrClass_dropCopies : addrClass (dropCopies s die) = addrClass s := by
  funext d pa
  rw [addrClass, fenced_dropCopies, cutOff_dropCopies]
  rfl

@[simp] theorem hostClass_dropCopies : hostClass (dropCopies s die) = hostClass s := by
  funext d port
  rw [hostClass, cutOff_dropCopies]
  rfl

@[simp] theorem tableOk_dropCopies : tableOk (dropCopies s die) = tableOk s := by
  funext d pa
  rw [tableOk, addrClass_dropCopies]
  rfl

@[simp] theorem tableEntry_dropCopies : tableEntry (dropCopies s die) = tableEntry s := by
  funext d ctx va level at_
  obtain ⟨-, -, hwalks⟩ := getDie_dropCopies s die d
  rw [tableEntry, hwalks]
  rfl

@[simp] theorem walkFrom_dropCopies (d ctx va n table : Nat) : walkFrom (dropCopies s die) d ctx va n table = walkFrom s d ctx va n table := by
  induction n generalizing table with
  | zero => rfl
  | succ n ih =>
    simp only [walkFrom, tableOk_dropCopies, tableEntry_dropCopies, ih]
    rfl

@[simp] theorem translate_dropCopies (hearth ctx part qstart va : Nat) (n : Need) (wait : Bool) :
    Machine.translate (dropCopies s die) hearth ctx part qstart va n wait = Machine.translate s hearth ctx part qstart va n wait := by
  obtain ⟨-, htlb, -⟩ := getDie_dropCopies s die (hearth / 24)
  simp only [Machine.translate, cached, htlb, walk, walkFrom_dropCopies]
  rfl

@[simp] theorem inResident_dropCopies (ctx pa : Nat) : inResident (dropCopies s die) ctx pa = inResident s ctx pa := by
  simp only [inResident, translateTask, translate_dropCopies]
  rfl

end

/-! ## Bytes written -/

/-- Bytes that their context may store are stored as they are (spec/04 R79, spec/13 R303). -/
theorem storedBytes_eq {s : State} {die ctx mt va pa : Nat} {b : List Byte}
    (h : ∀ i, i < b.length → inImage s ctx (va + i) = false ∧ (mt = 2 ∨ inResident s ctx (pa + i) = false)) :
    storedBytes s die ctx mt va pa b = b := by
  unfold storedBytes
  split
  · refine List.ext_getElem (by simp) fun i hi hi' => ?_
    rw [List.getElem_map, List.getElem_zipIdx, storedByte, Nat.zero_add]
    exact if_pos (h i hi')
  · rfl

theorem writePa_cores {s t : State} {die mt pa : Nat} {b : List Byte} (hw : writePa s die mt pa b = .ok t) :
    t.cores = s.cores ∧ t.tasks = s.tasks := by
  unfold Machine.writePa at hw
  split at hw
  · split at hw
    · cases hw
    · cases hw
      exact ⟨rfl, rfl⟩
  · dsimp only at hw
    split at hw
    · cases hw
    · split at hw
      · cases hw
      · cases hw
        split
        · obtain ⟨d, p, h⟩ := cacheOnly_sendPacket { s with
            mem := cellsSet s.mem (memKey s pa) b
            eccBad := s.eccBad.filter (fun e => !(eccHits s (memKey s pa) b.length).contains e) } die pa b
          rw [h]
          exact ⟨rfl, rfl⟩
        · obtain ⟨d, p, h⟩ := cacheOnly_takeLine { s with
            mem := cellsSet s.mem (memKey s pa) b
            eccBad := s.eccBad.filter (fun e => !(eccHits s (memKey s pa) b.length).contains e) } die mt pa
          rw [h]
          exact ⟨rfl, rfl⟩

/-- A write that performs performs after the copies were dropped too. -/
theorem writePa_dropCopies {s t : State} {die mt pa : Nat} {b : List Byte} (d : Nat) (hw : writePa s die mt pa b = .ok t) :
    ∃ t', writePa (dropCopies s d) die mt pa b = .ok t' := by
  unfold Machine.writePa at hw ⊢
  rw [hostClass_dropCopies, addrClass_dropCopies]
  split at hw
  next hmt =>
    rw [if_pos hmt]
    split at hw
    · cases hw
    next hclass => exact ⟨_, if_neg hclass⟩
  next hmt =>
    rw [if_neg hmt]
    dsimp only at hw ⊢
    split at hw
    · cases hw
    next hclass =>
      rw [if_neg hclass]
      split at hw
      · cases hw
      next hhits => exact ⟨_, if_neg hhits⟩

/-! ## What an access leaves when it has performed -/

/-- `t` keeps memories and tasks, and of each core its registers and accesses. -/
structure Leaves (s t : State) : Prop where
  mem : t.mem = s.mem
  hostMem : t.hostMem = s.hostMem
  tasks : t.tasks = s.tasks
  core : ∀ i, (getCore t i).regs = (getCore s i).regs ∧ (getCore t i).acc = (getCore s i).acc

theorem Leaves.trans {s t u : State} (h : Leaves s t) (k : Leaves t u) : Leaves s u :=
  ⟨k.mem.trans h.mem, k.hostMem.trans h.hostMem, k.tasks.trans h.tasks,
    fun i => ⟨(k.core i).1.trans (h.core i).1, (k.core i).2.trans (h.core i).2⟩⟩

theorem leaves_of_cores {s t : State} (hmem : t.mem = s.mem) (hhost : t.hostMem = s.hostMem) (htasks : t.tasks = s.tasks)
    (hcores : t.cores = s.cores) : Leaves s t := ⟨hmem, hhost, htasks, fun i => by rw [getCore_congr hcores]; exact ⟨rfl, rfl⟩⟩

theorem leaves_settleDebts (s : State) : Leaves s (settleDebts s) := by
  unfold settleDebts
  split
  · exact leaves_of_cores rfl rfl rfl rfl
  · refine ⟨rfl, rfl, rfl, fun i => ?_⟩
    rw [getCore, tabGet_tabMap _ _ _ _ rfl]
    exact ⟨rfl, rfl⟩

theorem leaves_oweFor (s : State) (core : Nat) (e : Acc) : Leaves s (oweFor s core e) := by
  unfold oweFor
  split
  · exact leaves_of_cores rfl rfl rfl rfl
  · refine ⟨rfl, rfl, rfl, fun i => ?_⟩
    rw [getCore_modCore]
    split
    next h => exact h ▸ ⟨rfl, rfl⟩
    next => exact ⟨rfl, rfl⟩

theorem leaves_noteSent (s0 s1 : State) (core : Nat) (task : Option Nat) (mt pa : Nat) (kind : SentKind) (pos : Nat) :
    Leaves s1 (noteSent s0 s1 core task mt pa kind pos) := by
  unfold noteSent
  split
  · exact leaves_of_cores rfl rfl rfl rfl
  · exact leaves_of_cores rfl rfl rfl rfl

theorem leaves_dropCopies (s : State) (die : Nat) : Leaves s (dropCopies s die) := leaves_of_cores rfl rfl rfl rfl

/-- A store that has performed is taken off. -/
theorem finishAcc_store (s : State) (core n : Nat) (e : Acc) (b : List Byte) :
    (finishAcc s core n e false (.ok b) 0).mem = s.mem ∧ (finishAcc s core n e false (.ok b) 0).hostMem = s.hostMem ∧
    (∀ i, (getCore (finishAcc s core n e false (.ok b) 0) i).regs = (getCore s i).regs) ∧
    (getCore (finishAcc s core n e false (.ok b) 0) core).acc = (getCore s core).acc.eraseIdx n := by
  have hdebts := leaves_settleDebts (modCore (if writesAcc e.kind then oweFor s core e else s) core fun c => dropAcc c n)
  have howe : Leaves s (if writesAcc e.kind then oweFor s core e else s) := by
    split
    · exact leaves_oweFor ..
    · exact leaves_of_cores rfl rfl rfl rfl
  refine ⟨hdebts.mem.trans howe.mem, hdebts.hostMem.trans howe.hostMem, fun i => (hdebts.core i).1.trans ?_, (hdebts.core core).2.trans ?_⟩
  · rw [getCore_modCore]
    split
    next h => exact h ▸ (howe.core i).1
    next => exact (howe.core i).1
  · rw [getCore_modCore_self, dropAcc, (howe.core core).2]

/-! ## A store performs -/

/-- The state that an access performs in: without its die's copies where it acquires at device scope (R237). -/
def dropped (s : State) (core n : Nat) (e : Acc) : State := if dropsCopies (getCore s core) n e then dropCopies s (dieOf core) else s

theorem dropped_eq (s : State) (core n : Nat) (e : Acc) : dropped s core n e = s ∨ dropped s core n e = dropCopies s (dieOf core) := by
  unfold dropped
  split
  · exact .inr rfl
  · exact .inl rfl

theorem leaves_dropped (s : State) (core n : Nat) (e : Acc) : Leaves s (dropped s core n e) := by
  rcases dropped_eq s core n e with h | h
  · rw [h]
    exact leaves_of_cores rfl rfl rfl rfl
  · rw [h]
    exact leaves_dropCopies ..

section
variable {s t : State} {core n : Nat} {e : Acc}

theorem writePa_dropped {b : List Byte} (hw : writePa s (dieOf core) e.mt e.pa b = .ok t) :
    ∃ t', writePa (dropped s core n e) (dieOf core) e.mt e.pa b = .ok t' := by
  rcases dropped_eq s core n e with h | h
  · exact ⟨t, by rw [h, hw]⟩
  · rw [h]
    exact writePa_dropCopies _ hw

theorem storedBytes_dropped
    (h : ∀ i, i < e.data.length → inImage s (accCtx s e) (e.va + i) = false ∧ (e.mt = 2 ∨ inResident s (accCtx s e) (e.pa + i) = false)) :
    storedBytes (dropped s core n e) (dieOf core) (accCtx (dropped s core n e) e) e.mt e.va e.pa e.data = e.data := by
  rcases dropped_eq s core n e with hd | hd
  · rw [hd]
    exact storedBytes_eq h
  · rw [hd]
    refine storedBytes_eq fun i hi => ?_
    rw [inResident_dropCopies]
    exact h i hi

theorem footHit_dropped : footHit (dropped s core n e) = footHit s := by
  rcases dropped_eq s core n e with h | h <;> rw [h] <;> rfl

theorem memKey_dropped (pa : Nat) : memKey (dropped s core n e) pa = memKey s pa := by
  rcases dropped_eq s core n e with h | h <;> rw [h] <;> rfl

/-- A store that meets no footprint and no error is its write, and its entry is gone. -/
theorem performAcc_store (hacc : (getCore s core).acc[n]? = some e) (hkind : e.kind = .store) (hfoot : footHit s e.mt e.pa e.n = none)
    (hclear : ∀ i, i < e.data.length → inImage s (accCtx s e) (e.va + i) = false ∧ (e.mt = 2 ∨ inResident s (accCtx s e) (e.pa + i) = false))
    (hw : writePa s (dieOf core) e.mt e.pa e.data = .ok t) :
    ∃ t', writePa (dropped s core n e) (dieOf core) e.mt e.pa e.data = .ok t' ∧
      performAcc s core n = finishAcc (noteSent (dropped s core n e) t' core e.task e.mt e.pa .store 0) core n e false (.ok []) 0 := by
  obtain ⟨t', ht'⟩ := writePa_dropped (n := n) hw
  refine ⟨t', ht', ?_⟩
  have hstored := storedBytes_dropped (core := core) (n := n) hclear
  have hfoot' : footHit (dropped s core n e) e.mt e.pa e.n = none := by rw [footHit_dropped, hfoot]
  rw [dropped] at hstored hfoot' ht' ⊢
  simp only [performAcc, hacc, hkind, hfoot', hstored, ht']

end

/-- The memories, registers and accesses after a store has performed. -/
theorem performAcc_store_reads {s t : State} {core n : Nat} {e : Acc} (hok : MemOk s) (hacc : (getCore s core).acc[n]? = some e)
    (hkind : e.kind = .store) (hfoot : footHit s e.mt e.pa e.n = none)
    (hclear : ∀ i, i < e.data.length → inImage s (accCtx s e) (e.va + i) = false ∧ (e.mt = 2 ∨ inResident s (accCtx s e) (e.pa + i) = false))
    (hw : writePa s (dieOf core) e.mt e.pa e.data = .ok t) :
    (e.mt ≠ 2 → ∀ a, cellGet (performAcc s core n).mem a =
      if memKey s e.pa ≤ a ∧ a < memKey s e.pa + e.data.length then e.data.getD (a - memKey s e.pa) 0 else cellGet s.mem a) ∧
    (e.mt = 2 → (performAcc s core n).mem = s.mem ∧ ∀ a, cellGet (performAcc s core n).hostMem a =
      if e.pa % 2 ^ 60 ≤ a ∧ a < e.pa % 2 ^ 60 + e.data.length then e.data.getD (a - e.pa % 2 ^ 60) 0 else cellGet s.hostMem a) ∧
    (∀ c, (getCore (performAcc s core n) c).regs = (getCore s c).regs) ∧
    (getCore (performAcc s core n) core).acc = (getCore s core).acc.eraseIdx n := by
  obtain ⟨t', ht', hperform⟩ := performAcc_store hacc hkind hfoot hclear hw
  have hdrop := leaves_dropped s core n e
  have hsent := leaves_noteSent (dropped s core n e) t' core e.task e.mt e.pa .store 0
  obtain ⟨hcores, -⟩ := writePa_cores ht'
  obtain ⟨hdevice, hhost⟩ := writePa_mem ht'
  obtain ⟨hmem, hhostMem, hregs, haccs⟩ := finishAcc_store (noteSent (dropped s core n e) t' core e.task e.mt e.pa .store 0) core n e []
  rw [hperform]
  refine ⟨fun hmt a => ?_, fun hmt => ⟨?_, fun a => ?_⟩, fun c => ?_, ?_⟩
  · rw [hmem, hsent.mem, (hdevice hmt).1, hdrop.mem, memKey_dropped, AccessOrder.cellGet_cellsSet hok.1]
  · rw [hmem, hsent.mem, (hhost hmt).1, hdrop.mem]
  · rw [hhostMem, hsent.hostMem, (hhost hmt).2, hdrop.hostMem, AccessOrder.cellGet_cellsSet hok.2]
  · rw [hregs, (hsent.core c).1, getCore_congr hcores, (hdrop.core c).1]
  · rw [haccs, (hsent.core core).2, getCore_congr hcores, (hdrop.core core).2]

/-! ## An atomic at its home (R267, R268) -/

theorem atomResult_lt {op : AtomOp} (hop : op ≠ .fadd) {bits : Nat} {fmt : W32} {old v new : Nat} (hold : old < 2 ^ bits) (hv : v < 2 ^ bits)
    (hnew : new < 2 ^ bits) : atomResult op bits fmt old v new < 2 ^ bits := by
  cases op with
  | add => exact Nat.mod_lt _ (Nat.two_pow_pos bits)
  | and => exact Nat.and_lt_two_pow _ hv
  | or => exact Nat.or_lt_two_pow hold hv
  | xor => exact Nat.xor_lt_two_pow hold hv
  | min => rw [atomResult]; split <;> assumption
  | max => rw [atomResult]; split <;> assumption
  | minu => exact (Nat.min_le_left ..).trans_lt hold
  | maxu => exact Nat.max_lt.2 ⟨hold, hv⟩
  | swap => exact hv
  | cas => rw [atomResult]; split <;> assumption
  | fadd => exact absurd rfl hop

theorem atomicAt_tasks {s t : State} {die : Nat} {e : Acc} {op : AtomOp} {v new : W64} {fmt : W32} {old : Nat}
    (h : atomicAt s die e op v new fmt = .ok (old, t)) : t.tasks = s.tasks := by
  unfold atomicAt at h
  split at h
  · cases h
  · dsimp only at h
    split at h
    next hw =>
      cases h
      exact (writePa_cores hw).2
    · cases h

/-- An atomic that performs reads the old bytes and writes its result in their place. -/
theorem atomicAt_writes {s t : State} {die : Nat} {e : Acc} {op : AtomOp} {v new : W64} {fmt : W32} {old : Nat} (hmt : e.mt ≠ 2)
    (hclear : ∀ i, i < e.n → inImage s (accCtx s e) (e.va + i) = false ∧ inResident s (accCtx s e) (e.pa + i) = false)
    (h : atomicAt s die e op v new fmt = .ok (old, t)) :
    old = natOfBytes (cellsGet s.mem (memKey s e.pa) e.n) ∧ t.mem = cellsSet s.mem (memKey s e.pa)
      (bytesOf (atomResult op (8 * e.n) fmt old (v.toNat % 2 ^ (8 * e.n)) (new.toNat % 2 ^ (8 * e.n))) e.n) := by
  unfold atomicAt at h
  split at h
  · cases h
  next b hread =>
    dsimp only at h
    rw [storedBytes_eq fun i hi => ⟨(hclear i (by simpa using hi)).1, .inr (hclear i (by simpa using hi)).2⟩] at h
    split at h
    next s1 hw =>
      cases h
      have hb : b = cellsGet s.mem (memKey s e.pa) e.n := by
        unfold readPa at hread
        rw [if_neg hmt] at hread
        dsimp only at hread
        split at hread
        · cases hread
        · split at hread
          · cases hread
          · cases hread
            rfl
      obtain ⟨hdevice, -⟩ := writePa_mem hw
      exact ⟨by rw [hb], (hdevice hmt).1⟩
    · cases h

theorem length_cellsGet (m : List Host.Cell) (a n : Nat) : (cellsGet m a n).length = n := by
  induction n generalizing a with
  | zero => rfl
  | succ n ih => rw [cellsGet, List.length_cons, ih]

theorem getElem_cellsGet (m : List Host.Cell) (a n i : Nat) (h : i < (cellsGet m a n).length) : (cellsGet m a n)[i] = cellGet m (a + i) := by
  induction n generalizing a i with
  | zero => exact absurd h (Nat.not_lt_zero i)
  | succ n ih =>
    cases i with
    | zero => rfl
    | succ i =>
      have hi : i < (cellsGet m (a + 1) n).length := Nat.lt_of_succ_lt_succ h
      rw [show a + (i + 1) = a + 1 + i by omega, ← ih (a + 1) i hi]
      rfl

/-- Bytes written are read back. -/
theorem cellsGet_cellsSet {m : List Host.Cell} (hm : Memory.wf m = true) (a : Nat) (b : List Byte) : cellsGet (cellsSet m a b) a b.length = b := by
  refine List.ext_getElem (length_cellsGet ..) fun i hi hi' => ?_
  rw [getElem_cellsGet, AccessOrder.cellGet_cellsSet hm, if_pos (by omega), Nat.add_sub_cancel_left, List.getD_eq_getElem _ _ hi']

/-! ## A scalar load (R9) -/

theorem extendTo64_eq {N size : Nat} (signed : Bool) (hsize : 0 < size) (hN : N < 2 ^ (8 * size)) : extendTo64 N size signed =
    if signed = true ∧ 2 ^ (8 * size - 1) ≤ N then BitVec.ofInt 64 ((N : Int) - 2 ^ (8 * size)) else BitVec.ofNat 64 N := by
  have hhalf : 2 ^ (8 * size) = 2 * 2 ^ (8 * size - 1) := by rw [← Nat.pow_succ']; congr 1; omega
  cases signed with
  | false => simp [extendTo64, Nat.mod_eq_of_lt hN]
  | true =>
    by_cases h : 2 ^ (8 * size - 1) ≤ N
    · rw [if_pos ⟨rfl, h⟩, extendTo64, if_pos rfl, toInt, Nat.mod_eq_of_lt hN, if_neg (by omega)]
    · rw [if_neg (by simp [h]), extendTo64, if_pos rfl, toInt, Nat.mod_eq_of_lt hN, if_pos (by omega), BitVec.ofInt_natCast]

theorem loadLands_scalar (y : Bool) (r size : Nat) (signed : Bool) {N : Nat} (hN : N < 2 ^ 6144) :
    loadLands (.scalar y r size signed) (BitVec.ofNat 6144 N) 0 =
      [if y then .y r (extendTo64 N size signed) else .x r (extendTo64 N size signed)] := by
  have hv : (BitVec.ofNat 6144 N ||| (0 : DImage)).toNat = N := by
    rw [show BitVec.ofNat 6144 N ||| (0 : DImage) = BitVec.ofNat 6144 N from BitVec.or_zero, BitVec.toNat_ofNat, Nat.mod_eq_of_lt hN]
  cases y <;> simp only [loadLands, hv, if_true, Bool.false_eq_true, if_false]

theorem loadLands_scalar_bad (y : Bool) (r size : Nat) (signed : Bool) (buf : DImage) {bad : DImage} (hbad : bad ≠ 0) :
    loadLands (.scalar y r size signed) buf bad = [if y then .y r (BitVec.allOnes 64) else .x r (BitVec.allOnes 64)] := by
  simp only [loadLands, if_neg hbad]
  cases y <;> rfl

theorem pow_le_of_size {size : Nat} (h : size ∈ [1, 2, 4, 8]) : 0 < size ∧ size ≤ 8 := by
  simp only [List.mem_cons, List.not_mem_nil, or_false] at h
  omega

/-! ## The end of an access (R36, R244) -/

theorem homeShown_none {s : State} (h : allShown s = []) : homeShown s = s := by rw [homeShown, h]; rfl

/-- An access that is not its bundle's signal, of a task that holds its cores, completes by performing. -/
theorem completeAcc_performs {s : State} {core n : Nat} {e : Acc} (hgone : accGone s e = false)
    (hsusp : ∀ u, e.task = some u → isSuspended s u = false) (hkind : ∀ g, e.kind ≠ .signal g) :
    completeAcc s core n e = accDone (performAcc s core n) e.task := by
  have hhome : rehomeAcc s core n e = (s, true) := by
    unfold rehomeAcc
    split
    · rfl
    next u hu => exact if_pos (.inr (hsusp u hu))
  simp only [completeAcc, hgone, hhome, Bool.false_eq_true, if_false]
  split
  next g _ hg _ => exact absurd hg (hkind g)
  next => rfl

theorem completeAcc_signals {s : State} {core n : Nat} {e : Acc} {g : Signal} (hacc : (getCore s core).acc[n]? = some e)
    (hgone : accGone s e = false) (hsusp : ∀ u, e.task = some u → isSuspended s u = false) (hkind : e.kind = .signal g) :
    completeAcc s core n e = accDone (performSignal s core n e g) e.task := by
  have hhome : rehomeAcc s core n e = (s, true) := by
    unfold rehomeAcc
    split
    · rfl
    next u hu => exact if_pos (.inr (hsusp u hu))
  simp only [completeAcc, hgone, hhome, hacc, hkind, Bool.false_eq_true, if_false]

section
variable {s : State} {core n : Nat} {e : Acc} (hacc : (getCore s core).acc[n]? = some e)
include hacc

theorem execAccessComplete_stays (h : canPerform s core n = false) : execAccessComplete core n s = .next s := by
  simp only [execAccessComplete, hacc, h, if_true]

theorem execAccessComplete_direct (h : canPerform s core n = true)
    (hdirect : flushes s core e = false ∨ (allShown s = [] ∧ entryAt s core e = some n)) :
    execAccessComplete core n s = .next (completeAcc s core n e) := by
  simp only [execAccessComplete, hacc, h, Bool.true_eq_false, if_false]
  rcases hdirect with hflush | ⟨hshown, hentry⟩
  · rw [hflush]
    rfl
  · cases flushes s core e with
    | false => rfl
    | true => simp only [homeShown_none hshown, hentry, if_true]

theorem execAccessComplete_flushed {k : Nat} (h : canPerform s core n = true) (hflush : flushes s core e = true)
    (hentry : entryAt (homeShown s) core e = some k) : execAccessComplete core n s = .next (completeAcc (homeShown s) core k e) := by
  simp only [execAccessComplete, hacc, h, hflush, hentry, Bool.true_eq_false, if_false, if_true]

end

/-! ## A quiet task stays quiet -/

theorem accessError_none_tasks (s : State) (core : Nat) (load : Bool) (cls pa d0 d2 : Nat) :
    (accessError s core none load cls pa d0 d2).tasks = s.tasks := by
  rw [accessError]
  refine (postAccess_postOnly ..).tasks.trans ?_
  rw [modTaskCore]
  split <;> rfl

section
variable {s : State} {u : Nat} (hq : Quiet s u)
include hq

theorem quiet_modTaskCore (core : Nat) (f : Core → Core) : Quiet (modTaskCore s core (some u) f) u := by
  unfold modTaskCore
  split
  · exact hq.congr rfl
  · refine hq.modTask u ?_
    exact fun _ => ⟨rfl, rfl, rfl, .inl rfl⟩

theorem keepImage_quiet (core off : Nat) (b : List Byte) : keepImage s core u off b = s := by
  unfold keepImage
  split
  · rfl
  · split
    next k hk =>
      obtain ⟨-, -, -, hst⟩ := hq k hk
      exact if_neg fun h => hst h.1
    next => rfl

theorem quiet_noteAccess (v : Nat) (e : ErrInfo) : Quiet (noteAccess s v e) u := by
  unfold noteAccess
  split
  · exact hq.congr (launchError_tasks ..)
  · exact hq

theorem quiet_postAccess (k : BitVec 2) (n : BitVec 14) (ctx cls a d0 d1 d2 : Nat) : Quiet (postAccess s k n ctx cls a d0 d1 d2) u :=
  hq.congr (postAccess_postOnly ..).tasks

theorem quiet_accessError (core : Nat) (load : Bool) (cls pa d0 d2 : Nat) : Quiet (accessError s core (some u) load cls pa d0 d2) u := by
  rw [accessError]
  have hcore := quiet_modTaskCore hq core fun c => { c with sys := { c.sys with lderr := lderrSet c.sys.lderr load cls } }
  dsimp only
  rw [keepImage_quiet hcore]
  exact quiet_postAccess (quiet_noteAccess hcore _ _) _ _ _ _ _ _ _ _

theorem quiet_leaves {t : State} (h : Leaves s t) : Quiet t u := hq.congr h.tasks

theorem quiet_finishAcc (core n : Nat) (e : Acc) (he : ∀ v, e.task = some v → v = u) (ro : Bool) (r : Except Nat (List Byte)) (d2 : Nat) :
    Quiet (finishAcc s core n e ro r d2) u := by
  cases r with
  | ok b =>
    refine quiet_leaves ?_ (leaves_settleDebts _)
    refine Quiet.congr (s := if writesAcc e.kind then oweFor s core e else s) ?_ rfl
    split
    · exact quiet_leaves hq (leaves_oweFor ..)
    · exact hq
  | error cls =>
    refine quiet_leaves ?_ (leaves_settleDebts _)
    cases htask : e.task with
    | none => exact hq.congr (accessError_none_tasks ..)
    | some v =>
      obtain rfl := he v htask
      exact quiet_accessError (Quiet.congr (t := modCore s core _) hq rfl) _ _ _ _ _ _

theorem quiet_refuseAcc (core n : Nat) (e : Acc) (he : ∀ v, e.task = some v → v = u) (ro : Bool) (i d2 : Nat) :
    Quiet (refuseAcc s core n e ro i d2) u := by
  unfold refuseAcc
  cases htask : e.task with
  | none => exact quiet_finishAcc hq core n e he ro (.error 13) d2
  | some v =>
    obtain rfl := he v htask
    dsimp only
    split
    · exact quiet_finishAcc hq core n e he ro _ d2
    · exact quiet_leaves (quiet_modTaskCore (Quiet.congr (t := modCore s core _) hq rfl) _ _) (leaves_settleDebts _)

theorem quiet_performLoad (core n : Nat) (e : Acc) (he : ∀ v, e.task = some v → v = u) : Quiet (performLoad s core n e) u := by
  have hread : (readSeen s core e.mt e.pa e.n).2.2.tasks = s.tasks := by
    obtain ⟨d, p, h⟩ := cacheOnly_readCached s (dieOf core) e.mt e.pa e.n
    unfold readSeen
    split
    next heq => rw [heq] at h; dsimp only at h ⊢; rw [h]
    next heq => rw [heq] at h; dsimp only at h ⊢; rw [h]
  unfold performLoad
  split
  · exact hq.congr rfl
  · split
    next heq =>
      rw [heq] at hread
      exact hq.congr hread
    next heq =>
      rw [heq] at hread
      exact quiet_finishAcc (hq.congr hread) core n e he true _ 0

/-- What performs of an access leaves a quiet task quiet. -/
theorem quiet_performAcc (core n : Nat) (e : Acc) (hacc : (getCore s core).acc[n]? = some e) (he : ∀ v, e.task = some v → v = u) :
    Quiet (performAcc s core n) u := by
  have hdrop : Quiet (dropped s core n e) u := quiet_leaves hq (leaves_dropped ..)
  rw [dropped] at hdrop
  simp only [performAcc, hacc]
  cases hkind : e.kind with
  | load => exact quiet_performLoad hdrop core n e he
  | store =>
    dsimp only
    split
    · exact quiet_refuseAcc hdrop core n e he _ _ _
    · split
      next hw => exact quiet_finishAcc (quiet_leaves (hdrop.congr (writePa_cores hw).2) (leaves_noteSent ..)) core n e he _ _ _
      next => exact quiet_finishAcc hdrop core n e he _ _ _
  | atomic op v new ro fmt =>
    dsimp only
    split
    · exact quiet_refuseAcc hdrop core n e he _ _ _
    · split
      next hw =>
        have hat := hdrop.congr (atomicAt_tasks hw)
        refine quiet_finishAcc ?_ core n e he _ _ _
        split
        · exact hat
        · exact quiet_leaves hat (leaves_noteSent ..)
      next => exact quiet_finishAcc hdrop core n e he _ _ _
  | ordered op v new f q sent =>
    refine hdrop.congr ?_
    obtain ⟨d, p, h⟩ := cacheOnly_sendRequest (if dropsCopies (getCore s core) n e = true then dropCopies s (dieOf core) else s) (dieOf core) e.mt e.pa
    rw [h]
    rfl
  | fence pred succ scope =>
    dsimp only
    split
    · exact hq.congr rfl
    · exact hq.congr rfl
  | drain => exact hq.congr rfl
  | signal g => exact hq

end

/-! ## An event set at its context -/

/-- A signal of an event sets it or clears it, and its entry is gone. -/
theorem setEvent_sets (s : State) (core n ctx : Nat) {i : Nat} (on : Bool) (hi : i ≠ 0) :
    let t := setEvent (modCore s core fun c => dropAcc c n) ctx i on
    eventSet t ctx i = on ∧ (getCore t core).acc = (getCore s core).acc.eraseIdx n ∧
    (∀ j, j ≠ i → eventSet t ctx j = eventSet s ctx j) ∧ t.tasks = s.tasks := by
  intro t
  have hevents : (getCtx t ctx).events = (if on then [i] else []) ++ (getCtx s ctx).events.filter (fun k => k != i) := by
    simp only [t, setEvent, if_neg hi, getCtx_modCtx]
    rfl
  refine ⟨?_, ?_, fun j hj => ?_, ?_⟩
  · rw [eventSet, hevents]
    cases on <;> simp
  · simp only [t, setEvent, if_neg hi]
    rw [getCore_congr (modCtx_cores ..), getCore_modCore_self, dropAcc]
  · rw [eventSet, hevents, eventSet]
    cases on <;> simp [hj, List.contains_eq_mem]
  · simp only [t, setEvent, if_neg hi]
    rfl

/-- Settles O20: a scalar load by its size; a store and an atomic as the write they make; and the end of an access by what keeps it back. -/
theorem accessesAtTheirHome : Obligations.AccessesAtTheirHome := by
  unfold Obligations.AccessesAtTheirHome
  refine ⟨fun y r size signed b hsize hlen => ?load, fun s t core n e hok hacc hkind hfoot hclear hw => ?store,
    fun s t die e op v new fmt old hok hn hmt hclear hat => ?atomic, fun s core n e hacc => ?complete⟩
  case load =>
    intro N v
    have hNat : N = natOfBytes b := (sum_zipIdx_eq_natOfBytes b 0).trans (Nat.one_mul _)
    obtain ⟨hpos, hle⟩ := pow_le_of_size hsize
    have hlt : natOfBytes b < 2 ^ (8 * size) := by
      rw [Nat.pow_mul, ← hlen]
      exact natOfBytes_lt b
    have hbig : natOfBytes b < 2 ^ 6144 := hlt.trans_le (Nat.pow_le_pow_right (by decide) (by omega))
    refine ⟨?_, fun bad hbad => loadLands_scalar_bad y r size signed _ hbad⟩
    rw [loadLands_scalar y r size signed hbig, extendTo64_eq signed hpos hlt]
    simp only [v, hNat]
  case store =>
    intro u
    have hw : writePa s (dieOf core) e.mt e.pa e.data = .ok t := by
      cases h : writePa s (dieOf core) e.mt e.pa e.data with
      | ok t' => rw [h] at hw; exact congrArg Except.ok (Option.some.inj hw)
      | error c => rw [h] at hw; cases hw
    exact performAcc_store_reads hok hacc hkind hfoot hclear hw
  case atomic =>
    intro w k x now
    have hat : atomicAt s die e op v new fmt = .ok (old, t) := by
      cases h : atomicAt s die e op v new fmt with
      | ok p => rw [h] at hat; exact congrArg Except.ok (Option.some.inj hat)
      | error c => rw [h] at hat; cases hat
    obtain ⟨hold, hmem⟩ := atomicAt_writes hmt hclear hat
    have hread : now = atomResult op w fmt old x (new.toNat % 2 ^ w) % 2 ^ w := by
      simp only [now, k]
      rw [hmem]
      have h := cellsGet_cellsSet hok.1 (memKey s e.pa) (bytesOf (atomResult op w fmt old x (new.toNat % 2 ^ w)) e.n)
      rw [length_bytesOf] at h
      rw [h, natOfBytes_bytesOf, show (256 : Nat) = 2 ^ 8 from rfl, ← Nat.pow_mul]
    have hx : x < 2 ^ w := Nat.mod_lt _ (Nat.two_pow_pos w)
    have hnew : new.toNat % 2 ^ w < 2 ^ w := Nat.mod_lt _ (Nat.two_pow_pos w)
    have hlt : old < 2 ^ w := by
      have h := natOfBytes_lt (cellsGet s.mem (memKey s e.pa) e.n)
      rwa [length_cellsGet, ← hold, show (256 : Nat) = 2 ^ 8 from rfl, ← Nat.pow_mul] at h
    have hresult (hop : op ≠ .fadd) : now = atomResult op w fmt old x (new.toNat % 2 ^ w) :=
      hread.trans (Nat.mod_eq_of_lt (atomResult_lt hop hlt hx hnew))
    refine ⟨hold, fun a ha => ?_, ?_, ?_, ?_, ?_, ?_, ?_, ?_, ?_, ?_, ?_⟩
    · rw [hmem, AccessOrder.cellGet_cellsSet hok.1, length_bytesOf, if_neg (by omega)]
    · rintro rfl; exact hresult nofun
    · rintro rfl; exact hresult nofun
    · rintro rfl; exact hresult nofun
    · rintro rfl; exact hresult nofun
    · rintro rfl; exact hresult nofun
    · rintro rfl; exact hresult nofun
    · rintro rfl; exact hresult nofun
    · rintro rfl
      rw [hresult nofun, atomResult, min_def, apply_ite (toInt w)]
    · rintro rfl
      rw [hresult nofun, atomResult, max_def]
      split <;> split <;> omega
    · rintro rfl; exact hresult nofun
  case complete =>
    intro direct
    refine ⟨fun h => show execAccessComplete core n s = _ from execAccessComplete_stays hacc h,
      fun h hdirect hgone htask hkind => ⟨_, show execAccessComplete core n s = _ from execAccessComplete_direct hacc h hdirect, ?_⟩,
      fun k h hflush hentry => show execAccessComplete core n s = _ from execAccessComplete_flushed hacc h hflush hentry,
      fun i on u k h hdirect hgone hkind hi htask hk hheld hfrees hended hsusp =>
        ⟨_, show execAccessComplete core n s = _ from execAccessComplete_direct hacc h hdirect, ?_⟩⟩
    · have hquiet (u : Nat) (hu : e.task = some u) : Quiet s u := quiet_of_fields (htask u · hu)
      rw [completeAcc_performs hgone (fun u hu => (hquiet u hu).not_suspended) hkind]
      have hdone : Settled (performAcc s core n) (accDone (performAcc s core n) e.task) := settled_accDone fun u hu =>
        quiet_performAcc (hquiet u hu) core n e hacc fun v hv => Option.some.inj (hv.symm.trans hu)
      exact ⟨hdone.mem, hdone.hostMem, fun c => ⟨hdone.regs c, hdone.acc c⟩⟩
    · have hquiet : Quiet s u := fun k' hk' => by
        obtain rfl := Option.some.inj (hk.symm.trans hk')
        exact quiet_of_fields (fun k' hk' => by
          obtain rfl := Option.some.inj (hk.symm.trans hk')
          exact ⟨hheld, hfrees, hended, hsusp⟩) k hk
      have hctx : accCtx s e = k.ctx := by simp [accCtx, htask, hk]
      obtain ⟨hset, hgoneAcc, hothers, htasks⟩ := setEvent_sets s core n k.ctx on hi
      rw [completeAcc_signals hacc hgone (fun v hv => Option.some.inj (htask.symm.trans hv) ▸ hsusp) hkind, performSignal, hctx]
      have hdone := settled_accDone (s := setEvent (modCore s core fun c => dropAcc c n) k.ctx i on) (task := e.task)
        fun v hv => Option.some.inj (htask.symm.trans hv) ▸ hquiet.congr htasks
      refine ⟨?_, (hdone.acc core).trans hgoneAcc, fun j hj => ?_⟩
      · rw [eventSet, hdone.events]
        exact hset
      · rw [eventSet, hdone.events]
        exact hothers j hj

end Sys2Proof.AtHome

/-! SUPPORT. Two writes to one place are the later one. -/

namespace Sys2Proof.Updates

open Sys2Proof Sys2Proof.Machine Sys2Proof.Laws

theorem tabSet_tabSet {α : Type} (t : Tab α) (i : Nat) (x y : α) : tabSet (tabSet t i x) i y = tabSet t i y := by
  induction t with
  | nil => simp [tabSet]
  | cons e r ih =>
    obtain ⟨k, v⟩ := e
    by_cases hk : i = k
    · simp [tabSet, hk]
    · by_cases hlt : i < k
      · simp [tabSet, hk, hlt]
      · simp [tabSet, hk, hlt, ih]

theorem modCore_modCore (s : State) (i : Nat) (f g : Core → Core) : modCore (modCore s i f) i g = modCore s i fun c => g (f c) := by
  unfold modCore setCore getCore
  rw [tabSet_tabSet, tabGet_tabSet_self]

theorem modMe_modMe (s : State) (f g : Core → Core) : modMe (modMe s f) g = modMe s fun c => g (f c) := modCore_modCore s s.cur f g

end Sys2Proof.Updates

/-! SUPPORT. The waits at issue (spec/12 R274 and R289, spec/15 R342 and R343): O28. -/

namespace Sys2Proof.Waits

open Sys2Proof Sys2Proof.Machine Sys2Proof.Laws Sys2Proof.Updates

section
variable {s : State}

theorem execTwait_on {o : TWaitOp} (hon : guardOn s o.g = true) : execTwait o s = .next (if tokOf (me s) o.tok.toNat = .pending then
    modMe s fun c => { c with wait := .token o.tok.toNat } else s) := guarded_on hon

theorem execTpoll_on {o : TPollOp} (hon : guardOn s o.g = true) : execTpoll o s = .next (emit s 2
    [.q (2 * o.m.toNat) (tokSeen (me s) o.tok.toNat != .pending),
      .q (2 * o.m.toNat + 1) (match tokSeen (me s) o.tok.toNat with | .err _ => true | _ => false),
      .x o.d.toNat (BitVec.ofNat 64 (tokCode (tokSeen (me s) o.tok.toNat)))]) := guarded_on hon

theorem execWaitwp_on {o : WaitWpOp} (hon : guardOn s o.g = true) : execWaitwp o s = .next
    (if (seeX s (me s) o.a.toNat).toNat % 2 ^ 48 ≤ (chanOf (me s) o.ch.toNat).count.toNat then s
      else modMe s fun c => { c with wait := .pointer o.ch.toNat ((seeX s (me s) o.a.toNat).toNat % 2 ^ 48) }) := guarded_on hon

theorem execEvwait_on {o : EventOp} (hon : guardOn s o.g = true) : execEvwait o s = .next
    (if (seeX s (me s) o.a.toNat).toNat % 4096 = 0 ∨ (eventSet s (ctxOf s s.cur) ((seeX s (me s) o.a.toNat).toNat % 4096) = true ∧
        eventDue (me s) ((seeX s (me s) o.a.toNat).toNat % 4096) = false) then s
      else modMe s fun c => { c with wait := .event ((seeX s (me s) o.a.toNat).toNat % 4096) }) := guarded_on hon

theorem execSync_handler {o : PlainOp} (hon : guardOn s o.g = true) (h : (me s).handler = true) :
    execSync o s = .next (slotTrap s unitB 0x03 0 0) := by
  rw [execSync, guarded_on hon]
  exact congrArg _ (if_pos h)

theorem execSync_task {o : PlainOp} {k : Machine.Task} (hon : guardOn s o.g = true) (h : (me s).handler = false) (hk : taskOf s s.cur = some k) :
    execSync o s = .next (if k.size ≤ 1 then issueMarker (modMe s fun c => { c with syncs := c.syncs + 1 })
        (.signal (.barrier [(s.cur, (me s).bundleNo)]))
      else modMe s fun c => { c with syncs := c.syncs + 1, wait := .sync }) := by
  rw [execSync, guarded_on hon]
  dsimp only
  rw [h, hk]
  by_cases hsize : k.size ≤ 1
  · simp [hsize]
  · simp [hsize, modMe_modMe]

/-- The token that TPOLL reads. -/
theorem tokSeen_eq (c : Core) (n : BitVec 6) : tokSeen c n.toNat = match c.blocked with
    | some b => if n = 0 then Tok.ok else tabGet b.tok n.toNat .ok
    | none => tokOf c n.toNat := by
  unfold tokSeen
  cases c.blocked with
  | none => rfl
  | some b =>
    by_cases h : n = 0
    · rw [h]
      rfl
    · have hn : n.toNat ≠ 0 := fun h0 => h (BitVec.eq_of_toNat_eq h0)
      exact (if_neg hn).trans (if_neg h).symm

end

/-- Settles O28: each wait by its condition. -/
theorem waitsAtIssue : Obligations.WaitsAtIssue := by
  unfold Obligations.WaitsAtIssue
  intro s
  refine ⟨fun o hon => ⟨fun h => ?_, fun h => ?_⟩, fun o hon => ?poll, fun o hon => ⟨fun h => ?_, fun h => ?_⟩,
    fun o hon => ⟨fun h => ?_, fun _ h hdue => ?_, fun hi h => ?_⟩, fun o hon => ⟨fun k h hk hsize => ?_, fun k h hk hsize => ?_, fun h => ?_⟩⟩
  · show execTwait o s = _
    rw [execTwait_on hon, if_neg h]
  · show execTwait o s = _
    rw [execTwait_on hon, if_pos h]
  case poll =>
    intro put k
    have hk : tokSeen (me s) o.tok.toNat = k := tokSeen_eq (me s) o.tok
    refine ⟨fun h => ?_, fun h => ?_, fun e h => ?_⟩ <;>
    · show execTpoll o s = _
      rw [execTpoll_on hon, hk, h]
      rfl
  · show execWaitwp o s = _
    rw [execWaitwp_on hon, if_pos h]
  · show execWaitwp o s = _
    rw [execWaitwp_on hon, if_neg (by omega)]
  · show execEvwait o s = _
    rw [execEvwait_on hon, if_pos (.inl h)]
  · show execEvwait o s = _
    rw [execEvwait_on hon, if_pos (.inr ⟨h, hdue⟩)]
  · show execEvwait o s = _
    rw [execEvwait_on hon, if_neg]
    rintro (h0 | ⟨hset, -⟩)
    · exact hi h0
    · exact absurd (h.symm.trans hset) nofun
  · show execSync o s = _
    rw [execSync_task hon h hk, if_neg (by omega)]
  · show execSync o s = _
    rw [execSync_task hon h hk, if_pos hsize, issueMarker, modMe_modMe]
    rfl
  · exact execSync_handler hon h

end Sys2Proof.Waits

/-! SUPPORT. The vector banks' window, overlays and IFENCE (spec/04 R74 to R80): O27. -/

namespace Sys2Proof.Banks

open Sys2Proof Sys2Proof.Machine Sys2Proof.Laws Sys2Proof.LoadStore Sys2Proof.Updates

/-- The window that a SETBANK asks for. -/
def windowTo (s : State) (o : SetBankOp) : Int := (windowOf (me s) o.f.toNat : Int) + o.delta.toInt

/-- The spill or refill of the bank at a place of the window. -/
def moveBank (s : State) (f : Nat) (write : Bool) (l : Nat) : State :=
  if bankForeign s (me s) (bankAt (me s) f l) then holdFor s (.claimBank (bankAt (me s) f l)) else
  withAccess s 11 { r := !write, w := write } (parts (spillAddr (me s) f l) 4096) fun s _ => holdFor s (.spill f)

section
variable {s : State} {o : SetBankOp} (hon : guardOn s o.g = true)
include hon

theorem execSetbank_below (h : windowTo s o < 0) :
    execSetbank o s = .next (slotTrap s unitB 0x08 0 (BitVec.ofNat 32 (1 + 2 * o.f.toNat))) := by
  rw [execSetbank, guarded_on hon]
  exact congrArg _ (if_pos h)

theorem execSetbank_above (h0 : 0 ≤ windowTo s o) (h : (spillOf (me s) o.f.toNat : Int) + bankCount (me s) - 1 < windowTo s o) :
    execSetbank o s = .next (if spillOf (me s) o.f.toNat = (me s).sys.spillLim.toNat then
      slotTrap s unitB 0x08 0 (BitVec.ofNat 32 (2 * o.f.toNat)) else moveBank s o.f.toNat true (spillOf (me s) o.f.toNat)) := by
  rw [execSetbank, guarded_on hon]
  exact congrArg _ ((if_neg (not_lt.2 h0)).trans (if_pos h))

theorem execSetbank_refills (h0 : 0 ≤ windowTo s o) (hfit : windowTo s o ≤ (spillOf (me s) o.f.toNat : Int) + bankCount (me s) - 1)
    (h : windowTo s o < spillOf (me s) o.f.toNat) :
    execSetbank o s = .next (moveBank s o.f.toNat false (spillOf (me s) o.f.toNat - 1)) := by
  rw [execSetbank, guarded_on hon]
  exact congrArg _ ((if_neg (not_lt.2 h0)).trans ((if_neg (not_lt.2 hfit)).trans (if_pos h)))

theorem execSetbank_resident (h0 : 0 ≤ windowTo s o) (hfit : windowTo s o ≤ (spillOf (me s) o.f.toNat : Int) + bankCount (me s) - 1)
    (h : spillOf (me s) o.f.toNat ≤ windowTo s o) :
    execSetbank o s = .next (emit (modMe s fun c => enterBank s.tick c (bankAt c o.f.toNat (windowTo s o).toNat)) 1
      [.sys 0x018 (packThree (tabSet (me s).sys.window o.f.toNat (BitVec.ofInt 16 (windowTo s o))))]) := by
  rw [execSetbank, guarded_on hon]
  exact congrArg _ ((if_neg (not_lt.2 h0)).trans ((if_neg (not_lt.2 hfit)).trans (if_neg (not_lt.2 h))))

end

/-- A bank that was not spilled is entered as it stands. -/
theorem enterBank_resident {tick key : Nat} {c : Core} (h : key ∉ c.enter) : enterBank tick c key = c :=
  if_neg (by simpa [List.contains_iff_mem] using h)

/-- A core that stays as it is. -/
theorem emit_modMe_self {s : State} {f : Core → Core} (h : f (me s) = me s) (bound : Nat) (l : List Land) :
    emit (modMe s f) bound l = emit s bound l := by
  have hcore : getCore (modMe s f) s.cur = getCore s s.cur := by rw [getCore_modMe, if_pos rfl, h]; rfl
  have hnow : nowOf (modMe s f) s.cur = nowOf s s.cur := by
    simp only [nowOf, vccOf, taskOf, hcore]
    rfl
  rw [emit, modMe_cur, hnow, modMe_modMe]
  simp only [modMe, modCore]
  rw [show f (getCore s s.cur) = getCore s s.cur from h]
  rfl

theorem moveBank_ok {s : State} {f l : Nat} {write : Bool} {p : List Placed} (hown : bankForeign s (me s) (bankAt (me s) f l) = false)
    (h : checkAll s { r := !write, w := write } (parts (spillAddr (me s) f l) 4096) = .ok p) :
    moveBank s f write l = holdFor (touchAll s p) (.spill f) := by
  rw [moveBank, hown]
  exact (if_neg Bool.false_ne_true).trans (withAccess_ok h)

/-! ## Overlays -/

section
variable {s : State} {o : OvlOp} (hon : guardOn s o.g = true)
include hon

theorem execOvl_handler (h : (me s).handler = true) : execOvl o s = .next (slotTrap s unitB 0x03 0 0) := by
  rw [execOvl, guarded_on hon]
  exact congrArg _ (if_pos h)

theorem execOvl_unused {k : Machine.Task} (h : (me s).handler = false) (hk : taskOf s s.cur = some k) (hseg : tabFind k.segs o.n.toNat = none) :
    execOvl o s = .next s := by
  rw [execOvl, guarded_on hon]
  dsimp only
  rw [h, hk, Option.bind_some, hseg]
  rfl

/-- The fetch of a segment starts: its bank is loading, with what it read where no instruction fence is outstanding. -/
theorem execOvl_starts {k : Machine.Task} {src len bank : Nat} (h : (me s).handler = false) (hk : taskOf s s.cur = some k)
    (hseg : tabFind k.segs o.n.toNat = some (src, len, bank)) : ∃ snap, execOvl o s = .next (modMe s fun c => { c with
      ibank := tabSet (me s).ibank bank (.loading o.n)
      fetch := tabSet (me s).fetch bank { seg := o.n, src := src, len := len, no := (me s).bundleNo, snap := snap, stamp := s.tick } }) := by
  rw [execOvl, guarded_on hon]
  dsimp only
  rw [h, hk, Option.bind_some, hseg]
  exact ⟨_, rfl⟩

end

/-- Settles O27: the window by where it would come to stand, and an overlay by its entry. -/
theorem banksOverlaysAndInstructionFences : Obligations.BanksOverlaysAndInstructionFences := by
  unfold Obligations.BanksOverlaysAndInstructionFences
  refine ⟨fun o s hon => ?bank, fun s => ⟨fun o hon => show execIfence o s = _ from guarded_on hon, fun o hon => ⟨fun h => execOvl_handler hon h,
    fun k h hk hseg => execOvl_unused hon h hk hseg, fun k src len bank h hk hseg => ?_⟩⟩⟩
  case bank =>
    intro c f w sp n
    have hbanks (h : c.sys.bankLo ≤ c.sys.bankHi) : (bankCount (me s) : Int) = n := by
      have h : (me s).sys.bankLo.toNat ≤ (me s).sys.bankHi.toNat := h
      simp only [bankCount, n, c]
      omega
    have hfits (h : c.sys.bankLo ≤ c.sys.bankHi) (hhigh : w ≤ sp + n - 1) :
        windowTo s o ≤ (spillOf (me s) o.f.toNat : Int) + bankCount (me s) - 1 := by
      rw [hbanks h]
      exact hhigh
    have hover (h : c.sys.bankLo ≤ c.sys.bankHi) (hhigh : sp + n - 1 < w) :
        (spillOf (me s) o.f.toNat : Int) + bankCount (me s) - 1 < windowTo s o := by
      rw [hbanks h]
      exact hhigh
    refine ⟨fun hlo h0 hlow hhigh => ?_, fun h => execSetbank_below hon h, fun hlo hhigh h0 hlim => ?_, fun p hlo hhigh h0 hlim hown hcheck => ?_,
      fun p hlo h0 hlow hhigh hown hcheck => ?_⟩
    · have hgo : execSetbank o s = .next (emit (modMe s fun c => enterBank s.tick c (bankAt c f w.toNat)) 1
          [.sys 0x018 (packThree (tabSet c.sys.window f (BitVec.ofInt 16 w)))]) :=
        execSetbank_resident hon h0 (hfits hlo hhigh) hlow
      refine ⟨fun hres => ?_, hgo⟩
      show execSetbank o s = _
      rw [hgo, emit_modMe_self]
      exact enterBank_resident hres
    · show execSetbank o s = _
      exact (execSetbank_above hon h0 (hover hlo hhigh)).trans (congrArg _ (if_pos hlim.symm))
    · show execSetbank o s = _
      exact (execSetbank_above hon h0 (hover hlo hhigh)).trans (congrArg _ ((if_neg (Ne.symm hlim)).trans
        (moveBank_ok (write := true) hown hcheck)))
    · show execSetbank o s = _
      exact (execSetbank_refills hon h0 (hfits hlo hhigh) hlow).trans (congrArg _ (moveBank_ok (write := false) hown hcheck))
  · obtain ⟨snap, hgo⟩ := execOvl_starts hon h hk hseg
    refine ⟨_, show execOvl o s = _ from hgo, ?_, ⟨snap, ?_⟩, fun b hb => ?_, ?_, ?_, rfl, fun k hk => ?_⟩
    · rw [me_modMe]
      exact tabGet_tabSet_self ..
    · rw [me_modMe]
      exact tabFind_tabSet_self ..
    · rw [me_modMe]
      exact tabGet_tabSet_ne _ _ _ hb
    · rw [me_modMe]
    · rw [me_modMe]
    · exact getCore_modCore_ne _ _ hk

end Sys2Proof.Banks

/-! SUPPORT. The launch, shape, allocation, event and ending instructions at issue (spec/15 R335 to R345): O29. -/

namespace Sys2Proof.LaunchOps

open Sys2Proof Sys2Proof.Machine Sys2Proof.Laws Sys2Proof.Frames Sys2Proof.LoadStore Sys2Proof.TrapReturn

/-! ## LAUNCH and LAUNCHG -/

section
variable {s : State} {g : BitVec 4} {a : BitVec 5} {key : Option (BitVec 8)} (hon : guardOn s g = true)
include hon

theorem launchOp_handler (h : (me s).handler = true) : launchOp g a key s = .next (slotTrap s unitB 0x03 0 0) := by
  rw [launchOp, guarded_on hon]
  exact congrArg _ (if_pos h)

theorem launchOp_green (h : (me s).handler = false) (hgreen : greenOf s s.cur = true) : launchOp g a key s = .next (blockFor s .green) := by
  rw [launchOp, guarded_on hon]
  exact congrArg _ ((if_neg (by rw [h]; decide)).trans (if_pos hgreen))

theorem launchOp_misaligned (h : (me s).handler = false) (hgreen : greenOf s s.cur = false) (hea : (seeX s (me s) a.toNat).toNat % 2 ^ 57 % 128 ≠ 0) :
    launchOp g a key s = .next (slotTrap s unitB 0x06 (BitVec.ofNat 64 ((seeX s (me s) a.toNat).toNat % 2 ^ 57)) 0) := by
  rw [launchOp, guarded_on hon]
  exact congrArg _ ((if_neg (by rw [h]; decide)).trans ((if_neg (by rw [hgreen]; decide)).trans (if_pos hea)))

theorem launchOp_issues {l : List Placed} (h : (me s).handler = false) (hgreen : greenOf s s.cur = false)
    (hea : (seeX s (me s) a.toNat).toNat % 2 ^ 57 % 128 = 0)
    (hcheck : checkAll s { r := true } (parts ((seeX s (me s) a.toNat).toNat % 2 ^ 57) 128) = .ok l) :
    launchOp g a key s = .next (issueRange (touchAll s l) (.launch key) l 128) := by
  rw [launchOp, guarded_on hon]
  exact congrArg _ ((if_neg (by rw [h]; decide)).trans ((if_neg (by rw [hgreen]; decide)).trans
    ((if_neg (not_not_intro hea)).trans (withAccess_ok hcheck))))

end

/-- A range handed over after its first touch. -/
theorem issueRange_touchAll (s : State) (g : Signal) (p : Placed) (l : List Placed) (n : Nat) :
    issueRange (touchAll s (p :: l)) g (p :: l) n = modMe (touchAll s (p :: l)) fun c => { c with
      acc := c.acc ++ [{ id := c.nextId, kind := .signal g, win := p.win, mt := p.mt, pa := p.pa, n := n, no := c.bundleNo
                         task := c.task, va := p.va, stamp := s.tick }]
      nextId := c.nextId + 1 } := by
  rw [issueRange, touchAll_tick]

/-! ## SHAPE and PREDICT -/

section
variable {s : State} {o : KeyOp} (hon : guardOn s o.g = true)
include hon

theorem execShape_handler (h : (me s).handler = true) : execShape o s = .next (slotTrap s unitB 0x03 0 0) := by
  rw [execShape, guarded_on hon]
  exact congrArg _ (if_pos h)

theorem execShape_asks (h : (me s).handler = false) (hblocked : (me s).blocked = none) :
    execShape o s = .next (askShape s o.key ((seeX s (me s) o.a.toNat).setWidth 32)) := by
  rw [execShape, guarded_on hon]
  dsimp only
  rw [h, hblocked]
  rfl

theorem execShape_accepted {b : Blocked} (h : (me s).handler = false) (hblocked : (me s).blocked = some b) (hb : b.accepted = true) :
    execShape o s = .next s := by
  rw [execShape, guarded_on hon]
  dsimp only
  rw [h, hblocked]
  exact congrArg _ (if_pos hb)

theorem execShape_refused {b : Blocked} {w : BitVec 1} (h : (me s).handler = false) (hblocked : (me s).blocked = some b) (hb : b.accepted = false)
    (hw : b.refused = some w) : execShape o s = .next (slotTrap s unitB 0x0F (((seeX s (me s) o.a.toNat).setWidth 32).setWidth 64)
      (o.key.setWidth 32 + 256 * w.setWidth 32)) := by
  rw [execShape, guarded_on hon]
  dsimp only
  rw [h, hblocked]
  dsimp only
  rw [hb, hw]
  rfl

end

/-- A count put before the shape home by a task that is not provisional (R336). -/
theorem askShape_asks {s : State} (key : BitVec 8) (n : BitVec 32) (hgreen : greenOf s s.cur = false) :
    ({ core := s.cur, ctx := ctxOf s s.cur, key := key.toNat, count := n.toNat } : Asked) ∈ (askShape s key n).shape.asked ∧
    (me (askShape s key n)).wait = .shape ∧ (me (askShape s key n)).mark = .blocked ∧ (me (askShape s key n)).regs = (me s).regs ∧
    (askShape s key n).mem = s.mem := by
  unfold askShape
  dsimp only
  rw [hgreen, if_neg (fun h => Bool.false_ne_true h.1), if_neg Bool.false_ne_true, blockFor, me_modMe]
  exact ⟨List.mem_append_right _ (List.mem_singleton_self _), rfl, rfl, rfl, rfl⟩

theorem execPredict_on {s : State} {o : PredictOp} (hon : guardOn s o.g = true) : execPredict o s = .next (modDie s (dieOf s.cur) fun d =>
    { d with pred := tabSet d.pred o.key.toNat { tabGet d.pred o.key.toNat {} with
      mode := o.mode, hint := (seeX s (me s) o.a.toNat).setWidth 32 } }) := guarded_on hon

/-! ## ALLOC, FREE and events -/

theorem seeX_congr {s t : State} (h : t.tick = s.tick) (c : Core) (r : Nat) : seeX t c r = seeX s c r := by rw [seeX, h, seeX]

section
variable {s : State} {o : AllocOp} {k : Machine.Task} (hon : guardOn s o.g = true) (hk : taskOf s s.cur = some k)
include hon

theorem execAlloc_misaligned (h : (seeX s (me s) o.b.toNat).toNat % 2 ^ 57 % 8 ≠ 0) :
    execAlloc o s = .next (slotTrap s unitB 0x06 (BitVec.ofNat 64 ((seeX s (me s) o.b.toNat).toNat % 2 ^ 57)) 0) := by
  rw [execAlloc, guarded_on hon]
  exact congrArg _ (if_pos h)

include hk

theorem execAlloc_outside (h : (seeX s (me s) o.b.toNat).toNat % 2 ^ 57 % 8 = 0)
    (hpart : inPart k ((seeX s (me s) o.b.toNat).toNat % 2 ^ 57) 8 = false) :
    execAlloc o s = .next (slotTrap s unitB 0x05 (BitVec.ofNat 64 ((seeX s (me s) o.b.toNat).toNat % 2 ^ 57)) 1) := by
  rw [execAlloc, guarded_on hon]
  dsimp only
  rw [hk, if_neg (not_not_intro h)]
  exact congrArg _ (if_pos hpart)

theorem execAlloc_issues {l : List Placed} (h : (seeX s (me s) o.b.toNat).toNat % 2 ^ 57 % 8 = 0)
    (hpart : inPart k ((seeX s (me s) o.b.toNat).toNat % 2 ^ 57) 8 = true)
    (hcheck : checkAll s { w := true } (parts ((seeX s (me s) o.b.toNat).toNat % 2 ^ 57) 8) = .ok l) :
    execAlloc o s = .next (issueRange (touchAll s l) (.alloc (seeX s (me s) o.a.toNat)) l 8) := by
  rw [execAlloc, guarded_on hon]
  dsimp only
  rw [hk, if_neg (not_not_intro h)]
  refine congrArg _ ((if_neg (ne_of_eq_of_ne hpart (by decide))).trans ((withAccess_ok hcheck).trans ?_))
  rw [seeX_congr (touchAll_tick s l)]

end

section
variable {s : State}

theorem greenOf_eq {u : Nat} {k : Machine.Task} (hu : (me s).task = some u) (hk : tabFind s.tasks u = some k) : greenOf s s.cur = k.green := by
  have htask : taskOf s s.cur = some k := by rw [taskOf, show (getCore s s.cur).task = some u from hu, Option.bind_some, hk]
  rw [greenOf, htask]

theorem execFree_on {o : RegOp} {u : Nat} (hon : guardOn s o.g = true) (hu : (me s).task = some u) : execFree o s = .next
    (if greenOf s s.cur then modTask s u fun t => { t with
        frees := t.frees ++ [(s.cur, (me s).bundleNo, ((seeX s (me s) o.a.toNat).setWidth 57).toNat)] }
      else issueMarker s (.signal (.free (((seeX s (me s) o.a.toNat).setWidth 57).setWidth 64)))) := by
  rw [execFree, guarded_on hon]
  dsimp only
  rw [hu]

theorem eventOp_on {o : EventOp} (on : Bool) (hon : guardOn s o.g = true) : eventOp o on s = .next
    (if greenOf s s.cur then blockFor s .green
      else if (seeX s (me s) o.a.toNat).toNat % 4096 = 0 then s
      else issueMarker s (.signal (.event ((seeX s (me s) o.a.toNat).toNat % 4096) on))) := guarded_on hon

/-! ## YIELD and HALT -/

theorem execYield_handler {o : PlainOp} (hon : guardOn s o.g = true) (h : (me s).handler = true) :
    execYield o s = .next (slotTrap s unitB 0x03 0 0) := by
  rw [execYield, guarded_on hon]
  exact congrArg _ (if_pos h)

theorem execYield_task {o : PlainOp} {u : Nat} {k : Machine.Task} (hon : guardOn s o.g = true) (h : (me s).handler = false)
    (hu : (me s).task = some u) (hk : tabFind s.tasks u = some k) : execYield o s = .next
      (if yieldsTo s u k then modTask s u fun t => { t with preempt := true, yielded := true } else s) := by
  have htask : taskOf s s.cur = some k := by rw [taskOf, show (getCore s s.cur).task = some u from hu, Option.bind_some, hk]
  rw [execYield, guarded_on hon]
  dsimp only
  rw [h, hu, htask]
  rfl

theorem execHalt_task {o : PlainOp} (hon : guardOn s o.g = true) (h : (me s).handler = false) :
    execHalt o s = .next (modMe s fun c => { c with halted := true }) := by
  rw [execHalt, guarded_on hon]
  exact congrArg _ (if_neg (by rw [h]; decide))

theorem execHalt_handler {o : PlainOp} {u : Nat} (hon : guardOn s o.g = true) (h : (me s).handler = true) (hu : (me s).task = some u) :
    execHalt o s = .next (endInError s u (causeClass (me s).cause.toNat) 0 (coreUnit s.cur 3) (me s).sys.taddr.toNat
      ((me s).sys.tcause.toNat + if (me s).cause = 0x0A then 256 * (me s).hitTile else 0)) := by
  rw [execHalt, guarded_on hon]
  dsimp only
  rw [h, hu]
  rfl

theorem modTask_some {u : Nat} {k : Machine.Task} (hk : tabFind s.tasks u = some k) (f : Machine.Task → Machine.Task) :
    modTask s u f = { s with tasks := tabSet s.tasks u (f k) } := by rw [modTask, hk]

end

/-- Settles O29: LAUNCH and LAUNCHG share their operation; the others by the branches of theirs. -/
theorem launchAndEventInstructions : Obligations.LaunchAndEventInstructions := by
  unfold Obligations.LaunchAndEventInstructions
  refine ⟨fun g e a key s hon => ?launch, ⟨fun o s hon => ?shape, fun o s hon => ?predict⟩, fun s => ?others⟩
  case launch =>
    intro c ea ik hik
    have hexec : exec ik.1 s = launchOp g a ik.2 s := by
      simp only [List.mem_cons, List.not_mem_nil, or_false] at hik
      rcases hik with rfl | rfl
      · exact show execLaunch _ s = _ from rfl
      · exact show execLaunchg _ s = _ from rfl
    rw [hexec]
    refine ⟨launchOp_handler hon, launchOp_green hon, launchOp_misaligned hon, fun p l h hgreen hea hcheck => ?_⟩
    rw [launchOp_issues hon h hgreen hea hcheck, issueRange_touchAll]
  case shape =>
    intro c n
    refine ⟨fun h => execShape_handler hon h, fun h hblocked hgreen => ⟨_, show execShape o s = _ from execShape_asks hon h hblocked, ?_⟩,
      fun b h hblocked hb => execShape_accepted hon h hblocked hb, fun b w h hblocked hb hw => ?_⟩
    · have hn : n = ((seeX s (me s) o.a.toNat).setWidth 32).toNat := (BitVec.toNat_setWidth ..).symm
      rw [hn]
      exact askShape_asks o.key _ hgreen
    · have hn : ((seeX s (me s) o.a.toNat).setWidth 32).setWidth 64 = BitVec.ofNat 64 n := by
        apply BitVec.eq_of_toNat_eq
        simp [n, c]
      have hinfo : o.key.setWidth 32 + 256 * w.setWidth 32 = BitVec.ofNat 32 (o.key.toNat + 256 * w.toNat) := by
        apply BitVec.eq_of_toNat_eq
        simp
      show execShape o s = _
      rw [execShape_refused hon h hblocked hb hw, hn, hinfo]
      rfl
  case predict =>
    refine ⟨_, show execPredict o s = _ from execPredict_on hon, ?_, fun d k hdk => ?_, rfl, rfl⟩
    · intro p q
      have hq : q = { p with mode := o.mode, hint := (seeX s (me s) o.a.toNat).setWidth 32 } := by
        simp only [q, p, getDie_modDie, if_true, tabGet_tabSet_self]
      rw [hq]
      exact ⟨rfl, (BitVec.setWidth_eq_extractLsb' (x := seeX s (me s) o.a.toNat) (w := 32) (by decide)), rfl, rfl⟩
    · rw [getDie_modDie]
      split
      next hd =>
        have hk : k ≠ o.key.toNat := fun hk => hdk (by rw [hd, hk])
        rw [tabGet_tabSet_ne _ _ _ hk, hd]
      next => rfl
  case others =>
    intro c marker blocks
    refine ⟨fun o k p l hon hk => ?_, fun o u k hon hu hk => ?_, fun o on hon => ?_, fun o u k hon hu hk => ?_⟩
    · intro r
      refine ⟨fun h => execAlloc_misaligned hon h, fun h hpart => execAlloc_outside hon hk h hpart, fun h hpart hcheck => ?_⟩
      show execAlloc o s = _
      rw [execAlloc_issues hon hk h hpart hcheck, issueRange_touchAll]
    · intro base
      have hbase : ((seeX s (me s) o.a.toNat).setWidth 57).toNat = base := BitVec.toNat_setWidth ..
      have hgreen := greenOf_eq hu hk
      refine ⟨fun h => ?_, fun h => ?_⟩
      · show execFree o s = _
        have hword : ((seeX s (me s) o.a.toNat).setWidth 57).setWidth 64 = BitVec.ofNat 64 base := by
          rw [← hbase, BitVec.ofNat_toNat]
        rw [execFree_on hon hu, hgreen, h, hword]
        rfl
      · show execFree o s = _
        rw [execFree_on hon hu, hbase]
        exact congrArg _ ((if_pos (hgreen.trans h)).trans (modTask_some hk _))
    · intro i op
      have hop : exec op s = eventOp o on s := by
        cases on
        · exact show execEvsetClear o s = _ from rfl
        · exact show execEvset o s = _ from rfl
      rw [hop, eventOp_on on hon]
      refine ⟨fun h => by rw [h]; rfl, fun h hi => ?_, fun h hi => ?_⟩
      · rw [h]
        exact congrArg _ (if_pos hi)
      · rw [h]
        exact congrArg _ (if_neg hi)
    · refine ⟨fun h => execYield_handler hon h, fun h hy => ?_, fun h hy => ?_, fun h => execHalt_task hon h,
        fun h hnone => ⟨_, show execHalt o s = _ from execHalt_handler hon h hu, ?_⟩⟩
      · show execYield o s = _
        rw [execYield_task hon h hu hk, hy]
        exact congrArg _ (modTask_some hk _)
      · show execYield o s = _
        rw [execYield_task hon h hu hk, hy]
        rfl
      · rw [tabFind_endInError hk hnone, BitVec.ofNat_toNat, BitVec.setWidth_eq]
        rfl

end Sys2Proof.LaunchOps

/-! SUPPORT. The ends of waits (spec/02 R37, spec/12 R274 and R289, spec/15 R342 and R343), and what has been under way too long (spec/12
R265, R266 and R279): O43. -/

namespace Sys2Proof.WaitEnds

open Sys2Proof Sys2Proof.Machine Sys2Proof.Laws Sys2Proof.Frames Sys2Proof.Posts Sys2Proof.Quiet Sys2Proof.AtHome Sys2Proof.Cycles

/-! ## Waits -/

section
variable {s : State} {core : Nat}

theorem execTokenWaitEnd_waiting {n : Nat} (h : (getCore s core).wait = .token n) :
    execTokenWaitEnd core s = .next (if tokOf (getCore s core) n = .pending then s else endWait s core) := by
  rw [execTokenWaitEnd, h]

theorem execWritePointerWaitEnd_waiting {ch v : Nat} (h : (getCore s core).wait = .pointer ch v) :
    execWritePointerWaitEnd core s = .next (if v ≤ (chanOf (getCore s core) ch).count.toNat then endWait s core else s) := by
  rw [execWritePointerWaitEnd, h]

theorem execEventWaitEnd_waiting {i : Nat} (h : (getCore s core).wait = .event i) : execEventWaitEnd core s =
    .next (if eventSet s (ctxOf s core) i && !eventDue (getCore s core) i then endWait s core else s) := by
  rw [execEventWaitEnd, h]

theorem execGreenShareSpaceAvailable_free (h : (getCore s core).wait = .green) (hused : greenUsed s (core / 4) < 262144)
    (hasked : s.shape.asked = []) : execGreenShareSpaceAvailable core s = .next (endWait s core) := by
  rw [execGreenShareSpaceAvailable]
  refine congrArg _ (if_pos ⟨h, hused, ?_⟩)
  rw [hasked]
  rfl

end

/-- What a core that meets the barrier does (R343): its wait ends, and its signal joins its outstanding accesses. -/
def passSync (before : List (Nat × Nat)) (c : Core) : Core :=
  if c.halted then c
  else { c with
    wait := .none, decided := true
    acc := c.acc ++ [{ id := c.nextId, kind := .signal (.barrier before), no := c.bundleNo - 1, task := c.task }]
    nextId := c.nextId + 1 }

theorem execBarrierComplete_passes {s : State} {u : Nat} {k : Machine.Task} (hk : tabFind s.tasks u = some k) (hheld : heldGang s u k = true)
    (hall : allAtBarrier ((gangOf k).map (getCore s)) = true) : execBarrierComplete u s = .next ((gangOf k).foldl (fun t i => modCore t i
      (passSync ((gangOf k).map fun i => (i, (getCore s i).bundleNo - 1)))) s) := by
  simp only [execBarrierComplete, hk, hheld, hall, Bool.and_self, if_true]
  rfl

/-! ## Reports -/

/-- A report of SUB 0 and class 5 of a core's engine for an address, once the ring takes one (spec/17 R370). -/
def Reported (s t : State) (core a : Nat) : Prop :=
  ringTakes s (mkReport 0 5 0 (BitVec.ofNat 14 (core + 1536)) 0 0 0 0 0 0) = true → ∃ r, t.reports = s.reports ++ [r] ∧ r.sub = 0 ∧ r.cls = 5 ∧
    r.kind = 0 ∧ r.unit = BitVec.ofNat 14 (core + 1536) ∧ r.addr = BitVec.ofNat 64 a

/-- What decides whether the ring takes a report. -/
structure SameRing (s t : State) : Prop where
  ring : t.ring = s.ring
  boot : t.boot = s.boot
  dies : t.dies = s.dies
  hostUp : t.hostUp = s.hostUp
  reports : t.reports = s.reports

theorem SameRing.takes {s t : State} (h : SameRing s t) {r r' : Report} (hkind : r'.kind = r.kind) (hunit : r'.unit = r.unit) :
    ringTakes t r' = ringTakes s r := by
  have hdie : getDie t = getDie s := by
    funext d
    rw [getDie, h.dies]
    rfl
  have hfenced : fenced t = fenced s := by
    funext d
    rw [fenced, hdie]
    rfl
  have hport : ringPort t = ringPort s := by
    unfold ringPort hostPort
    rw [hdie, h.hostUp, h.ring]
  simp only [ringTakes, h.ring, h.boot, hport, hkind, hunit, cutOff, hfenced]

theorem post_taken {s : State} {r : Report} (h : ringTakes s r = true) :
    (post s r).reports = s.reports ++ [{ r with seq := BitVec.ofNat 64 s.reports.length, time := Config.freeTime s.tick }] := by
  unfold post
  dsimp only
  rw [if_neg (by rw [h]; decide)]
  obtain ⟨m, l, hw⟩ := hostWrite_eq s (s.ring.base.toNat / 64 * 64 + 64 * (s.ring.tail.toNat % 2 ^ s.ring.log2.toNat))
    (reportBytes { r with seq := BitVec.ofNat 64 s.reports.length, time := Config.freeTime s.tick })
  rw [hw]

/-- A failed access to another device is reported. -/
theorem reported_postAccess {s t : State} (h : SameRing s t) (core ctx a d0 d1 d2 : Nat) :
    Reported s (postAccess t 0 (coreUnit core 3) ctx 5 a d0 d1 d2) core a := by
  intro htakes
  unfold postAccess
  rw [if_neg (by decide), if_neg (fun hcls => absurd hcls.1 (by decide))]
  have htaken (out : Nat) : ringTakes t (mkReport 0 5 0 (coreUnit core 3) ctx a out d1 d2 0) = true := (h.takes rfl rfl).trans htakes
  dsimp only
  rw [post_taken (htaken _), h.reports]
  exact ⟨_, rfl, rfl, rfl, rfl, rfl, rfl⟩

theorem Reported.congr {s t u : State} {core a : Nat} (h : Reported s t core a) (hu : u.reports = t.reports) : Reported s u core a := by
  intro htakes
  rw [hu]
  exact h htakes

theorem Reported.of_sameRing {s s1 t : State} {core a : Nat} (h : Reported s1 t core a) (hs : SameRing s s1) : Reported s t core a := by
  intro htakes
  obtain ⟨r, hr, hfields⟩ := h ((hs.takes rfl rfl).trans htakes)
  exact ⟨r, by rw [hr, hs.reports], hfields⟩

/-! ## Errors of accesses -/

/-- LDERR after an error of class 5 (spec/12 R266). -/
def lateError (load : Bool) (c : Core) : Core := { c with sys := { c.sys with lderr := lderrSet c.sys.lderr load 5 } }

section
variable {s : State} {core u : Nat} (hu : (getCore s core).task = some u)
include hu

/-- An access error of the task that holds the core. -/
theorem accessError_held (load : Bool) (pa d0 d2 : Nat) : ∃ ctx e, accessError s core (some u) load 5 pa d0 d2 =
    postAccess (noteAccess (modCore s core (lateError load)) u e) 0 (coreUnit core 3) ctx 5 pa d0 0 d2 := by
  have hcore : modTaskCore s core (some u) (lateError load) = modCore s core (lateError load) := if_pos hu
  have hkeep (b : List Byte) : keepImage (modCore s core (lateError load)) core u 0x400 b = modCore s core (lateError load) :=
    keepImage_held (by rw [getCore_modCore_self]; exact hu) ..
  refine ⟨match (some u).bind (tabFind s.tasks) with | some t => t.ctx | none => 0,
    ⟨BitVec.ofNat 8 5, 0, coreUnit core 3, BitVec.ofNat 64 pa, accInfo s 5 pa⟩, ?_⟩
  rw [accessError]
  dsimp only
  rw [show modTaskCore s core (some u) (fun c => { c with sys := { c.sys with lderr := lderrSet c.sys.lderr load 5 } }) = _ from hcore, hkeep] <;> rfl

end

theorem noteAccess_eq (s : State) (u : Nat) (e : ErrInfo) : ∃ l, noteAccess s u e = { s with launches := l } := by
  unfold noteAccess
  split
  · unfold launchError modLaunch
    split
    · exact ⟨_, rfl⟩
    · exact ⟨s.launches, rfl⟩
  · exact ⟨s.launches, rfl⟩

/-- What an access error of the task that holds the core leaves: the core's LDERR, the launch's error and a report. -/
structure Erred (s t : State) (core a : Nat) (load : Bool) : Prop where
  mem : t.mem = s.mem
  ports : t.ports = s.ports
  tasks : t.tasks = s.tasks
  lderr : getCore t core = lateError load (getCore s core)
  reported : Reported s t core a

theorem erred_accessError {s : State} {core u : Nat} (hu : (getCore s core).task = some u) (load : Bool) (pa d0 d2 : Nat) :
    Erred s (accessError s core (some u) load 5 pa d0 d2) core pa load := by
  obtain ⟨ctx, e, h⟩ := accessError_held hu load pa d0 d2
  obtain ⟨l, hl⟩ := noteAccess_eq (modCore s core (lateError load)) u e
  have hpost := postAccess_postOnly (noteAccess (modCore s core (lateError load)) u e) 0 (coreUnit core 3) ctx 5 pa d0 0 d2
  rw [h]
  refine ⟨hpost.mem.trans ?_, hpost.ports.trans ?_, hpost.tasks.trans ?_, (hpost.getCore core).trans ?_, reported_postAccess ?_ _ _ _ _ _ _⟩
  · rw [hl]; rfl
  · rw [hl]; rfl
  · rw [hl]; rfl
  · rw [hl]
    exact getCore_modCore_self s core _
  · rw [hl]
    exact ⟨rfl, rfl, rfl, rfl, rfl⟩

theorem settled_settleDebts (s : State) : Settled s (settleDebts s) := by
  unfold settleDebts
  split
  · exact .refl s
  · refine ⟨rfl, rfl, rfl, rfl, fun i => ?_, fun _ => rfl⟩
    rw [getCore, tabGet_tabMap _ _ _ _ rfl]
    rfl

theorem settleDebts_tasks (s : State) : (settleDebts s).tasks = s.tasks := (leaves_settleDebts s).tasks

/-! ## A remote access that has been under way too long -/

section
variable {s : State} {core n u : Nat} {e : Acc} (hu : (getCore s core).task = some u) (hq : Quiet s u) (htask : e.task = some u)
include hu hq htask

theorem quiet_erred {s t : State} {a : Nat} {load : Bool} (hq : Quiet s u) (h : Erred s t core a load) : Quiet t u := hq.congr h.tasks

/-- An access that ends with class 5: its entry is gone and LDERR tells its side. -/
theorem finishAcc_late (ro : Bool) (d2 : Nat) :
    let t := accDone (finishAcc s core n e ro (.error 5) d2) e.task
    (getCore t core).acc = (getCore s core).acc.eraseIdx n ∧ (getCore t core).sys.lderr = lderrSet (getCore s core).sys.lderr ro 5 ∧
    t.mem = s.mem ∧ (getCore t core).regs = (getCore s core).regs ∧ Reported s t core e.pa := by
  intro t
  let s1 := modCore s core fun c => dropAcc (if ro then fillFlight c e.id e.off (.error 5) else c) n
  have hs1 : getCore s1 core = dropAcc (if ro then fillFlight (getCore s core) e.id e.off (.error 5) else getCore s core) n :=
    getCore_modCore_self ..
  have hkept : (getCore s1 core).acc = (getCore s core).acc.eraseIdx n ∧ (getCore s1 core).sys = (getCore s core).sys ∧
      (getCore s1 core).regs = (getCore s core).regs ∧ (getCore s1 core).task = (getCore s core).task := by
    rw [hs1]
    cases ro <;> exact ⟨rfl, rfl, rfl, rfl⟩
  obtain ⟨hacc, hsys, hregs, htask1⟩ := hkept
  have herr := erred_accessError (s := s1) (htask1.trans hu) ro e.pa (if ro then 0 else 1) d2
  have hfin : finishAcc s core n e ro (.error 5) d2 = settleDebts (accessError s1 core (some u) ro 5 e.pa (if ro then 0 else 1) d2) := by
    rw [← htask]
    rfl
  have hdebts := settled_settleDebts (accessError s1 core (some u) ro 5 e.pa (if ro then 0 else 1) d2)
  have hdone : Settled (finishAcc s core n e ro (.error 5) d2) t := settled_accDone fun v hv => by
    obtain rfl := Option.some.inj (htask.symm.trans hv)
    rw [hfin]
    exact (hq.congr (t := s1) rfl).congr ((settleDebts_tasks _).trans herr.tasks)
  have hall : Settled (accessError s1 core (some u) ro 5 e.pa (if ro then 0 else 1) d2) t := hdebts.trans (hfin ▸ hdone)
  refine ⟨?_, ?_, hall.mem.trans herr.mem, ?_, ?_⟩
  · rw [hall.acc, herr.lderr, ← hacc]
    rfl
  · rw [hall.sys, herr.lderr, ← hsys]
    rfl
  · rw [hall.regs, herr.lderr, ← hregs]
    rfl
  · exact (herr.reported.congr hall.reports).of_sameRing ⟨rfl, rfl, rfl, rfl, rfl⟩

end

theorem returnsValue_plain {e : Acc} (h : e.kind = .load ∨ e.kind = .store ∨ ∃ op v w ro fmt, e.kind = .atomic op v w ro fmt) (s : State)
    (core : Nat) : dropOrdered s core e = s ∧ orderedData e.kind = 0 := by
  rcases h with h | h | ⟨op, v, w, ro, fmt, h⟩
  · simp only [dropOrdered, orderedData, h, and_self]
  · simp only [dropOrdered, orderedData, h, and_self]
  · simp only [dropOrdered, orderedData, h, and_self]

theorem execRemoteAccessTimeout_access {s : State} {core n : Nat} {e : Acc} (hacc : (getCore s core).acc[n]? = some e) (hn : e.n ≠ 0)
    (hmt : e.mt ≠ 2) (hremote : isRemote s e.pa = true) (hgot : e.got = false) (hheld : e.held = false) (hentry : entryAt s core e = some n)
    (hkind : e.kind = .load ∨ e.kind = .store ∨ ∃ op v w ro fmt, e.kind = .atomic op v w ro fmt) :
    execRemoteAccessTimeout core (.access n) s = .next (accDone (finishAcc s core n e (returnsValue e.kind) (.error 5) 0) e.task) := by
  obtain ⟨hdrop, hdata⟩ := returnsValue_plain hkind s core
  have hgo : ¬ (e.n = 0 ∨ e.mt = 2 ∨ e.got = true ∨ isRemote s e.pa = false) := by
    rw [hgot, hremote]
    simp [hn, hmt]
  simp only [execRemoteAccessTimeout, hacc, if_neg hgo, hheld, Bool.false_eq_true, if_false, hentry, hdrop, hdata]

/-- A write that was sent is gone from those that await their acknowledgement. -/
theorem not_mem_sentBy_dropSent (s : State) (x : Sent) (core : Nat) : x ∉ sentBy (dropSent s x) core := by
  intro h
  obtain ⟨p, hp, hx⟩ := List.mem_flatMap.1 h
  obtain ⟨q, -, rfl⟩ := List.mem_map.1 hp
  obtain ⟨hx, -⟩ := List.mem_filter.1 hx
  obtain ⟨-, hne⟩ := List.mem_filter.1 hx
  simp at hne

theorem core_of_mem_sentBy {s : State} {x : Sent} {core : Nat} (h : x ∈ sentBy s core) : x.core = core := by
  obtain ⟨p, -, hx⟩ := List.mem_flatMap.1 h
  obtain ⟨-, hx⟩ := List.mem_filter.1 hx
  rw [Bool.and_eq_true, beq_iff_eq] at hx
  exact hx.1

theorem loseWrite_store {s : State} {x : Sent} (h : x.kind = .store) :
    loseWrite s x = accDone (accessError s x.core x.task false 5 x.pa 2 0) x.task := by
  unfold loseWrite
  rw [h]

/-! ## A runner's operation that has been under way too long -/

/-- `t` keeps device memory and the reports of `s`, and of each core its channels and tokens. -/
structure Idles (s t : State) : Prop where
  mem : t.mem = s.mem
  reports : t.reports = s.reports
  core : ∀ i, (getCore t i).chan = (getCore s i).chan ∧ (getCore t i).tok = (getCore s i).tok

namespace Idles
variable {s t u : State}

theorem refl (s : State) : Idles s s := ⟨rfl, rfl, fun _ => ⟨rfl, rfl⟩⟩

theorem trans (h : Idles s t) (k : Idles t u) : Idles s u :=
  ⟨k.mem.trans h.mem, k.reports.trans h.reports, fun i => ⟨(k.core i).1.trans (h.core i).1, (k.core i).2.trans (h.core i).2⟩⟩

theorem of_settled (h : Settled s t) : Idles s t := ⟨h.mem, h.reports, fun i => ⟨h.chan i, h.tok i⟩⟩

theorem modCore (s : State) (k : Nat) {f : Core → Core} (hf : ∀ c, (f c).chan = c.chan ∧ (f c).tok = c.tok) : Idles s (modCore s k f) := by
  refine ⟨rfl, rfl, fun i => ?_⟩
  rw [getCore_modCore]
  split
  next h => exact h ▸ hf _
  next => exact ⟨rfl, rfl⟩

theorem foldl {α : Type} (l : List α) {f : State → α → State} (hf : ∀ s a, Idles s (f s a)) (s : State) : Idles s (l.foldl f s) := by
  induction l generalizing s with
  | nil => exact refl s
  | cons a r ih => exact (hf s a).trans (ih _)

end Idles

theorem idles_dropState (s : State) (u : Nat) (t : Machine.Task) : Idles s (dropState s u t) := by
  unfold dropState
  refine (Idles.foldl (gangOf t) (fun s i => ?_) s).trans ⟨rfl, rfl, fun _ => ⟨rfl, rfl⟩⟩
  exact Idles.modCore s i fun _ => ⟨rfl, rfl⟩

/-- Whatever the task, settling it changes no memory, no report and no channel. -/
theorem idles_settleTask (s : State) (u : Nat) : Idles s (settleTask s u) := by
  unfold settleTask
  split
  · exact .refl s
  next k hk =>
    dsimp only
    split
    · exact .of_settled ((Settled.foldl _ settled_abandonAll s).trans ((settled_leaveCores ..).trans ((Settled.modTask ..).trans (Settled.leaveSlot ..))))
    · split
      · have hsaved : Idles s (abandonSaved s k) := .of_settled (settled_abandonSaved s k)
        unfold endUnits
        dsimp only
        split
        · exact hsaved.trans ((idles_dropState ..).trans (.of_settled ((Settled.modTask ..).trans (Settled.leaveSlot ..))))
        · exact hsaved.trans (.of_settled (Settled.modTask ..))
      · exact .refl s

section
variable {s : State} {core u : Nat} (hu : (getCore s core).task = some u)
include hu

theorem modCount_held (ch : Nat) (f : Chan → Chan) :
    modCount s core ch u f = modCore s core fun c => { c with chan := tabSet c.chan ch (f (chanOf c ch)) } := by
  rw [modCount, show modTaskCore s core (some u) _ = _ from if_pos hu, keepImage_held]
  rw [getCore_modCore_self]
  exact hu

theorem ownerTok_held {tok : Nat} (htok : tok ≠ 0) (k : Tok) :
    ownerTok s core u tok k = modCore s core fun c => { c with tok := tabSet c.tok tok k } := by
  rw [ownerTok, if_neg htok, show modTaskCore s core (some u) _ = _ from if_pos hu, keepImage_held]
  rw [getCore_modCore_self]
  exact hu

end

/-- The state of a runner that gives up its operation: what it wrote is counted, its channel is free and its token done-error. -/
def gaveUp (s : State) (core ch : Nat) (r : RRun) : State :=
  let counted := modCore (forgetSent s core ch) core fun c => { c with chan := tabSet c.chan ch ({ chanOf c ch with
    count := (chanOf c ch).count + BitVec.ofNat 48 (bytesDue s r.e - r.counted), err := true }) }
  modCore (modChan counted core ch fun c => { c with run := none }) core fun c => { c with tok := tabSet c.tok r.e.tok (.err 5) }

theorem failRunner_gaveUp {s : State} {core ch : Nat} {r : RRun} (hu : (getCore s core).task = some r.e.task) (htok : r.e.tok ≠ 0)
    (addr dir : Nat) : ∃ e, failRunner s core ch r 5 5 addr dir = settleTask (postAccess (noteAccess (gaveUp s core ch r) r.e.task e) 0
      (coreUnit core 3) r.e.ctx 5 addr dir r.e.tok 0) r.e.task := by
  refine ⟨⟨BitVec.ofNat 8 5, 0, coreUnit core 3, BitVec.ofNat 64 addr, accInfo s 5 addr⟩, ?_⟩
  have hu' : (getCore (forgetSent s core ch) core).task = some r.e.task := hu
  unfold failRunner
  dsimp only
  rw [modCount_held hu', ownerTok_held _ htok, if_neg (by decide), if_neg (by decide)]
  · rfl
  · rw [modChan, getCore_modCore_self, getCore_modCore_self]
    exact hu

/-- A runner's operation that failed with class 5: its channel runs nothing, its token holds the code, and the failure is reported. -/
theorem failRunner_late {s : State} {core ch : Nat} {r : RRun} (hu : (getCore s core).task = some r.e.task) (htok : r.e.tok ≠ 0) (addr dir : Nat) :
    let t := failRunner s core ch r 5 5 addr dir
    (chanOf (getCore t core) ch).run = none ∧ tokOf (getCore t core) r.e.tok = .err 5 ∧ t.mem = s.mem ∧ Reported s t core addr := by
  intro t
  obtain ⟨e, h⟩ := failRunner_gaveUp (ch := ch) hu htok addr dir
  obtain ⟨l, hl⟩ := noteAccess_eq (gaveUp s core ch r) r.e.task e
  let s1 := noteAccess (gaveUp s core ch r) r.e.task e
  have hs1 : s1 = { gaveUp s core ch r with launches := l } := hl
  let s2 := postAccess s1 0 (coreUnit core 3) r.e.ctx 5 addr dir r.e.tok 0
  have hpost : PostOnly s1 s2 := postAccess_postOnly ..
  have hidle : Idles s2 t := by
    have hidle := idles_settleTask s2 r.e.task
    rwa [show settleTask s2 r.e.task = t from h.symm] at hidle
  have hcore : getCore s2 core = getCore (gaveUp s core ch r) core := (hpost.getCore core).trans (by rw [hs1]; rfl)
  obtain ⟨hchan, htokens⟩ := hidle.core core
  refine ⟨?_, ?_, hidle.mem.trans (hpost.mem.trans (by rw [hs1]; rfl)), Reported.congr ?_ hidle.reports⟩
  · rw [chanOf, hchan, hcore, gaveUp, getCore_modCore_self, modChan, getCore_modCore_self, tabGet_tabSet_self]
  · rw [tokOf, if_neg htok, htokens, hcore, gaveUp, getCore_modCore_self, tabGet_tabSet_self]
  · refine reported_postAccess ?_ _ _ _ _ _ _
    rw [hs1]
    exact ⟨rfl, rfl, rfl, rfl, rfl⟩

/-- Settles O43: a wait by its condition, and what has been under way too long by what it is. -/
theorem waitsEnd : Obligations.WaitsEnd := by
  unfold Obligations.WaitsEnd
  refine ⟨fun s core => ?waits, fun s core => ?late⟩
  case waits =>
    intro c free
    refine ⟨fun n hw => ⟨fun h => ?_, fun h => ?_⟩, fun ch v hw => ⟨fun h => ?_, fun h => ?_⟩, fun i hw => ⟨fun h hdue => ?_, fun h => ?_⟩,
      fun hw hused hasked => show execGreenShareSpaceAvailable core s = _ from execGreenShareSpaceAvailable_free hw hused hasked,
      fun u k hk hheld hall => ?_⟩
    · show execTokenWaitEnd core s = _
      rw [execTokenWaitEnd_waiting hw, if_neg h]
      rfl
    · show execTokenWaitEnd core s = _
      rw [execTokenWaitEnd_waiting hw, if_pos h]
    · show execWritePointerWaitEnd core s = _
      rw [execWritePointerWaitEnd_waiting hw, if_pos h]
      rfl
    · show execWritePointerWaitEnd core s = _
      rw [execWritePointerWaitEnd_waiting hw, if_neg (Nat.not_le.2 h)]
    · show execEventWaitEnd core s = _
      rw [execEventWaitEnd_waiting hw, h, show eventDue (getCore s core) i = false from hdue]
      rfl
    · show execEventWaitEnd core s = _
      rw [execEventWaitEnd_waiting hw, h]
      rfl
    · refine ⟨_, show execBarrierComplete u s = _ from execBarrierComplete_passes hk hheld hall, fun i hi hrun => ?_, ?_⟩
      · rw [getCore_foldl_modCore (gangOf_nodup k), if_pos hi, passSync, if_neg (by rw [hrun]; decide)]
        exact ⟨rfl, rfl, rfl⟩
      · obtain ⟨c, hc⟩ := foldl_modCore_eq (gangOf k) (passSync ((gangOf k).map fun i => (i, (getCore s i).bundleNo - 1))) s
        rw [hc]
  case late =>
    intro c reported
    refine ⟨fun n e u hacc hkind htask hu hsusp hn hmt hremote hgot hheld hentry hquiet => ?_,
      fun n x u hx hkind htask hu hsusp hquiet => ?_, fun ch r hrun hop hu htok => ?_⟩
    · have hq : Quiet s u := quiet_of_fields fun k hk => by
        obtain ⟨hheld, hfrees, hended⟩ := hquiet k hk
        exact ⟨hheld, hfrees, hended, hsusp⟩
      obtain ⟨hacc', hlderr, hmem, hregs, hrep⟩ := finishAcc_late (n := n) hu hq htask (returnsValue e.kind) 0
      exact ⟨_, show execRemoteAccessTimeout core (.access n) s = _ from
        execRemoteAccessTimeout_access hacc hn hmt hremote hgot hheld hentry hkind, hacc', hlderr, hmem, hregs, hrep⟩
    · have hq : Quiet (dropSent s x) u := Quiet.congr (s := s) (quiet_of_fields fun k hk => by
        obtain ⟨hheld, hfrees, hended⟩ := hquiet k hk
        exact ⟨hheld, hfrees, hended, hsusp⟩) rfl
      have hcore : x.core = core := core_of_mem_sentBy (List.mem_of_getElem? hx)
      have hexec : execRemoteAccessTimeout core (.sent n) s = .next (accDone (accessError (dropSent s x) core (some u) false 5 x.pa 2 0) (some u)) := by
        simp only [execRemoteAccessTimeout, hx, loseWrite_store hkind, hcore, htask]
      have herr := erred_accessError (s := dropSent s x) hu false x.pa 2 0
      have hdone : Settled (accessError (dropSent s x) core (some u) false 5 x.pa 2 0)
          (accDone (accessError (dropSent s x) core (some u) false 5 x.pa 2 0) (some u)) :=
        settled_accDone fun v hv => Option.some.inj hv ▸ hq.congr herr.tasks
      refine ⟨_, show execRemoteAccessTimeout core (.sent n) s = _ from hexec, ?_, ?_, ?_, hdone.mem.trans herr.mem, ?_, ?_⟩
      · rw [sentBy, hdone.ports, herr.ports]
        exact not_mem_sentBy_dropSent s x core
      · rw [hdone.acc, herr.lderr]
        rfl
      · rw [hdone.sys, herr.lderr]
        rfl
      · rw [hdone.regs, herr.lderr]
        rfl
      · exact (herr.reported.congr hdone.reports).of_sameRing ⟨rfl, rfl, rfl, rfl, rfl⟩
    · have hcoll : ¬ (r.e.op = .coll ∧ r.ready = false) := by
        rintro ⟨h, -⟩
        rw [h] at hop
        exact absurd hop (by decide)
      refine ⟨_, show execRemoteAccessTimeout core (.runner ch) s = .next (failRunner s core ch r 5 5 (runnerStuck s core ch r).1
        (runnerStuck s core ch r).2) from ?_, failRunner_late hu htok ..⟩
      simp only [execRemoteAccessTimeout, show (chanOf (getCore s core) ch).run = some r from hrun, if_neg hcoll]

end Sys2Proof.WaitEnds

/-! SUPPORT. What writing parts of memory and saving a state image may change (spec/13 R303, R304). -/

namespace Sys2Proof.Images

open Sys2Proof Sys2Proof.Machine Sys2Proof.Laws Sys2Proof.Frames Sys2Proof.Posts

/-- `t` is `s` but for the memories and their error marks, the caches, the ports and the host's answers. -/
def WriteOnly (s t : State) : Prop := ∃ m h e a d p, t = { s with mem := m, hostMem := h, eccBad := e, ats := a, dies := d, ports := p }

namespace WriteOnly
variable {s t u : State}

theorem refl (s : State) : WriteOnly s s := ⟨_, _, _, _, _, _, rfl⟩

theorem trans (h : WriteOnly s t) (k : WriteOnly t u) : WriteOnly s u := by
  obtain ⟨m, h, e, a, d, p, rfl⟩ := h
  obtain ⟨m, h, e, a, d, p, rfl⟩ := k
  exact ⟨m, h, e, a, d, p, rfl⟩

theorem of_cacheOnly (h : CacheOnly s t) : WriteOnly s t := by
  obtain ⟨d, p, rfl⟩ := h
  exact ⟨_, _, _, _, d, p, rfl⟩

theorem cores (h : WriteOnly s t) : t.cores = s.cores := by obtain ⟨m, h, e, a, d, p, rfl⟩ := h; rfl
theorem tasks (h : WriteOnly s t) : t.tasks = s.tasks := by obtain ⟨m, h, e, a, d, p, rfl⟩ := h; rfl
theorem hearths (h : WriteOnly s t) : t.hearths = s.hearths := by obtain ⟨m, h, e, a, d, p, rfl⟩ := h; rfl
theorem turns (h : WriteOnly s t) : t.turns = s.turns := by obtain ⟨m, h, e, a, d, p, rfl⟩ := h; rfl
theorem reports (h : WriteOnly s t) : t.reports = s.reports := by obtain ⟨m, h, e, a, d, p, rfl⟩ := h; rfl

end WriteOnly

theorem writeOnly_writePa {s t : State} {die mt pa : Nat} {b : List Byte} (hw : writePa s die mt pa b = .ok t) : WriteOnly s t := by
  unfold Machine.writePa at hw
  split at hw
  · split at hw
    · cases hw
    · cases hw
      exact ⟨_, _, _, _, _, _, rfl⟩
  · dsimp only at hw
    split at hw
    · cases hw
    · split at hw
      · cases hw
      · cases hw
        have hmem : WriteOnly s { s with mem := cellsSet s.mem (memKey s pa) b
                                         eccBad := s.eccBad.filter (fun e => !(eccHits s (memKey s pa) b.length).contains e) } :=
          ⟨_, _, _, _, _, _, rfl⟩
        refine hmem.trans (.of_cacheOnly ?_)
        split
        · exact (cacheOnly_sendPacket ..).trans (cacheOnly_modDie ..)
        · exact cacheOnly_takeLine ..

theorem writeOnly_writeParts (s : State) (die : Nat) (ctx : Option Nat) (data : List Byte) (l : List Placed) (e : Option (Nat × Nat)) :
    WriteOnly s (writeParts s die ctx data l e).1 := by
  induction l generalizing s e with
  | nil => exact .refl s
  | cons p r ih =>
    unfold Machine.writeParts
    split
    next hw => exact (writeOnly_writePa hw).trans (ih _ _)
    next => exact ih _ _

theorem writeOnly_noteHost (s : State) (h c va : Nat) : WriteOnly s (noteHost s h c va) := by
  obtain ⟨a, ha⟩ := noteHost_eq s h c va
  rw [ha]
  exact ⟨_, _, _, a, _, _, rfl⟩

theorem writeOnly_noteHosts (s : State) (w : Who) (l : List Placed) : WriteOnly s (noteHosts s w l) := by
  unfold noteHosts
  induction l generalizing s with
  | nil => exact .refl s
  | cons p r ih =>
    refine WriteOnly.trans ?_ (ih _)
    dsimp only
    split
    · exact writeOnly_noteHost ..
    · exact .refl s

/-! ## Images -/

/-- A task but for what its image lost. -/
def apartLost (k : Machine.Task) : Machine.Task := { k with lost := none }

/-- `t` keeps of `s` the cores, hearths and turns, and of each task everything but what its image lost. -/
structure SaveOnly (s t : State) : Prop where
  cores : t.cores = s.cores
  hearths : t.hearths = s.hearths
  turns : t.turns = s.turns
  tasks : ∀ v, (tabFind t.tasks v).map apartLost = (tabFind s.tasks v).map apartLost

namespace SaveOnly
variable {s t u : State}

theorem refl (s : State) : SaveOnly s s := ⟨rfl, rfl, rfl, fun _ => rfl⟩

theorem trans (h : SaveOnly s t) (k : SaveOnly t u) : SaveOnly s u :=
  ⟨k.cores.trans h.cores, k.hearths.trans h.hearths, k.turns.trans h.turns, fun v => (k.tasks v).trans (h.tasks v)⟩

theorem of_writeOnly (h : WriteOnly s t) : SaveOnly s t := ⟨h.cores, h.hearths, h.turns, fun _ => by rw [h.tasks]⟩

theorem of_postOnly (h : PostOnly s t) : SaveOnly s t := by
  obtain ⟨m, a, g, l, rfl⟩ := h
  exact ⟨rfl, rfl, rfl, fun _ => rfl⟩

theorem modLost (s : State) (v : Nat) (f : Machine.Task → Machine.Task) (hf : ∀ k, apartLost (f k) = apartLost k) : SaveOnly s (modTask s v f) where
  cores := by simp
  hearths := by simp
  turns := by simp
  tasks w := by
    rw [tabFind_modTask]
    split
    next h =>
      rw [Option.map_map, h]
      exact congrArg (fun g => (tabFind s.tasks v).map g) (funext hf)
    next => rfl

theorem foldl {α : Type} (l : List α) {f : State → α → State} (hf : ∀ s a, SaveOnly s (f s a)) (s : State) : SaveOnly s (l.foldl f s) := by
  induction l generalizing s with
  | nil => exact refl s
  | cons a r ih => exact (hf s a).trans (ih _)

/-- A task is still there. -/
theorem task_some (h : SaveOnly s t) {v : Nat} {k : Machine.Task} (hk : tabFind s.tasks v = some k) :
    ∃ k', tabFind t.tasks v = some k' ∧ apartLost k' = apartLost k := by
  have htasks := h.tasks v
  rw [hk, Option.map_some, Option.map_eq_some_iff] at htasks
  exact htasks

end SaveOnly

/-- A part of an image that could not be saved: the task has lost its state, and a report says so. -/
theorem saveOnly_fail (s : State) (u core ctx cls va : Nat) (addr : Option Nat) : SaveOnly s
    (let s1 := modTask s u fun t => if t.lost.isSome then t else { t with lost := some (BitVec.ofNat 8 cls, BitVec.ofNat 64 va) }
     match addr with
     | some p => postAccess s1 0 (coreUnit core 3) ctx cls p 1 0 0
     | none => post s1 (mkReport 0 cls 0 (coreUnit core 3) ctx 0 1 0 0 0)) := by
  have hlost : SaveOnly s (modTask s u fun t => if t.lost.isSome then t else { t with lost := some (BitVec.ofNat 8 cls, BitVec.ofNat 64 va) }) := by
    refine SaveOnly.modLost s u _ fun k => ?_
    split <;> rfl
  cases addr with
  | none => exact hlost.trans (.of_postOnly (post_postOnly ..))
  | some p => exact hlost.trans (.of_postOnly (postAccess_postOnly ..))

theorem saveOnly_saveImage (s : State) (u core off : Nat) (b : List Byte) (readErr : Option (Nat × Option Nat)) :
    SaveOnly s (saveImage s u core off b readErr) := by
  unfold saveImage
  cases tabFind s.tasks u with
  | none => exact .refl s
  | some t =>
    cases readErr with
    | some e => exact saveOnly_fail ..
    | none =>
      dsimp only
      cases placeFor s { (whoTask u t false) with part := 0 } { w := true } (parts ((imageBase s t + off) % 2 ^ 57) b.length) with
      | error a => exact saveOnly_fail s u core t.ctx 4 a (some a)
      | ok l =>
        have hwrite := (writeOnly_noteHosts s { (whoTask u t false) with part := 0 } l).trans
          (writeOnly_writeParts (noteHosts s { (whoTask u t false) with part := 0 } l) (t.hearth / 24) none b l none)
        dsimp only
        generalize writeParts (noteHosts s { (whoTask u t false) with part := 0 } l) (t.hearth / 24) none b l none = w at hwrite ⊢
        obtain ⟨s1, e⟩ := w
        cases e with
        | none => exact .of_writeOnly hwrite
        | some c => exact (SaveOnly.of_writeOnly hwrite).trans (saveOnly_fail s1 u core t.ctx c.1 _ (some c.2))

end Sys2Proof.Images

/-! SUPPORT. What a starting task finds (spec/02 R27, spec/16 R364), and how a stopped gang is pre-empted (spec/13 R302, R303): O44. -/

namespace Sys2Proof.TaskMoves

open Sys2Proof Sys2Proof.Machine Sys2Proof.Laws Sys2Proof.Frames Sys2Proof.Images Sys2Proof.Cycles

/-! ## What a start reads -/

/-- `t` is `s` but for the host's answers, the caches and the ports. -/
def AskOnly (s t : State) : Prop := ∃ a d p, t = { s with ats := a, dies := d, ports := p }

namespace AskOnly
variable {s t u : State}

theorem refl (s : State) : AskOnly s s := ⟨_, _, _, rfl⟩

theorem trans (h : AskOnly s t) (k : AskOnly t u) : AskOnly s u := by
  obtain ⟨a, d, p, rfl⟩ := h
  obtain ⟨a, d, p, rfl⟩ := k
  exact ⟨a, d, p, rfl⟩

theorem of_cacheOnly (h : CacheOnly s t) : AskOnly s t := by
  obtain ⟨d, p, rfl⟩ := h
  exact ⟨_, d, p, rfl⟩

theorem foldl {α : Type} (l : List α) {f : State → α → State} (hf : ∀ s a, AskOnly s (f s a)) (s : State) : AskOnly s (l.foldl f s) := by
  induction l generalizing s with
  | nil => exact refl s
  | cons a r ih => exact (hf s a).trans (ih _)

end AskOnly

theorem askOnly_noteHosts (s : State) (w : Who) (l : List Placed) : AskOnly s (noteHosts s w l) := by
  refine AskOnly.foldl l (fun s p => ?_) s
  split
  · obtain ⟨a, ha⟩ := noteHost_eq s w.hearth w.ctx p.va
    rw [ha]
    exact ⟨a, _, _, rfl⟩
  · exact .refl s

theorem askOnly_askParts (s : State) (die : Nat) (l : List Placed) : AskOnly s (askParts s die l) := by
  refine AskOnly.foldl l (fun s p => ?_) s
  split
  · exact .refl s
  · exact .of_cacheOnly ((cacheOnly_sendRequest s die p.mt p.pa).trans (cacheOnly_shareLine ..))

theorem askOnly_noteRange (s : State) (w : Who) (need : Need) (l : List (Nat × Nat × Nat)) : AskOnly s (noteRange s w need l) :=
  (askOnly_noteHosts ..).trans (askOnly_askParts ..)

theorem askOnly_noteLoads (s : State) (u : Nat) (t : Machine.Task) (r : Rec) : AskOnly s (noteLoads s u t r) := by
  have hif (s : State) (p : Prop) [Decidable p] (l : List (Nat × Nat × Nat)) :
      AskOnly s (if p then s else noteRange s (whoTask u t false) { x := true } l) := by
    split
    · exact .refl s
    · exact askOnly_noteRange ..
  exact (askOnly_noteRange ..).trans ((hif _ _ _).trans (hif _ _ _))

/-! ## A task starts -/

/-- Each core of a list gets what its place gives it. -/
theorem getCore_zipIdx_foldl {l : List Nat} (hl : l.Nodup) (g : State → Nat → Core → Core) (s : State) (n : Nat) {i : Nat} (hi : i < l.length) :
    ∃ s' c, getCore ((l.zipIdx n).foldl (fun s x => modCore s x.1 fun c => g s x.2 c) s) l[i] = g s' (n + i) c := by
  induction l generalizing s n i with
  | nil => exact absurd hi (Nat.not_lt_zero i)
  | cons x r ih =>
    obtain ⟨hx, hr⟩ := List.nodup_cons.1 hl
    rw [List.zipIdx_cons, List.foldl_cons]
    cases i with
    | succ i =>
      obtain ⟨s', c, h⟩ := ih hr (modCore s x fun c => g s n c) (n + 1) (Nat.lt_of_succ_lt_succ hi)
      exact ⟨s', c, by rw [List.getElem_cons_succ, h]; congr 1; omega⟩
    | zero =>
      have hkeep (m : Nat) (s : State) : getCore ((r.zipIdx m).foldl (fun s x => modCore s x.1 fun c => g s x.2 c) s) x = getCore s x := by
        clear ih hr hi hl
        induction r generalizing s m with
        | nil => rfl
        | cons y r ih =>
          obtain ⟨hxy, hxr⟩ := not_or.1 (mt List.mem_cons.2 hx)
          rw [List.zipIdx_cons, List.foldl_cons, ih hxr, getCore_modCore_ne _ _ hxy]
      refine ⟨s, getCore s x, ?_⟩
      rw [List.getElem_cons_zero, hkeep, getCore_modCore_self, Nat.add_zero]

theorem zipIdx_foldl_eq (l : List (Nat × Nat)) (g : State → Nat → Core → Core) (s : State) :
    ∃ c, l.foldl (fun s x => modCore s x.1 fun c => g s x.2 c) s = { s with cores := c } := by
  induction l generalizing s with
  | nil => exact ⟨s.cores, rfl⟩
  | cons x r ih =>
    obtain ⟨c, hc⟩ := ih (modCore s x.1 fun c => g s x.2 c)
    exact ⟨c, hc⟩

theorem heldGang_none {s : State} {u : Nat} {k : Machine.Task} (hfree : ∀ i ∈ gangOf k, (getCore s i).task = none) (hgang : gangOf k ≠ []) :
    heldGang s u k = false := by
  obtain ⟨i, hi⟩ := List.exists_mem_of_ne_nil _ hgang
  refine Bool.eq_false_iff.2 fun h => ?_
  have h := List.all_eq_true.1 h i hi
  rw [hfree i hi] at h
  exact absurd h (by simp)

theorem execTaskStart_starts {s : State} {u : Nat} {k : Machine.Task} {l : Launch} {ld : Loads} (hk : tabFind s.tasks u = some k) (hst : k.st = 0)
    (hended : k.ended = false) (hfree : ∀ i ∈ gangOf k, (getCore s i).task = none) (hgang : gangOf k ≠ [])
    (hl : tabFind s.launches k.launch = some l) (hload : loadTask s u k l.rcd = .ok ld)
    (hwait : readsWait s (whoTask u k false) (loadRanges l.rcd) = false) :
    execTaskStart u s = .next ((gangOf k).zipIdx.foldl (fun s i => modCore s i.1 fun c => startCore s u k l.rcd ld i.2 c)
      (modTask (noteLoads s u k l.rcd) u fun t => { t with segs := ld.segs })) := by
  have hnone : (gangOf k).any (fun i => (getCore s i).task.isSome) = false := by
    rw [List.any_eq_false]
    intro i hi
    rw [hfree i hi]
    decide
  have hgo : ¬ (k.st ≠ 0 ∨ k.ended = true ∨ heldGang s u k = true ∨ (gangOf k).any (fun i => (getCore s i).task.isSome) = true) := by
    rw [hst, hended, heldGang_none hfree hgang, hnone]
    decide
  simp only [execTaskStart, hk, if_neg hgo, hl, hwait, hload, Bool.false_eq_true, if_false]

/-- The registers of a task that starts with eight parameters. -/
theorem startRegs_reads {r : Rec} (hp : r.params.length = 8) (idx grid pos part : Nat) (v : Tab W1024) :
    let c := startRegs r idx grid pos part v
    (∀ j, j < 8 → some (tabGet c.x (j + 1) 0) = r.params[j]? ∧ some (tabGet c.y (j + 1) 0) = r.params[j]?) ∧
    tabGet c.x 9 0 = BitVec.ofNat 64 idx ∧ tabGet c.x 10 0 = BitVec.ofNat 64 grid ∧ tabGet c.x 11 0 = BitVec.ofNat 64 pos ∧
    tabGet c.x 30 0 = BitVec.ofNat 64 (2 ^ 56 + part) ∧ tabGet c.y 9 0 = BitVec.ofNat 64 idx ∧
    (∀ i, 12 ≤ i → i ≠ 30 → tabGet c.x i 0 = 0) ∧ (∀ i, 10 ≤ i → tabGet c.y i 0 = 0) := by
  obtain ⟨a0, a1, a2, a3, a4, a5, a6, a7, hparams⟩ : ∃ a0 a1 a2 a3 a4 a5 a6 a7, r.params = [a0, a1, a2, a3, a4, a5, a6, a7] := by
    match h : r.params, hp with
    | [a0, a1, a2, a3, a4, a5, a6, a7], _ => exact ⟨a0, a1, a2, a3, a4, a5, a6, a7, rfl⟩
  intro c
  simp only [c, startRegs, hparams]
  refine ⟨fun j hj => ?_, rfl, rfl, rfl, rfl, rfl, fun i hi h30 => ?_, fun i hi => ?_⟩
  · interval_cases j <;> exact ⟨rfl, rfl⟩
  · have hne : ∀ n, n < 12 → n ≠ i := fun n hn => by omega
    simp [tabGet, tabFind, hne, h30.symm]
  · have hne : ∀ n, n < 10 → n ≠ i := fun n hn => by omega
    simp [tabGet, tabFind, hne]

/-! ## A stopped gang is pre-empted -/

/-- The images of the gang's cores saved, one after the other (R303). -/
def savedGang (s : State) (u : Nat) (t : Machine.Task) (cs : List Core) : State :=
  (List.zip (gangOf t) cs).foldl (fun s e =>
    saveImage (saveImage s u e.1 (coreImage t e.1) (eagerBytes s t e.1 e.2 (waitOf cs t.vcc)) (if e.2.fileBad then some (3, none) else none))
      u e.1 (coreImage t e.1 + 0x8000) (List.replicate 0x8000 0) none) s

theorem saveOnly_savedGang (s : State) (u : Nat) (t : Machine.Task) (cs : List Core) : SaveOnly s (savedGang s u t cs) := by
  refine SaveOnly.foldl _ (fun s e => ?_) s
  exact (saveOnly_saveImage ..).trans (saveOnly_saveImage ..)

/-- The cores of a stopped gang as they stand. -/
def stoppedCores (s : State) (k : Machine.Task) : List Core := (gangOf k).map (fun i => stoppedCore k.issued (getCore s i))

/-- A task as its pre-emption leaves it. -/
def suspendedTask (s : State) (k t : Machine.Task) : Machine.Task := { t with
  st := 3, vcc := (stoppedTask s k).vcc, saved := (stoppedCores s k).map savedCore, preempt := false, yielded := false, aged := 0
  claimedBlocks := [], claimedBanks := [], claimedTiles := [] }

/-- The state that a pre-emption leaves. -/
def preempted (s : State) (u : Nat) (k : Machine.Task) : State :=
  let s2 := modTask (savedGang s u (stoppedTask s k) (stoppedCores s k)) u (suspendedTask s k)
  let s3 := (gangOf k).foldl (fun s i => modCore s i fun c => leftCore s u c) s2
  { s3 with
    turns := s3.turns ++ [(1, u)]
    shape := { s3.shape with asked := s3.shape.asked.filter (fun a => !(gangOf k).contains a.core) } }

theorem gangOf_stoppedTask (s : State) (k : Machine.Task) : gangOf (stoppedTask s k) = gangOf k := by
  unfold stoppedTask
  split <;> rfl

theorem execPreemption_stops {s : State} {u : Nat} {k : Machine.Task} (hk : tabFind s.tasks u = some k) (h : canStop s u k = true) :
    execPreemption u s = .next (preempted s u k) := by
  simp only [execPreemption, hk, h, Bool.true_eq_false, if_false, gangOf_stoppedTask]
  rw [preempted, savedGang, gangOf_stoppedTask] <;> rfl

theorem stoppedCore_keeps (issued : Bool) (c : Core) : (stoppedCore issued c).regs = c.regs ∧ (stoppedCore issued c).mu = c.mu := by
  unfold stoppedCore
  split
  · exact ⟨rfl, rfl⟩
  · split
    · exact ⟨rfl, rfl⟩
    · split <;> exact ⟨rfl, rfl⟩

/-- Each core of a list is left. -/
theorem getCore_leave {l : List Nat} {i : Nat} (hi : i ∈ l) (u : Nat) (s : State) :
    ∃ s' c, getCore (l.foldl (fun s i => modCore s i fun c => leftCore s u c) s) i = leftCore s' u c := by
  induction l generalizing s with
  | nil => cases hi
  | cons x r ih =>
    by_cases hr : i ∈ r
    · exact ih hr _
    · obtain rfl := (List.mem_cons.1 hi).resolve_right hr
      have hkeep (s : State) : getCore (r.foldl (fun s i => modCore s i fun c => leftCore s u c) s) i = getCore s i := by
        clear ih hi
        induction r generalizing s with
        | nil => rfl
        | cons y r ih =>
          obtain ⟨hiy, hir⟩ := not_or.1 (mt List.mem_cons.2 hr)
          rw [List.foldl_cons, ih hir, getCore_modCore_ne _ _ hiy]
      exact ⟨s, getCore s i, by rw [List.foldl_cons, hkeep, getCore_modCore_self]⟩

theorem leave_eq (l : List Nat) (u : Nat) (s : State) :
    ∃ c, l.foldl (fun s i => modCore s i fun c => leftCore s u c) s = { s with cores := c } := by
  induction l generalizing s with
  | nil => exact ⟨s.cores, rfl⟩
  | cons x r ih =>
    obtain ⟨c, hc⟩ := ih (modCore s x fun c => leftCore s u c)
    exact ⟨c, hc⟩

theorem preempted_turns (s : State) (u : Nat) (k : Machine.Task) : (preempted s u k).turns = s.turns ++ [(1, u)] := by
  have hsaved := (saveOnly_savedGang s u (stoppedTask s k) (stoppedCores s k)).turns
  unfold preempted
  dsimp only
  obtain ⟨c, hc⟩ := leave_eq (gangOf k) u (modTask (savedGang s u (stoppedTask s k) (stoppedCores s k)) u (suspendedTask s k))
  rw [hc]
  dsimp only
  rw [modTask_turns, hsaved]

/-- The task of a pre-empted gang. -/
theorem preempted_task {s : State} {u : Nat} {k : Machine.Task} (hk : tabFind s.tasks u = some k) :
    ∃ k', tabFind (preempted s u k).tasks u = some k' ∧ k'.st = 3 ∧ k'.preempt = false ∧ k'.vcc = (stoppedTask s k).vcc ∧
      k'.saved = (stoppedCores s k).map savedCore := by
  obtain ⟨k0, hk0, -⟩ := (saveOnly_savedGang s u (stoppedTask s k) (stoppedCores s k)).task_some hk
  unfold preempted
  dsimp only
  obtain ⟨c, hc⟩ := leave_eq (gangOf k) u (modTask (savedGang s u (stoppedTask s k) (stoppedCores s k)) u (suspendedTask s k))
  rw [hc]
  refine ⟨suspendedTask s k k0, (tabFind_modTask ..).trans ?_, rfl, rfl, rfl, rfl⟩
  rw [if_pos rfl, hk0, Option.map_some]

/-- Settles O44: a start by what each core of the gang is given; a pre-emption by what it saves of each and leaves. -/
theorem taskStartAndPreemption : Obligations.TaskStartAndPreemption := by
  unfold Obligations.TaskStartAndPreemption
  refine ⟨fun s u k l ld hk hst hended hfree hgang hl hload hwait hparams => ?start, fun s u k hk => ⟨fun hstop => ?stops, fun hstop => ?_⟩⟩
  case start =>
    refine ⟨_, show execTaskStart u s = _ from execTaskStart_starts hk hst hended hfree hgang hl hload hwait, ?_, fun pos hpos => ?_⟩
    · obtain ⟨c, hc⟩ := zipIdx_foldl_eq (gangOf k).zipIdx (fun s i c => startCore s u k l.rcd ld i c)
        (modTask (noteLoads s u k l.rcd) u fun t => { t with segs := ld.segs })
      obtain ⟨a, d, p, hnote⟩ := askOnly_noteLoads s u k l.rcd
      rw [hc]
      refine (modTask_mem ..).trans ?_
      rw [hnote]
    · have hlen : pos < (gangOf k).length := by simpa [gangOf] using hpos
      obtain ⟨s', c', hcore⟩ := getCore_zipIdx_foldl (gangOf_nodup k) (fun s i c => startCore s u k l.rcd ld i c)
        (modTask (noteLoads s u k l.rcd) u fun t => { t with segs := ld.segs }) 0 hlen
      have hplace : (gangOf k)[pos] = 4 * k.hearth + k.first + pos := by
        simp [gangOf]
        omega
      rw [hplace, Nat.zero_add] at hcore
      intro c
      rw [show c = startCore s' u k l.rcd ld pos c' from hcore]
      obtain ⟨hpar, h9, h10, h11, h30, hy9, hx, hy⟩ := startRegs_reads hparams k.idx k.start.toNat pos k.part (keptBanks s' c')
      exact ⟨rfl, rfl, rfl, rfl, rfl, rfl, hpar, h9, h10, h11, h30, hy9, hx, hy, rfl, rfl, rfl, rfl, rfl, rfl, rfl, rfl, rfl⟩
  case stops =>
    refine ⟨_, show execPreemption u s = _ from execPreemption_stops hk hstop, ?_, fun i hi => ?_, ?_⟩
    · exact preempted_turns s u k
    · obtain ⟨s', c', hc⟩ := getCore_leave hi u (modTask (savedGang s u (stoppedTask s k) (stoppedCores s k)) u (suspendedTask s k))
      rw [show getCore (preempted s u k) i = leftCore s' u c' from hc]
      exact ⟨rfl, rfl, rfl⟩
    · obtain ⟨k', hk', hst, hpre, hvcc, hsaved⟩ := preempted_task hk
      have hkeeps := fun i => stoppedCore_keeps k.issued (getCore s i)
      refine ⟨k', hk', hst, hpre, hvcc.trans ?_, ?_, ?_, ?_, fun i hi => ?_, ?_⟩
      · rw [stoppedTask]
        split <;> rfl
      · simp [hsaved, stoppedCores, savedCore, hkeeps]
      · simp [hsaved, stoppedCores, savedCore]
      · simp [hsaved, stoppedCores, savedCore]
      · exact if_pos hi
      · simp [hsaved, stoppedCores, savedCore, hkeeps]
  · show execPreemption u s = _
    simp only [execPreemption, hk, if_pos hstop]

end Sys2Proof.TaskMoves

/-! SUPPORT. Overlay fetches, spills and refills, and lazy claims end (spec/04 R75 to R80, spec/13 R304 and R434): O42. -/

namespace Sys2Proof.Claims

open Sys2Proof Sys2Proof.Machine Sys2Proof.Laws Sys2Proof.Frames Sys2Proof.Posts Sys2Proof.Images Sys2Proof.Bytes

/-! ## Overlay fetches -/

/-- Words that are read twice alike are what either read gave. -/
theorem zip_self_map {α : Type} (l : List α) (p : Nat → Bool) (n : Nat) :
    ((l.zip l).zipIdx n).map (fun x => if p x.2 then x.1.2 else x.1.1) = l := by
  induction l generalizing n with
  | nil => rfl
  | cons a r ih =>
    rw [List.zip_cons_cons, List.zipIdx_cons, List.map_cons, ih]
    exact congrArg (· :: r) (ite_self a)

theorem postFetch_postOnly (s : State) (core : Nat) (e : EngErr) : PostOnly s (postFetch s core e) := by
  unfold postFetch
  split
  · exact postEcc_postOnly ..
  · split
    · exact postWalk_postOnly ..
    · exact .refl s

section
variable {s s1 : State} {core bank : Nat} {f : Fetch} (hf : tabFind (getCore s core).fetch bank = some f)
include hf

theorem execOverlayFetchComplete_waits (h : fetchWaits s core f = true) : execOverlayFetchComplete core bank s = .next s := by
  simp only [execOverlayFetchComplete, hf, h, if_true]

theorem execOverlayFetchComplete_resident {b : List Byte} (hsnap : f.snap = none) (h : fetchWaits s core f = false)
    (hread : fetchBytes s core f.src f.len = (.ok b, s1)) : execOverlayFetchComplete core bank s = .next (modCore s1 core fun c =>
      endFetch { c with imem := putWords c.imem (8192 * bank) (wordsOf f.len b) } bank (.resident f.seg)) := by
  simp only [execOverlayFetchComplete, hf, h, hread, hsnap, Option.getD_none, Bool.false_eq_true, if_false]
  rw [zip_self_map]

theorem execOverlayFetchComplete_failed {cls a : Nat} (h : fetchWaits s core f = false)
    (hread : fetchBytes s core f.src f.len = (.error (cls, a), s1)) : execOverlayFetchComplete core bank s =
      .next (modCore (postFetch s1 core (cls, a)) core fun c => endFetch c bank (.failed f.seg (BitVec.ofNat 8 cls))) := by
  simp only [execOverlayFetchComplete, hf, h, hread, Bool.false_eq_true, if_false]

theorem timeoutFetch_remote (h : fetchRemote s core f = true) :
    timeoutFetch s core bank = modCore s core fun c => endFetch c bank (.failed f.seg 5) := by
  simp only [timeoutFetch, hf, h, if_true]

end

theorem endFetch_bank (c : Core) (bank : Nat) (b : IBank) : tabGet (endFetch c bank b).ibank bank .empty = b ∧
    tabFind (endFetch c bank b).fetch bank = none ∧ (endFetch c bank b).imem = c.imem ∧ (endFetch c bank b).regs = c.regs :=
  ⟨tabGet_tabSet_self .., (tabFind_tabErase ..).trans (if_pos rfl), rfl, rfl⟩

/-! ## First touches where no task is suspended -/

section
variable {s : State} (hno : NoVictims s)
include hno

theorem noVictims_congr {t : State} (h : t.tasks = s.tasks) : NoVictims t := by
  unfold NoVictims
  rw [h]
  exact hno

theorem isSuspended_noVictims (u : Nat) : isSuspended s u = false := by
  unfold isSuspended
  split
  next t ht => exact beq_false_of_ne (hno _ (tabFind_mem ht))
  next => rfl

theorem needsClaim_noVictims (u h b : Nat) : needsClaim s u h b = false := by
  unfold needsClaim
  split
  next o _ => rw [isSuspended_noVictims hno, Bool.and_false]
  next => rfl

theorem claimOf_noVictims (u : Nat) (l : List Placed) : claimOf s u l = none := by
  unfold claimOf
  rw [Option.map_eq_none_iff, List.find?_eq_none]
  intro p _
  rw [needsClaim_noVictims hno, Bool.and_false]
  decide

end

theorem touchOnly_tasks {s t : State} (h : TouchOnly s t) : t.tasks = s.tasks := by
  obtain ⟨h, m, e, a, rfl⟩ := h
  rfl

theorem touchOnly_cores {s t : State} (h : TouchOnly s t) : t.cores = s.cores := by
  obtain ⟨h, m, e, a, rfl⟩ := h
  rfl

theorem touchOnly_touchFor {s : State} (hno : NoVictims s) (w : Who) (l : List Placed) : TouchOnly s (touchFor s w l) := by
  unfold touchFor
  split
  · induction l generalizing s with
    | nil => exact .refl s
    | cons p r ih =>
      have hstep : TouchOnly s (if p.mt = 2 then noteHost s w.hearth w.ctx p.va else s) := by
        split
        · exact touchOnly_noteHost ..
        · exact .refl s
      exact hstep.trans (ih (noVictims_congr hno (touchOnly_tasks hstep)))
  next u _ =>
    induction l generalizing s with
    | nil => exact .refl s
    | cons p r ih =>
      have hstep : TouchOnly s (if ownBlock s u p then
            touchBlock (if needsClaim s u (blockOf p.pa).1 (blockOf p.pa).2 then claimBlock s (blockOf p.pa).1 (blockOf p.pa).2 else s) u
              (blockOf p.pa).1 (blockOf p.pa).2
          else if p.mt = 2 then noteHost s w.hearth w.ctx p.va else s) := by
        rw [needsClaim_noVictims hno, if_neg Bool.false_ne_true]
        split
        · exact touchOnly_touchBlock ..
        · split
          · exact touchOnly_noteHost ..
          · exact .refl s
      exact hstep.trans (ih (noVictims_congr hno (touchOnly_tasks hstep)))

/-! ## Spills and refills -/

section
variable {s : State} {core f u : Nat} {k : Machine.Task} {l : List Placed} (hu : (getCore s core).task = some u) (hk : tabFind s.tasks u = some k)
  (hflight : (getCore s core).flight = []) (hacc : (getCore s core).acc = []) (hno : NoVictims s)
  (hroom : ∀ p ∈ l, linkRoom s (dieOf core) p.mt p.pa = true)
include hu hk hflight hacc hno hroom

/-- The bank of a core with nothing outstanding goes to its place at once. -/
theorem spillPlace_go (write : Bool) (sp : Nat)
    (hplace : placeFor s (whoTask u k (isSup (getCore s core))) { r := !write, w := write } (parts (spillAddr (getCore s core) f sp) 4096) = .ok l)
    (hfoot : write = true → ∀ p ∈ l, footHit s p.mt p.pa p.n = none)
    (hline : write = false → ∀ p ∈ l, p.mt = 2 ∨ lineWrites s (dieOf core) p.pa p.n s.tick = false) :
    spillPlace s core f sp write = .go (whoTask u k (isSup (getCore s core))) l := by
  have htask : taskOf s core = some k := by rw [taskOf, hu, Option.bind_some, hk]
  have hhit : (write && l.any (fun x => !isRemote s x.pa && (footHit s x.mt x.pa x.n).isSome)) = false := by
    cases write with
    | false => rfl
    | true =>
      rw [Bool.true_and, List.any_eq_false]
      intro p hp
      rw [hfoot rfl p hp]
      simp
  have hfree : freeToAccess s (getCore s core) l write = true := by
    rw [freeToAccess, List.all_eq_true]
    intro p _
    rw [hacc]
    rfl
  have hlinks : l.any (fun x => !linkRoom s (dieOf core) x.mt x.pa) = false := by
    rw [List.any_eq_false]
    intro p hp
    rw [hroom p hp]
    decide
  have hlines : (!write && l.any (fun x => x.mt != 2 && lineWrites s (dieOf core) x.pa x.n s.tick)) = false := by
    cases write with
    | true => rfl
    | false =>
      rw [Bool.not_false, Bool.true_and, List.any_eq_false]
      intro p hp
      rcases hline rfl p hp with h | h
      · simp [h]
      · simp [h]
  simp only [spillPlace, hflight, List.any_nil, Bool.false_eq_true, if_false, hu, htask, hplace, hhit, claimOf_noVictims hno, hfree, hlinks, hlines,
    Option.isSome_none, Bool.or_self, Bool.true_eq_false, or_self]

end

theorem noteSent_cores (s0 s1 : State) (core : Nat) (task : Option Nat) (mt pa : Nat) (kind : SentKind) (pos : Nat) :
    (noteSent s0 s1 core task mt pa kind pos).cores = s1.cores := by
  unfold noteSent
  split <;> rfl

theorem noteSent_mem (s0 s1 : State) (core : Nat) (task : Option Nat) (mt pa : Nat) (kind : SentKind) (pos : Nat) :
    (noteSent s0 s1 core task mt pa kind pos).mem = s1.mem ∧ (noteSent s0 s1 core task mt pa kind pos).hostMem = s1.hostMem := by
  unfold noteSent
  split <;> exact ⟨rfl, rfl⟩

/-- A bank with nothing in flight lands nothing. -/
theorem landBank_idle {c : Core} (h : c.flight = []) (key : Nat) : landBank c key = c := by
  cases c
  dsimp only at h
  subst h
  rfl

/-- An access error of the task that holds the core changes LDERR alone of its core. -/
theorem getCore_accessError {s : State} {core u : Nat} (hu : (getCore s core).task = some u) (load : Bool) (cls pa d0 d2 : Nat) :
    ∃ e, getCore (accessError s core (some u) load cls pa d0 d2) core =
      { getCore s core with sys := { (getCore s core).sys with lderr := e } } := by
  let f : Core → Core := fun c => { c with sys := { c.sys with lderr := lderrSet c.sys.lderr load cls } }
  refine ⟨lderrSet (getCore s core).sys.lderr load cls, ?_⟩
  rw [accessError]
  refine ((postAccess_postOnly ..).getCore core).trans ?_
  have hcore : modTaskCore s core (some u) f = modCore s core f := if_pos hu
  have hkeep (b : List Byte) : keepImage (modCore s core f) core u 0x400 b = modCore s core f :=
    keepImage_held (by rw [getCore_modCore_self]; exact hu) ..
  dsimp only
  rw [show modTaskCore s core (some u) (fun c => { c with sys := { c.sys with lderr := lderrSet c.sys.lderr load cls } }) = _ from hcore, hkeep,
    noteAccess]
  split
  · rw [getCore_congr (launchError_cores ..)]
    exact getCore_modCore_self ..
  · exact getCore_modCore_self ..

/-- The core after a spill or refill of a bank. -/
theorem moveSpill_fields (c : Core) (f : Nat) {n : Nat} (hn : n < 65536) (key : Nat) (l : List Placed) :
    (moveSpill c f n key l).hold = .none ∧ spillOf (moveSpill c f n key l) f = n ∧ (moveSpill c f n key l).regs = c.regs := by
  refine ⟨rfl, ?_, rfl⟩
  show (tabGet (tabSet c.sys.spilled f (BitVec.ofNat 16 n)) f 0).toNat = n
  rw [tabGet_tabSet_self, BitVec.toNat_ofNat, Nat.mod_eq_of_lt hn]

/-- What follows the write of a spilled bank: its error, or its record where it went to another device. -/
def spillEnd (s1 : State) (core : Nat) (task : Option Nat) (r : State × Option (Nat × Nat)) (l : List Placed) : State :=
  match r.2, l with
  | some (cls, pa), _ => accessError r.1 core task false cls pa 1 0
  | none, p :: _ => noteSent s1 r.1 core task p.mt p.pa .store 0
  | none, [] => r.1

theorem getCore_spillEnd {s1 : State} {core u : Nat} {r : State × Option (Nat × Nat)} (hu : (getCore r.1 core).task = some u) (l : List Placed) :
    ∃ e, getCore (spillEnd s1 core (some u) r l) core = { getCore r.1 core with sys := { (getCore r.1 core).sys with lderr := e } } := by
  obtain ⟨s2, err⟩ := r
  cases err with
  | some e => exact getCore_accessError hu ..
  | none =>
    cases l with
    | nil => exact ⟨_, rfl⟩
    | cons p l =>
      refine ⟨(getCore s2 core).sys.lderr, ?_⟩
      show getCore (noteSent s1 s2 core (some u) p.mt p.pa .store 0) core = getCore s2 core
      rw [getCore_congr (noteSent_cores ..)]

theorem spillEnd_mem (s1 : State) (core : Nat) (task : Option Nat) (s2 : State) (l : List Placed) :
    (spillEnd s1 core task (s2, none) l).mem = s2.mem ∧ (spillEnd s1 core task (s2, none) l).hostMem = s2.hostMem := by
  cases l with
  | nil => exact ⟨rfl, rfl⟩
  | cons p l => exact noteSent_mem ..

theorem spillBank_go {s : State} {core f : Nat} {w : Who} {l : List Placed} (hgo : spillPlace s core f (spillOf (getCore s core) f) true = .go w l)
    (hfoot : ∀ p ∈ l, footHit s p.mt p.pa p.n = none) :
    let c := getCore s core
    let key := bankAt c f (spillOf c f)
    let s1 := modCore (touchFor s w l) core (fun c => landBank c key)
    spillBank s core f = modCore (spillEnd s1 core c.task (writeParts s1 (dieOf core) (some w.ctx) (bankBytes (getCore s1 core) key) l none) l) core
      fun c => moveSpill { c with enter := c.enter.filter (fun k => k != key) ++ [key] } f (spillOf (getCore s core) f + 1) key l := by
  intro c key s1
  have hfind : l.find? (fun p => (footHit s p.mt p.pa p.n).isSome) = none := by
    rw [List.find?_eq_none]
    intro p hp
    rw [hfoot p hp]
    decide
  unfold spillBank
  dsimp only
  rw [hgo]
  dsimp only
  rw [hfind] <;> rfl

/-- A bank that is spilled. -/
theorem spillBank_stores {s : State} {core f u : Nat} {w : Who} {l : List Placed} (hu : (getCore s core).task = some u)
    (hgo : spillPlace s core f (spillOf (getCore s core) f) true = .go w l) (hfoot : ∀ p ∈ l, footHit s p.mt p.pa p.n = none)
    (hflight : (getCore s core).flight = []) (htouch : (touchFor s w l).cores = s.cores) (hsp : spillOf (getCore s core) f < 65535) :
    let c := getCore s core
    let key := bankAt c f (spillOf c f)
    let s1 := modCore (touchFor s w l) core (fun c => landBank c key)
    let t := spillBank s core f
    (getCore t core).hold = .none ∧ spillOf (getCore t core) f = spillOf c f + 1 ∧ (getCore t core).regs = c.regs ∧
      ∀ s2, writeParts s1 (dieOf core) (some w.ctx) (bankBytes (getCore s1 core) key) l none = (s2, none) → t.mem = s2.mem ∧ t.hostMem = s2.hostMem := by
  intro c key s1 t
  let r := writeParts s1 (dieOf core) (some w.ctx) (bankBytes (getCore s1 core) key) l none
  have hs1 : getCore s1 core = c := by
    rw [getCore_modCore_self, getCore_congr htouch]
    exact landBank_idle hflight key
  have hr : getCore r.1 core = c := (getCore_congr (writeOnly_writeParts ..).cores core).trans hs1
  have ht : t = modCore (spillEnd s1 core c.task r l) core
      fun c => moveSpill { c with enter := c.enter.filter (fun k => k != key) ++ [key] } f (spillOf (getCore s core) f + 1) key l := spillBank_go hgo hfoot
  obtain ⟨e, he⟩ := getCore_spillEnd (s1 := s1) (r := r) (u := u) (by rw [hr]; exact hu) l
  rw [show c.task = some u from hu] at ht
  have hcore : getCore t core = _ := (congrArg (fun t => getCore t core) ht).trans (getCore_modCore_self ..)
  rw [he, hr] at hcore
  rw [hcore]
  obtain ⟨hhold, hspill, hregs⟩ := moveSpill_fields { c with sys := { c.sys with lderr := e }, enter := c.enter.filter (fun k => k != key) ++ [key] }
    f (Nat.succ_lt_succ hsp) key l
  refine ⟨hhold, hspill, hregs, fun s2 h2 => ?_⟩
  rw [ht, show r = (s2, none) from h2]
  exact spillEnd_mem ..

/-! ## Refills -/

/-- Each entry of a run of a table written in turn is its own. -/
theorem tabGet_foldl_range {α : Type} (g : Nat → α) (k r : Nat) (d : α) (v : Tab α) {n : Nat} (hn : r < n) :
    tabGet ((List.range n).foldl (fun v r => tabSet v (k + r) (g r)) v) (k + r) d = g r := by
  induction n with
  | zero => exact absurd hn (Nat.not_lt_zero r)
  | succ n ih =>
    rw [List.range_succ, List.foldl_append, List.foldl_cons, List.foldl_nil]
    by_cases h : r = n
    · rw [h, tabGet_tabSet_self]
    · rw [tabGet_tabSet_ne _ _ _ (by omega), ih (by omega)]

/-- The registers of a bank read from its bytes. -/
theorem tabGet_bankFrom (c : Core) (key : Nat) (b : List Byte) {r : Nat} (hr : r < 32) :
    tabGet (bankFrom c key b).regs.v (key * 32 + r) 0 = BitVec.ofNat 1024 (natOfBytes ((b.drop (128 * r)).take 128)) := by
  unfold bankFrom
  dsimp only
  rw [tabGet_foldl_range _ _ _ _ _ hr]

/-- What a refill reads: the bank's bytes and the state that asked for them, or ones and the error. -/
def refillRead (s1 : State) (core : Nat) (task : Option Nat) (l : List Placed) : List Byte × State :=
  match readParts s1 (dieOf core) l with
  | .ok b => (b, askParts s1 (dieOf core) l)
  | .error (cls, pa) => (List.replicate 4096 0xFF, accessError s1 core task true cls pa 0 0)

theorem cacheOnly_askParts (s : State) (die : Nat) (l : List Placed) : CacheOnly s (askParts s die l) := by
  refine cacheOnly_foldl l id _ (fun s p => ?_) s
  dsimp only [id]
  split
  · exact .refl s
  · exact (cacheOnly_sendRequest s die p.mt p.pa).trans (cacheOnly_shareLine ..)

theorem getCore_refillRead {s1 : State} {core u : Nat} (hu : (getCore s1 core).task = some u) (l : List Placed) :
    ∃ e, getCore (refillRead s1 core (some u) l).2 core = { getCore s1 core with sys := { (getCore s1 core).sys with lderr := e } } := by
  unfold refillRead
  split
  · obtain ⟨d, p, h⟩ := cacheOnly_askParts s1 (dieOf core) l
    dsimp only
    rw [h]
    exact ⟨_, rfl⟩
  · exact getCore_accessError hu ..

theorem refillRead_ok {s1 : State} {core : Nat} {task : Option Nat} {l : List Placed} {b : List Byte} (h : readParts s1 (dieOf core) l = .ok b) :
    (refillRead s1 core task l).1 = b := by rw [refillRead, h]

theorem refillBank_go {s : State} {core f : Nat} {w : Who} {l : List Placed}
    (hgo : spillPlace s core f (spillOf (getCore s core) f - 1) false = .go w l) :
    let c := getCore s core
    let key := bankAt c f (spillOf c f - 1)
    let r := refillRead (modCore (touchFor s w l) core (fun c => landBank c key)) core c.task l
    refillBank s core f = modCore r.2 core fun c => moveSpill { bankFrom c key r.1 with enter := c.enter.filter (fun k => k != key) } f
      (spillOf (getCore s core) f - 1) key [] := by
  intro c key r
  unfold refillBank
  dsimp only
  rw [hgo] <;> rfl

/-- A bank that is refilled. -/
theorem refillBank_loads {s : State} {core f u : Nat} {w : Who} {l : List Placed} (hu : (getCore s core).task = some u)
    (hgo : spillPlace s core f (spillOf (getCore s core) f - 1) false = .go w l)
    (hflight : (getCore s core).flight = []) (htouch : (touchFor s w l).cores = s.cores) :
    let c := getCore s core
    let key := bankAt c f (spillOf c f - 1)
    let s1 := modCore (touchFor s w l) core (fun c => landBank c key)
    let t := refillBank s core f
    (getCore t core).hold = .none ∧ spillOf (getCore t core) f = spillOf c f - 1 ∧
      ∀ b, readParts s1 (dieOf core) l = .ok b → ∀ r, r < 32 →
        tabGet (getCore t core).regs.v (key * 32 + r) 0 = BitVec.ofNat 1024 (natOfBytes ((b.drop (128 * r)).take 128)) := by
  intro c key s1 t
  have hs1 : getCore s1 core = c := by
    rw [getCore_modCore_self, getCore_congr htouch]
    exact landBank_idle hflight key
  have ht : t = modCore (refillRead s1 core c.task l).2 core fun x => moveSpill { bankFrom x key (refillRead s1 core c.task l).1 with
      enter := x.enter.filter (fun k => k != key) } f (spillOf (getCore s core) f - 1) key [] := refillBank_go hgo
  obtain ⟨e, he⟩ := getCore_refillRead (s1 := s1) (u := u) (by rw [hs1]; exact hu) l
  rw [show c.task = some u from hu] at ht
  have hcore : getCore t core = _ := (congrArg (fun t => getCore t core) ht).trans (getCore_modCore_self ..)
  rw [he, hs1] at hcore
  rw [hcore]
  have hsp : spillOf c f - 1 < 65536 := (Nat.sub_le _ _).trans_lt (tabGet c.sys.spilled f 0).isLt
  obtain ⟨hhold, hspill, hregs⟩ := moveSpill_fields { bankFrom { c with sys := { c.sys with lderr := e } } key (refillRead s1 core (some u) l).1 with
    enter := c.enter.filter (fun k => k != key) } f hsp key []
  refine ⟨hhold, hspill, fun b hb r hr => ?_⟩
  rw [hregs, refillRead_ok hb]
  dsimp only
  rw [tabGet_bankFrom _ _ _ hr]

/-! ## What follows a spill -/

/-- The stores that follow a spill are those of the registers that the bundle writes into its banks. -/
theorem mem_spillFollows {c : Core} {id tick : Nat} {b : Blocked} {a : Acc} (ha : a ∈ spillFollows c id tick b) :
    a.kind = .store ∧ a.task = c.task ∧ a.no = c.bundleNo ∧ ∃ x ∈ b.spills, ∃ p ∈ x.2, a.pa = p.pa ∧ a.n = p.n ∧
      (∃ i m v, Land.v i m v ∈ b.lands ∧ i / 32 = x.1 ∧ i % 32 = p.off / 128) ∧
      a.data = ((bankBytes ((b.lands.filter (landInBank x.1)).foldl landCore c) x.1).drop p.off).take p.n := by
  obtain ⟨x, hx, ha⟩ := List.mem_flatMap.1 ha
  obtain ⟨p, hp, rfl⟩ := List.mem_map.1 ha
  obtain ⟨hp, hreg⟩ := List.mem_filter.1 hp
  refine ⟨rfl, rfl, rfl, x, hx, p, hp, rfl, rfl, ?_, rfl⟩
  obtain ⟨land, hland, hslot⟩ := List.mem_filterMap.1 (List.mem_dedup.1 (List.contains_iff_mem.1 hreg))
  obtain ⟨hland, hbank⟩ := List.mem_filter.1 hland
  cases land with
  | v i m v => exact ⟨i, m, v, hland, beq_iff_eq.1 hbank, Option.some.inj hslot⟩
  | _ => cases hslot

/-! ## Lazy claims -/

theorem length_bankBytes (c : Core) (key : Nat) : (bankBytes c key).length = 4096 := by
  simp [bankBytes, List.length_flatMap]

/-- An image that can be written is written where it stands. -/
theorem saveImage_writes {s s2 : State} {o core off : Nat} {k : Machine.Task} {b : List Byte} {l : List Placed} (hk : tabFind s.tasks o = some k)
    (hlen : b.length = 4096)
    (hplace : placeFor s { whoTask o k false with part := 0 } { w := true } (parts ((imageBase s k + off) % 2 ^ 57) 4096) = .ok l)
    (hwrite : writeParts (noteHosts s { whoTask o k false with part := 0 } l) (k.hearth / 24) none b l none = (s2, none)) :
    saveImage s o core off b none = s2 := by
  simp only [saveImage, hk, hlen, hplace, hwrite]

/-- An image without a translation is lost with class 4. -/
theorem saveImage_untranslated {s : State} {o core off a : Nat} {k : Machine.Task} {b : List Byte} (hk : tabFind s.tasks o = some k)
    (hlen : b.length = 4096) (hlost : k.lost = none)
    (hplace : placeFor s { whoTask o k false with part := 0 } { w := true } (parts ((imageBase s k + off) % 2 ^ 57) 4096) = .error a) :
    ∃ k', tabFind (saveImage s o core off b none).tasks o = some k' ∧ k'.lost = some (4, BitVec.ofNat 64 a) := by
  simp only [saveImage, hk, hlen, hplace]
  refine ⟨{ k with lost := some (BitVec.ofNat 8 4, BitVec.ofNat 64 a) }, ?_, rfl⟩
  rw [(postAccess_postOnly ..).tasks, tabFind_modTask, if_pos rfl, hk, Option.map_some, hlost]
  rfl

theorem tabFind_filter {α : Type} (t : Tab α) (p : Nat → Bool) (i : Nat) :
    tabFind (t.filter (fun e => p e.1)) i = if p i then tabFind t i else none := by
  induction t with
  | nil => simp
  | cons e r ih =>
    obtain ⟨k, v⟩ := e
    by_cases hp : p k
    · by_cases hk : k = i
      · subst hk
        simp [hp, tabFind]
      · simp [hp, tabFind, hk, ih]
    · by_cases hk : k = i
      · subst hk
        simp [hp, ih]
      · simp [hp, tabFind, hk, ih]

/-- A cleared bank reads zero. -/
theorem tabGet_clearBank (c : Core) (key : Nat) {r : Nat} (hr : r < 32) : tabGet (clearBank c key).regs.v (32 * key + r) 0 = 0 := by
  show tabGet (c.regs.v.filter (fun e => e.1 / 32 != key)) (32 * key + r) 0 = 0
  rw [tabGet, tabFind_filter c.regs.v (fun i => i / 32 != key), if_neg]
  · rfl
  · simp
    omega

section
variable {s : State} {core key o : Nat} {k : Machine.Task} (ho : tabGet (getCore s core).bankOwner key none = some o)
  (hk : tabFind s.tasks o = some k)
include ho hk

/-- A claimed bank is saved into its owner's image and cleared. -/
theorem claimBank_eq : claimBank s core key = modCore (modTask (saveImage s o core (coreImage k core + 0x10000 + key * 4096)
      (bankBytes (getCore s core) key) (if (getCore s core).fileBad then some (3, none) else none)) o
        fun t => { t with claimedBanks := t.claimedBanks ++ [(core, key)] }) core
      fun c => { clearBank c key with bankOwner := tabSet c.bankOwner key none } := by
  simp only [claimBank, ho, hk]

end

section
variable {s : State} {h b o : Nat} {k : Machine.Task} (ho : blockOwnerOf s h b = some o) (hk : tabFind s.tasks o = some k)
include ho hk

/-- A claimed block is saved into its owner's image, where no error marks it, and zeroed. -/
theorem claimBlock_eq (hecc : eccHits s (scratchOff h (b * 4096)) 4096 = []) : claimBlock s h b = modHearth (modTask (zeroBlock (saveImage s o
      (k.hearth * 4 + k.first) (0x800000 + blockOffset k b) (cellsGet s.mem (scratchOff h (b * 4096)) 4096) none) h b) o
        fun t => { t with claimedBlocks := t.claimedBlocks ++ [b] }) h fun h => { h with blockOwner := tabSet h.blockOwner b none } := by
  simp only [claimBlock, ho, hk, hecc, List.head?_nil, Option.map_none]

/-- Whatever its marks, a claimed block is left to the newcomer and reads zero. -/
theorem claimBlock_leaves : blockOwnerOf (claimBlock s h b) h b = none ∧
    ∀ a, scratchOff h (b * 4096) ≤ a → a < scratchOff h (b * 4096) + 4096 → cellGet (claimBlock s h b).mem a = 0 := by
  simp only [claimBlock, ho, hk]
  refine ⟨?_, fun a hlo hhi => ?_⟩
  · rw [blockOwnerOf, getHearth_modHearth, if_pos rfl]
    exact tabGet_tabSet_self ..
  · rw [modHearth_mem, modTask_mem, cellGet_zeroBlock, if_neg (by omega)]

end

theorem length_cellsGet (m : List Host.Cell) (a n : Nat) : (cellsGet m a n).length = n := by
  induction n generalizing a with
  | zero => rfl
  | succ n ih => rw [cellsGet, List.length_cons, ih]

theorem execLazyClaim_bank {s : State} {core key : Nat} (h : (getCore s core).hold = .claimBank key) :
    execLazyClaim core s = .next (modCore (claimBank s core key) core fun c => { c with hold := .none }) := by
  rw [execLazyClaim, h]

theorem execLazyClaim_block {s : State} {core h b : Nat} (hh : (getCore s core).hold = .claimBlock h b) :
    execLazyClaim core s = .next (modCore (claimBlock s h b) core fun c => { c with hold := .none }) := by
  rw [execLazyClaim, hh]

theorem execSpillRefillComplete_spill {s : State} {core f : Nat} (h : (getCore s core).hold = .spill f) :
    execSpillRefillComplete core s = .next (if spillsUp (getCore s core) f then spillBank s core f else refillBank s core f) := by
  rw [execSpillRefillComplete, h]

/-- Settles O42: a fetch by its outcome, the held SETBANK's bank by its direction, and a claim by its unit. -/
theorem overlaysSpillsAndClaims : Obligations.OverlaysSpillsAndClaims := by
  unfold Obligations.OverlaysSpillsAndClaims
  refine ⟨fun s s1 core bank f hf hcores => ?overlays, fun s core f u k l => ?spills, fun s core => ?claims⟩
  case overlays =>
    refine ⟨fun hsnap hwait => ⟨fun b hread => ⟨_, show execOverlayFetchComplete core bank s = _ from
        execOverlayFetchComplete_resident hf hsnap hwait hread, ?_⟩, fun cls a hread => ⟨_, show execOverlayFetchComplete core bank s = _ from
        execOverlayFetchComplete_failed hf hwait hread, ?_⟩⟩,
      fun hwait => show execOverlayFetchComplete core bank s = _ from execOverlayFetchComplete_waits hf hwait,
      fun hremote => ⟨_, show execRemoteAccessTimeout core (.fetch bank) s = .next (timeoutFetch s core bank) from rfl, ?_⟩⟩
    · rw [getCore_modCore_self, getCore_congr hcores]
      exact endFetch_bank ..
    · rw [getCore_modCore_self, (postFetch_postOnly ..).getCore, getCore_congr hcores]
      obtain ⟨hbank, -, himem, -⟩ := endFetch_bank (getCore s core) bank (.failed f.seg (BitVec.ofNat 8 cls))
      exact ⟨hbank, himem⟩
    · rw [timeoutFetch_remote hf hremote, getCore_modCore_self]
      obtain ⟨hbank, hfetch, himem, -⟩ := endFetch_bank (getCore s core) bank (.failed f.seg 5)
      exact ⟨hbank, hfetch, himem, rfl⟩
  case spills =>
    intro c sp who key s1 hhold hu hk hflight hacc hno hroom
    have htouch : (touchFor s who l).cores = s.cores := touchOnly_cores (touchOnly_touchFor hno who l)
    have hexec : exec (.spillRefillComplete core) s = .next (if spillsUp c f then spillBank s core f else refillBank s core f) :=
      show execSpillRefillComplete core s = _ from execSpillRefillComplete_spill hhold
    refine ⟨fun hup hsp hplace hfoot => ?_, fun hdown hsp hplace hline => ?_, fun id tick b => ⟨fun h => ?_, fun a ha => mem_spillFollows ha⟩⟩
    · have hkey : key = bankAt c f sp := by simp only [key, hup, if_true]
      have hgo := spillPlace_go hu hk hflight hacc hno hroom true sp hplace (fun _ => hfoot) nofun
      obtain ⟨h1, h2, h3, h4⟩ := spillBank_stores hu hgo hfoot hflight htouch hsp
      refine ⟨spillBank s core f, hexec.trans (by rw [hup]; rfl), h1, h2, h3, ?_⟩
      simp only [s1, hkey]
      exact h4
    · have hkey : key = bankAt c f (sp - 1) := by simp only [key, hdown, Bool.false_eq_true, if_false]
      have hgo := spillPlace_go hu hk hflight hacc hno hroom false (sp - 1) hplace nofun (fun _ => hline)
      obtain ⟨h1, h2, h3⟩ := refillBank_loads hu hgo hflight htouch
      refine ⟨refillBank s core f, hexec.trans (by rw [hdown]; rfl), h1, h2, ?_⟩
      simp only [s1, hkey]
      exact h3
    · rw [spillFollows, h, List.flatMap_nil]
  case claims =>
    intro image
    refine ⟨fun key o k hhold ho hk => ⟨_, show execLazyClaim core s = _ from execLazyClaim_bank hhold, ?_⟩,
      fun h b o k hhold ho hk => ?block⟩
    · rw [getCore_modCore_self, claimBank_eq ho hk, getCore_modCore_self]
      refine ⟨rfl, tabGet_tabSet_self .., fun r hr => tabGet_clearBank _ key hr, fun hfile l s2 hplace hwrite => ?_⟩
      have hsave := saveImage_writes (core := core) hk (length_bankBytes (getCore s core) key) hplace hwrite
      refine ⟨?_, ?_⟩
      · rw [modCore_mem, modCore_mem, modTask_mem, hfile, if_neg Bool.false_ne_true, hsave]
      · rw [modCore_hostMem, modCore_hostMem, modTask_hostMem, hfile, if_neg Bool.false_ne_true, hsave]
    case block =>
      intro base
      have hbase : scratchOff h (b * 4096) = base := by
        simp only [scratchOff, apertureBase, base]
        omega
      obtain ⟨howner, hzero⟩ := claimBlock_leaves ho hk
      rw [hbase] at hzero
      refine ⟨_, show execLazyClaim core s = _ from execLazyClaim_block hhold, by rw [getCore_modCore_self], howner, hzero,
        fun hecc l s2 hplace hwrite => ?_, fun a hecc hlost hplace => ?_⟩
      · have hsave := saveImage_writes (core := k.hearth * 4 + k.first) hk (length_cellsGet ..) hplace hwrite
        have heq := claimBlock_eq ho hk (by rw [hbase]; exact hecc)
        rw [hbase, hsave] at heq
        refine ⟨fun a ha => ?_, ?_⟩
        · rw [modCore_mem, heq, modHearth_mem, modTask_mem, cellGet_zeroBlock, hbase, if_pos ha]
        · rw [modCore_hostMem, heq, modHearth_hostMem, modTask_hostMem]
          rfl
      · obtain ⟨k', hk', hlost'⟩ := saveImage_untranslated (core := k.hearth * 4 + k.first) (b := cellsGet s.mem base 4096) hk (length_cellsGet ..)
          hlost hplace
        have heq := claimBlock_eq ho hk (by rw [hbase]; exact hecc)
        rw [hbase] at heq
        refine ⟨{ k' with claimedBlocks := k'.claimedBlocks ++ [b] }, ?_, hlost'⟩
        rw [modCore_tasks, heq, modHearth_tasks, tabFind_modTask, if_pos rfl]
        exact congrArg (Option.map _) hk'

end Sys2Proof.Claims

/-! SUPPORT. Bundles: the masks of legality, what issues and what does not, and the step that runs it: O57, O58, O56. -/

namespace Sys2Proof.Bundles

open Sys2Proof Sys2Proof.Machine Sys2Proof.Laws

/-! ## Masks of words (spec/03 R51) -/

/-- A mask with a bit for each element that satisfies a test, from its low bit on. -/
def maskOf {α : Type} : (Nat → α → Bool) → List α → Nat
  | _, [] => 0
  | p, a :: r => (p 0 a).toNat + 2 * maskOf (fun i => p (i + 1)) r

theorem foldl_zipIdx_eq_maskOf {α : Type} (p : Nat → α → Bool) (l : List α) (k m : Nat) :
    ((l.zipIdx k).filter (fun x => p x.2 x.1)).foldl (fun m x => m + 2 ^ x.2) m = m + 2 ^ k * maskOf (fun i => p (i + k)) l := by
  induction l generalizing k m with
  | nil => rfl
  | cons a r ih =>
    have hshift : maskOf (fun i => p (i + (k + 1))) r = maskOf (fun i => p (i + 1 + k)) r := by
      simp only [Nat.add_right_comm _ 1 k, Nat.add_assoc]
    rw [List.zipIdx_cons, maskOf, Nat.zero_add, List.filter_cons]
    cases hp : p k a
    · rw [if_neg Bool.false_ne_true, ih, hshift]
      simp only [Bool.toNat_false]
      ring
    · rw [if_pos rfl, List.foldl_cons, ih, hshift]
      simp only [Bool.toNat_true]
      ring

theorem markWords_eq_maskOf {α : Type} (l : List α) (p : Nat → α → Bool) : markWords l p = maskOf p l := by
  rw [markWords, foldl_zipIdx_eq_maskOf]
  simp only [Nat.pow_zero, Nat.one_mul, Nat.zero_add, Nat.add_zero]

theorem maskOf_lt {α : Type} (p : Nat → α → Bool) (l : List α) : maskOf p l < 2 ^ l.length := by
  induction l generalizing p with
  | nil => exact Nat.one_pos
  | cons a r ih =>
    have hrest := ih fun i => p (i + 1)
    have hbit := (p 0 a).toNat_lt
    rw [maskOf, List.length_cons, Nat.pow_succ]
    omega

theorem testBit_maskOf {α : Type} (p : Nat → α → Bool) (l : List α) (j : Nat) :
    (maskOf p l).testBit j = (l[j]?).any (p j) := by
  induction l generalizing p j with
  | nil => simp [maskOf]
  | cons a r ih =>
    rw [maskOf, Nat.add_comm]
    cases j with
    | zero => cases hp : p 0 a <;> simp [hp, Nat.testBit_zero]
    | succ j =>
      have hhalf : (2 * maskOf (fun i => p (i + 1)) r + (p 0 a).toNat) / 2 = maskOf (fun i => p (i + 1)) r := by
        have := (p 0 a).toNat_lt
        omega
      rw [Nat.testBit_succ, hhalf, ih, List.getElem?_cons_succ]

/-- A word is marked where one satisfies the test. -/
theorem markWords_ne_zero {α : Type} {l : List α} {p : Nat → α → Bool} {j : Nat} {a : α} (hj : l[j]? = some a) (hp : p j a = true) :
    markWords l p ≠ 0 := by
  have hbit := testBit_maskOf p l j
  rw [hj, Option.any_some, hp, ← markWords_eq_maskOf] at hbit
  intro hzero
  rw [hzero, Nat.zero_testBit] at hbit
  exact Bool.false_ne_true hbit

theorem markWords_eq_zero {α : Type} {l : List α} {p : Nat → α → Bool} (h : ∀ j a, l[j]? = some a → p j a = false) : markWords l p = 0 := by
  refine Nat.eq_of_testBit_eq fun j => ?_
  rw [markWords_eq_maskOf, testBit_maskOf, Nat.zero_testBit]
  cases hj : l[j]? with
  | none => rfl
  | some a => exact h j a hj

theorem markWords_lt {α : Type} (l : List α) (p : Nat → α → Bool) : markWords l p < 2 ^ l.length :=
  markWords_eq_maskOf l p ▸ maskOf_lt p l

theorem testBit_markWords {α : Type} {l : List α} {p : Nat → α → Bool} {j : Nat} {a : α} (hj : l[j]? = some a) (hp : p j a = true) :
    (markWords l p).testBit j = true := by
  rw [markWords_eq_maskOf, testBit_maskOf, hj, Option.any_some, hp]

theorem any_zipIdx {α : Type} {l : List α} {p : α × Nat → Bool} : l.zipIdx.any p = true ↔ ∃ j a, l[j]? = some a ∧ p (a, j) = true := by
  rw [List.any_eq_true]
  constructor
  · rintro ⟨⟨a, j⟩, hmem, hp⟩
    exact ⟨j, a, List.mem_zipIdx_iff_getElem?.1 hmem, hp⟩
  · rintro ⟨j, a, hj, hp⟩
    exact ⟨(a, j), List.mem_zipIdx_iff_getElem?.2 hj, hp⟩

/-- Words share an item where two of them list it. -/
theorem sharedWords_ne_zero {l : List (List (Nat × Nat))} {i j : Nat} {x y : List (Nat × Nat)} {a : Nat × Nat} (hij : i ≠ j)
    (hi : l[i]? = some x) (hj : l[j]? = some y) (hx : a ∈ x) (hy : a ∈ y) : sharedWords l ≠ 0 := by
  refine markWords_ne_zero hi (any_zipIdx.2 ⟨j, y, hj, ?_⟩)
  rw [Bool.and_eq_true, List.any_eq_true]
  exact ⟨bne_iff_ne.2 (Ne.symm hij), a, hx, List.contains_iff_mem.2 hy⟩

theorem sharedWords_eq_zero {l : List (List (Nat × Nat))}
    (h : ∀ (i j : Nat) x y, i < j → l[i]? = some x → l[j]? = some y → ∀ a ∈ x, a ∉ y) : sharedWords l = 0 := by
  refine markWords_eq_zero fun i x hi => Bool.eq_false_iff.2 fun hany => ?_
  obtain ⟨j, y, hj, hboth⟩ := any_zipIdx.1 hany
  rw [Bool.and_eq_true, List.any_eq_true, bne_iff_ne] at hboth
  obtain ⟨hne, a, hx, hy⟩ := hboth
  rcases Nat.lt_or_gt_of_ne hne with hlt | hlt
  · exact h j i y x hlt hj hi a (List.contains_iff_mem.1 hy) hx
  · exact h i j x y hlt hi hj a hx (List.contains_iff_mem.1 hy)

/-! ## The reason bits of an illegal bundle (spec/03 R51, R52) -/

theorem offences_lt {words : List W32} (ended : Bool) (hne : words ≠ []) : ∀ m ∈ offences words ended, m < 2 ^ words.length := by
  have hpos : 0 < 2 ^ words.length := Nat.two_pow_pos _
  have hlen : max 1 words.length = words.length := Nat.max_eq_right (List.length_pos_iff.2 hne)
  have hmark : ∀ {α : Type} (l : List α) (p : Nat → α → Bool), l.length = words.length → markWords l p < 2 ^ words.length :=
    fun l p hl => hl ▸ markWords_lt l p
  intro m hm
  simp only [offences, sharedWords, List.mem_cons, List.not_mem_nil, or_false, hlen] at hm
  rcases hm with rfl | rfl | rfl | rfl | rfl | rfl | rfl | rfl | rfl
  · split <;> omega
  · exact hmark _ _ (List.length_map ..)
  · exact hmark _ _ (List.length_map ..)
  · exact hmark _ _ (List.length_map ..)
  · exact hmark _ _ rfl
  · exact hmark _ _ rfl
  · exact hmark _ _ (by rw [List.length_map, List.length_map, List.length_map])
  · exact hmark _ _ (by rw [List.length_map, List.length_map])
  · split
    · exact hmark _ _ rfl
    · exact hpos

theorem foldl_or_lt {n : Nat} (l : List Nat) (a : Nat) (ha : a < 2 ^ n) (h : ∀ m ∈ l, m < 2 ^ n) :
    l.foldl (fun a m => a ||| m) a < 2 ^ n := by
  induction l generalizing a with
  | nil => exact ha
  | cons m r ih =>
    exact ih _ (Nat.or_lt_two_pow ha (h m (List.mem_cons_self ..))) fun x hx => h x (List.mem_cons_of_mem _ hx)

/-- A bundle with a nonzero mask is illegal: 0x02 where a word's unit is reserved, 0x01 else, with the mask's reason bit. -/
theorem illegal_of_offence {words : List W32} {ended : Bool} {b m : Nat} (hne : words ≠ []) (hlen : words.length ≤ 8)
    (hb : (offences words ended)[b]? = some m) (hm : m ≠ 0) :
    ∃ x, illegal words ended = some (if ((offences words ended)[1]?).getD 0 = 0 then 0x01 else 0x02, x) ∧ x.getLsbD (12 + b) = true := by
  have hb9 : b < 9 := by
    obtain ⟨hlt, -⟩ := List.getElem?_eq_some_iff.1 hb
    exact hlt
  have hnot : (offences words ended).all (fun m => m == 0) = false := by
    refine Bool.eq_false_iff.2 fun hall => hm ?_
    exact eq_of_beq (List.all_eq_true.1 hall m (List.mem_of_getElem? hb))
  refine ⟨_, (if_neg (Bool.eq_false_iff.1 hnot) : illegal words ended = _), ?_⟩
  have hmarks : (offences words ended).foldl (fun a m => a ||| m) 0 < 2 ^ 8 :=
    foldl_or_lt _ 0 (Nat.two_pow_pos _) fun x hx =>
      (offences_lt ended hne x hx).trans_le (Nat.pow_le_pow_right Nat.two_pos hlen)
  have hcount : max 1 words.length ≤ 8 := Nat.max_le.2 ⟨by decide, hlen⟩
  have hreason := testBit_markWords (p := fun _ m => m != 0) hb (bne_iff_ne.2 hm)
  rw [BitVec.getLsbD_ofNat, decide_eq_true (by omega), Bool.true_and, Nat.add_comm, show (4096 : Nat) = 2 ^ 12 from rfl,
    Nat.testBit_two_pow_mul_add _ (by omega), if_neg (by omega), Nat.add_sub_cancel_left]
  exact hreason

theorem illegal_none_of {words : List W32} {ended : Bool} (h : ∀ m ∈ offences words ended, m = 0) : illegal words ended = none := by
  rw [illegal]
  exact if_pos (List.all_eq_true.2 fun m hm => beq_iff_eq.2 (h m hm))

theorem offences_zero_of {words : List W32} {ended : Bool} (h : illegal words ended = none) : ∀ m ∈ offences words ended, m = 0 := by
  rw [illegal] at h
  dsimp only at h
  split at h
  next hall => exact fun m hm => eq_of_beq (List.all_eq_true.1 hall m hm)
  next => cases h

/-! ## What a word decodes to -/

/-- A V operation's width code is one of the three widths (R50). -/
theorem width_of_opV {op : BitVec 6} {o : VOp} {i : Instr} (h : opV op o = some i) (hwf : i.WF) : o.w ≠ 3 := by
  have hunit : unitV o.u o.w = true := by
    unfold opV at h
    split at h <;> cases h <;> simp only [Instr.WF, Instr.wf, fieldsOk, Bool.and_eq_true] at hwf <;> tauto
  rw [unitV, Bool.and_eq_true, bne_iff_ne] at hunit
  exact hunit.2

theorem decodeOp_of_decode {w : W32} {i : Instr} (h : decode w = .ok i) : decodeOp w = .ok i := by
  unfold decode at h
  split at h
  · cases h
  · next hop =>
    split at h
    · cases h
      exact hop
    · cases h

theorem decodeOp_V {w : W32} (h2 : 2 ≤ unitOf w) (h4 : unitOf w ≤ 4) {i : Instr} (h : decodeOp w = .ok i) :
    opV (w.extractLsb' 17 6) (VOp.ofWord w) = some i := by
  have hunit : (w.extractLsb' 27 4).toNat = 2 ∨ (w.extractLsb' 27 4).toNat = 3 ∨ (w.extractLsb' 27 4).toNat = 4 := by
    rw [unitOf] at h2 h4
    omega
  cases hop : opV (w.extractLsb' 17 6) (VOp.ofWord w) with
  | none => rcases hunit with hu | hu | hu <;> simp [decodeOp, hu, hop] at h
  | some j => rcases hunit with hu | hu | hu <;> simpa [decodeOp, hu, hop] using h

theorem badWidth_of_decode {w : W32} {i : Instr} (h : decode w = .ok i) : badWidth w = false := by
  rw [badWidth, Bool.and_eq_false_imp]
  intro hunit
  rw [Bool.and_eq_true, decide_eq_true_eq, decide_eq_true_eq] at hunit
  exact beq_eq_false_iff_ne.2 (width_of_opV (decodeOp_V hunit.1 hunit.2 (decodeOp_of_decode h)) (Encoding.encodeWord_of_decode h).2)

/-- What keeps a word from naming an operation: its unit, or its opcode. -/
theorem decodeOp_error {w : W32} {e : DecodeErr} (h : decodeOp w = .error e) : (12 ≤ unitOf w ∧ e = .reservedUnit) ∨ e = .reservedOpcode := by
  unfold decodeOp at h
  rw [unitOf]
  grind

/-- A reserved unit names nothing. -/
theorem unit_lt_of_decode {w : W32} {i : Instr} (h : decode w = .ok i) : unitOf w < 12 := by
  have hop := decodeOp_of_decode h
  unfold decodeOp at hop
  rw [unitOf]
  grind

/-- A word of a unit that is there decodes, or names no operation, or has a reserved field. -/
theorem decode_error {w : W32} (hunit : unitOf w < 12) (h : ∀ i, decode w ≠ .ok i) :
    decodeOp w = .error .reservedOpcode ∨ decode w = .error .reservedField := by
  cases hop : decodeOp w with
  | error e =>
    rcases decodeOp_error hop with ⟨hge, -⟩ | rfl
    · omega
    · exact .inl rfl
  | ok i =>
    refine .inr ?_
    unfold decode at h ⊢
    simp only [hop] at h ⊢
    split
    next hok => exact absurd (if_pos hok) (h i)
    next => rfl

/-! ## Which bundles are illegal (spec/03 R40, R51) -/

section
variable {words : List W32} {ended : Bool}

theorem illegal_reason {b m : Nat} (hne : words ≠ []) (hlen : words.length ≤ 8) (hb : (offences words ended)[b]? = some m) (hm : m ≠ 0) :
    ∃ c x, illegal words ended = some (c, x) ∧ x.getLsbD (12 + b) = true := by
  obtain ⟨x, hill, hx⟩ := illegal_of_offence hne hlen hb hm
  exact ⟨_, x, hill, hx⟩

/-- Where every unit is there, an illegal bundle raises 0x01. -/
theorem illegal_cause {b m : Nat} (hne : words ≠ []) (hlen : words.length ≤ 8) (hunits : ∀ w ∈ words, unitOf w < 12)
    (hb : (offences words ended)[b]? = some m) (hm : m ≠ 0) : ∃ x, illegal words ended = some (0x01, x) := by
  have hzero : markWords (words.map unitOf) (fun _ u => decide (12 ≤ u)) = 0 := by
    refine markWords_eq_zero fun j u hu => decide_eq_false (Nat.not_le.2 ?_)
    obtain ⟨w, hw, rfl⟩ := List.mem_map.1 (List.mem_of_getElem? hu)
    exact hunits w hw
  obtain ⟨x, hill, -⟩ := illegal_of_offence hne hlen hb hm
  refine ⟨x, hill.trans ?_⟩
  rw [show ((offences words ended)[1]?).getD 0 = 0 from hzero, if_pos rfl]

theorem illegal_reservedUnit (hne : words ≠ []) (hlen : words.length ≤ 8) {w : W32} (hw : w ∈ words) (hunit : 12 ≤ unitOf w) :
    ∃ x, illegal words ended = some (0x02, x) := by
  obtain ⟨j, hj⟩ := List.mem_iff_getElem?.1 hw
  have hmark : markWords (words.map unitOf) (fun _ u => decide (12 ≤ u)) ≠ 0 :=
    markWords_ne_zero (j := j) (a := unitOf w) (by rw [List.getElem?_map, hj, Option.map_some]) (decide_eq_true hunit)
  obtain ⟨x, hill, -⟩ := illegal_of_offence (b := 1) hne hlen rfl hmark
  exact ⟨x, hill.trans (by rw [if_neg (show ¬ ((offences words ended)[1]?).getD 0 = 0 from hmark)])⟩

theorem illegal_undecoded (hne : words ≠ []) (hlen : words.length ≤ 8) (hunits : ∀ w ∈ words, unitOf w < 12) {w : W32} (hw : w ∈ words)
    (hbad : ∀ i, decode w ≠ .ok i) : ∃ x, illegal words ended = some (0x01, x) := by
  obtain ⟨j, hj⟩ := List.mem_iff_getElem?.1 hw
  rcases decode_error (hunits w hw) hbad with h | h
  · exact illegal_cause (b := 4) hne hlen hunits rfl (markWords_ne_zero hj (beq_iff_eq.2 h))
  · exact illegal_cause (b := 5) hne hlen hunits rfl (markWords_ne_zero hj (by rw [h]; rfl))

theorem illegal_unended (hne : words ≠ []) (hlen : words.length ≤ 8) (hunits : ∀ w ∈ words, unitOf w < 12) :
    ∃ x, illegal words false = some (0x01, x) := by
  refine illegal_cause (b := 0) hne hlen hunits rfl ?_
  have : 2 ^ 1 ≤ 2 ^ max 1 words.length := Nat.pow_le_pow_right Nat.two_pos (Nat.le_max_left ..)
  rw [if_neg Bool.false_ne_true]
  omega

theorem illegal_unitTwice (hne : words ≠ []) (hlen : words.length ≤ 8) (hunits : ∀ w ∈ words, unitOf w < 12)
    (hdup : ¬ (words.map unitOf).Nodup) : ∃ x, illegal words ended = some (0x01, x) := by
  obtain ⟨i, j, hij, hj, heq⟩ : ∃ i j, i < j ∧ j < (words.map unitOf).length ∧ (words.map unitOf)[i]? = (words.map unitOf)[j]? := by
    rw [List.nodup_iff_getElem?_ne_getElem?] at hdup
    push Not at hdup
    exact hdup
  refine illegal_cause (b := 2) hne hlen hunits rfl (markWords_ne_zero (List.getElem?_eq_getElem hj) ?_)
  refine any_zipIdx.2 ⟨i, _, heq.trans (List.getElem?_eq_getElem hj), ?_⟩
  rw [Bool.and_eq_true, bne_iff_ne, beq_iff_eq]
  exact ⟨Nat.ne_of_lt hij, rfl⟩

theorem illegal_descends (hne : words ≠ []) (hlen : words.length ≤ 8) {a : Nat} {v w : W32} (hv : words[a]? = some v)
    (hw : words[a + 1]? = some w) (hlt : unitOf w < unitOf v) :
    ∃ c x, illegal words ended = some (c, x) ∧ x.getLsbD (12 + 3) = true := by
  refine illegal_reason (b := 3) hne hlen rfl (markWords_ne_zero (j := a + 1) (a := unitOf w)
    (by rw [List.getElem?_map, hw, Option.map_some]) ?_)
  rw [Bool.and_eq_true, decide_eq_true_eq, Nat.add_sub_cancel, List.getElem?_map, hv]
  exact ⟨rfl, hlt⟩

theorem illegal_width (hne : words ≠ []) (hlen : words.length ≤ 8) {w : W32} (hw : w ∈ words) (h2 : 2 ≤ unitOf w) (h4 : unitOf w ≤ 4)
    (hcode : w.extractLsb' 15 2 = 3) : ∃ c x, illegal words ended = some (c, x) ∧ x.getLsbD (12 + 5) = true := by
  obtain ⟨j, hj⟩ := List.mem_iff_getElem?.1 hw
  refine illegal_reason (b := 5) hne hlen rfl (markWords_ne_zero hj ?_)
  rw [badWidth, decide_eq_true h2, decide_eq_true h4, hcode]
  exact Bool.or_true _

theorem illegal_sameDest (hne : words ≠ []) (hlen : words.length ≤ 8) {a b : Nat} {v w : W32} {i j : Instr} {d : Nat × Nat} (hab : a < b)
    (hv : words[a]? = some v) (hw : words[b]? = some w) (hi : decode v = .ok i) (hj : decode w = .ok j)
    (hdi : d ∈ destsOf i) (hdj : d ∈ destsOf j) (h0 : d ≠ (0, 0)) (h1 : d ≠ (1, 0)) :
    ∃ c x, illegal words ended = some (c, x) ∧ x.getLsbD (12 + 6) = true := by
  have hkeep : (d != (0, 0) && d != (1, 0)) = true := Bool.and_eq_true_iff.2 ⟨bne_iff_ne.2 h0, bne_iff_ne.2 h1⟩
  refine illegal_reason (b := 6) hne hlen rfl (sharedWords_ne_zero (i := a) (j := b) (Nat.ne_of_lt hab)
    (x := (destsOf i).filter fun d => d != (0, 0) && d != (1, 0)) (y := (destsOf j).filter fun d => d != (0, 0) && d != (1, 0)) ?_ ?_
    (List.mem_filter.2 ⟨hdi, hkeep⟩) (List.mem_filter.2 ⟨hdj, hkeep⟩))
  · simp only [List.getElem?_map, hv, Option.map_some, decodeOp_of_decode hi]
  · simp only [List.getElem?_map, hw, Option.map_some, decodeOp_of_decode hj]

theorem illegal_samePort (hne : words ≠ []) (hlen : words.length ≤ 8) {a b : Nat} {v w : W32} {i j : Instr} {d : Nat × Nat} (hab : a < b)
    (hv : words[a]? = some v) (hw : words[b]? = some w) (hi : decode v = .ok i) (hj : decode w = .ok j)
    (hdi : d ∈ portsOf i) (hdj : d ∈ portsOf j) : ∃ c x, illegal words ended = some (c, x) ∧ x.getLsbD (12 + 7) = true := by
  refine illegal_reason (b := 7) hne hlen rfl (sharedWords_ne_zero (i := a) (j := b) (Nat.ne_of_lt hab) (x := portsOf i) (y := portsOf j)
    ?_ ?_ hdi hdj)
  · simp only [List.getElem?_map, hv, Option.map_some, decodeOp_of_decode hi]
  · simp only [List.getElem?_map, hw, Option.map_some, decodeOp_of_decode hj]

theorem illegal_wide (hne : words ≠ []) (hlen : words.length ≤ 8) (hwide : 2048 < (words.map wordWidth).sum) :
    ∃ c x, illegal words ended = some (c, x) ∧ x.getLsbD (12 + 8) = true := by
  refine illegal_reason (b := 8) hne hlen rfl ?_
  rw [if_pos hwide]
  obtain ⟨w, hw, hpos⟩ : ∃ w ∈ words, wordWidth w ≠ 0 := by
    by_contra hnone
    push Not at hnone
    rw [List.sum_eq_zero fun x hx => by
      obtain ⟨w, hw, rfl⟩ := List.mem_map.1 hx
      exact hnone w hw] at hwide
    omega
  obtain ⟨j, hj⟩ := List.mem_iff_getElem?.1 hw
  exact markWords_ne_zero hj (bne_iff_ne.2 hpos)

/-- Decoded words that rise by unit and share neither a destination nor a port, of V words that fit, with a stop bit, make a legal bundle. -/
theorem illegal_none (hdec : ∀ w ∈ words, ∃ i, decode w = .ok i) (hrise : (words.map unitOf).Pairwise (· < ·))
    (hdest : ∀ (a b : Nat) v w i j, a < b → words[a]? = some v → words[b]? = some w → decode v = .ok i → decode w = .ok j →
      ∀ d ∈ destsOf i, d ∈ destsOf j → d = (0, 0) ∨ d = (1, 0))
    (hport : ∀ (a b : Nat) v w i j, a < b → words[a]? = some v → words[b]? = some w → decode v = .ok i → decode w = .ok j →
      ∀ d ∈ portsOf i, d ∉ portsOf j)
    (hwide : (words.map wordWidth).sum ≤ 2048) : illegal words true = none := by
  have hget : ∀ {j w}, words[j]? = some w → ∃ i, decode w = .ok i := fun hj => hdec _ (List.mem_of_getElem? hj)
  have hunit : ∀ {j u}, (words.map unitOf)[j]? = some u → u < 12 := fun {j u} hu => by
    obtain ⟨w, hw, rfl⟩ := List.mem_map.1 (List.mem_of_getElem? hu)
    obtain ⟨i, hi⟩ := hdec w hw
    exact unit_lt_of_decode hi
  have hlt : ∀ {i j u v}, i < j → (words.map unitOf)[i]? = some u → (words.map unitOf)[j]? = some v → u < v := fun {i j u v} hij hu hv => by
    obtain ⟨hi, rfl⟩ := List.getElem?_eq_some_iff.1 hu
    obtain ⟨hj, rfl⟩ := List.getElem?_eq_some_iff.1 hv
    exact List.pairwise_iff_getElem.1 hrise i j hi hj hij
  refine illegal_none_of fun m hm => ?_
  simp only [offences, if_true, List.mem_cons, List.not_mem_nil, or_false] at hm
  rcases hm with rfl | rfl | rfl | rfl | rfl | rfl | rfl | rfl | rfl
  · rfl
  · exact markWords_eq_zero fun j u hu => decide_eq_false (Nat.not_le.2 (hunit hu))
  · refine markWords_eq_zero fun j u hu => Bool.eq_false_iff.2 fun hany => ?_
    obtain ⟨k, v, hv, hboth⟩ := any_zipIdx.1 hany
    rw [Bool.and_eq_true, bne_iff_ne, beq_iff_eq] at hboth
    obtain ⟨hne, heq⟩ := hboth
    rcases Nat.lt_or_gt_of_ne hne with h | h
    · exact absurd heq (Nat.ne_of_lt (hlt h hv hu))
    · exact absurd heq (Nat.ne_of_gt (hlt h hu hv))
  · refine markWords_eq_zero fun j u hu => ?_
    cases j with
    | zero => rfl
    | succ j =>
      obtain ⟨hj, -⟩ := List.getElem?_eq_some_iff.1 hu
      have hprev := List.getElem?_eq_getElem (Nat.lt_of_succ_lt hj)
      rw [Nat.add_sub_cancel, hprev, Option.getD_some, Bool.and_eq_false_imp]
      exact fun _ => decide_eq_false (Nat.not_lt.2 (Nat.le_of_lt (hlt (Nat.lt_succ_self j) hprev hu)))
  · refine markWords_eq_zero fun j w hw => ?_
    obtain ⟨i, hi⟩ := hget hw
    rw [decodeOp_of_decode hi]
    rfl
  · refine markWords_eq_zero fun j w hw => ?_
    obtain ⟨i, hi⟩ := hget hw
    rw [badWidth_of_decode hi, hi]
    rfl
  · refine sharedWords_eq_zero fun a b x y hab hx hy d hdx hdy => ?_
    simp only [List.getElem?_map, Option.map_eq_some_iff] at hx hy
    obtain ⟨_, ⟨_, ⟨v, hv, rfl⟩, rfl⟩, rfl⟩ := hx
    obtain ⟨_, ⟨_, ⟨w, hw, rfl⟩, rfl⟩, rfl⟩ := hy
    obtain ⟨i, hi⟩ := hget hv
    obtain ⟨j, hj⟩ := hget hw
    simp only [decodeOp_of_decode hi, decodeOp_of_decode hj, List.mem_filter, Bool.and_eq_true, bne_iff_ne] at hdx hdy
    rcases hdest a b v w i j hab hv hw hi hj d hdx.1 hdy.1 with h | h
    · exact hdx.2.1 h
    · exact hdx.2.2 h
  · refine sharedWords_eq_zero fun a b x y hab hx hy d hdx hdy => ?_
    simp only [List.getElem?_map, Option.map_eq_some_iff] at hx hy
    obtain ⟨_, ⟨v, hv, rfl⟩, rfl⟩ := hx
    obtain ⟨_, ⟨w, hw, rfl⟩, rfl⟩ := hy
    obtain ⟨i, hi⟩ := hget hv
    obtain ⟨j, hj⟩ := hget hw
    simp only [decodeOp_of_decode hi, decodeOp_of_decode hj] at hdx hdy
    exact hport a b v w i j hab hv hw hi hj d hdx hdy
  · exact if_neg (Nat.not_lt.2 hwide)

/-- Every word of a legal bundle decodes. -/
theorem decode_of_legal (h : illegal words ended = none) {w : W32} (hw : w ∈ words) : ∃ i, decode w = .ok i := by
  by_contra hbad
  push Not at hbad
  obtain ⟨j, hj⟩ := List.mem_iff_getElem?.1 hw
  by_cases hunit : unitOf w < 12
  · rcases decode_error hunit hbad with hop | hdec
    · exact markWords_ne_zero hj (beq_iff_eq.2 hop) (offences_zero_of h _ (List.mem_of_getElem? (i := 4) rfl))
    · exact markWords_ne_zero hj (p := fun _ w => decode w == .error .reservedField || badWidth w) (by rw [hdec]; rfl)
        (offences_zero_of h _ (List.mem_of_getElem? (i := 5) rfl))
  · exact markWords_ne_zero (l := words.map unitOf) (p := fun _ u => decide (12 ≤ u)) (j := j) (a := unitOf w)
      (by rw [List.getElem?_map, hj, Option.map_some]) (decide_eq_true (Nat.not_lt.1 hunit))
      (offences_zero_of h _ (List.mem_of_getElem? (i := 1) rfl))

end

/-! ## The issue of a bundle (spec/03 R41, R53) -/

theorem map_decode_of_legal {words : List W32} (hdec : ∀ w ∈ words, ∃ i, decode w = .ok i) :
    words.map (fun w => (decode w).toOption) = (slotsOf words).map some := by
  induction words with
  | nil => rfl
  | cons w r ih =>
    obtain ⟨i, hi⟩ := hdec w (List.mem_cons_self ..)
    rw [slotsOf, List.map_cons, hi, List.filterMap_cons_some (b := i) (by rw [hi]; rfl), List.map_cons,
      ih fun x hx => hdec x (List.mem_cons_of_mem _ hx)]
    rfl

theorem noLateRow {c : Core} (h : c.handler = true ∨ c.late = []) : (if c.handler then none else c.late.head?) = none := by
  rcases h with h | h
  · rw [if_pos h]
  · rw [h]
    exact ite_self _

/-- A legal bundle of words that stand there runs its slots. -/
theorem issueNow_of_legal {s : State} {core : Nat} (hlate : (getCore s core).handler = true ∨ (getCore s core).late = [])
    (hbank : bankOf (getCore s core) (getCore s core).ctl.pc (frameOf (getCore s core)).1.length = none)
    (hill : illegal (frameOf (getCore s core)).1 (frameOf (getCore s core)).2 = none) :
    issueNow s core = runBundle s core (slotsOf (frameOf (getCore s core)).1) (frameOf (getCore s core)).1.length := by
  simp only [issueNow, noLateRow hlate, hbank, hill]

section
variable {s : State} {core : Nat} {ops : List Instr} {len : Nat}

/-- What the slots of a bundle come to, each on the state of the bundle's issue. -/
def eachOf (v : State) (core : Nat) (ops : List Instr) : List (Mark × State) :=
  ops.map fun i => (markOf (runSlot v i) core, runSlot v i)

theorem issueView_unblocked (hb : (getCore s core).blocked = none) : issueView s core = { s with cur := core } := by rw [issueView, hb]

theorem restoreView_unblocked (hb : (getCore s core).blocked = none) (t : State) : restoreView s t core = t := by
  rw [restoreView, hb] <;> rfl

/-- A bundle of which no slot is kept from committing commits. -/
theorem runBundle_commits (hb : (getCore s core).blocked = none) (hmarks : ∀ i ∈ ops, markOf (runSlot { s with cur := core } i) core = .none)
    {t : State} (hrun : runSlots core (slotOrder ops) { s with cur := core } = (t, true)) :
    ∃ conds, runBundle s core ops len = commitBundle s core (getCore s core).ctl.pc len (getCore s core).ctl.tgt conds t := by
  have hnone : ∀ p : Mark × State → Bool, (∀ t, p (.none, t) = false) → (eachOf { s with cur := core } core ops).find? p = none := by
    intro p hp
    refine List.find?_eq_none.2 fun x hx => ?_
    obtain ⟨i, hi, rfl⟩ := List.mem_map.1 hx
    rw [hmarks i hi, hp]
    exact Bool.false_ne_true
  have hdecide : decidingSlot (eachOf { s with cur := core } core ops) = none := by
    rw [decidingSlot, hnone _ fun _ => rfl, hnone _ fun _ => rfl, hnone _ fun _ => rfl, hnone _ fun _ => rfl]
    rfl
  rw [eachOf] at hdecide
  simp only [runBundle, issueView_unblocked hb, hdecide, hrun]
  exact ⟨_, rfl⟩

/-- The trap of the deciding slot is reported, and leaves nothing of the others. -/
theorem runBundle_traps (hb : (getCore s core).blocked = none) {k : BitVec 8} {t : State}
    (h : decidingSlot (eachOf { s with cur := core } core ops) = some (.trapped k, t)) :
    runBundle s core ops len = settleCore (modCore t core fun k => { k with mark := .none }) core := by
  rw [eachOf] at h
  simp only [runBundle, issueView_unblocked hb, h, restoreView_unblocked hb]

theorem runBundle_held (hb : (getCore s core).blocked = none) {t : State}
    (h : decidingSlot (eachOf { s with cur := core } core ops) = some (.held, t)) :
    runBundle s core ops len = heldBy s t core ops (eachOf { s with cur := core } core ops) := by
  rw [eachOf] at h
  simp only [runBundle, issueView_unblocked hb, h, eachOf]

theorem runBundle_blocks (hb : (getCore s core).blocked = none) {t : State}
    (h : decidingSlot (eachOf { s with cur := core } core ops) = some (.blocked, t)) :
    runBundle s core ops len = blockedBy s t core ops { s with cur := core } (eachOf { s with cur := core } core ops) := by
  rw [eachOf] at h
  simp only [runBundle, issueView_unblocked hb, h, eachOf]

/-- The first slot that meets a test is found. -/
theorem find_eachOf {v : State} {p : Mark × State → Bool} {before after : List Instr} {i : Instr}
    (hbefore : ∀ j ∈ before, p (markOf (runSlot v j) core, runSlot v j) = false) (hi : p (markOf (runSlot v i) core, runSlot v i) = true) :
    (eachOf v core (before ++ i :: after)).find? p = some (markOf (runSlot v i) core, runSlot v i) := by
  rw [eachOf, List.map_append, List.find?_append, List.find?_eq_none.2 ?_, Option.none_or, List.map_cons, List.find?_cons_of_pos hi]
  intro x hx
  obtain ⟨j, hj, rfl⟩ := List.mem_map.1 hx
  rw [hbefore j hj]
  exact Bool.false_ne_true

theorem find_eachOf_none {v : State} {cause : BitVec 8} (h : ∀ j ∈ ops, markOf (runSlot v j) core ≠ .trapped cause) :
    (eachOf v core ops).find? (trappedWith cause) = none := by
  refine List.find?_eq_none.2 fun x hx => ?_
  obtain ⟨j, hj, rfl⟩ := List.mem_map.1 hx
  exact fun htrap => h j hj (eq_of_beq htrap)

theorem trappedWith_false {cause : BitVec 8} {m : Mark} {t : State} (h : m ≠ .trapped cause) : trappedWith cause (m, t) = false :=
  beq_eq_false_iff_ne.2 h

end

/-! ## What does not issue (spec/03 R52; spec/04 R79, R85; spec/06 R124) -/

section
variable {s : State} {core : Nat}

/-- A bundle that meets a bank that is empty or failed traps. -/
theorem issueNow_of_bank {a : Nat} {b : IBank} (hlate : (getCore s core).handler = true ∨ (getCore s core).late = [])
    (hbank : bankOf (getCore s core) (getCore s core).ctl.pc (frameOf (getCore s core)).1.length = some (a, b)) (hb : ∀ g, b ≠ .loading g) :
    issueNow s core = settleCore (modCore (bankTrap s a b) core fun c => { c with mark := .none }) core := by
  cases b with
  | loading g => exact absurd rfl (hb g)
  | image | empty | resident g | failed g k | failedImage k => simp only [issueNow, noLateRow hlate, hbank]

theorem issueNow_of_loading {a : Nat} {g : BitVec 8} (hlate : (getCore s core).handler = true ∨ (getCore s core).late = [])
    (hbank : bankOf (getCore s core) (getCore s core).ctl.pc (frameOf (getCore s core)).1.length = some (a, .loading g)) :
    issueNow s core = modCore s core fun c => { c with hold := .fetch (a / 8192) } := by
  simp only [issueNow, noLateRow hlate, hbank]

/-- A store refused after its bundle traps the next one. -/
theorem issueNow_of_late {row : W64} {tile : Nat} {rest : List (W64 × Nat)} (hh : (getCore s core).handler = false)
    (hlate : (getCore s core).late = (row, tile) :: rest) :
    issueNow s core = settleCore (modCore (takeTrap (modCore s core fun c => { c with late := rest, hitTile := tile }) 0x0A
      (BitVec.ofNat 21 (256 * (frameOf (getCore s core)).1.length)) row 0) core fun c => { c with mark := .none }) core := by
  have hrow : (if (getCore s core).handler then none else (getCore s core).late.head?) = some (row, tile) := by
    rw [hh, hlate]
    rfl
  have htail : (modCore s core fun c => { c with late := c.late.tail, hitTile := tile }) =
      modCore s core fun c => { c with late := rest, hitTile := tile } := by
    simp only [modCore, hlate, List.tail_cons]
  simp only [issueNow, hrow, lateTrap, htail]

theorem noteIssued_getCore (s : State) (core i : Nat) (h : Bool) : getCore (noteIssued s core h) i = getCore s i := by
  unfold noteIssued
  dsimp only
  split
  · split
    · exact getCore_modTask ..
    · rfl
  · rfl

theorem noteIssued_mem (s : State) (core : Nat) (h : Bool) : (noteIssued s core h).mem = s.mem := by
  unfold noteIssued
  dsimp only
  split
  · split
    · exact modTask_mem ..
    · rfl
  · rfl

end

/-- Settles O58, by the order in which an issue looks at the late rows, the banks and the words. -/
theorem bundlesThatDoNotIssue : Obligations.BundlesThatDoNotIssue := by
  unfold Obligations.BundlesThatDoNotIssue
  intro s core hmay c words goes trap upTo
  have hissue := Guards.issueBundle_of_mayIssue hmay
  refine ⟨fun cause x hlate hbank hill => ?_, fun a hlate hbank => ?_, fun a g k hlate hbank => ?_, fun a k hlate hbank => ?_,
    fun a g hlate hbank => ⟨_, rfl, ?_⟩, fun row tile rest hh hlate => ?_⟩
  · rw [hissue, Guards.issueNow_of_illegal (s := { s with cur := core }) hlate hbank hill]
  · rw [hissue, issueNow_of_bank (s := { s with cur := core }) hlate hbank nofun]
    rfl
  · rw [hissue, issueNow_of_bank (s := { s with cur := core }) hlate hbank nofun]
    rfl
  · rw [hissue, issueNow_of_bank (s := { s with cur := core }) hlate hbank nofun]
    rfl
  · rw [hissue, issueNow_of_loading (s := { s with cur := core }) hlate hbank]
    refine ⟨?_, ?_, ?_, ?_, fun k hk => ?_⟩
    · rw [noteIssued_getCore, getCore_modCore_self]
    · rw [noteIssued_getCore, getCore_modCore_self]
      rfl
    · rw [noteIssued_getCore, getCore_modCore_self]
      rfl
    · rw [noteIssued_mem, modCore_mem]
    · rw [noteIssued_getCore, getCore_modCore_ne _ _ hk]
      rfl
  · rw [hissue, issueNow_of_late (s := { s with cur := core }) hh hlate]
    rfl

/-! ## Legality and priority -/

theorem see_emit (s : State) (bound : Nat) (l : List Land) (n : Nat) : let t := emit s bound l
    seeX t (me t) n = seeX s (me s) n ∧ seeY t (me t) n = seeY s (me s) n ∧ seeQ t (me t) n = seeQ s (me s) n ∧ seeK t (me t) n = seeK s (me s) n ∧
    seeV t (me t) n = seeV s (me s) n ∧ seeW t (me t) n = seeW s (me s) n ∧ seeD t (me t) n = seeD s (me s) n ∧ seeP t (me t) n = seeP s (me s) n ∧
    seeG t (me t) n = seeG s (me s) n ∧ seeH t (me t) n = seeH s (me s) n := by
  have hme : me (emit s bound l) = { me s with fresh := (me s).fresh ++ [⟨nowOf s s.cur + bound, .known l⟩] } := me_modMe ..
  intro t
  rw [show me t = _ from hme]
  exact ⟨rfl, rfl, rfl, rfl, rfl, rfl, rfl, rfl, rfl, rfl⟩

/-- Settles O57: the masks of R51 word by word, and the slot that decides. -/
theorem bundleLegality : Obligations.BundleLegality := by
  unfold Obligations.BundleLegality
  refine ⟨fun words ended hne hlen => ?_, see_emit, fun s core hmay => ?_⟩
  · refine ⟨fun ⟨w, hw, hunit⟩ => illegal_reservedUnit hne hlen hw hunit, fun hunits ⟨w, hw, hbad⟩ => illegal_undecoded hne hlen hunits hw hbad,
      fun hunits hend => hend ▸ illegal_unended hne hlen hunits, fun hunits hdup => illegal_unitTwice hne hlen hunits hdup, ?_⟩
    intro reason two sameDest samePort
    refine ⟨fun ⟨a, v, w, hv, hw, hlt⟩ => illegal_descends hne hlen hv hw hlt, fun ⟨w, hw, h2, h4, hcode⟩ => illegal_width hne hlen hw h2 h4 hcode,
      fun ⟨a, b, v, w, i, j, hab, hv, hw, hi, hj, d, hdi, hdj, h0, h1⟩ => illegal_sameDest hne hlen hab hv hw hi hj hdi hdj h0 h1,
      fun ⟨a, b, v, w, i, j, hab, hv, hw, hi, hj, d, hdi, hdj⟩ => illegal_samePort hne hlen hab hv hw hi hj hdi hdj,
      fun hwide => illegal_wide hne hlen hwide, fun hall hend hrise hdest hport hfit => ?_⟩
    subst hend
    refine illegal_none (fun w hw => (hall w hw).2) hrise (fun a b v w i j hab hv hw hi hj d hdi hdj => ?_)
      (fun a b v w i j hab hv hw hi hj d hdi hdj => hport ⟨a, b, v, w, i, j, hab, hv, hw, hi, hj, d, hdi, hdj⟩) hfit
    by_contra hboth
    rw [not_or] at hboth
    exact hdest ⟨a, b, v, w, i, j, hab, hv, hw, hi, hj, d, hdi, hdj, hboth⟩
  · intro c hblock hlate hbank hill n ops slot mark reports
    have hissue : issueBundle s core = noteIssued (runBundle n core ops (frameOf c).1.length) core c.handler :=
      (Guards.issueBundle_of_mayIssue hmay).trans
        (congrArg (fun t => noteIssued t core c.handler) (issueNow_of_legal (s := n) hlate hbank hill))
    have hreport : ∀ {i k}, decidingSlot (eachOf n core ops) = some (.trapped k, slot i) → reports i := fun h =>
      hissue.trans (congrArg (fun t => noteIssued t core c.handler) (runBundle_traps (s := n) hblock h))
    refine ⟨map_decode_of_legal fun w hw => decode_of_legal hill hw, fun t hmarks hrun => ?_, fun before i after hops => ⟨?_, ?_, ?_⟩⟩
    · obtain ⟨conds, hcommit⟩ := runBundle_commits (s := n) (len := (frameOf c).1.length) hblock hmarks hrun
      exact ⟨conds, hissue.trans (congrArg (fun t => noteIssued t core c.handler) hcommit)⟩
    · intro hi hbefore
      refine hreport (i := i) (k := 0x03) ?_
      rw [hops, decidingSlot, find_eachOf (fun j hj => trappedWith_false (hbefore j hj)) (beq_iff_eq.2 hi), Option.some_or]
      exact congrArg (fun m => some (m, slot i)) hi
    · intro hi hbefore hthree
      refine hreport (i := i) (k := 0x09) ?_
      rw [decidingSlot, find_eachOf_none hthree, Option.none_or, hops, find_eachOf (fun j hj => trappedWith_false (hbefore j hj)) (beq_iff_eq.2 hi),
        Option.some_or]
      exact congrArg (fun m => some (m, slot i)) hi
    · intro k hi hnone hbefore
      refine hreport (i := i) (k := k) ?_
      rw [decidingSlot, find_eachOf_none fun j hj => (hnone j hj).1, find_eachOf_none fun j hj => (hnone j hj).2, Option.none_or, Option.none_or, hops,
        find_eachOf (fun j hj => ?_) ?_, Option.some_or]
      · exact congrArg (fun m => some (m, slot i)) hi
      · rw [show markOf (runSlot n i) core = _ from hi]
        rfl
      · rcases hbefore j hj with h | h <;> rw [show markOf (runSlot n j) core = _ from h] <;> rfl

/-! ## The step (log entry 1) -/

section
variable {s : State}

theorem nextMove_of_head {m : Move} (h : s.agenda.head? = some m) : nextMove s = some m := by
  unfold nextMove
  cases ha : s.agenda with
  | nil =>
    rw [ha] at h
    cases h
  | cons x r =>
    rw [ha] at h
    cases h
    rfl

/-- With its rails on a device makes the move at the head of its agenda. -/
theorem step_powered (hpower : s.boot.power = true) {m : Move} (h : s.agenda.head? = some m) :
    step s = noteOut (runMove { s with tick := s.tick + 1, agenda := s.agenda.tail } m) := by
  rw [step, nextMove_of_head h]
  exact if_neg fun hoff => Bool.false_ne_true (hoff.1.symm.trans hpower)

theorem step_unpowered (hpower : s.boot.power = false) {m : Move} (h : s.agenda.head? = some m) (hm : isPower m = false) :
    step s = .fault .poweredOff := by
  rw [step, nextMove_of_head h]
  exact if_pos ⟨hpower, hm⟩

theorem isPower_false {m : Move} (hloss : m ≠ .event (.powerLoss false)) (hon : ∀ v, m ≠ .event (.powerOn v)) : isPower m = false := by
  unfold isPower
  split
  · exact absurd rfl (hon _)
  · exact absurd rfl hloss
  · rfl

variable {core : Nat}

/-- One decoded word is a legal bundle. -/
theorem illegal_single {w : W32} {i : Instr} (h : decode w = .ok i) : illegal [w] true = none := by
  refine illegal_none (fun x hx => ?_) (List.pairwise_singleton ..) (fun a b v w i j hab hv hw => ?_) (fun a b v w i j hab hv hw => ?_) ?_
  · cases List.mem_singleton.1 hx
    exact ⟨i, h⟩
  · obtain ⟨hb, -⟩ := List.getElem?_eq_some_iff.1 hw
    rw [List.length_singleton] at hb
    omega
  · obtain ⟨hb, -⟩ := List.getElem?_eq_some_iff.1 hw
    rw [List.length_singleton] at hb
    omega
  · rw [List.map_singleton, List.sum_singleton, wordWidth]
    split
    next hv =>
      have hcode : (w.extractLsb' 15 2).toNat ≤ 2 := by
        have hne : (w.extractLsb' 15 2).toNat ≠ 3 := fun hthree => hv.2.2 (BitVec.eq_of_toNat_eq hthree)
        have hlt := (w.extractLsb' 15 2).isLt
        omega
      calc 256 * 2 ^ (w.extractLsb' 15 2).toNat ≤ 256 * 2 ^ 2 := Nat.mul_le_mul_left _ (Nat.pow_le_pow_right Nat.two_pos hcode)
        _ ≤ 2048 := by decide
    next => exact Nat.zero_le _

theorem slotsOf_single {w : W32} {i : Instr} (h : decode w = .ok i) : slotsOf [w] = [i] := by
  rw [slotsOf, List.filterMap_cons_some (b := i) (by rw [h]; rfl), List.filterMap_nil]

theorem slotOrder_single (i : Instr) : slotOrder [i] = [i] := by
  cases h : readsFirst i <;> simp [slotOrder, h]

/-- A bundle of one decoded word runs its one slot. -/
theorem issueBundle_single {w : W32} {i : Instr} (hmay : mayIssue s core = true)
    (hlate : (getCore s core).handler = true ∨ (getCore s core).late = []) (hframe : frameOf (getCore s core) = ([w], true))
    (hdec : decode w = .ok i) (hbank : bankOf (getCore s core) (getCore s core).ctl.pc 1 = none) :
    issueBundle s core = noteIssued (runBundle { s with cur := core } core [i] 1) core (getCore s core).handler := by
  rw [Guards.issueBundle_of_mayIssue hmay]
  have hlegal : illegal (frameOf (getCore s core)).1 (frameOf (getCore s core)).2 = none := by
    rw [hframe]
    exact illegal_single hdec
  have hrun := issueNow_of_legal (s := { s with cur := core }) hlate (hframe ▸ hbank) hlegal
  rw [hrun]
  exact congrArg (fun f : List W32 × Bool => noteIssued (runBundle { s with cur := core } core (slotsOf f.1) f.1.length) core (getCore s core).handler)
    hframe |>.trans (by rw [slotsOf_single hdec]; rfl)

theorem eachOf_single {i : Instr} {t : State} (hexec : exec i (modMe s fun c => { c with mark := .none }) = .next t) :
    eachOf s core [i] = [((getCore t core).mark, t)] := by
  have hrun : runSlot s i = t := by
    rw [runSlot, hexec]
  rw [eachOf, List.map_singleton, hrun]
  rfl

theorem runSlots_single {i : Instr} {t : State} (hexec : exec i (modMe s fun c => { c with mark := .none }) = .next t)
    (hmark : (getCore t core).mark = .none) : runSlots core [i] s = (t, true) := by
  have hrun : runSlot s i = t := by
    rw [runSlot, hexec]
  have hm : markOf t core = .none := hmark
  simp only [runSlots, hrun, hm]

/-- A lone slot that traps or is held decides. -/
theorem decidingSlot_single {x : Mark × State} (h : stopsBundle x = true) : decidingSlot [x] = some x := by
  have hor : ∀ p : Mark × State → Bool, ([x].find? p).or (some x) = some x := fun p => by
    cases hp : p x
    · rw [List.find?_cons_of_neg (by rw [hp]; exact Bool.false_ne_true)]
      rfl
    · rw [List.find?_cons_of_pos hp]
      rfl
  rw [decidingSlot, List.find?_cons_of_pos h, Option.some_or, hor, hor]

/-- The next micro-op of a routine that no task's pre-emption keeps. -/
theorem microMove_runs {r : MRun} {i : Instr} {t : State} (hvictim : victimOn s core = none) (hrun : (getCore s core).mu.run = some r)
    (hack : ackOut s core (getCore s core).task isMatrixSent = false) (hsus : (getCore s core).mu.suspended = false) (hupc : r.upc < 4095)
    (hdec : decodeUop (tabGet (getCore s core).mu.store r.upc 0) = some i)
    (hexec : exec i (modCore { s with cur := core } core fun c => { c with mark := .none }) = .next t) :
    microMove s core = settleCore t core := by
  have hstays : staysSuspended { s with cur := core } core = false := by
    rw [staysSuspended]
    exact Bool.and_eq_false_imp.2 fun h => absurd (h.symm.trans hsus) nofun
  have hat : microAt (getCore s core).mu r.upc = some i := by
    rw [microAt, if_neg (by omega), hdec]
    cases i
    case endR o => rfl
    all_goals exact if_neg (by omega)
  have hslot : runSlot { s with cur := core } i = t := by
    rw [runSlot, show exec i (modMe { s with cur := core } fun c => { c with mark := .none }) = .next t from hexec]
  have hrun' : (getCore { s with cur := core } core).mu.run = some r := hrun
  have hack' : ackOut { s with cur := core } core (getCore { s with cur := core } core).task isMatrixSent = false := hack
  have hsus' : (getCore { s with cur := core } core).mu.suspended = false := hsus
  have hat' : microAt (getCore { s with cur := core } core).mu r.upc = some i := hat
  simp only [microMove, hvictim, microStep, hrun', hstays, hack', hsus', hat', hslot, Bool.or_self, Bool.false_eq_true, if_false]

end

theorem homeShown_none {s : State} (h : allShown s = []) : homeShown s = s := by
  rw [homeShown, h]
  rfl

/-- Settles O56: a step is one move, and a move runs what was decoded. -/
theorem stepRunsTheDecodedInstruction : Obligations.StepRunsTheDecodedInstruction := by
  unfold Obligations.StepRunsTheDecodedInstruction
  refine ⟨fun s m hpower hm hloss hon => step_unpowered hpower hm (isPower_false hloss hon), fun s h => homeShown_none h, fun s hpower => ?_⟩
  intro n ends
  refine ⟨fun i hi => step_powered hpower hi, ?_⟩
  intro h
  refine ⟨fun core i w t hhead hmay hblock hlate hframe hdec hbank hexec => ?_,
    fun core i r t hhead howes hvictim hrun hack hsus hupc hdec hexec => ?_⟩
  · have hstep : step s = .next (noteStates (issueBundle n core)) := step_powered hpower hhead
    rw [issueBundle_single hmay hlate hframe hdec hbank] at hstep
    have hone : eachOf { n with cur := core } core [i] = [((getCore t core).mark, t)] := eachOf_single hexec
    have hend : ∀ u, runBundle { n with cur := core } core [i] 1 = u → ends core u := fun u hu => hu ▸ hstep
    have hdecide : ∀ {m}, (getCore t core).mark = m → stopsBundle (m, t) = true →
        decidingSlot (eachOf { n with cur := core } core [i]) = some (m, t) := fun hm hstop => by
      rw [hone, hm, decidingSlot_single hstop]
    refine ⟨fun hm => ?_, fun k hm => ?_, fun hm => ?_, fun hm => ?_⟩
    · obtain ⟨conds, hcommit⟩ := runBundle_commits (s := { n with cur := core }) (ops := [i]) (len := 1) hblock (fun j hj => by
          cases List.mem_singleton.1 hj
          exact (List.cons.inj (congrArg (List.map Prod.fst) hone)).1.trans hm)
        (slotOrder_single i ▸ runSlots_single hexec hm)
      exact ⟨conds, hend _ hcommit⟩
    · exact hend _ (runBundle_traps (s := { n with cur := core }) hblock (hdecide hm rfl))
    · refine hend _ ((runBundle_held (s := { n with cur := core }) hblock (hdecide hm rfl)).trans ?_)
      rw [show eachOf _ core [i] = _ from hone, hm]
    · refine hend _ ((runBundle_blocks (s := { n with cur := core }) (t := t) hblock ?_).trans ?_)
      · rw [show eachOf _ core [i] = _ from hone, hm]
        rfl
      · rw [show eachOf _ core [i] = _ from hone, hm]
  · have hstep : step s = .next (noteStates (engineMove h core fun s => microMove s core)) := step_powered hpower hhead
    rw [hstep, engineMove, howes, if_neg Bool.false_ne_true, microMove_runs hvictim hrun hack hsus hupc hdec hexec]

end Sys2Proof.Bundles

/-! SUPPORT. Starts of the device, heat, and loss of power (spec/17 R391, R392; spec/18 R395, R398): O52. -/

namespace Sys2Proof.Starts

open Sys2Proof Sys2Proof.Machine Sys2Proof.Laws Sys2Proof.Posts

/-! ## Starts -/

/-- A device whose start has begun: everything at its reset value, the dies as the boot ROMs found them. -/
structure Begun (v : StartView) (hostMem : List Host.Cell) (t : State) : Prop where
  phase : t.boot.phase = .starting
  begun : t.boot.begun = true
  tripped : t.boot.tripped = false
  cores : t.cores = []
  tasks : t.tasks = []
  launches : t.launches = []
  queues : t.queues = []
  ctxs : t.ctxs = []
  reports : t.reports = []
  ring : t.ring = {}
  ports : t.ports = []
  hostMem : t.hostMem = hostMem
  roms : ∀ d, d < 4 → ((getDie t d).state = 1 ↔ v.rom.getLsbD d = false)
  lead0 : v.rom.getLsbD 0 = true → t.boot.lead = some 0
  lead1 : v.rom.getLsbD 0 = false → v.rom.getLsbD 1 = true → t.boot.lead = some 1
  noLead : v.rom.getLsbD 0 = false → v.rom.getLsbD 1 = false → t.boot.lead = none

theorem bootState_eq_one (v : StartView) (bad : BitVec 4) (d : Nat) : bootState v bad d = 1 ↔ v.rom.getLsbD d = false := by
  cases hrom : v.rom.getLsbD d <;> cases hbad : bad.getLsbD d <;> simp [bootState, hrom, hbad]

theorem getDie_range {s : State} {st : Nat → BitVec 4} (h : s.dies = [0, 1, 2, 3].map fun d => (d, { state := st d })) {d : Nat} (hd : d < 4) :
    (getDie s d).state = st d := by
  rw [getDie, h]
  interval_cases d <;> rfl

theorem beginStart_begun (s : State) (v : StartView) : Begun v s.hostMem (beginStart s v) where
  phase := rfl
  begun := rfl
  tripped := rfl
  cores := rfl
  tasks := rfl
  launches := rfl
  queues := rfl
  ctxs := rfl
  reports := rfl
  ring := rfl
  ports := rfl
  hostMem := rfl
  roms d hd := by
    rw [getDie_range (st := bootState v (bootView v).2) rfl hd]
    exact bootState_eq_one ..
  lead0 h := by
    show (bootView v).1 = some 0
    simp only [bootView, h, if_true]
  lead1 h0 h1 := by
    show (bootView v).1 = some 1
    simp only [bootView, h0, h1, Bool.false_eq_true, if_false, if_true]
  noLead h0 h1 := by
    show (bootView v).1 = none
    simp only [bootView, h0, h1, Bool.false_eq_true, if_false, if_true]

/-- A failed start counted: what a device shows that waits, or stands in bisque mode. -/
structure Failed (s t : State) (reason : BitVec 8) : Prop where
  reason0 : t.boot.reason0 = reason
  reason1 : t.boot.reason1 = s.boot.reason0
  reason2 : t.boot.reason2 = s.boot.reason1
  count : t.boot.count = if s.boot.count = 3 then 3 else s.boot.count + 1
  cores : t.cores = []
  tasks : t.tasks = []
  hostMem : t.hostMem = s.hostMem
  again : s.boot.count.toNat < 2 → t.boot.phase = .delay
  third : 2 ≤ s.boot.count.toNat → t.boot.phase = .bisque ∧ t.boot.outcome = 2

/-- The third failure in a row is the one that brings the counter to three. -/
theorem count_three (c : BitVec 2) : (if c = 3 then 3 else c + 1) = 3 ↔ 2 ≤ c.toNat := by
  revert c
  decide

theorem failBoot_failed (s : State) (reason : BitVec 8) : Failed s (failBoot s reason) reason := by
  have hthird := count_three s.boot.count
  unfold failBoot
  dsimp only
  split
  next h3 =>
    exact ⟨rfl, rfl, rfl, rfl, rfl, rfl, rfl, fun hlt => absurd (hthird.1 h3) (Nat.not_le.2 hlt), fun _ => ⟨rfl, rfl⟩⟩
  next h3 =>
    exact ⟨rfl, rfl, rfl, rfl, rfl, rfl, rfl, fun _ => rfl, fun hge => absurd (hthird.2 hge) h3⟩

theorem execHostReset_inStart {s : State} (v : StartView) (hphase : s.boot.phase = .starting) (hbegun : s.boot.begun = true)
    (hcount : s.boot.count.toNat < 2) : execHostReset v s = .next (beginStart (failBoot s 7) v) := by
  have hdelay := (failBoot_failed s 7).again hcount
  simp only [execHostReset, hphase, hbegun, hdelay, if_true, reduceCtorEq, if_false]

theorem fenced_eq_false {s : State} {d : Nat} : fenced s d = false ↔ (getDie s d).state = 0 := by
  rw [fenced, bne_eq_false_iff_eq]

/-- Which host ports come up: those that trained, of dies that take part. -/
theorem hostPorts_getLsbD (e : StartEnd) (a b : Bool) (d : Nat) (hd : d < 2) :
    (e.hostPorts &&& BitVec.ofNat 2 (a.toNat + 2 * b.toNat)).getLsbD d = (e.hostPorts.getLsbD d && (if d = 0 then a else b)) := by
  interval_cases d <;> cases a <;> cases b <;> simp

/-- The host ports that come up: those that trained, of dies that take part. -/
def upPorts (s : State) (e : StartEnd) : BitVec 2 :=
  e.hostPorts &&& BitVec.ofNat 2 ((decide ((getDie s 0).state = 0)).toNat + 2 * (decide ((getDie s 1).state = 0)).toNat)

theorem upPorts_getLsbD (s : State) (e : StartEnd) (d : Nat) (hd : d < 2) :
    (upPorts s e).getLsbD d = (e.hostPorts.getLsbD d && !fenced s d) := by
  have hfence : ∀ k, decide ((getDie s k).state = 0) = !fenced s k := fun k => by
    rw [fenced, bne, Bool.not_not]
    rfl
  rw [upPorts, hostPorts_getLsbD e _ _ d hd, hfence, hfence]
  interval_cases d <;> rfl

theorem upPorts_ne_zero {s : State} {e : StartEnd}
    (h : e.hostPorts.getLsbD 0 = true ∧ fenced s 0 = false ∨ e.hostPorts.getLsbD 1 = true ∧ fenced s 1 = false) : upPorts s e ≠ 0 := by
  have hbit : ∀ d, d < 2 → e.hostPorts.getLsbD d = true → fenced s d = false → upPorts s e ≠ 0 := fun d hd hp hf hzero => by
    have hd := upPorts_getLsbD s e d hd
    rw [hzero, hp, hf] at hd
    exact Bool.false_ne_true (BitVec.getLsbD_zero.symm.trans hd)
  rcases h with ⟨hp, hf⟩ | ⟨hp, hf⟩
  · exact hbit 0 (by decide) hp hf
  · exact hbit 1 (by decide) hp hf

/-- The device at the end of a start with an outcome. -/
def started (s : State) (e : StartEnd) : State :=
  { s with
    hostUp := upPorts s e
    cxlCap := [0, 1, 2, 3].map (fun p => (p, Config.cxlCapacity s.tick p))
    ports := ((List.range 18).filter (fun p => fenced s (portDie p))).map (fun p => (p, { state := 0 }))
    boot := { s.boot with phase := .normal, count := 0, absent := e.absent
                          outcome := if [0, 1, 2, 3].all (fun d => !fenced s d) && e.absent == 0 then 0 else 1 } }

/-- A start that ends with an outcome. -/
theorem execStartComplete_ends {s : State} {e : StartEnd} (hphase : s.boot.phase = .starting) (hbegun : s.boot.begun = true)
    (htrip : s.boot.tripped = false) (hlead : s.boot.lead ≠ none) (habsent : e.absent ≠ 0xFF)
    (hport : e.hostPorts.getLsbD 0 = true ∧ fenced s 0 = false ∨ e.hostPorts.getLsbD 1 = true ∧ fenced s 1 = false) :
    ∃ t, execStartComplete e s = .next t ∧ t.boot.phase = .normal ∧ t.boot.count = 0 ∧ t.boot.absent = e.absent ∧
      (t.boot.outcome = 0 ↔ e.absent = 0 ∧ ∀ d, d < 4 → fenced s d = false) ∧
      (∀ d, d < 2 → t.hostUp.getLsbD d = (e.hostPorts.getLsbD d && !fenced s d)) ∧ t.mem = s.mem ∧ t.dies = s.dies := by
  refine ⟨post (started s e) (mkReport 9 0 3 0 0 0 (bootstatOf (started s e)).toNat (diestatOf (started s e)).toNat e.absent.toNat 0),
    congrArg Host.Outcome.next (if_neg ?_), ?_⟩
  · rintro (h | h | h | h | h | h)
    · exact h hphase
    · exact absurd (hbegun.symm.trans h) nofun
    · exact absurd (htrip.symm.trans h) nofun
    · exact hlead h
    · exact upPorts_ne_zero hport h
    · exact habsent h
  · obtain ⟨m, a, g, l, hpost⟩ := post_postOnly (started s e)
      (mkReport 9 0 3 0 0 0 (bootstatOf (started s e)).toNat (diestatOf (started s e)).toNat e.absent.toNat 0)
    rw [hpost]
    refine ⟨rfl, rfl, rfl, ?_, upPorts_getLsbD s e, rfl, rfl⟩
    have hall : ([0, 1, 2, 3].all (fun d => !fenced s d) && e.absent == 0) = true ↔ e.absent = 0 ∧ ∀ d, d < 4 → fenced s d = false := by
      rw [Bool.and_eq_true, beq_iff_eq, and_comm]
      refine and_congr_right fun _ => ?_
      simp only [List.all_cons, List.all_nil, Bool.and_true, Bool.and_eq_true, Bool.not_eq_true']
      exact ⟨fun ⟨h0, h1, h2, h3⟩ d hd => by interval_cases d <;> assumption,
        fun h => ⟨h 0 (by decide), h 1 (by decide), h 2 (by decide), h 3 (by decide)⟩⟩
    rw [← hall]
    dsimp only [started]
    split
    next h => exact ⟨fun _ => h, fun _ => rfl⟩
    next h => exact ⟨fun h10 => absurd h10 (by decide), fun h' => absurd h' h⟩

/-! ## Heat -/

theorem stepClock_hot {d : Die} (h : 100 < d.tj ∨ 90 < d.thbm) : stepClock d = BitVec.ofNat 11 (max 400 (d.clk.toNat - 100)) := by
  rw [stepClock, if_pos h]
  split <;> bv_omega

theorem stepClock_cool {d : Die} (hj : d.tj < 95) (hh : d.thbm < 85) : stepClock d = BitVec.ofNat 11 (min 1600 (d.clk.toNat + 100)) := by
  rw [stepClock, if_neg (by bv_omega), if_pos ⟨hj, hh⟩]
  split <;> bv_omega

theorem stepClock_stays {d : Die} (hhot : ¬ (100 < d.tj ∨ 90 < d.thbm)) (hcool : ¬ (d.tj < 95 ∧ d.thbm < 85)) : stepClock d = d.clk := by
  rw [stepClock, if_neg hhot, if_neg hcool]

theorem readSensors_die (s : State) (d tj thbm : Nat) :
    getDie (readSensors s d tj thbm) d = { getDie s d with tj := BitVec.ofNat 8 tj, thbm := BitVec.ofNat 8 thbm } := by
  rw [readSensors, getDie_modDie, if_pos rfl]

/-- A step of a die's clock changes that die alone. -/
theorem thermalClockStep_steps {s : State} {d tj thbm n : Nat} (hd : d < 4) (htj : tj < 256) (hth : thbm < 256)
    (hclk : stepClock { getDie s d with tj := BitVec.ofNat 8 tj, thbm := BitVec.ofNat 8 thbm } = BitVec.ofNat 11 n) :
    ∃ t, execThermalClockStep d tj thbm s = .next t ∧ (getDie t d).clk = BitVec.ofNat 11 n ∧
      (getDie t d).tj.toNat = tj ∧ (getDie t d).thbm.toNat = thbm ∧ (∀ e, e ≠ d → getDie t e = getDie s e) ∧ t = { s with dies := t.dies } := by
  refine ⟨_, congrArg Host.Outcome.next (if_neg (Nat.not_le.2 hd)), ?_⟩
  rw [getDie_modDie, if_pos rfl, readSensors_die]
  refine ⟨hclk, Nat.mod_eq_of_lt htj, Nat.mod_eq_of_lt hth, fun e he => ?_, rfl⟩
  rw [getDie_modDie, if_neg he, readSensors, getDie_modDie, if_neg he]

/-- Settles O52: every start goes through `beginStart`, every failure through `failBoot`. -/
theorem startsHeatAndPower : Obligations.StartsHeatAndPower := by
  unfold Obligations.StartsHeatAndPower
  refine ⟨fun s v r e => ?starts, fun s d tj thbm hd htj hth => ?heat⟩
  case starts =>
    intro begun starts failed inStart
    have hbegun : ∀ {t}, Begun v s.hostMem t → begun t := fun ⟨h1, h2, h3, h4, h5, h6, h7, h8, h9, h10, h11, h12, h13, h14, h15, h16⟩ =>
      ⟨h1, h2, h3, h4, h5, h6, h7, h8, h9, h10, h11, h12, h13, h14, h15, h16⟩
    have hfailed : ∀ {t reason}, Failed s t reason → failed t reason := fun ⟨h1, h2, h3, h4, h5, h6, h7, h8, h9⟩ =>
      ⟨h1, h2, h3, h4, h5, h6, h7, h8, h9⟩
    refine ⟨fun hphase hnot => ?_, fun hpower hb => ?_, fun hphase => ?_, fun hphase => ?_, fun ⟨hphase, hb⟩ hcount => ?_, fun hphase htrip => ?_,
      fun hphase => ?_, fun hphase hup => ?_, fun ⟨hphase, hb⟩ => ?_, fun ⟨hphase, hb⟩ htrip hlead habsent hport =>
        (execStartComplete_ends hphase hb htrip hlead habsent hport)⟩
    · refine ⟨beginStart { s with boot := { s.boot with power := true } } v, show execPowerOn v s = _ from ?_,
        hbegun (beginStart_begun { s with boot := { s.boot with power := true } } v), rfl⟩
      simp only [execPowerOn, hphase, hnot, Bool.false_eq_true, and_false, reduceCtorEq, if_false, false_and]
    · exact show execPowerOn v s = _ from congrArg Host.Outcome.next (if_pos ⟨hpower, hb⟩)
    · refine ⟨beginStart s v, show execHostReset v s = _ from ?_, hbegun (beginStart_begun ..), rfl⟩
      simp only [execHostReset, hphase]
    · refine show execHostReset v s = _ from ?_
      simp only [execHostReset, hphase]
    · have hfail := failBoot_failed s 7
      refine ⟨beginStart (failBoot s 7) v, show execHostReset v s = _ from execHostReset_inStart v hphase hb hcount, ?_, hfail.reason0, ?_⟩
      · exact hbegun (hfail.hostMem ▸ beginStart_begun (failBoot s 7) v)
      · refine hfail.count.trans (if_neg fun h3 => ?_)
        rw [h3] at hcount
        exact absurd hcount (by decide)
    · exact ⟨beginStart s v, show execRestartDelay v s = _ from congrArg Host.Outcome.next (if_pos ⟨hphase, htrip⟩), hbegun (beginStart_begun ..), rfl⟩
    · exact show execRestartDelay v s = _ from congrArg Host.Outcome.next (if_neg fun h => hphase h.1)
    · refine ⟨_, show execRestart v s = _ from congrArg Host.Outcome.next (if_pos ⟨hphase, hup⟩), hbegun ?_, rfl⟩
      obtain ⟨h1, h2, h3, h4, h5, h6, h7, h8, h9, h10, h11, h12, h13, h14, h15, h16⟩ := beginStart_begun s v
      exact ⟨h1, h2, h3, h4, h5, h6, h7, h8, h9, h10, h11, h12, h13, h14, h15, h16⟩
    · refine ⟨_, show execStartTimeout r s = _ from congrArg Host.Outcome.next (if_pos ⟨hphase, hb⟩), fun hlead => ?_, fun hlead h2 h7 => ?_⟩
      · rw [startReason, if_pos hlead]
        exact hfailed (failBoot_failed ..)
      · rw [startReason, if_neg hlead, if_pos ⟨h2, h7⟩]
        exact hfailed (failBoot_failed ..)
  case heat =>
    intro clk steps
    refine ⟨fun hhot => ?_, fun hj hh => ?_, fun hhot hcool => ?_, fun htrip => ?_, fun hj hh => ?_, fun stby => ?_⟩
    · exact show ∃ t, execThermalClockStep d tj thbm s = _ ∧ _ from thermalClockStep_steps hd htj hth
        (stepClock_hot (by dsimp only; bv_omega))
    · exact show ∃ t, execThermalClockStep d tj thbm s = _ ∧ _ from thermalClockStep_steps hd htj hth
        (stepClock_cool (by dsimp only; bv_omega) (by dsimp only; bv_omega))
    · refine show ∃ t, execThermalClockStep d tj thbm s = _ ∧ _ from thermalClockStep_steps hd htj hth
        ((stepClock_stays (by dsimp only; bv_omega) (by dsimp only; bv_omega)).trans ?_)
      rw [BitVec.ofNat_toNat, BitVec.setWidth_eq]
    · refine ⟨_, show execThermtrip d tj thbm s = _ from congrArg Host.Outcome.next (if_neg ?_), rfl, fun hphase hb => ?_, fun hphase => ?_⟩
      · omega
      · dsimp only
        rw [if_pos ⟨hphase, hb⟩]
        exact (failBoot_failed ..).reason0
      · dsimp only
        rw [if_neg fun h => by rw [hphase] at h; cases h.1]
        exact ⟨rfl, rfl⟩
    · exact show execThermtrip d tj thbm s = _ from congrArg Host.Outcome.next (if_pos (.inr ⟨hj, hh⟩))
    · cases stby with
      | true =>
        refine ⟨_, show execPowerLoss true s = _ from rfl, rfl, rfl, rfl, rfl, rfl, fun _ hphase => ?_, nofun⟩
        have hnot : ¬ (s.boot.phase = .starting ∧ s.boot.begun = true ∧ s.boot.power = true) := fun h => hphase h.1
        simp only [if_neg hnot, if_true]
        refine ⟨rfl, ?_⟩
        by_cases hb : s.boot.phase = .bisque <;> simp [hb]
      | false => exact ⟨_, show execPowerLoss false s = _ from rfl, rfl, rfl, rfl, rfl, rfl, nofun, fun _ => ⟨rfl, rfl⟩⟩

end Sys2Proof.Starts

/-! SUPPORT. Ports that go away, host writes and ATS invalidations (spec/17 R387 to R390; spec/16 R363): O51. -/

namespace Sys2Proof.Removals

open Sys2Proof Sys2Proof.Machine Sys2Proof.Laws Sys2Proof.Frames Sys2Proof.Posts Sys2Proof.WaitEnds

/-! ## What a removal ends -/

/-- Nothing is under way on a core: no access and no runner's operation. -/
def Idle (s : State) : Prop :=
  ∀ i, (getCore s i).acc = [] ∧ (chanOf (getCore s i) 0).run = none ∧ (chanOf (getCore s i) 1).run = none

theorem Idle.congr {s t : State} (h : Idle s) (hcores : t.cores = s.cores) : Idle t := fun i => getCore_congr hcores i ▸ h i

theorem removeAccs_idle {s : State} {core : Nat} (h : (getCore s core).acc = []) (hit : Nat → Acc → Bool) : removeAccs s core hit = s := by
  rw [removeAccs, h]
  rfl

theorem removeRunner_idle {s : State} {core ch : Nat} (h : (chanOf (getCore s core) ch).run = none) (hit : RRun → Bool) :
    removeRunner s core ch hit = s := by
  simp only [removeRunner, h]

theorem endThrough_idle {s : State} (h : Idle s) (hit : State → Nat → Nat → Bool) : endThrough s hit = s := by
  unfold endThrough
  refine List.foldl_fixed' (fun c => ?_) _
  obtain ⟨hacc, h0, h1⟩ := h c
  simp only [removeAccs_idle hacc, List.foldl_cons, List.foldl_nil, removeRunner_idle h0, removeRunner_idle h1]

theorem execCxlContainment_ends {s : State} {p : Nat} (hphase : s.boot.phase = .normal) (hp : p ∉ s.cxlRemoved) :
    execCxlContainment p s = .next (endThrough { s with cxlRemoved := p :: s.cxlRemoved } (fun s mt pa => mt != 2 && inCxl s p pa)) := by
  refine congrArg Host.Outcome.next (if_neg ?_)
  rintro (h | h)
  · exact h hphase
  · exact hp (List.contains_iff_mem.1 h)

/-- A host port gone, with the answers of its host's IOMMU. -/
def hostGone (s : State) (p : Nat) : State :=
  { s with hostUp := s.hostUp &&& ~~~(BitVec.ofNat 2 (2 ^ p)), ats := s.ats.filter (fun e => e.1 != p) }

theorem execHostLinkDown_ends {s : State} {p : Nat} (hphase : s.boot.phase = .normal) (hup : s.hostUp.getLsbD p = true) :
    execHostLinkDown p s = .next (endThrough (hostGone s p) (fun _ mt pa => mt == 2 && pa / 2 ^ 60 == p)) := by
  refine congrArg Host.Outcome.next (if_neg ?_)
  rintro (h | h)
  · exact h hphase
  · exact absurd (hup.symm.trans h) nofun

/-- A port of which no retraining is under way has no lane changes to report. -/
theorem dropLanes_of_none {s : State} {p : Nat} (h : (getPort s p).before = []) :
    dropLanes s p = { s with ports := tabSet s.ports p (getPort s p) } := by
  have hsame : { getPort s p with before := [] } = getPort s p := by
    cases hx : getPort s p
    rw [hx] at h
    subst h
    rfl
  simp only [dropLanes, postLanes, h, List.zip_nil_left, List.foldl_nil, hsame]

theorem modPort_modPort (s : State) (p : Nat) (f g : Port → Port) : modPort (modPort s p f) p g = modPort s p fun x => g (f x) := by
  simp only [modPort, getPort, tabGet_tabSet_self, Updates.tabSet_tabSet]

/-- What is left of a port that goes down with nothing unacknowledged. -/
def downPort (state : BitVec 2) (x : Port) : Port :=
  { x with sent := [], state := state, training := false, replay := [], later := [], resend := [], before := [] }

theorem emptyPort_of_none {s : State} {p : Nat} (h : (getPort s p).sent = []) (state : BitVec 2) :
    emptyPort s p state = modPort s p (downPort state) := by
  rw [emptyPort, loseSent, h]
  exact modPort_modPort ..

theorem removeFabric_idle {s : State} {p lane : Nat} (hbefore : (getPort s p).before = []) (hsent : (getPort s p).sent = []) (hidle : Idle s)
    (before : W64) : removeFabric s p lane before = post (modPort s p (downPort 3))
      (mkReport 5 5 1 (BitVec.ofNat 14 p) 0 0 before.toNat (pstatOf (downPort 3 (getPort s p))).toNat lane 0) := by
  have hport : getPort { s with ports := tabSet s.ports p (getPort s p) } p = getPort s p := tabGet_tabSet_self ..
  have hempty : emptyPort (dropLanes s p) p 3 = modPort s p (downPort 3) := by
    rw [dropLanes_of_none hbefore, emptyPort_of_none (by rw [hport]; exact hsent)]
    exact modPort_modPort s p id (downPort 3)
  have hdown : getPort (modPort s p (downPort 3)) p = downPort 3 (getPort s p) := tabGet_tabSet_self ..
  unfold removeFabric
  dsimp only
  rw [hempty, hdown]
  refine List.foldl_fixed' (fun c => ?_) _
  obtain ⟨hacc, h0, h1⟩ := (hidle.congr (post_postOnly (modPort s p (downPort 3)) _).cores) c
  rw [removeAccs_idle hacc, List.foldl_cons, List.foldl_cons, List.foldl_nil, removeRunner_idle h0, ite_self, removeRunner_idle h1, ite_self]

theorem post_ring_of_sameRing {s t : State} (h : SameRing s t) (r : Report) : (post t r).ring = (post s r).ring := by
  unfold post
  rw [h.takes rfl rfl, h.ring, h.reports]
  dsimp only
  split <;> rfl

theorem getPort_modPort_self (s : State) (p : Nat) (f : Port → Port) : getPort (modPort s p f) p = f (getPort s p) := tabGet_tabSet_self ..

theorem getPort_modPort_ne (s : State) (f : Port → Port) {p n : Nat} (h : n ≠ p) : getPort (modPort s p f) n = getPort s n :=
  (getPort_modPort ..).trans (if_neg h)

/-! ## Writes from outside -/

theorem hostBytes_of_noContext {s : State} (h : s.ctxs = []) (pa : Nat) (b : List Byte) : hostBytes s pa b = b := by
  have hpool : ∀ key, inPoolTable s key = false := fun key => by
    rw [inPoolTable, h]
    rfl
  simp only [hostBytes, hpool, Bool.false_and, Bool.false_eq_true, if_false, List.zipIdx_map_fst]

theorem length_hostBytes (s : State) (pa : Nat) (b : List Byte) : (hostBytes s pa b).length = b.length := by
  rw [hostBytes, List.length_map, List.length_zipIdx]

/-- `t` differs from `s` in the queues at most. -/
def QueuesOnly (s t : State) : Prop := ∃ q, t = { s with queues := q }

theorem QueuesOnly.trans {s t u : State} (h : QueuesOnly s t) (k : QueuesOnly t u) : QueuesOnly s u := by
  obtain ⟨q, rfl⟩ := h
  obtain ⟨q', rfl⟩ := k
  exact ⟨q', rfl⟩

theorem queuesOnly_foldl {α : Type} (l : List α) (f : State → α → State) (hf : ∀ s a, QueuesOnly s (f s a)) (s : State) :
    QueuesOnly s (l.foldl f s) := by
  induction l generalizing s with
  | nil => exact ⟨s.queues, rfl⟩
  | cons a r ih => exact (hf s a).trans (ih _)

theorem queuesOnly_keepOld (s : State) (key : Nat) : QueuesOnly s (keepOld s key) := by
  refine queuesOnly_foldl _ _ (fun s q => ?_) s
  dsimp only
  split
  · exact ⟨s.queues, rfl⟩
  · exact ⟨_, rfl⟩

/-- The queues play no part in a write. -/
theorem writePa_queues {s w : State} {die mt pa : Nat} {b : List Byte} (q : Tab Queue) (hw : writePa s die mt pa b = .ok w) :
    ∃ w', writePa { s with queues := q } die mt pa b = .ok w' := by
  have hhost : hostClass { s with queues := q } = hostClass s := rfl
  have haddr : addrClass { s with queues := q } = addrClass s := rfl
  have hhits : eccHits { s with queues := q } = eccHits s := rfl
  have hkey : memKey { s with queues := q } = memKey s := rfl
  unfold Machine.writePa at hw ⊢
  rw [hhost, haddr, hhits, hkey]
  split at hw
  next hmt =>
    rw [if_pos hmt]
    split at hw
    · cases hw
    next hclass => exact ⟨_, if_neg hclass⟩
  next hmt =>
    rw [if_neg hmt]
    dsimp only at hw ⊢
    split at hw
    · cases hw
    next hclass =>
      rw [if_neg hclass]
      split at hw
      · cases hw
      next hpart => exact ⟨_, if_neg hpart⟩

theorem outsideWrite_hit {s : State} {die mt pa i : Nat} {b : List Byte} (h : footHit s mt pa b.length = some i) :
    outsideWrite s die 0 mt pa b = post s (mkReport 0 13 2 (BitVec.ofNat 14 die) 0 (pa + i) 1 0 0 0) := by
  simp only [outsideWrite, h]

theorem outsideWrite_ok {s w : State} {die mt pa : Nat} {b : List Byte} (h : footHit s mt pa b.length = none) (hw : writePa s die mt pa b = .ok w) :
    outsideWrite s die 0 mt pa b = w := by
  simp only [outsideWrite, h, hw]

theorem outsideWrite_error {s : State} {die mt pa f : Nat} {b : List Byte} (h : footHit s mt pa b.length = none)
    (hw : writePa s die mt pa b = .error f) :
    outsideWrite s die 0 mt pa b = post (if f = 3 then postRange s die 0 pa b.length else s) (mkReport 0 f 2 (BitVec.ofNat 14 die) 0 pa 1 0 0 0) := by
  simp only [outsideWrite, h, hw]

theorem postRange_postOnly (s : State) (die ctx pa n : Nat) : PostOnly s (postRange s die ctx pa n) := by
  rw [postRange]
  generalize eccHits s (memKey s pa) n = l
  generalize memKey s pa = k
  induction l generalizing s with
  | nil => exact .refl s
  | cons b r ih => exact (postEcc_postOnly ..).trans (ih _)

/-- What a host write finds: the old bytes of graphs that are on their way are kept. -/
def keptFor (s : State) (pa n : Nat) : State :=
  if s.queues.all (fun q => q.2.graphs.isEmpty && q.2.doors.isEmpty) then s
  else (List.range n).foldl (fun s i => keepOld s (memKey s (pa + i))) s

theorem execHostWrites_keptFor {s : State} (hbar : barOpen s = true) (addr : Nat) (bytes : List Byte) :
    execHostWritesToDeviceMemory addr bytes s = .next (outsideWrite (keptFor s (localPa s addr) bytes.length) ((hostPort s).getD 0) 0 0
      (localPa s addr) (hostBytes s (localPa s addr) bytes)) := by
  simp only [execHostWritesToDeviceMemory, onBar, hbar, if_true, keptFor]

theorem queuesOnly_keptFor (s : State) (pa n : Nat) : QueuesOnly s (keptFor s pa n) := by
  unfold keptFor
  split
  · exact ⟨s.queues, rfl⟩
  · exact queuesOnly_foldl _ _ (fun s i => queuesOnly_keepOld s _) s

theorem keptFor_noGraphs {s : State} (h : ∀ q ∈ s.queues, q.2.graphs = [] ∧ q.2.doors = []) (pa n : Nat) : keptFor s pa n = s := by
  refine if_pos (List.all_eq_true.2 fun q hq => ?_)
  obtain ⟨hg, hd⟩ := h q hq
  rw [hg, hd]
  rfl

theorem execHostWrites_open {s : State} (hbar : barOpen s = true) (addr : Nat) (bytes : List Byte) :
    ∃ kept, QueuesOnly s kept ∧ ((∀ q ∈ s.queues, q.2.graphs = [] ∧ q.2.doors = []) → kept = s) ∧
      execHostWritesToDeviceMemory addr bytes s =
        .next (outsideWrite kept ((hostPort s).getD 0) 0 0 (localPa s addr) (hostBytes s (localPa s addr) bytes)) :=
  ⟨_, queuesOnly_keptFor .., fun h => keptFor_noGraphs h .., execHostWrites_keptFor hbar addr bytes⟩

theorem outsideWrite_refused {s : State} {die mt pa f : Nat} {b : List Byte} (h : footHit s mt pa b.length = none)
    (hw : writePa s die mt pa b = .error f) : PostOnly s (outsideWrite s die 0 mt pa b) := by
  rw [outsideWrite_error h hw]
  refine PostOnly.trans ?_ (post_postOnly ..)
  split
  · exact postRange_postOnly ..
  · exact .refl s

/-! ## ATS invalidations -/

theorem mem_removed {s : State} {port page : Nat} {e : Nat × Nat × Nat} :
    e ∈ s.ats.filter (fun e => !(e.1 == port && e.2.1 % 2 ^ 52 == page)) ↔ e ∈ s.ats ∧ ¬ (e.1 = port ∧ e.2.1 % 2 ^ 52 = page) := by
  rw [List.mem_filter, Bool.not_eq_true', Bool.and_eq_false_imp, beq_iff_eq, beq_eq_false_iff_ne, not_and]

theorem execAtsInvalidate_unused {s : State} {port page : Nat} (h : ∀ c ∈ s.cores, ∀ a ∈ c.2.acc, a.mt ≠ 2) :
    execAtsInvalidateRequest port page s = .next { s with ats := s.ats.filter (fun e => !(e.1 == port && e.2.1 % 2 ^ 52 == page)) } := by
  have hnot : ∀ p, hostPageInUse s port p = false := fun p => by
    refine List.any_eq_false.2 fun c hc => ?_
    rw [Bool.not_eq_true, List.any_eq_false]
    intro a ha
    rw [Bool.and_eq_true, Bool.and_eq_true]
    exact fun hall => h c hc a ha (eq_of_beq hall.1.1)
  refine congrArg Host.Outcome.next (if_neg fun hany => ?_)
  obtain ⟨e, -, he⟩ := List.any_eq_true.1 hany
  rw [hnot] at he
  cases he

theorem execAtsInvalidate_waits {s : State} {port page i : Nat} {e : Nat × Nat × Nat} {a : Core} {b : Acc} (he : e ∈ s.ats) (hport : e.1 = port)
    (hpage : e.2.1 % 2 ^ 52 = page) (ha : (i, a) ∈ s.cores) (hb : b ∈ a.acc) (hmt : b.mt = 2) (hn : b.n ≠ 0)
    (hpa : b.pa / 4096 = hostPa port (e.2.2 / 4 * 4096) / 4096) : execAtsInvalidateRequest port page s = .next s := by
  refine congrArg Host.Outcome.next (if_pos ?_)
  refine List.any_eq_true.2 ⟨e, List.mem_filter.2 ⟨he, ?_⟩, List.any_eq_true.2 ⟨(i, a), ha, List.any_eq_true.2 ⟨b, hb, ?_⟩⟩⟩
  · rw [hport, hpage, beq_self_eq_true, beq_self_eq_true]
    rfl
  · rw [hmt, hpa, bne_iff_ne.2 hn, beq_self_eq_true, beq_self_eq_true]
    rfl

/-- The bit of a host port taken away. -/
theorem hostUp_without (u : BitVec 2) {p n : Nat} (hp : p < 2) (hn : n < 2) :
    (u &&& ~~~(BitVec.ofNat 2 (2 ^ p))).getLsbD n = (u.getLsbD n && !decide (n = p)) := by
  interval_cases p <;> interval_cases n <;> simp

/-- Settles O51: with nothing outstanding a removal's loops leave the state; a host write is one write from outside. -/
theorem removalsAndHostTraffic : Obligations.RemovalsAndHostTraffic := by
  unfold Obligations.RemovalsAndHostTraffic
  refine ⟨fun s p hphase => ?removals, fun s addr port page bytes => ?traffic⟩
  case removals =>
    intro idle
    refine ⟨fun hstate hbefore hsent => ⟨removeFabric s p 0 (pstatOf (getPort s p)), show execPartnerTimeout p s = _ from
        congrArg Host.Outcome.next (if_pos ⟨hphase, hstate⟩), fun hidle => ?_⟩, fun hstate => show execPartnerTimeout p s = _ from
        congrArg Host.Outcome.next (if_neg ?_), fun hp => ⟨_, show execCxlContainment p s = _ from execCxlContainment_ends hphase hp, fun hidle =>
        endThrough_idle (s := { s with cxlRemoved := p :: s.cxlRemoved }) (Idle.congr (s := s) hidle rfl) _⟩,
      fun hp => show execCxlContainment p s = _ from congrArg Host.Outcome.next (if_pos (.inr (List.contains_iff_mem.2 hp))),
      fun hup hp => ⟨_, show execHostLinkDown p s = _ from execHostLinkDown_ends hphase hup, fun hidle => ?_⟩,
      fun hup => show execHostLinkDown p s = _ from congrArg Host.Outcome.next (if_pos (.inr hup))⟩
    · rw [removeFabric_idle hbefore hsent hidle]
      obtain hpost := post_postOnly (modPort s p (downPort 3)) (mkReport 5 5 1 (BitVec.ofNat 14 p) 0 0 (pstatOf (getPort s p)).toNat
        (pstatOf (downPort 3 (getPort s p))).toNat 0 0)
      have hget : ∀ n, getPort (post (modPort s p (downPort 3)) (mkReport 5 5 1 (BitVec.ofNat 14 p) 0 0 (pstatOf (getPort s p)).toNat
          (pstatOf (downPort 3 (getPort s p))).toNat 0 0)) n = getPort (modPort s p (downPort 3)) n := fun n => by rw [getPort, hpost.ports]; rfl
      have hself := (hget p).trans (getPort_modPort_self ..)
      refine ⟨?_, ?_, fun n hn => (hget n).trans (getPort_modPort_ne _ _ hn), hpost.cores, hpost.tasks, hpost.mem, ?_⟩
      · rw [hself]
        rfl
      · rw [hself]
        rfl
      · rw [hself]
        exact post_ring_of_sameRing (s := s) (t := modPort s p (downPort 3)) ⟨rfl, rfl, rfl, rfl, rfl⟩ _
    · rintro ⟨-, h | h⟩ <;> rcases hstate with h' | h' <;> rw [h'] at h <;> exact absurd h (by decide)
    · rw [endThrough_idle (s := hostGone s p) (Idle.congr (s := s) hidle rfl)]
      refine ⟨?_, fun n hn hne => ?_, fun e he => bne_iff_ne.1 (List.mem_filter.1 he).2, rfl, rfl, rfl, rfl⟩
      · rw [hostGone, hostUp_without _ hp hp, decide_eq_true rfl, Bool.not_true, Bool.and_false]
      · rw [hostGone, hostUp_without _ hp hn, decide_eq_false hne, Bool.not_false, Bool.and_true]
  case traffic =>
    intro pa
    refine ⟨fun hbar => show execHostWritesToDeviceMemory addr bytes s = _ from congrArg Host.Outcome.next (if_neg (by rw [hbar]; exact nofun)), ?_⟩
    intro noGraphs die
    refine ⟨fun hctx => hostBytes_of_noContext hctx pa bytes, fun w hbar hfoot hw => ?_, fun f hbar hfoot hw => ?_, fun i hbar hfoot => ?_,
      fun hunused => ⟨_, show execAtsInvalidateRequest port page s = _ from execAtsInvalidate_unused hunused, rfl, fun e => mem_removed⟩,
      fun e i a he hport hpage ha ⟨b, hb, hmt, hn, hpa⟩ => show execAtsInvalidateRequest port page s = _ from
        execAtsInvalidate_waits he hport hpage ha hb hmt hn hpa⟩
    · obtain ⟨kept, ⟨q, hq⟩, hsame, hexec⟩ := execHostWrites_open hbar addr bytes
      obtain ⟨w', hw'⟩ := writePa_queues q hw
      rw [← hq] at hw'
      have hfoot' : footHit kept 0 pa (hostBytes s pa bytes).length = none := by
        rw [length_hostBytes, hq]
        exact hfoot
      refine ⟨w', show execHostWritesToDeviceMemory addr bytes s = _ from hexec.trans (congrArg _ (outsideWrite_ok hfoot' hw')), ?_, fun hnone => ?_⟩
      · rw [((writePa_mem hw').1 nofun).1, ((writePa_mem hw).1 nofun).1, hq]
        rfl
      · rw [hsame hnone] at hw'
        exact Except.ok.inj (hw'.symm.trans hw)
    · obtain ⟨kept, ⟨q, hq⟩, hsame, hexec⟩ := execHostWrites_open hbar addr bytes
      have hfoot' : footHit kept 0 pa (hostBytes s pa bytes).length = none := by
        rw [length_hostBytes, hq]
        exact hfoot
      obtain ⟨f', hw'⟩ : ∃ f', writePa kept die 0 pa (hostBytes s pa bytes) = .error f' := by
        cases hw' : writePa kept die 0 pa (hostBytes s pa bytes) with
        | error f' => exact ⟨f', rfl⟩
        | ok w' =>
          obtain ⟨w, hback⟩ := writePa_queues s.queues hw'
          rw [hq] at hback
          exact absurd (hback.symm.trans hw) nofun
      have hpost := outsideWrite_refused hfoot' hw'
      refine ⟨_, show execHostWritesToDeviceMemory addr bytes s = _ from hexec, ?_, ?_, fun hnone hf => ?_⟩
      · rw [hpost.mem, hq]
      · rw [hpost.cores, hq]
      · rw [hsame hnone]
        refine (outsideWrite_error ?_ hw).trans (by rw [if_neg hf])
        rw [length_hostBytes]
        exact hfoot
    · obtain ⟨kept, ⟨q, hq⟩, hsame, hexec⟩ := execHostWrites_open hbar addr bytes
      have hfoot' : footHit kept 0 pa (hostBytes s pa bytes).length = some i := by
        rw [length_hostBytes, hq]
        exact hfoot
      rw [outsideWrite_hit hfoot'] at hexec
      refine ⟨_, show execHostWritesToDeviceMemory addr bytes s = _ from hexec, ?_, ?_, fun hnone => ?_⟩
      · rw [(post_postOnly ..).mem, hq]
      · rw [(post_postOnly ..).cores, hq]
      · rw [hsame hnone]

end Sys2Proof.Removals

/-! SUPPORT. The fabric link layer, its lanes and its training (spec/17 R382 to R386, R389): O50. -/

namespace Sys2Proof.Fabric

open Sys2Proof Sys2Proof.Machine Sys2Proof.Laws Sys2Proof.Frames Sys2Proof.Posts Sys2Proof.WaitEnds Sys2Proof.Removals

/-! ## What the sending of packets leaves of a port -/

/-- What a port has received and acknowledged stays. -/
def LinkKept (s t : State) : Prop :=
  ∀ n, (getPort t n).recvLast = (getPort s n).recvLast ∧ (getPort t n).unacked = (getPort s n).unacked ∧
    (getPort t n).acksSent = (getPort s n).acksSent

theorem LinkKept.refl (s : State) : LinkKept s s := fun _ => ⟨rfl, rfl, rfl⟩

theorem LinkKept.trans {s t u : State} (h : LinkKept s t) (k : LinkKept t u) : LinkKept s u := fun n =>
  ⟨(k n).1.trans (h n).1, (k n).2.1.trans (h n).2.1, (k n).2.2.trans (h n).2.2⟩

theorem LinkKept.of_ports {s t : State} (h : t.ports = s.ports) : LinkKept s t := fun n => by
  rw [getPort, getPort, h]
  exact ⟨rfl, rfl, rfl⟩

theorem linkKept_foldl {α : Type} (l : List α) (f : State → α → State) (hf : ∀ s a, LinkKept s (f s a)) (s : State) : LinkKept s (l.foldl f s) := by
  induction l generalizing s with
  | nil => exact .refl s
  | cons a r ih => exact (hf s a).trans (ih _)

/-- Packets let in from those that wait touch the replay buffer and the next number alone. -/
theorem admitLater_eq (n : Nat) (x : Port) : ∃ l k r, admitLater n x = { x with later := l, sendNext := k, replay := r } := by
  induction n generalizing x with
  | zero => exact ⟨_, _, _, rfl⟩
  | succ n ih =>
    rw [admitLater]
    split
    · exact ⟨_, _, _, rfl⟩
    · split
      · obtain ⟨l, k, r, h⟩ := ih { x with later := _, sendNext := x.sendNext + 1, replay := _ }
        exact ⟨l, k, r, h⟩
      · exact ⟨_, _, _, rfl⟩

theorem linkKept_packetOut (s : State) (d pa : Nat) (w : List (Nat × Byte)) : LinkKept s (packetOut s d pa w) := by
  unfold packetOut
  dsimp only
  split
  · exact .refl s
  next p _ =>
    obtain ⟨l, k, r, h⟩ := admitLater_eq 1 { getPort s p with later := (getPort s p).later ++ [{ seq := 0, crcOk := true, writes := w }] }
    rw [h]
    intro n
    have hget := tabGet_tabSet s.ports p n { getPort s p with later := l, sendNext := k, replay := r } {}
    simp only [getPort] at hget ⊢
    rw [hget]
    split
    next hn => exact hn ▸ ⟨rfl, rfl, rfl⟩
    next => exact ⟨rfl, rfl, rfl⟩

theorem takeLine_ports (s : State) (die mt pa : Nat) : (takeLine s die mt pa).ports = s.ports := by
  unfold takeLine
  split
  · rfl
  · dsimp only
    split <;> split <;> rfl

theorem linkKept_writePa {s t : State} {die mt pa : Nat} {b : List Byte} (hw : writePa s die mt pa b = .ok t) : LinkKept s t := by
  unfold Machine.writePa at hw
  split at hw
  · split at hw
    · cases hw
    · cases hw
      exact .of_ports rfl
  · dsimp only at hw
    split at hw
    · cases hw
    · split at hw
      · cases hw
      · cases hw
        split
        · exact fun n => linkKept_packetOut { s with
            mem := cellsSet s.mem (memKey s pa) b
            eccBad := s.eccBad.filter (fun e => !(eccHits s (memKey s pa) b.length).contains e) } die pa _ n
        · exact (LinkKept.of_ports (s := s) rfl).trans (.of_ports (takeLine_ports ..))

theorem linkKept_outsideWrite (s : State) (die ctx mt pa : Nat) (b : List Byte) : LinkKept s (outsideWrite s die ctx mt pa b) := by
  unfold outsideWrite
  dsimp only
  split
  · exact .of_ports (post_postOnly ..).ports
  · split
    next hw => exact linkKept_writePa hw
    next =>
      refine .of_ports (((post_postOnly ..).ports).trans ?_)
      split
      · exact (postRange_postOnly ..).ports
      · rfl

theorem packetNote_keeps (s : State) (die : Nat) (ctx : Option Nat) (a : Nat) :
    (packetNote s die ctx a).ports = s.ports ∧ (packetNote s die ctx a).mem = s.mem := by
  unfold packetNote
  split
  · exact ⟨rfl, rfl⟩
  · split
    · exact ⟨rfl, rfl⟩
    · rename_i c _
      obtain ⟨l, h⟩ := noteHost_eq (postWalk s 2 (BitVec.ofNat 14 die) c a) (24 * die) c a
      have hpost := postWalk_postOnly s 2 (BitVec.ofNat 14 die) c a
      rw [h]
      exact ⟨hpost.ports, hpost.mem⟩

theorem linkKept_packetWrites (s : State) (die : Nat) (k : Packet) : LinkKept s (packetWrites s die k) := by
  refine linkKept_foldl _ _ (fun s w => linkKept_foldl _ _ (fun s p => ?_) s) s
  dsimp only
  have hnote := LinkKept.of_ports (packetNote_keeps s die k.ctx p.1).1
  split
  · exact hnote.trans (linkKept_outsideWrite _ _ _ _ _ _)
  · exact hnote

/-! ## Which writes of a packet perform (spec/17 R383; spec/16 R362) -/

/-- A packet without writes changes nothing. -/
theorem packetWrites_none {s : State} {die : Nat} {k : Packet} (h : k.writes = []) : packetWrites s die k = s := by
  rw [packetWrites, h]
  rfl

/-- A packet of a context that is not live or lets nothing in changes nothing. -/
theorem packetWrites_closed {s : State} {die c : Nat} {k : Packet} (hctx : k.ctx = some c)
    (h : (getCtx s c).live = false ∨ (tabGet (getCtx s c).desc 8 0).getLsbD 1 = false) : packetWrites s die k = s := by
  have hshut : (!(getCtx s c).live || !(tabGet (getCtx s c).desc 8 0).getLsbD 1) = true := by
    rcases h with h | h <;> rw [h]
    · rfl
    · exact Bool.or_true _
  have hpart : ∀ (w : Nat × List Byte) (p : Nat × Nat × Nat), (let s1 := packetNote s die k.ctx p.1
      match packetPlace s die k.ctx p.1 with
      | some (pa, mt) => outsideWrite s1 die (k.ctx.getD 0) mt pa ((w.2.drop p.2.1).take p.2.2)
      | none => s1) = s := fun w p => by
    simp only [hctx, packetNote, packetPlace, hshut, Bool.true_or, if_true]
  exact List.foldl_fixed' (fun w => List.foldl_fixed' (hpart w) _) _

theorem paOff_mod (a : Nat) : paOff (a % 2 ^ 57) = paOff a := by
  simp only [paOff]
  omega

theorem parts_one (a : Nat) : parts a 1 = [(a % 2 ^ 57, 0, 1)] := by
  generalize hx : a % 2 ^ 57 = x
  have hlen : min 1 (32 - x % 32) = 1 := by omega
  simp only [parts, cut, Nat.add_zero, hx, hlen, Nat.sub_self, Nat.one_ne_zero, if_true, if_false]

theorem writeRuns_one (a : Nat) (b : Byte) : writeRuns [(a, b)] = [(a, [b])] := rfl

theorem packetNote_none (s : State) (die a : Nat) : packetNote s die none a = s := rfl

theorem packetPlace_none (s : State) (die a : Nat) : packetPlace s die none a = some (localPa s (paOff a), 0) := rfl

/-- A packet of one byte that runs in no context is one write of its byte. -/
theorem packetWrites_byte {s : State} {die a : Nat} {b : Byte} {k : Packet} (hw : k.writes = [(a, b)]) (hctx : k.ctx = none) :
    packetWrites s die k = outsideWrite s die 0 0 (localPa s (paOff a)) [b] := by
  rw [packetWrites, hw, writeRuns_one, List.foldl_cons, List.foldl_nil, List.length_singleton, parts_one, List.foldl_cons, List.foldl_nil, hctx]
  rw [packetNote_none, packetPlace_none, paOff_mod]
  rfl

theorem reaches_modPort {s : State} {p : Nat} {f : Port → Port} (hf : (f (getPort s p)).state = (getPort s p).state) :
    reaches (modPort s p f) = reaches s := by
  funext d dev
  have hstate : ∀ n, (getPort (modPort s p f) n).state = (getPort s n).state := fun n => by
    by_cases hn : n = p
    · rw [hn, getPort_modPort_self, hf]
    · rw [getPort_modPort_ne _ _ hn]
  simp only [reaches, hstate]
  rfl

theorem addrClass_modPort {s : State} {p : Nat} {f : Port → Port} (hf : (f (getPort s p)).state = (getPort s p).state) :
    addrClass (modPort s p f) = addrClass s := by
  funext die pa
  simp only [addrClass, reaches_modPort hf]
  rfl

theorem footHit_modPort {s : State} {p : Nat} {f : Port → Port} (hf : (f (getPort s p)).state = (getPort s p).state) :
    footHit (modPort s p f) = footHit s := by
  funext mt pa n
  simp only [footHit, reaches_modPort hf]
  rfl

/-- The write of one byte that its home takes. -/
theorem outsideWrite_byte {s : State} {die pa : Nat} {b : Byte} (hwf : Memory.wf s.mem = true) (hclass : addrClass s die pa = 0)
    (hecc : eccHits s (memKey s pa) 1 = []) (hfoot : footHit s 0 pa 1 = none) :
    cellGet (outsideWrite s die 0 0 pa [b]).mem (memKey s pa) = b ∧
      ∀ j, j ≠ memKey s pa → cellGet (outsideWrite s die 0 0 pa [b]).mem j = cellGet s.mem j := by
  obtain ⟨w, hw⟩ : ∃ w, writePa s die 0 pa [b] = .ok w := by
    unfold Machine.writePa
    rw [if_neg nofun]
    dsimp only
    rw [if_neg (not_not_intro hclass), List.length_singleton, hecc, List.any_nil, if_neg Bool.false_ne_true]
    exact ⟨_, rfl⟩
  rw [outsideWrite_ok hfoot hw, ((writePa_mem hw).1 nofun).1]
  refine ⟨?_, fun j hj => ?_⟩
  · rw [AccessOrder.cellGet_cellsSet hwf, if_pos (by simp), Nat.sub_self]
    rfl
  · rw [AccessOrder.cellGet_cellsSet hwf, if_neg (by rw [List.length_singleton]; omega)]

/-! ## Packets received (spec/17 R382) -/

section
variable {s : State} {p : Nat}

theorem execFabricPacketReceive_bad {k : Packet} (htakes : portTakes s p = true) (hcrc : k.crcOk = false) :
    execFabricPacketReceive p k s = .next (modPort s p fun x => sendNak { x with crcerr := satInc x.crcerr }) := by
  simp only [execFabricPacketReceive, htakes, hcrc, Bool.true_eq_false, if_false, if_true]

theorem execFabricPacketReceive_next {k : Packet} (htakes : portTakes s p = true) (hcrc : k.crcOk = true) (hseq : k.seq = (getPort s p).recvLast + 1) :
    execFabricPacketReceive p k s = .next (packetWrites (modPort s p fun x => acceptPacket x k.seq) (portDie p) k) := by
  simp only [execFabricPacketReceive, htakes, hcrc, Bool.true_eq_false, if_false, if_pos hseq]

theorem execFabricPacketReceive_again {k : Packet} (htakes : portTakes s p = true) (hcrc : k.crcOk = true)
    (hseq : ((getPort s p).recvLast - k.seq).toNat < 32768) : execFabricPacketReceive p k s = .next s := by
  have hnext : k.seq ≠ (getPort s p).recvLast + 1 := by
    intro h
    rw [h] at hseq
    bv_omega
  simp only [execFabricPacketReceive, htakes, hcrc, Bool.true_eq_false, if_false, if_neg hnext, seqLe, decide_eq_true hseq, if_true]

theorem execFabricPacketReceive_gap {k : Packet} (htakes : portTakes s p = true) (hcrc : k.crcOk = true) (hnext : k.seq ≠ (getPort s p).recvLast + 1)
    (hseq : 32768 ≤ ((getPort s p).recvLast - k.seq).toNat) : execFabricPacketReceive p k s = .next (modPort s p sendNak) := by
  simp only [execFabricPacketReceive, htakes, hcrc, Bool.true_eq_false, if_false, if_neg hnext, seqLe, decide_eq_false (Nat.not_lt.2 hseq),
    Bool.false_eq_true]

theorem acceptPacket_state (x : Port) (seq : BitVec 16) : (acceptPacket x seq).state = x.state := by
  rw [acceptPacket]
  split <;> rfl

/-! ## Packets acknowledged -/

theorem admitLater_sent (n : Nat) (x : Port) : (admitLater n x).sent = x.sent ∧ (admitLater n x).resend = x.resend ∧ (admitLater n x).replays = x.replays := by
  obtain ⟨l, k, r, h⟩ := admitLater_eq n x
  rw [h]
  exact ⟨rfl, rfl, rfl⟩

/-- The packets that an acknowledgement leaves. -/
theorem not_seqLe (seq : BitVec 16) (k : BitVec 16) : (!seqLe k seq) = decide (32768 ≤ (seq - k).toNat) := by
  rw [seqLe, ← decide_not]
  exact decide_eq_decide.2 Nat.not_lt

theorem freePackets_sent (x : Port) (seq : BitVec 16) : (freePackets x seq).sent = x.sent.filter (fun k => decide (32768 ≤ (seq - k.seq).toNat)) ∧
    (freePackets x seq).resend = x.resend.filter (fun k => decide (32768 ≤ (seq - k.seq).toNat)) ∧ (freePackets x seq).replays = x.replays := by
  simp only [freePackets, not_seqLe]
  exact admitLater_sent ..

theorem freePackets_replay {x : Port} (h : x.later = []) (seq : BitVec 16) :
    (freePackets x seq).replay = x.replay.filter (fun k => decide (32768 ≤ (seq - k.seq).toNat)) := by
  simp only [freePackets, not_seqLe, h, List.length_nil, admitLater]

/-- A packet that waited for room takes the next number. -/
theorem freePackets_admits {x : Port} {j : Packet} (h : x.later = [j]) (seq : BitVec 16)
    (hroom : (x.replay.filter (fun k => decide (32768 ≤ (seq - k.seq).toNat))).length < 512) :
    (freePackets x seq).replay = x.replay.filter (fun k => decide (32768 ≤ (seq - k.seq).toNat)) ++ [{ j with seq := x.sendNext }] ∧
      (freePackets x seq).sendNext = x.sendNext + 1 ∧ (freePackets x seq).later = [] := by
  simp only [freePackets, not_seqLe, h, List.length_singleton, admitLater, hroom, if_true, and_self]

theorem ackWrite_plain {x : Sent} (h : x.kind = .store ∨ x.kind = .row) : ackWrite s x = s := by
  rcases h with h | h <;> simp only [ackWrite, h]

/-- An acknowledgement of stores and rows frees the packets and does nothing else. -/
theorem ackPackets_plain (seq : BitVec 16) (h : ∀ j ∈ (getPort s p).sent, j.kind = .store ∨ j.kind = .row) :
    ackPackets s p seq = modPort s p fun x => freePackets x seq := by
  rw [ackPackets]
  generalize (modPort s p fun x => freePackets x seq) = t
  have hall : ∀ j ∈ (getPort s p).sent.filter (fun k => seqLe k.seq seq), j.kind = .store ∨ j.kind = .row := fun j hj =>
    h j (List.mem_of_mem_filter hj)
  revert hall
  generalize (getPort s p).sent.filter (fun k => seqLe k.seq seq) = l
  intro hall
  induction l with
  | nil => rfl
  | cons j r ih =>
    rw [List.foldl_cons, ackWrite_plain (hall j (List.mem_cons_self ..)), ih fun x hx => hall x (List.mem_cons_of_mem _ hx)]

/-- The write pointer of a runner comes up to the bytes that have performed. -/
theorem settleCount_none {core ch : Nat} {r : RRun} (hrun : (chanOf (getCore s core) ch).run = some r) (htask : (getCore s core).task = some r.e.task)
    (hle : r.counted ≤ r.done) (hun : unackedOf s core ch = []) : (settleCount s core ch).ports = s.ports ∧ (settleCount s core ch).mem = s.mem ∧
      (chanOf (getCore (settleCount s core ch) core) ch).count = (chanOf (getCore s core) ch).count + BitVec.ofNat 48 (r.done - r.counted) := by
  simp only [settleCount, hrun, hun, List.foldl_nil]
  by_cases hdone : r.done ≤ r.counted
  · rw [if_pos hdone, show r.done - r.counted = 0 by omega]
    exact ⟨rfl, rfl, (BitVec.add_zero _).symm⟩
  · rw [if_neg hdone, modCount_held (by rw [modChan, getCore_modCore_self]; exact htask), modChan]
    refine ⟨rfl, rfl, ?_⟩
    rw [getCore_modCore_self, getCore_modCore_self, chanOf, tabGet_tabSet_self, chanOf, tabGet_tabSet_self]

theorem ackPackets_runner {j : Sent} {ch : Nat} {r : RRun} {seq : BitVec 16} (hsent : (getPort s p).sent = [j]) (hkind : j.kind = .runner ch)
    (hseq : (seq - j.seq).toNat < 32768) (hrun : (chanOf (getCore s j.core) ch).run = some r) (htask : (getCore s j.core).task = some r.e.task)
    (hle : r.counted ≤ r.done) (hun : unackedOf (modPort s p fun x => freePackets x seq) j.core ch = []) :
    (getPort (ackPackets s p seq) p).sent = [] ∧ (ackPackets s p seq).mem = s.mem ∧
      (chanOf (getCore (ackPackets s p seq) j.core) ch).count = (chanOf (getCore s j.core) ch).count + BitVec.ofNat 48 (r.done - r.counted) := by
  have hle' : seqLe j.seq seq = true := decide_eq_true hseq
  have hack : ackPackets s p seq = settleCount (modPort s p fun x => freePackets x seq) j.core ch := by
    rw [ackPackets, hsent, List.filter_cons_of_pos (p := fun k : Sent => seqLe k.seq seq) hle', List.filter_nil, List.foldl_cons, List.foldl_nil]
    simp only [ackWrite, hkind]
  obtain ⟨hports, hmem, hcount⟩ := settleCount_none (s := modPort s p fun x => freePackets x seq) hrun htask hle hun
  rw [hack]
  refine ⟨?_, hmem, hcount⟩
  rw [getPort, hports]
  refine (congrArg Port.sent (getPort_modPort_self s p _)).trans ?_
  rw [(freePackets_sent ..).1, hsent, List.filter_cons_of_neg, List.filter_nil]
  rw [decide_eq_false (Nat.not_le.2 hseq)]
  exact Bool.false_ne_true

end

/-! ## Lanes (spec/17 R384) -/

theorem laneMask_getLsbD (l : List Nat) (m : BitVec 17) {n : Nat} (hn : n < 17) :
    (l.foldl (fun m n => m ||| BitVec.ofNat 17 (2 ^ n)) m).getLsbD n = (m.getLsbD n || l.contains n) := by
  induction l generalizing m with
  | nil => simp
  | cons a r ih =>
    rw [List.foldl_cons, ih, BitVec.getLsbD_or, BitVec.getLsbD_ofNat, decide_eq_true hn, Bool.true_and, Nat.testBit_two_pow, List.contains_cons,
      Bool.or_assoc]
    congr 2
    rw [Bool.beq_eq_decide_eq]
    exact decide_eq_decide.2 eq_comm

theorem getLsbD_laneMask (l : List Nat) {n : Nat} (hn : n < 17) : (laneMask l).getLsbD n = l.contains n := by
  rw [laneMask, laneMask_getLsbD l 0 hn, show BitVec.getLsbD (0 : BitVec 17) n = false from BitVec.getLsbD_zero, Bool.false_or]

theorem chooseLanes_wide {x : Port} (hw : x.w8 = false) (h : 16 ≤ (healthyLanes x.unfit).length) :
    chooseLanes x = { x with lanes := laneMask ((healthyLanes x.unfit).take 16) } := if_pos ⟨hw, h⟩

theorem chooseLanes_narrow {x : Port} (h : x.w8 = true ∨ (healthyLanes x.unfit).length < 16) :
    chooseLanes x = { x with w8 := true, lanes := laneMask ((healthyLanes x.unfit).take 8) } := by
  refine if_neg fun hwide => ?_
  rcases h with h | h
  · exact absurd (h.symm.trans hwide.1) nofun
  · exact absurd hwide.2 (Nat.not_le.2 h)

/-- The choice of lanes keeps the rest of a port. -/
theorem chooseLanes_keeps (x : Port) : (chooseLanes x).state = x.state ∧ (chooseLanes x).training = x.training ∧ (chooseLanes x).failed = x.failed ∧
    (x.w8 = true → (chooseLanes x).w8 = true) ∧ (chooseLanes x).unfit = x.unfit ∧ (chooseLanes x).sendNext = x.sendNext ∧
    (chooseLanes x).replay = x.replay ∧ (chooseLanes x).replays = x.replays ∧ (chooseLanes x).crcerr = x.crcerr := by
  rw [chooseLanes]
  split
  · exact ⟨rfl, rfl, rfl, fun hw => hw, rfl, rfl, rfl, rfl, rfl⟩
  · exact ⟨rfl, rfl, rfl, fun _ => rfl, rfl, rfl, rfl, rfl, rfl⟩

section
variable {s : State} {p : Nat}

/-- A port of which a lane has failed. -/
def failLane (lane : Nat) (x : Port) : Port :=
  { x with failed := x.failed ||| BitVec.ofNat 17 (2 ^ lane), unfit := x.unfit ||| BitVec.ofNat 17 (2 ^ lane) }

/-- What `dropLanes` leaves of the state: reports are posted, and the port has no lane changes left. -/
theorem postLanes_post (s : State) (p stall : Nat) : PostOnly (modPort s p fun x => { x with before := [] }) (postLanes s p stall) := by
  unfold postLanes
  dsimp only
  generalize List.zip _ _ = l
  show PostOnly _ (l.foldl _ (modPort s p fun x => { x with before := [] }))
  generalize (modPort s p fun x => { x with before := [] }) = t
  induction l generalizing t with
  | nil => exact .refl t
  | cons b r ih => exact (post_postOnly ..).trans (ih _)

theorem PostOnly.getPort {s t : State} (h : PostOnly s t) (n : Nat) : getPort t n = getPort s n := by rw [Machine.getPort, h.ports]; rfl

/-- A retraining that ends with one lane change reports it. -/
theorem postLanes_one {a : BitVec 64} {l stall : Nat} (h : (getPort s p).before = [(a, l)]) :
    postLanes s p stall = post (modPort s p fun x => { x with before := [] })
      (mkReport 5 14 1 (BitVec.ofNat 14 p) 0 0 a.toNat (pstatOf (getPort s p)).toNat l stall) := by
  unfold postLanes
  simp only [h, List.length_singleton, stallsOf, List.map_cons, List.map_nil, List.tail_cons, List.nil_append, List.zip_cons_cons,
    List.zip_nil_left, List.foldl_cons, List.foldl_nil]
  rfl

theorem startReplay_eq (x : Port) : (startReplay x).replay = x.replay ∧ (x.replay ≠ [] → (startReplay x).resend = x.replay ∧
    (startReplay x).replays = satInc x.replays) ∧ (startReplay x).state = x.state ∧ (startReplay x).training = x.training ∧
    (startReplay x).before = x.before := by
  rw [startReplay]
  split
  next h => exact ⟨rfl, fun hne => absurd (List.isEmpty_iff.1 h) hne, rfl, rfl, rfl⟩
  next => exact ⟨rfl, fun _ => ⟨rfl, rfl⟩, rfl, rfl, rfl⟩

/-- A port changed: the others, memory and the cores stay. -/
theorem modPort_keeps (s : State) (p : Nat) (f : Port → Port) :
    (∀ n, n ≠ p → getPort (modPort s p f) n = getPort s n) ∧ (modPort s p f).mem = s.mem ∧ (modPort s p f).cores = s.cores :=
  ⟨fun _ hn => getPort_modPort_ne s f hn, rfl, rfl⟩

theorem removeFabric_posted {lane : Nat} {w : W64} (hsent : (getPort s p).sent = []) (hidle : Idle s) :
    let t := removeFabric (modPort (dropLanes s p) p fun z => { z with
      failed := (failLane lane (getPort s p)).failed, unfit := (failLane lane (getPort s p)).unfit }) p lane w
    (getPort t p).state = 3 ∧ (getPort t p).replay = [] ∧ t.cores = s.cores := by
  have hpost := postLanes_post s p ((Config.freeData s.tick (2 ^ 50 + p)).toNat % 2 ^ 32)
  have hport : getPort (dropLanes s p) p = { getPort s p with before := [] } := (PostOnly.getPort hpost p).trans (getPort_modPort_self ..)
  have hport' := getPort_modPort_self (dropLanes s p) p fun z => { z with
      failed := (failLane lane (getPort s p)).failed, unfit := (failLane lane (getPort s p)).unfit }
  rw [hport] at hport'
  intro t
  have ht := removeFabric_idle (lane := lane) (s := modPort (dropLanes s p) p fun z => { z with
      failed := (failLane lane (getPort s p)).failed, unfit := (failLane lane (getPort s p)).unfit }) (by rw [hport']) (by rw [hport']; exact hsent)
    (hidle.congr hpost.cores) w
  rw [show t = _ from ht]
  refine ⟨?_, ?_, ?_⟩
  · rw [PostOnly.getPort (post_postOnly ..), getPort_modPort_self]
    rfl
  · rw [PostOnly.getPort (post_postOnly ..), getPort_modPort_self]
    rfl
  · exact (post_postOnly ..).cores.trans hpost.cores

/-- A lane in use that fails while eight healthy ones are left. -/
theorem execLaneFailure_retrains {lane : Nat} (hphase : s.boot.phase = .normal) (hstate : (getPort s p).state = 1 ∨ (getPort s p).state = 2)
    (hfit : (getPort s p).unfit.getLsbD lane = false) (hused : (getPort s p).lanes.getLsbD lane = true)
    (h8 : 8 ≤ (healthyLanes ((getPort s p).unfit ||| BitVec.ofNat 17 (2 ^ lane))).length) :
    execLaneFailure p lane s = .next (modPort s p fun x => { chooseLanes (failLane lane x) with
      state := 1, training := true, before := x.before ++ [(pstatOf x, lane)] }) := by
  have hgo : ¬ (s.boot.phase ≠ .normal ∨ ((getPort s p).state ≠ 1 ∧ (getPort s p).state ≠ 2) ∨ (getPort s p).unfit.getLsbD lane = true) := by
    rintro (h | h | h)
    · exact h hphase
    · rcases hstate with h' | h'
      · exact h.1 h'
      · exact h.2 h'
    · exact absurd (hfit.symm.trans h) nofun
  unfold execLaneFailure
  dsimp only
  rw [if_neg hgo, hused, if_neg nofun, if_neg (Nat.not_lt.2 h8)]
  rfl

theorem execLaneFailure_removes {lane : Nat} (hphase : s.boot.phase = .normal) (hstate : (getPort s p).state = 1 ∨ (getPort s p).state = 2)
    (hfit : (getPort s p).unfit.getLsbD lane = false) (hused : (getPort s p).lanes.getLsbD lane = true)
    (h8 : (healthyLanes ((getPort s p).unfit ||| BitVec.ofNat 17 (2 ^ lane))).length < 8) :
    execLaneFailure p lane s = .next (removeFabric (modPort (dropLanes s p) p fun z => { z with
      failed := (failLane lane (getPort s p)).failed, unfit := (failLane lane (getPort s p)).unfit }) p lane
      (pstatOf (getPort s p))) := by
  have hgo : ¬ (s.boot.phase ≠ .normal ∨ ((getPort s p).state ≠ 1 ∧ (getPort s p).state ≠ 2) ∨ (getPort s p).unfit.getLsbD lane = true) := by
    rintro (h | h | h)
    · exact h hphase
    · rcases hstate with h' | h'
      · exact h.1 h'
      · exact h.2 h'
    · exact absurd (hfit.symm.trans h) nofun
  unfold execLaneFailure
  dsimp only
  rw [if_neg hgo, hused, if_neg nofun, if_pos h8] <;> rfl

end

/-- Settles O50: what a port sends touches only its sending side, and a lane change is one change of its port. -/
theorem fabricPorts : Obligations.FabricPorts := by
  unfold Obligations.FabricPorts
  refine ⟨fun s p k seq => ?link, fun s p lane stall bad => ?lanes⟩
  case link =>
    intro x only held stores
    refine ⟨fun hnot i hi => ?_, fun htakes => ⟨fun hcrc => ?_, fun hcrc hseq => ?_, fun hcrc hseq => ?_, fun hcrc hnext hseq => ?_,
      fun hlater hstores => ?_, fun j hlater hroom hstores => ?_, fun j ch r hsent hkind hseq hrun htask hle hun => ?_, fun hlater hstores => ?_,
      fun hun => ?_, fun hun => ?_⟩⟩
    · simp only [List.mem_cons, List.not_mem_nil, or_false] at hi
      rcases hi with rfl | rfl | rfl | rfl
      · exact show execFabricPacketReceive p k s = _ from congrArg Host.Outcome.next (if_pos hnot)
      · exact show execFabricAckReceive p seq s = _ from congrArg Host.Outcome.next (if_neg (by rw [hnot]; exact nofun))
      · exact show execFabricNakReceive p seq s = _ from congrArg Host.Outcome.next (if_neg (by rw [hnot]; exact nofun))
      · exact show execAckIdleTimer p s = _ from congrArg Host.Outcome.next (if_neg (by rw [hnot]; exact fun h => nomatch h.1))
    · refine ⟨_, show execFabricPacketReceive p k s = _ from execFabricPacketReceive_bad htakes hcrc, ?_, modPort_keeps ..⟩
      rw [getPort_modPort_self]
      exact ⟨rfl, rfl, rfl⟩
    · have hkept := linkKept_packetWrites (modPort s p fun x => acceptPacket x k.seq) (portDie p) k p
      rw [getPort_modPort_self] at hkept
      obtain ⟨hlast, hunacked, hsent⟩ := hkept
      refine ⟨_, show execFabricPacketReceive p k s = _ from execFabricPacketReceive_next htakes hcrc hseq, ?_⟩
      intro y
      refine ⟨hlast.trans ?_, fun h3 => ⟨hunacked.trans ?_, hsent.trans ?_⟩, fun h3 => ⟨hunacked.trans ?_, hsent.trans ?_⟩, fun hnone => ?_,
        fun a b hw hctx hwf hclass hecc hfoot => ?_, fun c hctx hclosed => ?_⟩
      · rw [acceptPacket]
        split <;> rfl
      · rw [acceptPacket, if_pos h3]
      · rw [acceptPacket, if_pos h3]
      · rw [acceptPacket, if_neg (Nat.not_le.2 h3)]
      · rw [acceptPacket, if_neg (Nat.not_le.2 h3)]
      · rw [packetWrites_none hnone]
        rfl
      · rw [packetWrites_byte hw hctx]
        have hstate := acceptPacket_state (getPort s p) k.seq
        exact outsideWrite_byte (s := modPort s p fun x => acceptPacket x k.seq) hwf (by rw [addrClass_modPort hstate]; exact hclass) hecc
          (by rw [footHit_modPort hstate]; exact hfoot)
      · rw [packetWrites_closed (s := modPort s p fun x => acceptPacket x k.seq) hctx hclosed]
        rfl
    · exact show execFabricPacketReceive p k s = _ from execFabricPacketReceive_again htakes hcrc hseq
    · refine ⟨_, show execFabricPacketReceive p k s = _ from execFabricPacketReceive_gap htakes hcrc hnext hseq, ?_, modPort_keeps ..⟩
      exact getPort_modPort_self ..
    · refine ⟨_, show execFabricAckReceive p seq s = _ from congrArg Host.Outcome.next ((if_pos htakes).trans (ackPackets_plain seq hstores)), ?_, modPort_keeps ..⟩
      rw [getPort_modPort_self]
      obtain ⟨hsent, hresend, hreplays⟩ := freePackets_sent x seq
      exact ⟨hsent, freePackets_replay hlater seq, hresend, hreplays⟩
    · refine ⟨_, show execFabricAckReceive p seq s = _ from congrArg Host.Outcome.next ((if_pos htakes).trans (ackPackets_plain seq hstores)), ?_, modPort_keeps ..⟩
      rw [getPort_modPort_self]
      exact (freePackets_admits hlater seq hroom)
    · exact ⟨_, show execFabricAckReceive p seq s = _ from congrArg Host.Outcome.next (if_pos htakes),
        ackPackets_runner hsent hkind hseq hrun htask hle hun⟩
    · have hexec : execFabricNakReceive p seq s = .next (modPort s p fun x => startReplay (freePackets x seq)) := by
        refine congrArg Host.Outcome.next ((if_pos htakes).trans ?_)
        rw [ackPackets_plain seq hstores, modPort_modPort]
      refine ⟨_, show execFabricNakReceive p seq s = _ from hexec, ?_, modPort_keeps ..⟩
      rw [getPort_modPort_self]
      obtain ⟨hreplay, hagain, -⟩ := startReplay_eq (freePackets x seq)
      obtain ⟨-, -, hreplays⟩ := freePackets_sent x seq
      rw [freePackets_replay hlater seq] at hreplay hagain
      rw [hreplays] at hagain
      refine ⟨hreplay, fun hne => ⟨?_, (hagain hne).2⟩⟩
      rw [(hagain hne).1, hreplay]
    · refine ⟨_, show execAckIdleTimer p s = _ from congrArg Host.Outcome.next (if_pos ⟨htakes, hun⟩), ?_, modPort_keeps ..⟩
      exact getPort_modPort_self ..
    · exact show execAckIdleTimer p s = _ from congrArg Host.Outcome.next (if_neg fun h => h.2 hun)
  case lanes =>
    intro x failed unfit healthy gives
    refine ⟨fun hphase hstate hlane hfit hused => ⟨fun hw h16 => ?_, fun hnarrow h8 => ?_, fun h8 => ?_⟩, fun hunfit => ?_, fun htrain => ?_,
      fun hnot => ?_, fun hbar hchain hstate h16 => ?_, fun h16 => ?_, fun hbar hp hfence hchain hstate => ?_, fun hbar hchain hstate hsent => ?_,
      fun hp hchain => ⟨?_, ?_, ?_⟩, fun hbar => ⟨?_, ?_, ?_⟩⟩
    · refine ⟨_, show execLaneFailure p lane s = _ from execLaneFailure_retrains hphase hstate hfit hused (Nat.le_trans (by decide) h16), ?_, modPort_keeps ..⟩
      rw [getPort_modPort_self]
      rw [chooseLanes_wide (x := failLane lane (getPort s p)) hw h16]
      exact ⟨rfl, rfl, hw, rfl, rfl, fun n hn => getLsbD_laneMask _ hn⟩
    · refine ⟨_, show execLaneFailure p lane s = _ from execLaneFailure_retrains hphase hstate hfit hused h8, ?_, modPort_keeps ..⟩
      rw [getPort_modPort_self]
      rw [chooseLanes_narrow (x := failLane lane (getPort s p)) hnarrow]
      exact ⟨rfl, rfl, rfl, rfl, rfl, fun n hn => getLsbD_laneMask _ hn⟩
    · exact ⟨_, show execLaneFailure p lane s = _ from execLaneFailure_removes hphase hstate hfit hused h8, fun hsent hidle =>
        removeFabric_posted hsent hidle⟩
    · exact show execLaneFailure p lane s = _ from congrArg Host.Outcome.next (if_pos (.inr (.inr hunfit)))
    · refine ⟨postLanes (modPort s p fun x => startReplay { x with state := 2, training := false }) p stall,
        show execRetrainComplete p stall s = _ from congrArg Host.Outcome.next (if_neg (by rw [htrain]; exact nofun)), ?_⟩
      have hpost := postLanes_post (modPort s p fun x => startReplay { x with state := 2, training := false }) p stall
      rw [modPort_modPort] at hpost
      have hport := (PostOnly.getPort hpost p).trans (getPort_modPort_self ..)
      obtain ⟨hreplay, hagain, hstate, htraining, hbefore⟩ := startReplay_eq { x with state := 2, training := false }
      rw [hport]
      refine ⟨hstate, htraining, hreplay, fun hne => (hagain hne).1, hpost.mem, hpost.cores, fun a l hone => ?_⟩
      rw [postLanes_one (by rw [getPort_modPort_self]; exact hbefore.trans hone), modPort_modPort, getPort_modPort_self]
      exact post_ring_of_sameRing (s := s) (t := modPort s p _) ⟨rfl, rfl, rfl, rfl, rfl⟩ _
    · exact show execRetrainComplete p stall s = _ from congrArg Host.Outcome.next (if_pos hnot)
    · refine ⟨_, show execRetrain p bad s = _ from congrArg Host.Outcome.next ((if_pos hbar).trans (if_neg ?_)), ?_, modPort_keeps ..⟩
      swap
      · rw [getPort_modPort_self]
        exact ⟨rfl, rfl, rfl, rfl, rfl, rfl⟩
      rintro (h | h | h)
      · rcases hstate with h' | h'
        · exact h.1 h'
        · exact h.2 h'
      · exact absurd h (Nat.not_lt.2 h16)
      · exact absurd (hchain.symm.trans h) nofun
    · exact show execRetrain p bad s = _ from congrArg Host.Outcome.next (ite_eq_right_iff.2 fun _ => if_pos (.inr (.inl h16)))
    · refine ⟨_, show execUp p s = _ from congrArg Host.Outcome.next ((if_pos hbar).trans ((if_pos hp).trans (if_neg ?_))), ?_, modPort_keeps ..⟩
      · rintro (h | h | h)
        · exact absurd (hfence.symm.trans h) nofun
        · rcases hstate with h' | h'
          · exact h.1 h'
          · exact h.2 h'
        · exact absurd (hchain.symm.trans h) nofun
      · rw [getPort_modPort_self]
        obtain ⟨h1, h2, h3, h4, h5, h6, h7, h8, h9⟩ := chooseLanes_keeps {
          state := 1, training := true, replays := x.replays, crcerr := x.crcerr, acksSent := x.acksSent, w8 := x.w8
          unfit := if (healthyLanes x.unfit).length < 8 then 0 else x.unfit }
        exact ⟨h1, h2, h3, h4, h5, h6, h7, h8, h9⟩
    · have hpost := postLanes_post s p ((Config.freeData s.tick (2 ^ 50 + p)).toNat % 2 ^ 32)
      have hport : getPort (dropLanes s p) p = { x with before := [] } := (PostOnly.getPort hpost p).trans (getPort_modPort_self ..)
      have hexec : execDown p s = .next (modPort (dropLanes s p) p (downPort 0)) := by
        refine congrArg Host.Outcome.next ((if_pos hbar).trans ((if_neg ?_).trans (emptyPort_of_none (by rw [hport]; exact hsent) 0)))
        rintro (h | h)
        · exact hstate h
        · exact absurd (hchain.symm.trans h) nofun
      refine ⟨_, show execDown p s = _ from hexec, ?_, fun n hn => ?_, hpost.mem, hpost.cores⟩
      · rw [getPort_modPort_self, hport]
        exact ⟨rfl, rfl, rfl⟩
      · rw [getPort_modPort_ne _ _ hn]
        exact (PostOnly.getPort hpost n).trans (getPort_modPort_ne s _ hn)
    · exact show execUp p s = _ from congrArg Host.Outcome.next (ite_eq_right_iff.2 fun _ => (if_pos hp).trans (if_pos (.inr (.inr hchain))))
    · exact show execDown p s = _ from congrArg Host.Outcome.next (ite_eq_right_iff.2 fun _ => if_pos (.inr hchain))
    · exact show execRetrain p bad s = _ from congrArg Host.Outcome.next (ite_eq_right_iff.2 fun _ => if_pos (.inr (.inr hchain)))
    · exact show execUp p s = _ from congrArg Host.Outcome.next (if_neg (by rw [hbar]; exact nofun))
    · exact show execDown p s = _ from congrArg Host.Outcome.next (if_neg (by rw [hbar]; exact nofun))
    · exact show execRetrain p bad s = _ from congrArg Host.Outcome.next (if_neg (by rw [hbar]; exact nofun))

end Sys2Proof.Fabric

/-! SUPPORT. Host registers: what a write keeps, the registers of a queue, and where they stand (spec/13 R293, spec/16 R354, spec/17 R372 to
R392): O46. -/

namespace Sys2Proof.HostRegs

open Sys2Proof Sys2Proof.Machine Sys2Proof.Laws Sys2Proof.Posts

/-! ## Bits that a register keeps -/

/-- The low bits of a word. -/
theorem setWidth_setWidth_mask (v : W64) {n : Nat} (hn : n < 64) : (v.setWidth n).setWidth 64 = v &&& BitVec.ofNat 64 (2 ^ n - 1) := by
  have hlt : 2 ^ n - 1 < 2 ^ 64 := (Nat.sub_lt (Nat.two_pow_pos n) Nat.one_pos).trans (Nat.pow_lt_pow_right (by decide) hn)
  refine BitVec.eq_of_toNat_eq ?_
  rw [BitVec.toNat_and, BitVec.toNat_ofNat, Nat.mod_eq_of_lt hlt, Nat.and_two_pow_sub_one_eq_mod, BitVec.toNat_setWidth, BitVec.toNat_setWidth]
  exact Nat.mod_eq_of_lt ((Nat.mod_lt _ (Nat.two_pow_pos n)).trans (Nat.pow_lt_pow_right (by decide) hn))

theorem ofNat_mask (v : W64) {n : Nat} (hn : n < 64) : BitVec.ofNat 64 (v.toNat % 2 ^ n) = v &&& BitVec.ofNat 64 (2 ^ n - 1) := by
  rw [← setWidth_setWidth_mask v hn]
  refine BitVec.eq_of_toNat_eq ?_
  rw [BitVec.toNat_ofNat, BitVec.toNat_setWidth, BitVec.toNat_setWidth]

theorem setWidth_eq_zero {v : W64} {n : Nat} (hn : n < 64) (h : v &&& BitVec.ofNat 64 (2 ^ n - 1) = 0) : v.setWidth n = 0 := by
  rw [← setWidth_setWidth_mask v hn] at h
  have hzero := congrArg (BitVec.setWidth n) h
  rw [BitVec.setWidth_setWidth_of_le _ (Nat.le_of_lt hn), BitVec.setWidth_eq] at hzero
  exact hzero.trans (BitVec.setWidth_zero _ _)

/-- The bits that CTXTAB has. -/
theorem ctxtab_mask (v : W64) : (v.setWidth 52 &&& ~~~127).setWidth 64 = v &&& 0xFFFFFFFFFFF80 := by
  refine BitVec.eq_of_getLsbD_eq fun i hi => ?_
  simp only [BitVec.getLsbD_setWidth, BitVec.getLsbD_and, BitVec.getLsbD_not]
  interval_cases i <;> simp

/-- The two fields of CTXARG side by side. -/
theorem ctxarg_mask (v : W64) : BitVec.ofNat 64 ((v.setWidth 12).toNat + 4096 * (v.extractLsb' 12 45).toNat) = v &&& 0x1FFFFFFFFFFFFFF := by
  refine Eq.trans (congrArg _ ?_) (ofNat_mask v (n := 57) (by decide))
  rw [BitVec.toNat_setWidth, BitVec.extractLsb'_toNat, Nat.shiftRight_eq_div_pow]
  omega

theorem toNat_lowBit (v : W64) : (v.getLsbD 0).toNat = v.toNat % 2 := by
  rw [BitVec.getLsbD, Nat.testBit_zero]
  rcases Nat.mod_two_eq_zero_or_one v.toNat with h | h <;> rw [h] <;> rfl

/-- The fields of QCTL side by side. -/
theorem qctl_mask (v : W64) : BitVec.ofNat 64 ((v.getLsbD 0).toNat + 2 * (v.extractLsb' 1 2).toNat + 8 * (v.extractLsb' 3 6).toNat) = v &&& 511 := by
  refine Eq.trans (congrArg _ ?_) (ofNat_mask v (n := 9) (by decide))
  rw [toNat_lowBit, BitVec.extractLsb'_toNat, BitVec.extractLsb'_toNat, Nat.shiftRight_eq_div_pow, Nat.shiftRight_eq_div_pow]
  omega

theorem bit_mask (v : W64) : BitVec.ofNat 64 (v.getLsbD 0).toNat = v &&& 1 := by
  refine Eq.trans (congrArg _ ?_) (ofNat_mask v (n := 1) (by decide))
  rw [toNat_lowBit, Nat.pow_one]

/-! ## Register writes -/

section
variable {s : State}

theorem onDie_on {d : Nat} {f : State → State} (h : hostChain s d = true) : onDie s d f = f s := if_pos h

theorem onDie_off {d : Nat} {f : State → State} (h : hostChain s d = false) : onDie s d f = s := if_neg (by rw [h]; exact Bool.false_ne_true)

/-- `t` differs from `s` in what register writes touch: the queues, the context block, the ring, the recovery data, the dies, the matrix
units' counters and the reports of a freeze. -/
structure RegWrite (s t : State) : Prop where
  mem : t.mem = s.mem
  tasks : t.tasks = s.tasks
  launches : t.launches = s.launches
  ctxs : t.ctxs = s.ctxs
  cores : ∀ i, (getCore t i).regs = (getCore s i).regs ∧ (getCore t i).sys = (getCore s i).sys ∧ (getCore t i).ctl = (getCore s i).ctl

theorem RegWrite.of_cores {t : State} (hmem : t.mem = s.mem) (htasks : t.tasks = s.tasks) (hlaunches : t.launches = s.launches)
    (hctxs : t.ctxs = s.ctxs) (hcores : t.cores = s.cores) : RegWrite s t :=
  ⟨hmem, htasks, hlaunches, hctxs, fun i => by rw [Frames.getCore_congr hcores]; exact ⟨rfl, rfl, rfl⟩⟩

theorem RegWrite.refl (s : State) : RegWrite s s := .of_cores rfl rfl rfl rfl rfl

theorem postFreeze_none {d : Nat} (h : (getDie s d).avs.named = none) : postFreeze s d = s := by
  simp only [postFreeze, h]

theorem postFreeze_keeps (s : State) (d : Nat) : (postFreeze s d).mem = s.mem ∧ (postFreeze s d).tasks = s.tasks ∧
    (postFreeze s d).launches = s.launches ∧ (postFreeze s d).ctxs = s.ctxs ∧ (postFreeze s d).cores = s.cores := by
  unfold postFreeze
  split
  · have hpost := post_postOnly (modDie s d fun d => { d with avs := { d.avs with named := none } })
    exact ⟨(hpost _).mem, (hpost _).tasks, (hpost _).launches, (hpost _).ctxs, (hpost _).cores⟩
  · exact ⟨rfl, rfl, rfl, rfl, rfl⟩

theorem regWrite_onDie {d : Nat} {f : State → State} (hf : RegWrite s (f s)) : RegWrite s (onDie s d f) := by
  unfold onDie
  split
  · exact hf
  · exact .refl s

theorem regWrite_writeAvs (s : State) (d : Nat) (v : W64) : RegWrite s (writeAvs s d v) := by
  unfold writeAvs
  split
  · exact .refl s
  · refine regWrite_onDie ?_
    split
    · obtain ⟨hmem, htasks, hlaunches, hctxs, hcores⟩ := postFreeze_keeps s d
      exact .of_cores hmem htasks hlaunches hctxs hcores
    · exact .of_cores rfl rfl rfl rfl rfl

theorem regWrite_clearMatrixCounter (s : State) : RegWrite s (clearMatrixCounter s) := by
  unfold clearMatrixCounter
  dsimp only
  split
  · exact .refl s
  · refine regWrite_onDie ⟨rfl, rfl, rfl, rfl, fun i => ?_⟩
    rw [getCore_modCore]
    split
    next hi => exact hi ▸ ⟨rfl, rfl, rfl⟩
    next => exact ⟨rfl, rfl, rfl⟩

/-- No register write touches memory, a task, a launch or a core's registers. -/
theorem regWrite_writeReg (s : State) (r : HostReg) (v : W64) : RegWrite s (writeReg s r v) := by
  cases r with
  | avsctl d => exact regWrite_writeAvs s d v
  | mccnt =>
    refine show RegWrite s (if v.setWidth 32 = (0 : W32) then clearMatrixCounter s else s) from ?_
    split
    · exact regWrite_clearMatrixCounter s
    · exact .refl s
  | ecccnt =>
    refine show RegWrite s (if v.setWidth 32 = (0 : W32) then clearEcc s else s) from ?_
    split
    · unfold clearEcc
      refine regWrite_onDie ?_
      exact .of_cores rfl rfl rfl rfl rfl
    · exact .refl s
  | dispmask d =>
    refine show RegWrite s (if 4 ≤ d then s else onDie s d fun s => modDie s d fun x => { x with dispmask := v.setWidth 24 }) from ?_
    split
    · exact .refl s
    · refine regWrite_onDie ?_
      exact .of_cores rfl rfl rfl rfl rfl
  | rbaseMirror | rstat | thresh a =>
    unfold writeReg
    dsimp only
    split <;> exact .of_cores rfl rfl rfl rfl rfl
  | _ => exact .of_cores rfl rfl rfl rfl rfl

/-- A register write but that of AVSCTL posts nothing, nor does that one where no freeze waits to be reported. -/
theorem writeReg_posts_nothing (r : HostReg) (v : W64) (h : ∀ d, r = .avsctl d → (getDie s d).avs.named = none) :
    (writeReg s r v).hostMem = s.hostMem ∧ (writeReg s r v).reports = s.reports := by
  have honDie : ∀ {d f}, (f s).hostMem = s.hostMem → (f s).reports = s.reports → (onDie s d f).hostMem = s.hostMem ∧
      (onDie s d f).reports = s.reports := fun hm hr => by
    unfold onDie
    split
    · exact ⟨hm, hr⟩
    · exact ⟨rfl, rfl⟩
  cases r with
  | avsctl d =>
    have hnone := postFreeze_none (h d rfl)
    refine show (writeAvs s d v).hostMem = s.hostMem ∧ (writeAvs s d v).reports = s.reports from ?_
    unfold writeAvs
    split
    · exact ⟨rfl, rfl⟩
    · have hsame : (if (v.extractLsb' 22 2).toNat = 2 then postFreeze s d else s) = s := by rw [hnone, ite_self]
      refine honDie ?_ ?_
      · rw [hsame]
        rfl
      · rw [hsame]
        rfl
  | mccnt =>
    unfold writeReg
    dsimp only
    split
    · unfold clearMatrixCounter
      dsimp only
      split
      · exact ⟨rfl, rfl⟩
      · refine honDie ?_ ?_
        · rfl
        · rfl
    · exact ⟨rfl, rfl⟩
  | ecccnt =>
    unfold writeReg
    dsimp only
    split
    · refine honDie ?_ ?_
      · rfl
      · rfl
    · exact ⟨rfl, rfl⟩
  | dispmask d =>
    unfold writeReg
    dsimp only
    split
    · exact ⟨rfl, rfl⟩
    · refine honDie ?_ ?_
      · rfl
      · rfl
  | rbaseMirror | rstat | thresh a =>
    unfold writeReg
    dsimp only
    split <;> exact ⟨rfl, rfl⟩
  | _ => exact ⟨rfl, rfl⟩

theorem readReg_clearEcc (h : hostChain s (eccDie (eccChosen s).1 (eccChosen s).2) = true) : readReg (clearEcc s) .ecccnt = 0 := by
  have hclear : clearEcc s = { s with recovery := { s.recovery with
      ecc := tabErase s.recovery.ecc (eccKey (eccChosen s).1 (eccChosen s).2)
      eccFired := s.recovery.eccFired.filter (fun x => x != eccKey (eccChosen s).1 (eccChosen s).2) } } := if_pos h
  rw [hclear]
  show (if eccInstances (eccChosen s).1 ≤ (eccChosen s).2 then (0 : W64)
    else (tabGet (tabErase s.recovery.ecc (eccKey (eccChosen s).1 (eccChosen s).2)) (eccKey (eccChosen s).1 (eccChosen s).2) 0).setWidth 64) = 0
  rw [tabGet_tabErase, if_pos rfl]
  exact ite_self _

theorem readReg_clearMatrixCounter (h : hostChain s (dieOf (s.recovery.mcsel.extractLsb' 0 9).toNat) = true) :
    readReg (clearMatrixCounter s) .mccnt = 0 := by
  refine show readMatrixCounter (clearMatrixCounter s) = 0 from ?_
  unfold clearMatrixCounter
  dsimp only
  split
  next hcore => exact if_pos (.inl hcore)
  next hcore =>
    rw [onDie_on h]
    unfold readMatrixCounter
    dsimp only
    rw [modCore_recovery, getCore_modCore_self]
    refine (congrArg _ ?_).trans (ite_self _)
    rcases (s.recovery.mcsel.extractLsb' 9 2).toNat with _ | _ | _ | n <;> rfl

end

/-! ## Queue registers (spec/13 R293, R294, R307, R308) -/

section
variable {s : State}

theorem extract_or_one (v : W64) {i n : Nat} (hi : 0 < i) : (v ||| 1).extractLsb' i n = v.extractLsb' i n := by
  refine BitVec.eq_of_getLsbD_eq fun j hj => ?_
  rw [BitVec.getLsbD_extractLsb', BitVec.getLsbD_extractLsb', BitVec.getLsbD_or]
  have hone : (1#64).getLsbD (i + j) = false := by simp; omega
  rw [show (1 : W64).getLsbD (i + j) = false from hone, Bool.or_false]

theorem extract_and_not_one (v : W64) {i n : Nat} (hi : 0 < i) (hn : i + n ≤ 64) : (v &&& ~~~1).extractLsb' i n = v.extractLsb' i n := by
  refine BitVec.eq_of_getLsbD_eq fun j hj => ?_
  rw [BitVec.getLsbD_extractLsb', BitVec.getLsbD_extractLsb', BitVec.getLsbD_and, BitVec.getLsbD_not]
  have hone : (1#64).getLsbD (i + j) = false := by simp; omega
  rw [show (1 : W64).getLsbD (i + j) = false from hone, decide_eq_true (show i + j < 64 by omega), Bool.not_false, Bool.and_true, Bool.and_true]

theorem lowBit_or_one (v : W64) : (v ||| 1).getLsbD 0 = true := by
  rw [BitVec.getLsbD_or, show (1 : W64).getLsbD 0 = true from rfl, Bool.or_true]

theorem lowBit_and_not_one (v : W64) : (v &&& ~~~1).getLsbD 0 = false := by
  rw [BitVec.getLsbD_and, show (~~~1 : W64).getLsbD 0 = false from rfl, Bool.and_false]

/-- A queue after QCTL with EN = 1. -/
theorem writeQctl_enable (q : BitVec 6) (v : W64) : let x := getQueue s q.toNat
    let y := getQueue (writeQctl s q (v ||| 1)) q.toNat
    y.en = true ∧ y.die = v.extractLsb' 1 2 ∧ y.ctx = v.extractLsb' 3 6 ∧ y.tail = x.tail ∧ y.base = x.base ∧ y.size = x.size ∧
    (x.en = false → y.head = x.tail ∧ y.ovf = false ∧ y.rerr = false ∧
      y.cfg = (fenced s (v.extractLsb' 1 2).toNat || !(getCtx s (v.extractLsb' 3 6).toNat).live)) ∧
    (x.en = true → y.head = x.head ∧ y.ovf = x.ovf ∧ y.rerr = x.rerr ∧
      y.cfg = (x.cfg || fenced s (v.extractLsb' 1 2).toNat || !(getCtx s (v.extractLsb' 3 6).toNat).live)) := by
  intro x
  rw [writeQctl, getQueue_modQueue, if_pos rfl]
  dsimp only
  rw [extract_or_one v (by decide), extract_or_one v (by decide), lowBit_or_one]
  cases hen : (getQueue s q.toNat).en
  · rw [if_pos ⟨rfl, rfl⟩]
    exact ⟨rfl, rfl, rfl, rfl, rfl, rfl, fun _ => ⟨rfl, rfl, rfl, rfl⟩, nofun⟩
  · rw [if_neg fun h => nomatch h.2]
    exact ⟨rfl, rfl, rfl, rfl, rfl, rfl, nofun, fun _ => ⟨rfl, rfl, rfl, (Bool.or_assoc ..).symm⟩⟩

/-- A queue after QCTL with EN = 0. -/
theorem writeQctl_disable (q : BitVec 6) (v : W64) : let x := getQueue s q.toNat
    let y := getQueue (writeQctl s q (v &&& ~~~1)) q.toNat
    y.en = false ∧ y.head = x.head ∧ y.tail = x.tail ∧ y.ovf = x.ovf ∧ y.cfg = (x.cfg || fenced s (v.extractLsb' 1 2).toNat) ∧ y.rerr = x.rerr ∧
      y.base = x.base ∧ y.size = x.size := by
  intro x
  rw [writeQctl, getQueue_modQueue, if_pos rfl]
  dsimp only
  rw [extract_and_not_one v (by decide) (by decide), extract_and_not_one v (by decide) (by decide), lowBit_and_not_one, if_neg fun h => nomatch h.1]
  exact ⟨rfl, rfl, rfl, rfl, congrArg (x.cfg || ·) (Bool.or_false _), rfl, rfl, rfl⟩

/-- The queue and the fields that stay, of a write of a queue register. -/
structure QueueWrite (s t : State) (q : Nat) : Prop where
  others : ∀ n, n ≠ q → getQueue t n = getQueue s n
  cores : t.cores = s.cores
  mem : t.mem = s.mem
  launches : t.launches = s.launches
  tasks : t.tasks = s.tasks
  reports : t.reports = s.reports
  base : (getQueue t q).base = (getQueue s q).base
  size : (getQueue t q).size = (getQueue s q).size

theorem queueWrite_modQueue (s : State) (q : Nat) (f : Queue → Queue) (hbase : (f (getQueue s q)).base = (getQueue s q).base)
    (hsize : (f (getQueue s q)).size = (getQueue s q).size) : QueueWrite s (modQueue s q f) q :=
  ⟨fun n hn => (getQueue_modQueue ..).trans (if_neg hn), rfl, rfl, rfl, rfl, rfl, by rw [getQueue_modQueue, if_pos rfl, hbase],
    by rw [getQueue_modQueue, if_pos rfl, hsize]⟩

theorem queueWrite_writeQctl (s : State) (q : BitVec 6) (v : W64) : QueueWrite s (writeQctl s q v) q.toNat := by
  refine queueWrite_modQueue s _ _ ?_ ?_
  · dsimp only
    split <;> rfl
  · dsimp only
    split <;> rfl

/-! ## Where the registers stand -/

section
variable {v : W64} {bad : BitVec 17} {view : StartView} {off : Nat}

theorem barWrite_recovery (hphase : s.boot.phase ≠ .bisque) (hal : off % 8 = 0) (h1 : 0x2000 ≤ off) (h2 : off < 0x3000) (hift : off ≠ 0x20E0)
    (hboot : off ≠ 0x2108) : barWrite s off 8 v bad view = (recoveryReg (off - 0x2000)).map (fun r => .registerWrite r v) := by
  unfold barWrite
  rw [if_neg (by omega), if_neg hphase, if_neg (by omega), if_neg hift, if_neg hboot, if_pos ⟨h1, h2⟩]

theorem barRead_recovery (hphase : s.boot.phase ≠ .bisque) (hopen : barOpen s = true) (hal : off % 8 = 0) (h1 : 0x2000 ≤ off) (h2 : off < 0x3000)
    (hift : off ≠ 0x20E0) (hboot : off ≠ 0x2108) : barRead s off 8 = (recoveryReg (off - 0x2000)).map (readReg s) := by
  unfold barRead
  rw [if_neg (by omega), if_neg hphase, if_neg (by rw [hopen]; exact nofun), if_neg (by omega), if_neg (by omega), if_pos ⟨h1, h2⟩]

theorem barWrite_context (hphase : s.boot.phase ≠ .bisque) (hal : off % 8 = 0) (h1 : 0x1000 ≤ off) (h2 : off < 0x2000) :
    barWrite s off 8 v bad view = contextWrite (off - 0x1000) v := by
  unfold barWrite
  rw [if_neg (by omega), if_neg hphase, if_pos ⟨h1, h2⟩]

/-- The registers of the context block read at their offsets. -/
theorem barRead_context (hphase : s.boot.phase ≠ .bisque) (hopen : barOpen s = true) :
    ∀ x ∈ [(0x00, HostReg.ctxtab), (0x10, .ctxarg), (0x18, .ctxstat), (0x28, .diestat), (0x30, .devnum)],
      barRead s (0x1000 + x.1) 8 = some (readReg s x.2) := by
  have hopen' : ¬ barOpen s = false := by rw [hopen]; exact nofun
  intro x hx
  simp only [List.mem_cons, List.not_mem_nil, or_false] at hx
  unfold barRead
  rcases hx with rfl | rfl | rfl | rfl | rfl <;>
    exact (if_neg (by decide)).trans ((if_neg hphase).trans ((if_neg hopen').trans (if_pos (by decide))))

theorem recoveryReg_thresh {a : Nat} (ha : a < 9) : recoveryReg (0x40 + 8 * a) = some (.thresh a) := by interval_cases a <;> rfl

theorem recoveryReg_avsctl {d : Nat} (hd : d < 4) : recoveryReg (0xA0 + 8 * d) = some (.avsctl d) := by interval_cases d <;> rfl

theorem recoveryReg_dispmask {d : Nat} (hd : d < 4) : recoveryReg (0xC0 + 8 * d) = some (.dispmask d) := by interval_cases d <;> rfl

theorem recoveryReg_therm {d : Nat} (hd : d < 4) : recoveryReg (0x110 + 8 * d) = some (.therm d) := by interval_cases d <;> rfl

/-- A register of the recovery block is written and read at its offset. -/
theorem bar_recovery (hphase : s.boot.phase ≠ .bisque) {r : HostReg} (hal : off % 8 = 0) (hoff : off < 0x1000) (hift : off ≠ 0xE0)
    (hboot : off ≠ 0x108) (hreg : recoveryReg off = some r) : barWrite s (0x2000 + off) 8 v bad view = some (.registerWrite r v) ∧
      (barOpen s = true → barRead s (0x2000 + off) 8 = some (readReg s r)) := by
  refine ⟨?_, fun hopen => ?_⟩
  · rw [barWrite_recovery hphase (by omega) (by omega) (by omega) (by omega) (by omega), Nat.add_sub_cancel_left, hreg, Option.map_some]
  · rw [barRead_recovery hphase hopen (by omega) (by omega) (by omega) (by omega) (by omega), Nat.add_sub_cancel_left, hreg, Option.map_some]

theorem barRead_port (hphase : s.boot.phase ≠ .bisque) (hopen : barOpen s = true) {p : Nat} (hp : p < 18) :
    barRead s (0x3000 + 32 * p) 8 = some (pstatOf (getPort s p)) ∧ barRead s (0x3008 + 32 * p) 8 = some (readReg s (.pcnt p)) := by
  have hstat : (0x3000 + 32 * p - 0x3000) % 32 = 0 ∧ (0x3000 + 32 * p - 0x3000) / 32 = p := by omega
  have hcnt : (0x3008 + 32 * p - 0x3000) % 32 = 8 ∧ (0x3008 + 32 * p - 0x3000) / 32 = p := by
    generalize hx : 0x3008 + 32 * p = x
    constructor <;> omega
  unfold barRead
  dsimp only
  constructor
  · rw [if_neg (by omega), if_neg hphase, if_neg (by rw [hopen]; exact nofun), if_neg (by omega), if_neg (by omega), if_neg (by omega),
      if_pos (by omega), hstat.1, hstat.2]
    exact (rfl : some (readReg s (.pstat p)) = _)
  · rw [if_neg (by omega), if_neg hphase, if_neg (by rw [hopen]; exact nofun), if_neg (by omega), if_neg (by omega), if_neg (by omega),
      if_pos (by omega), hcnt.1, hcnt.2]
    exact (rfl : some (readReg s (.pcnt p)) = _)

/-- Where a queue's block stands. -/
theorem queueOffset (q : BitVec 6) {o : Nat} (ho : o < 64) :
    (0x100000 + 64 * q.toNat + o - 0x100000) % 64 = o ∧ BitVec.ofNat 6 ((0x100000 + 64 * q.toNat + o - 0x100000) / 64) = q := by
  have hdiv : (0x100000 + 64 * q.toNat + o - 0x100000) / 64 = q.toNat := by omega
  rw [hdiv, BitVec.ofNat_toNat, BitVec.setWidth_eq]
  exact ⟨by omega, rfl⟩

/-- The event of a write at an offset of a queue's block. -/
noncomputable def queueWriteAt (q : BitVec 6) (v : W64) (o : Nat) : Option Instr :=
  match o with
  | 0x10 => some (.qtailWrite q v)
  | 0x30 => some (.gdoorWrite q v)
  | 0x38 => some (.gpatchWrite q v)
  | o => (queueReg q o).map (fun r => .registerWrite r v)

theorem barWrite_queue (hphase : s.boot.phase ≠ .bisque) (q : BitVec 6) {o : Nat} (ho : o < 64) (hal : o % 8 = 0) :
    barWrite s (0x100000 + 64 * q.toNat + o) 8 v bad view = queueWriteAt q v o := by
  have hq := q.isLt
  obtain ⟨hmod, hreg⟩ := queueOffset q ho
  unfold barWrite
  rw [if_neg (by omega), if_neg hphase, if_neg (by omega), if_neg (by omega), if_neg (by omega), if_neg (by omega), if_neg (by omega),
    if_pos (by omega)]
  dsimp only
  rw [hmod, hreg] <;> rfl

theorem barRead_queue (hphase : s.boot.phase ≠ .bisque) (hopen : barOpen s = true) (q : BitVec 6) {o : Nat} {r : HostReg} (ho : o < 64)
    (hal : o % 8 = 0) (htail : o ≠ 0x10) (hdoor : o ≠ 0x30) (hpatch : o ≠ 0x38) (hreg : queueReg q o = some r) :
    barRead s (0x100000 + 64 * q.toNat + o) 8 = some (readReg s r) := by
  have hq := q.isLt
  obtain ⟨hmod, hreg'⟩ := queueOffset q ho
  unfold barRead
  rw [if_neg (by omega), if_neg hphase, if_neg (by rw [hopen]; exact nofun), if_neg (by omega), if_neg (by omega), if_neg (by omega),
    if_neg (by omega), if_pos (by omega)]
  dsimp only
  rw [hmod, hreg']
  split
  · exact absurd rfl htail
  · exact absurd rfl hdoor
  · exact absurd rfl hpatch
  · rw [hreg, Option.map_some]

end

end

/-- Settles O46: register by register what a write keeps; the addresses by the ranges of the blocks. -/
theorem hostRegisters : Obligations.HostRegisters := by
  unfold Obligations.HostRegisters
  refine ⟨fun s r v => ?writes, fun s q v => ?queues, fun s off size v bad view => ?addresses⟩
  case writes =>
    have hsame : ∀ {x}, writeReg s x v = s → exec (.registerWrite x v) s = .next s := fun {x} h =>
      show execRegisterWrite x v s = _ from congrArg Host.Outcome.next (ite_eq_right_iff.2 fun _ => h)
    refine ⟨fun hbar => show execRegisterWrite r v s = _ from congrArg Host.Outcome.next (if_neg (by rw [hbar]; exact nofun)),
      fun hbar => ⟨writeReg s r v, show execRegisterWrite r v s = _ from congrArg Host.Outcome.next (if_pos hbar), ?_⟩,
      fun x hx => ?_, fun q => ⟨hsame rfl, hsame rfl⟩, fun n => ⟨hsame rfl, hsame rfl, hsame rfl⟩⟩
    · obtain ⟨hmem, htasks, hlaunches, hctxs, hcores⟩ := regWrite_writeReg s r v
      refine ⟨hmem, htasks, hlaunches, hctxs, writeReg_posts_nothing r v, hcores, ?_, ?_, ?_, ?_, ?_, ?_, ?_, ?_, ?_, ?_, ?_, ?_, ?_, ?_, ?_, ?_, ?_,
        ?_, ?_, ?_⟩
      · rintro q rfl
        simp only [writeReg, readReg, getQueue_modQueue, if_true]
        exact setWidth_setWidth_mask v (by decide)
      · rintro q rfl
        simp only [writeReg, readReg, getQueue_modQueue, if_true]
        exact setWidth_setWidth_mask v (by decide)
      · rintro q rfl
        have hfields : (getQueue (writeQctl s q v) q.toNat).en = v.getLsbD 0 ∧ (getQueue (writeQctl s q v) q.toNat).die = v.extractLsb' 1 2 ∧
            (getQueue (writeQctl s q v) q.toNat).ctx = v.extractLsb' 3 6 := by
          rw [writeQctl, getQueue_modQueue, if_pos rfl]
          dsimp only
          split <;> exact ⟨rfl, rfl, rfl⟩
        obtain ⟨hen, hdie, hctx⟩ := hfields
        simp only [writeReg, readReg, hen, hdie, hctx]
        exact qctl_mask v
      · rintro rfl
        exact ctxtab_mask v
      · rintro rfl
        exact ctxarg_mask v
      · rintro rfl
        exact setWidth_setWidth_mask v (by decide)
      · rintro rfl
        rfl
      · rintro rfl
        exact setWidth_setWidth_mask v (by decide)
      · rintro rfl
        exact setWidth_setWidth_mask v (by decide)
      · rintro rfl
        exact bit_mask v
      · rintro rfl hzero
        have hlow : v.setWidth 32 = (0 : W32) := setWidth_eq_zero (by decide) hzero
        simp only [writeReg, hlow, if_true]
        rfl
      · rintro a rfl ha
        simp only [writeReg, if_neg (Nat.not_le.2 ha), readReg, tabGet_tabSet_self]
        exact setWidth_setWidth_mask v (by decide)
      · rintro rfl
        exact setWidth_setWidth_mask v (by decide)
      · rintro rfl hzero hchain
        have hlow : v.setWidth 32 = (0 : W32) := setWidth_eq_zero (by decide) hzero
        simp only [writeReg, hlow, if_true]
        exact readReg_clearEcc hchain
      · rintro rfl
        exact setWidth_setWidth_mask v (by decide)
      · rintro rfl hzero hchain
        have hlow : v.setWidth 32 = (0 : W32) := setWidth_eq_zero (by decide) hzero
        simp only [writeReg, hlow, if_true]
        exact readReg_clearMatrixCounter hchain
      · rintro d rfl hd hchain
        simp only [writeReg, if_neg (Nat.not_le.2 hd), onDie_on hchain, readReg, getDie_modDie, if_true]
        exact setWidth_setWidth_mask v (by decide)
      · rintro d (rfl | rfl) hd hchain
        · simp only [writeReg, if_neg (Nat.not_le.2 hd), onDie_off hchain]
        · simp only [writeReg, writeAvs, if_neg (Nat.not_le.2 hd), onDie_off hchain]
      · rintro rfl hup hfence
        simp only [writeReg, hup, hfence, Bool.not_false, Bool.and_self, if_true]
        exact ⟨rfl, trivial⟩
      · rintro rfl
        exact setWidth_setWidth_mask v (by decide)
    · simp only [List.mem_cons, List.not_mem_nil, or_false] at hx
      rcases hx with rfl | rfl | rfl | rfl | rfl | rfl <;> exact hsame rfl
  case queues =>
    intro x is
    refine ⟨fun hbar i hi => ?_, fun hbar => ⟨fun i hi => ?_, ?_, ?_, ?_, ?_, ?_⟩⟩
    · have hoff : ∀ f : State → State, onBar s f = .next s := fun f => congrArg Host.Outcome.next (if_neg (by rw [hbar]; exact nofun))
      simp only [is, List.mem_cons, List.not_mem_nil, or_false] at hi
      rcases hi with rfl | rfl | rfl | rfl | rfl
      · exact show execQtailWrite q v s = _ from hoff _
      · exact show execQueueEnable q v s = _ from hoff _
      · exact show execQueueDisable q v s = _ from hoff _
      · exact show execGdoorWrite q v s = _ from hoff _
      · exact show execGpatchWrite q v s = _ from hoff _
    · have hon : ∀ f : State → State, onBar s f = .next (f s) := fun f => congrArg Host.Outcome.next (if_pos hbar)
      have hkeeps : ∀ {t : State}, QueueWrite s t q.toNat → (∀ n, n ≠ q.toNat → getQueue t n = getQueue s n) ∧ t.cores = s.cores ∧ t.mem = s.mem ∧
          t.launches = s.launches ∧ t.tasks = s.tasks ∧ t.reports = s.reports ∧ (getQueue t q.toNat).base = x.base ∧
          (getQueue t q.toNat).size = x.size := fun ⟨h1, h2, h3, h4, h5, h6, h7, h8⟩ => ⟨h1, h2, h3, h4, h5, h6, h7, h8⟩
      simp only [is, List.mem_cons, List.not_mem_nil, or_false] at hi
      rcases hi with rfl | rfl | rfl | rfl | rfl
      · exact ⟨_, show execQtailWrite q v s = _ from hon _, hkeeps (queueWrite_modQueue s _ _ rfl rfl)⟩
      · exact ⟨_, show execQueueEnable q v s = _ from hon _, hkeeps (queueWrite_writeQctl ..)⟩
      · exact ⟨_, show execQueueDisable q v s = _ from hon _, hkeeps (queueWrite_writeQctl ..)⟩
      · exact ⟨_, show execGdoorWrite q v s = _ from hon _, hkeeps (queueWrite_modQueue s _ _ rfl rfl)⟩
      · exact ⟨_, show execGpatchWrite q v s = _ from hon _, hkeeps (queueWrite_modQueue s _ _ rfl rfl)⟩
    · refine ⟨_, show execQtailWrite q v s = _ from congrArg Host.Outcome.next (if_pos hbar), ?_⟩
      rw [getQueue_modQueue, if_pos rfl, BitVec.setWidth_eq_extractLsb' (by decide)]
    · refine ⟨_, show execQueueEnable q v s = _ from congrArg Host.Outcome.next (if_pos hbar), ?_⟩
      obtain ⟨hen, hdie, hctx, htail, -, -, hoff, hon⟩ := writeQctl_enable (s := s) q v
      exact ⟨hen, hdie, hctx, htail, hoff, hon⟩
    · refine ⟨_, show execQueueDisable q v s = _ from congrArg Host.Outcome.next (if_pos hbar), ?_⟩
      obtain ⟨hen, hhead, htail, hovf, hcfg, hrerr, -, -⟩ := writeQctl_disable (s := s) q v
      exact ⟨hen, hhead, htail, hovf, hcfg, hrerr⟩
    · refine ⟨_, show execGdoorWrite q v s = _ from congrArg Host.Outcome.next (if_pos hbar), ?_⟩
      rw [getQueue_modQueue, if_pos rfl]
    · refine ⟨_, show execGpatchWrite q v s = _ from congrArg Host.Outcome.next (if_pos hbar), ?_⟩
      rw [getQueue_modQueue, if_pos rfl, BitVec.setWidth_eq_extractLsb' (by decide)]
  case addresses =>
    intro writes reads
    refine ⟨fun h => ⟨if_pos h, if_pos h⟩, fun hphase => ⟨fun hup => ?_, fun hup => ?_, fun hv => ?_, fun hoff => ?_⟩, fun hphase hclosed => ?_,
      fun hphase => ⟨?_, ?_, fun x hx => ?_, fun a ha => ?_, fun d hd => ?_, fun x hx => ?_, ?_, ?_, fun p hp hopen => barRead_port hphase hopen hp,
        fun q => ?_⟩⟩
    · simp only [reads, barRead, hphase, hup, if_true, if_false]
      rfl
    · exact ite_eq_left_iff.2 fun _ => (if_pos hphase).trans (if_pos hup)
    · simp only [barWrite, hphase, hv, and_self, if_true]
      rfl
    · exact ite_eq_left_iff.2 fun _ => (if_pos hphase).trans (if_neg fun h => hoff h.1)
    · exact ite_eq_left_iff.2 fun _ => (if_neg hphase).trans (if_pos hclosed)
    · simp only [barWriteAt, (bar_recovery (off := 0) hphase rfl (by decide) (by decide) (by decide) rfl).1]
      rfl
    · simp only [barWriteAt, (bar_recovery (off := 0) hphase rfl (by decide) (by decide) (by decide) rfl).1]
      rfl
    · simp only [List.mem_cons, List.not_mem_nil, or_false] at hx
      rcases hx with rfl | rfl | rfl | rfl | rfl | rfl | rfl | rfl | rfl | rfl | rfl | rfl | rfl | rfl <;>
        exact bar_recovery hphase rfl (by decide) (by decide) (by decide) rfl
    · have h := bar_recovery (s := s) (v := v) (bad := bad) (view := view) hphase (off := 0x40 + 8 * a) (by omega) (by omega) (by omega) (by omega)
        (recoveryReg_thresh ha)
      rwa [← Nat.add_assoc] at h
    · have havs := bar_recovery (s := s) (v := v) (bad := bad) (view := view) hphase (off := 0xA0 + 8 * d) (by omega) (by omega) (by omega) (by omega)
        (recoveryReg_avsctl hd)
      have hdisp := bar_recovery (s := s) (v := v) (bad := bad) (view := view) hphase (off := 0xC0 + 8 * d) (by omega) (by omega) (by omega) (by omega)
        (recoveryReg_dispmask hd)
      have htherm := bar_recovery (s := s) (v := v) (bad := bad) (view := view) hphase (off := 0x110 + 8 * d) (by omega) (by omega) (by omega)
        (by omega) (recoveryReg_therm hd)
      rw [← Nat.add_assoc] at havs hdisp htherm
      exact ⟨havs.1, hdisp.1, fun hopen => ⟨havs.2 hopen, htherm.2 hopen⟩⟩
    · refine ⟨?_, fun hopen => barRead_context hphase hopen x hx⟩
      simp only [List.mem_cons, List.not_mem_nil, or_false] at hx
      rcases hx with rfl | rfl | rfl | rfl | rfl <;> exact (barWrite_context hphase rfl (by decide) (by decide)).trans rfl
    · exact (barWrite_context (off := 0x1020) hphase rfl (by decide) (by decide)).trans rfl
    · unfold barWrite
      rw [if_neg (by decide), if_neg hphase, if_neg (by decide), if_pos rfl]
    · intro at_
      have hwrite : ∀ {o : Nat}, o < 64 → o % 8 = 0 → barWrite s (at_ + o) 8 v bad view = queueWriteAt q v o := fun ho hal =>
        barWrite_queue hphase q ho hal
      exact ⟨hwrite (o := 0) (by decide) rfl, hwrite (by decide) rfl, hwrite (by decide) rfl, hwrite (by decide) rfl, hwrite (by decide) rfl,
        hwrite (by decide) rfl, fun hopen => ⟨barRead_queue hphase hopen q (by decide) rfl (by decide) (by decide) (by decide) rfl,
          barRead_queue hphase hopen q (by decide) rfl (by decide) (by decide) (by decide) rfl⟩⟩

end Sys2Proof.HostRegs

/-! SUPPORT. Adaptive undervolting and in-field tests (spec/17 R379 and R381): O49. -/

namespace Sys2Proof.Voltage

open Sys2Proof Sys2Proof.Machine Sys2Proof.Laws Sys2Proof.Posts Sys2Proof.HostRegs Sys2Proof.Removals

/-! ## The supply data of one die -/

/-- `t` is `s` with the supply data of die `d` set to `b`. -/
def avsSet (s : State) (d : Nat) (b : Avs) : State := modDie s d fun x => { x with avs := b }

theorem onBar_open {s : State} (h : barOpen s = true) (f : State → State) : onBar s f = .next (f s) := congrArg Host.Outcome.next (if_pos h)

theorem onBar_closed {s : State} (h : barOpen s = false) (f : State → State) : onBar s f = .next s :=
  congrArg Host.Outcome.next (if_neg (by rw [h]; exact Bool.false_ne_true))

/-- A controller that names nothing is written without a report. -/
theorem writeAvs_quiet {s : State} {d : Nat} {w : W64} (hd : d < 4) (hchain : hostChain s d = true) (hcmd : w.extractLsb' 22 2 = 0) :
    writeAvs s d w = avsSet s d (let a := { (getDie s d).avs with en := w.getLsbD 0, floor := w.extractLsb' 2 10 }
      if a.en then a else { a with point := nominalPoint }) := by
  unfold writeAvs
  rw [if_neg (Nat.not_le.2 hd), onDie_on hchain, hcmd]
  exact congrArg (fun t => modDie t d _) (if_neg (by decide))

theorem avsSet_only (s : State) (d : Nat) (b : Avs) : (getDie (avsSet s d b) d).avs = b ∧ (∀ e, e ≠ d → getDie (avsSet s d b) e = getDie s e) :=
  ⟨by rw [avsSet, getDie_modDie, if_pos rfl], fun e he => by rw [avsSet, getDie_modDie, if_neg he]⟩

theorem getLsbD_oneWord (i : Nat) : (1 : W64).getLsbD i = decide (i = 0) :=
  (BitVec.getLsbD_one (w := 64)).trans (by rw [decide_eq_true (show 0 < 64 by decide), Bool.true_and])

theorem extract_or_one (v : W64) : (v ||| 1).extractLsb' 22 2 = v.extractLsb' 22 2 ∧ (v ||| 1).getLsbD 0 = true ∧
    (v ||| 1).extractLsb' 2 10 = v.extractLsb' 2 10 := by
  have hbit : ∀ i, i ≠ 0 → (v ||| 1).getLsbD i = v.getLsbD i := fun i hi => by
    rw [BitVec.getLsbD_or, getLsbD_oneWord, decide_eq_false hi, Bool.or_false]
  refine ⟨BitVec.eq_of_getLsbD_eq fun i hi => ?_, ?_, BitVec.eq_of_getLsbD_eq fun i hi => ?_⟩
  · rw [BitVec.getLsbD_extractLsb', BitVec.getLsbD_extractLsb', hbit _ (by omega)]
  · rw [BitVec.getLsbD_or, getLsbD_oneWord, decide_eq_true rfl, Bool.or_true]
  · rw [BitVec.getLsbD_extractLsb', BitVec.getLsbD_extractLsb', hbit _ (by omega)]

/-- All bits but bit 0. -/
theorem extract_and_not_one (v : W64) : (v &&& ~~~1).extractLsb' 22 2 = v.extractLsb' 22 2 ∧ (v &&& ~~~1).getLsbD 0 = false ∧
    (v &&& ~~~1).extractLsb' 2 10 = v.extractLsb' 2 10 := by
  have hbit : ∀ i, i ≠ 0 → i < 64 → (v &&& ~~~1).getLsbD i = v.getLsbD i := fun i hi hlt => by
    rw [BitVec.getLsbD_and, BitVec.getLsbD_not, getLsbD_oneWord, decide_eq_false hi, decide_eq_true hlt, Bool.not_false, Bool.and_self,
      Bool.and_true]
  refine ⟨BitVec.eq_of_getLsbD_eq fun i hi => ?_, ?_, BitVec.eq_of_getLsbD_eq fun i hi => ?_⟩
  · rw [BitVec.getLsbD_extractLsb', BitVec.getLsbD_extractLsb', hbit _ (by omega) (by omega)]
  · rw [BitVec.getLsbD_and, BitVec.getLsbD_not, getLsbD_oneWord, decide_eq_true rfl, Bool.not_true, Bool.and_false, Bool.and_false]
  · rw [BitVec.getLsbD_extractLsb', BitVec.getLsbD_extractLsb', hbit _ (by omega) (by omega)]

/-- The report of a freeze names what froze it. -/
def freezeReport (d cls inst : Nat) (point : BitVec 10) : Report := mkReport 6 0 2 (BitVec.ofNat 14 d) 0 0 d point.toNat cls inst

theorem postFreeze_some {s : State} {d cls inst : Nat} {point : BitVec 10} (h : (getDie s d).avs.named = some (cls, inst, point)) :
    postFreeze s d = post (modDie s d fun x => { x with avs := { x.avs with named := none } }) (freezeReport d cls inst point) := by
  simp only [postFreeze, h, freezeReport]

theorem fenced_of_avs (s : State) (d : Nat) (f : Avs → Avs) : fenced (modDie s d fun x => { x with avs := f x.avs }) = fenced s := by
  funext e
  rw [fenced, fenced, getDie_modDie]
  split
  · next h => rw [h]
  · rfl

/-- The ring takes a report whatever the supply data of a die. -/
theorem post_ring_of_avs (s : State) (d : Nat) (f : Avs → Avs) (r : Report) :
    (post (modDie s d fun x => { x with avs := f x.avs }) r).ring = (post s r).ring := by
  have htakes : ringTakes (modDie s d fun x => { x with avs := f x.avs }) r = ringTakes s r := by
    have hstate : ∀ e, (getDie (modDie s d fun x => { x with avs := f x.avs }) e).state = (getDie s e).state := fun e => by
      rw [getDie_modDie]
      split
      · next h => rw [h]
      · rfl
    have hport : ringPort (modDie s d fun x => { x with avs := f x.avs }) = ringPort s := by
      unfold ringPort hostPort
      simp only [hstate, modDie_ring, modDie_hostUp]
    have hcut : cutOff (modDie s d fun x => { x with avs := f x.avs }) = cutOff s := by
      funext a b
      rw [cutOff, cutOff, fenced_of_avs]
    unfold ringTakes
    rw [hport, hcut, modDie_ring, modDie_boot] <;> rfl
  unfold post
  rw [htakes]
  dsimp only
  split <;> rfl

theorem toNat_max600 (a : Avs) : (floorOf a).toNat = max 600 a.floor.toNat := by
  unfold floorOf
  split
  · next h => rw [BitVec.lt_def] at h; exact (Nat.max_eq_left (Nat.le_of_lt h)).symm
  · next h => rw [BitVec.lt_def, Nat.not_lt] at h; exact (Nat.max_eq_right h).symm

/-- R379: a step lowers POINT by 5 mV, never below FLOOR. -/
theorem lowerPoint_eq (a : Avs) : lowerPoint a = { a with point := BitVec.ofNat 10 (if a.point.toNat ≤ max 600 a.floor.toNat then a.point.toNat
    else max (a.point.toNat - 5) (max 600 a.floor.toNat)) } := by
  have hfloor := toNat_max600 a
  have hpoint := a.point.isLt
  unfold lowerPoint
  dsimp only
  rw [← hfloor]
  split
  · next h =>
    rw [if_pos (BitVec.le_def.1 h), BitVec.ofNat_toNat, BitVec.setWidth_eq]
  · next h =>
    rw [BitVec.le_def] at h
    have hsub : (a.point - 5).toNat = a.point.toNat - 5 := by
      rw [BitVec.toNat_sub_of_le]
      · rfl
      · rw [BitVec.le_def]
        exact Nat.le_trans (show 5 ≤ 600 by decide) (Nat.le_trans (hfloor ▸ Nat.le_max_left ..) (Nat.le_of_lt (Nat.not_le.1 h)))
    rw [if_neg h]
    congr 1
    refine BitVec.eq_of_toNat_eq ?_
    rw [BitVec.toNat_ofNat, Nat.mod_eq_of_lt (by have := (floorOf a).isLt; omega)]
    split
    · next hlt => rw [BitVec.lt_def, hsub] at hlt; exact (Nat.max_eq_right (Nat.le_of_lt hlt)).symm
    · next hge => rw [BitVec.lt_def, hsub, Nat.not_lt] at hge; rw [hsub, Nat.max_eq_left hge]

/-- A service that is off or frozen does not step. -/
theorem execAvsStep_idle {s : State} {d : Nat} (h : (getDie s d).avs.en = false ∨ (getDie s d).avs.frozen = true) :
    execAvsStep d s = .next (postFreeze s d) := by
  refine congrArg Host.Outcome.next (if_neg ?_)
  rintro ⟨-, -, hen, hfrozen⟩
  rcases h with h | h
  · rw [h] at hen; exact Bool.false_ne_true hen
  · rw [h] at hfrozen; exact Bool.false_ne_true hfrozen.symm

/-! ## In-field tests -/

/-- R381: what a test leaves, up to its report. -/
def testDone (s : State) (units : BitVec 7) : State :=
  let h := s.recovery.iftHearth
  let t := if units = 0 then modHearth (zeroScratch s h) h fun x => { x with lastPass := Config.freeTime s.tick, passSeals := x.sealNext }
    else zeroScratch s h
  { t with recovery := { s.recovery with iftBusy := false, iftRes := if units = 0 then 0 else 2, iftDone := s.recovery.iftDone + 1 } }

theorem execIftComplete_eq {s : State} (units : BitVec 7) (hbusy : s.recovery.iftBusy = true) :
    ∃ d1 d2 d3, execIftComplete units s = .next (post (testDone s units) (mkReport 7 (if units = 0 then 0 else 16) 0
      (coreUnit (4 * s.recovery.iftHearth) 3) 0 0 units.toNat d1 d2 d3)) := by
  unfold execIftComplete testDone
  rw [if_neg (by rw [hbusy]; exact nofun)]
  by_cases h : units = 0
  · refine ⟨0, 0, 0, ?_⟩
    dsimp only
    rw [if_pos h, if_pos h, if_pos h, if_pos h, h]
    rfl
  · refine ⟨(iftData (getHearth s s.recovery.iftHearth) units).2.1, (iftData (getHearth s s.recovery.iftHearth) units).2.2.1,
      (iftData (getHearth s s.recovery.iftHearth) units).2.2.2, ?_⟩
    dsimp only
    rw [if_neg h, if_neg h, if_neg h, if_neg h]
    rfl

theorem testDone_keeps (s : State) (units : BitVec 7) : (testDone s units).mem = (zeroScratch s s.recovery.iftHearth).mem ∧
    (testDone s units).cores = s.cores ∧ (testDone s units).tasks = s.tasks ∧ (testDone s units).ring = s.ring ∧
    (testDone s units).reports = s.reports ∧ (testDone s units).hostUp = s.hostUp ∧ (testDone s units).boot = s.boot := by
  unfold testDone
  dsimp only
  split <;> exact ⟨rfl, rfl, rfl, rfl, rfl, rfl, rfl⟩

/-- A hearth's scratchpad reads zero after a test, and nothing else changes. -/
theorem cellGet_zeroScratch (s : State) (h a : Nat) : cellGet (zeroScratch s h).mem a =
    if a < scratchOff h 0 ∨ scratchOff h 0 + 2 ^ 24 ≤ a then cellGet s.mem a else 0 := by
  unfold zeroScratch
  dsimp only
  rw [cellGet_filter s.mem (fun k => decide (k < scratchOff h 0) || decide (scratchOff h 0 + 2 ^ 24 ≤ k)) a]
  simp only [Bool.or_eq_true, decide_eq_true_eq]

/-- Settles O49. -/
theorem voltageServiceAndInFieldTests : Obligations.VoltageServiceAndInFieldTests := by
  unfold Obligations.VoltageServiceAndInFieldTests
  refine ⟨fun s d v hd => ?voltage, fun s v units => ?tests⟩
  case voltage =>
    intro a gives
    have hself := fun b => (avsSet_only s d b).1
    have hrest : ∀ b, (∀ e, e ≠ d → getDie (avsSet s d b) e = getDie s e) ∧ (avsSet s d b).mem = s.mem ∧ (avsSet s d b).cores = s.cores ∧
      (avsSet s d b).tasks = s.tasks ∧ (avsSet s d b).reports = s.reports := fun b => ⟨(avsSet_only s d b).2, rfl, rfl, rfl, rfl⟩
    refine ⟨fun hclosed i hi => ?_, fun hbar hchain => ⟨fun hcmd => ?_, fun hcmd => ?_, fun hle => ?_, fun hlt => ?_, fun hnone => ?_,
      fun cls inst point hnamed => ?_⟩, fun hphase hfence hen hfrozen hnone => ?_, fun hidle hnone => ?_, fun cls inst point hfrozen hnamed => ?_⟩
    · have hquiet : ∀ f : State → State, (barOpen s = true → f s = s) → onBar s f = .next s := fun f h => by
        cases hbar : barOpen s with
        | false => exact onBar_closed hbar f
        | true => rw [onBar_open hbar, h hbar]
      have hoff : barOpen s = true → hostChain s d = false := fun h => hclosed.resolve_left (by rw [h]; exact nofun)
      have hwrite : ∀ w, barOpen s = true → writeAvs s d w = s := fun w hbar => by
        rw [writeAvs, if_neg (Nat.not_le.2 hd), onDie_off (hoff hbar)]
      simp only [List.mem_cons, List.not_mem_nil, or_false] at hi
      rcases hi with rfl | rfl | rfl | rfl
      · exact show execAvsEnable d v s = _ from hquiet _ (hwrite _)
      · exact show execAvsDisable d v s = _ from hquiet _ (hwrite _)
      · exact show execAvsRaisePoint d s = _ from hquiet _ fun hbar => onDie_off (hoff hbar)
      · exact show execAvsResume d s = _ from hquiet _ fun hbar => onDie_off (hoff hbar)
    · obtain ⟨hc, hbit, hfloor⟩ := extract_or_one v
      refine ⟨avsSet s d _, show execAvsEnable d v s = _ from (onBar_open hbar _).trans
        (congrArg Host.Outcome.next (writeAvs_quiet hd hchain (hc.trans hcmd))), ?_, hrest _⟩
      rw [hself, hbit, hfloor]
      exact ⟨rfl, rfl, rfl, rfl⟩
    · obtain ⟨hc, hbit, hfloor⟩ := extract_and_not_one v
      refine ⟨avsSet s d _, show execAvsDisable d v s = _ from (onBar_open hbar _).trans
        (congrArg Host.Outcome.next (writeAvs_quiet hd hchain (hc.trans hcmd))), ?_, hrest _⟩
      rw [hself, hbit, hfloor]
      exact ⟨rfl, rfl, rfl⟩
    · refine ⟨avsSet s d (raisePoint a), show execAvsRaisePoint d s = _ from (onBar_open hbar _).trans
        (congrArg Host.Outcome.next (onDie_on hchain)), ?_, hrest _⟩
      rw [hself, raisePoint, if_neg (BitVec.not_lt.2 hle)]
    · refine ⟨avsSet s d (raisePoint a), show execAvsRaisePoint d s = _ from (onBar_open hbar _).trans
        (congrArg Host.Outcome.next (onDie_on hchain)), ?_, hrest _⟩
      rw [hself, raisePoint, if_pos hlt]
    · refine ⟨avsSet s d { a with frozen := false }, show execAvsResume d s = _ from (onBar_open hbar _).trans (congrArg Host.Outcome.next
        ((onDie_on hchain).trans ?_)), hself _, hrest _⟩
      rw [postFreeze_none hnone]
      rfl
    · refine ⟨_, show execAvsResume d s = _ from (onBar_open hbar _).trans (congrArg Host.Outcome.next (onDie_on hchain)), ?_, ?_⟩
      · rw [getDie_modDie, if_pos rfl, postFreeze_some hnamed]
        dsimp only
        rw [getDie, post_dies, ← getDie, getDie_modDie, if_pos rfl]
      · rw [postFreeze_some hnamed]
        exact post_ring_of_avs s d (fun a => { a with named := none }) (freezeReport d cls inst point)
    · have hstep : execAvsStep d s = .next (avsSet s d (lowerPoint a)) := congrArg Host.Outcome.next
        ((if_pos ⟨hphase, hfence, hen, hfrozen⟩).trans (congrArg (fun t => modDie t d fun x => { x with avs := lowerPoint x.avs })
          (postFreeze_none hnone)))
      exact ⟨_, show execAvsStep d s = _ from hstep, (hself _).trans (lowerPoint_eq a), hrest _⟩
    · exact show execAvsStep d s = _ from (execAvsStep_idle hidle).trans (congrArg Host.Outcome.next (postFreeze_none hnone))
    · exact show execAvsStep d s = _ from (execAvsStep_idle (.inr hfrozen)).trans (congrArg Host.Outcome.next (postFreeze_some hnamed))
  case tests =>
    intro h allowed
    refine ⟨fun hbar hstart hbusy hchain => ?_, fun hidle => ?_, fun hbusy => ?_, fun hbusy => ?_⟩
    · have hgo : ¬ (v.getLsbD 7 = false ∨ s.recovery.iftBusy = true ∨ (h < 96 ∧ hostChain s (h / 24) = false)) := by
        rw [hstart, hbusy]
        rintro (hf | hf | ⟨hlt, hf⟩)
        · exact absurd hf nofun
        · exact absurd hf nofun
        · exact absurd ((hchain hlt).symm.trans hf) nofun
      have hrefused : (96 ≤ h ∨ fenced s (h / 24) = true ∨ (getDie s (h / 24)).dispmask.getLsbD (h % 24) = true ∨ hearthUsed s h = true) ↔
          ¬ allowed := by
        simp only [allowed, ← Nat.not_lt, ← Bool.not_eq_true]
        tauto
      exact ⟨fun hok => show execIftStart v s = _ from (onBar_open hbar _).trans (congrArg Host.Outcome.next
          ((if_neg hgo).trans (if_neg fun hr => hrefused.1 hr hok))),
        fun hno => show execIftStart v s = _ from (onBar_open hbar _).trans (congrArg Host.Outcome.next
          ((if_neg hgo).trans (if_pos (hrefused.2 hno))))⟩
    · cases hbar : barOpen s with
      | false => exact show execIftStart v s = _ from onBar_closed hbar _
      | true => exact show execIftStart v s = _ from (onBar_open hbar _).trans (congrArg Host.Outcome.next
          (if_pos (hidle.resolve_left (by rw [hbar]; exact nofun))))
    · exact show execIftComplete units s = _ from congrArg Host.Outcome.next (if_pos hbusy)
    · obtain ⟨d1, d2, d3, heq⟩ := execIftComplete_eq units hbusy
      obtain ⟨hmem, hcores, htasks, hring, hreports, hup, hboot⟩ := testDone_keeps s units
      refine ⟨_, show execIftComplete units s = _ from heq, ?_, ?_, ?_, fun o ho => ?_, fun x hx => ?_, ?_, ?_,
        testDone s units, d1, d2, d3, hring, hreports, hup, hboot, rfl⟩
      · rw [post_recovery]; rfl
      · rw [post_recovery]; rfl
      · rw [post_recovery]; rfl
      · rw [post_mem, hmem, cellGet_zeroScratch, if_neg (by omega)]
      · rw [post_mem, hmem, cellGet_zeroScratch, if_pos hx]
      · rw [post_cores, hcores]
      · rw [post_tasks, htasks]

end Sys2Proof.Voltage

/-! SUPPORT. Corrected and uncorrected memory errors (spec/17 R376 to R378): O48. -/

namespace Sys2Proof.MemErrors

open Sys2Proof Sys2Proof.Machine Sys2Proof.Laws Sys2Proof.Posts Sys2Proof.HostRegs Sys2Proof.Voltage

/-! ## Corrected errors -/

section
variable {s : State} {cls inst : Nat}

/-- The count of an ECC array goes up. -/
def counted (s : State) (cls inst : Nat) (n : W32) : State :=
  { s with recovery := { s.recovery with ecc := tabSet s.recovery.ecc (eccKey cls inst) n } }

/-- The report of an ECC array that reached its threshold is not made again. -/
def fired (s : State) (cls inst : Nat) (n : W32) : State :=
  { s with recovery := { s.recovery with
    ecc := tabSet s.recovery.ecc (eccKey cls inst) n, eccFired := s.recovery.eccFired ++ [eccKey cls inst] } }

/-- The count of an ECC array is cleared, and its report may be made again. -/
def cleared (s : State) (cls inst : Nat) : State :=
  { s with recovery := { s.recovery with
    ecc := tabErase s.recovery.ecc (eccKey cls inst), eccFired := s.recovery.eccFired.filter (fun x => x != eccKey cls inst) } }

theorem count_counted (n : W32) : tabGet (counted s cls inst n).recovery.ecc (eccKey cls inst) 0 = n := tabGet_tabSet_self ..

theorem count_fired (n : W32) : tabGet (fired s cls inst n).recovery.ecc (eccKey cls inst) 0 = n := tabGet_tabSet_self ..

/-- The report of an ECC array at its threshold. -/
def thresholdReport (s : State) (cls inst : Nat) (n : W32) : Report :=
  mkReport 3 0 2 (BitVec.ofNat 14 (eccDie cls inst)) 0 0 cls inst n.toNat (tabGet s.recovery.thresh cls 0).toNat

theorem correctedEccError_below {n : W32} (hphase : s.boot.phase = .normal) (hinst : inst < eccInstances cls)
    (hn : satInc (tabGet s.recovery.ecc (eccKey cls inst) 0) = n)
    (h : tabGet s.recovery.thresh cls 0 = 0 ∨ n < tabGet s.recovery.thresh cls 0 ∨ eccKey cls inst ∈ s.recovery.eccFired) :
    execCorrectedEccError cls inst s = .next (counted s cls inst n) := by
  subst hn
  unfold execCorrectedEccError
  rw [if_neg (not_or.2 ⟨not_not.2 hphase, Nat.not_le.2 hinst⟩)]
  dsimp only
  rw [if_neg]
  · rfl
  · rintro ⟨h0, hle, hfired⟩
    rcases h with h | h | h
    · exact h0 h
    · exact BitVec.not_lt.2 hle h
    · rw [List.contains_iff_mem.2 h] at hfired
      exact Bool.noConfusion hfired

theorem correctedEccError_reached {n : W32} (hphase : s.boot.phase = .normal) (hinst : inst < eccInstances cls)
    (hn : satInc (tabGet s.recovery.ecc (eccKey cls inst) 0) = n) (hthresh : tabGet s.recovery.thresh cls 0 ≠ 0)
    (hle : tabGet s.recovery.thresh cls 0 ≤ n) (hfired : eccKey cls inst ∉ s.recovery.eccFired) :
    execCorrectedEccError cls inst s =
      .next (freezeAvs (post (fired s cls inst n) (thresholdReport s cls inst n)) (eccDie cls inst) cls inst) := by
  subst hn
  unfold execCorrectedEccError
  rw [if_neg (not_or.2 ⟨not_not.2 hphase, Nat.not_le.2 hinst⟩)]
  dsimp only
  rw [if_pos ⟨hthresh, hle, Bool.eq_false_iff.2 fun h => hfired (List.contains_iff_mem.1 h)⟩]
  rfl

theorem freezeAvs_keeps (s : State) (d cls inst : Nat) : (freezeAvs s d cls inst).recovery = s.recovery ∧ (freezeAvs s d cls inst).mem = s.mem ∧
    (freezeAvs s d cls inst).cores = s.cores ∧ (freezeAvs s d cls inst).tasks = s.tasks := by
  unfold freezeAvs
  dsimp only
  split
  · split <;> exact ⟨rfl, rfl, rfl, rfl⟩
  · split <;> exact ⟨rfl, rfl, rfl, rfl⟩

/-- Whatever the threshold, the error counts, and no memory, core or task changes. -/
theorem correctedEccError_counts {n : W32} (hphase : s.boot.phase = .normal) (hinst : inst < eccInstances cls)
    (hn : satInc (tabGet s.recovery.ecc (eccKey cls inst) 0) = n) :
    ∃ t, execCorrectedEccError cls inst s = .next t ∧ tabGet t.recovery.ecc (eccKey cls inst) 0 = n ∧ t.mem = s.mem ∧ t.cores = s.cores ∧
      t.tasks = s.tasks := by
  by_cases h : tabGet s.recovery.thresh cls 0 = 0 ∨ n < tabGet s.recovery.thresh cls 0 ∨ eccKey cls inst ∈ s.recovery.eccFired
  · exact ⟨_, correctedEccError_below hphase hinst hn h, count_counted n, rfl, rfl, rfl⟩
  · simp only [not_or] at h
    obtain ⟨h0, hlt, hfired⟩ := h
    obtain ⟨hrec, hmem, hcores, htasks⟩ := freezeAvs_keeps (post (fired s cls inst n) (thresholdReport s cls inst n)) (eccDie cls inst) cls inst
    refine ⟨_, correctedEccError_reached hphase hinst hn h0 (BitVec.not_lt.1 hlt) hfired, ?_, ?_, ?_, ?_⟩
    · rw [hrec, post_recovery]
      exact count_fired n
    · rw [hmem, post_mem]
      rfl
    · rw [hcores, post_cores]
      rfl
    · rw [htasks, post_tasks]
      rfl

theorem getDie_post_fired (d : Nat) (n : W32) (r : Report) : getDie (post (fired s cls inst n) r) d = getDie s d := by
  rw [getDie, post_dies]
  rfl

/-- R379: a service that is off does not freeze. -/
theorem freezeAvs_off {d : Nat} (hen : (getDie s d).avs.en = false) (hnamed : (getDie s d).avs.named = none) : freezeAvs s d cls inst = s := by
  unfold freezeAvs
  dsimp only
  rw [hnamed]
  exact if_neg fun h => Bool.false_ne_true (hen.symm.trans h.1)

/-- R379: one that is on freezes at its point, and names the counter when it was not frozen yet. -/
theorem freezeAvs_on {d : Nat} (hen : (getDie s d).avs.en = true) (hnamed : (getDie s d).avs.named = none) :
    (getDie (freezeAvs s d cls inst) d).avs.frozen = true ∧ (getDie (freezeAvs s d cls inst) d).avs.point = (getDie s d).avs.point ∧
    ((getDie s d).avs.frozen = false → (getDie (freezeAvs s d cls inst) d).avs.named = some (cls, inst, (getDie s d).avs.point)) := by
  unfold freezeAvs
  dsimp only
  rw [hnamed]
  cases hfrozen : (getDie s d).avs.frozen with
  | true =>
    rw [if_neg fun h => Bool.false_ne_true h.2.symm]
    exact ⟨hfrozen, rfl, nofun⟩
  | false =>
    rw [if_pos ⟨hen, rfl⟩, getDie_modDie, if_pos rfl]
    exact ⟨rfl, rfl, fun _ => rfl⟩

end

/-- A matrix unit without the counter that MCSEL selects. -/
def counterClear (sel : Nat) (c : Machine.Core) : Machine.Core :=
  { c with mu := match sel with
    | 0 => { c.mu with dis0 := 0 }
    | 1 => { c.mu with dis1 := 0 }
    | 2 => { c.mu with unres := 0 }
    | _ => { c.mu with abandon := 0 } }

theorem counterClear_tiles (sel : Nat) (c : Machine.Core) : (counterClear sel c).mu.tiles = c.mu.tiles := by
  unfold counterClear
  rcases sel with _ | _ | _ | n <;> rfl

theorem clearMatrixCounter_eq {s : State} {core : Nat} (hcore : core < 384) (hsel : (s.recovery.mcsel.extractLsb' 0 9).toNat = core)
    (hchain : hostChain s (dieOf core) = true) :
    clearMatrixCounter s = modCore s core (counterClear (s.recovery.mcsel.extractLsb' 9 2).toNat) := by
  unfold clearMatrixCounter
  rw [hsel]
  exact (if_neg (Nat.not_le.2 hcore)).trans (onDie_on hchain)

/-! ## Uncorrected errors -/

section
variable {s : State}

theorem markBad_marks (s : State) (b : BadWord) : b ∈ (markBad s b).eccBad ∧ ∀ x ∈ s.eccBad, x.key ≠ b.key → x ∈ (markBad s b).eccBad :=
  ⟨List.mem_cons_self .., fun _ hx hne => List.mem_cons_of_mem _ (List.mem_filter.2 ⟨hx, bne_iff_ne.2 hne⟩)⟩

theorem uncorrectedEccError_normal (hphase : s.boot.phase = .normal) {t : State} {x : State} (h : x = t) :
    (Host.Outcome.next (if s.boot.phase ≠ .normal then s else x) : Out) = .next t := by
  rw [if_neg (not_not.2 hphase), h]

/-- What is in error stays in error while a task is settled. -/
def ErrorsKept (s t : State) : Prop := ∀ u, (tabFind t.tasks u).bind (fun k => k.error) = (tabFind s.tasks u).bind (fun k => k.error)

namespace ErrorsKept
variable {t w : State}

theorem of_tasks (h : t.tasks = s.tasks) : ErrorsKept s t := fun u => by rw [h]

theorem trans (h : ErrorsKept s t) (h' : ErrorsKept t w) : ErrorsKept s w := fun u => (h' u).trans (h u)

theorem modTask (s : State) (u : Nat) {f : Machine.Task → Machine.Task} (hf : ∀ k, (f k).error = k.error) : ErrorsKept s (modTask s u f) := fun x => by
  rw [tabFind_modTask]
  split
  · next h =>
    subst h
    cases tabFind s.tasks x with
    | none => rfl
    | some k => exact hf k
  · rfl

end ErrorsKept

/-- A task that has left its cores, with what its units still hold. -/
def leftTask (left : List Machine.Core) (t : Machine.Task) : Machine.Task := { t with st := 5, preempt := false, yielded := false, saved := left }

theorem dropState_tasks (s : State) (u : Nat) (k : Machine.Task) : (dropState s u k).tasks = s.tasks :=
  Quiet.foldl_tasks _ (fun s i => modCore_tasks s i _) s

theorem errorsKept_endUnits (s : State) (u : Nat) (k : Machine.Task) : ErrorsKept s (endUnits s u k) := by
  have hend : ∀ t : State, t.tasks = s.tasks →
      ErrorsKept s (Machine.modTask t u fun t => { t with st := 5, saved := [], preempt := false, yielded := false }) := fun t h =>
    (ErrorsKept.of_tasks h).trans (ErrorsKept.modTask _ u fun _ => rfl)
  unfold endUnits
  dsimp only
  split
  · exact (hend _ ((dropState_tasks ..).trans (Quiet.abandonSaved_tasks s k))).trans (.of_tasks rfl)
  · exact hend _ (Quiet.abandonSaved_tasks s k)

theorem errorsKept_settleTask (s : State) (u : Nat) : ErrorsKept s (settleTask s u) := by
  unfold settleTask
  split
  · exact .of_tasks rfl
  next k hk =>
    dsimp only
    split
    · have hleft : ErrorsKept s ((gangOf k).foldl (fun s c => modCore s c leaveCore) ((gangOf k).foldl abandonAll s)) :=
        .of_tasks ((Quiet.leaveCores_tasks ..).trans (Quiet.foldl_tasks _ Quiet.abandonAll_tasks s))
      have hmod := ErrorsKept.modTask ((gangOf k).foldl (fun s c => modCore s c leaveCore) ((gangOf k).foldl abandonAll s)) u
        (f := leftTask (lastUnits u ((gangOf k).map (getCore ((gangOf k).foldl abandonAll s))))) fun _ => rfl
      exact (hleft.trans hmod).trans (.of_tasks rfl)
    · split
      · exact errorsKept_endUnits s u k
      · exact .of_tasks rfl

theorem errorsKept_settleCore (s : State) (core : Nat) : ErrorsKept s (settleCore s core) := by
  unfold settleCore
  split
  · exact errorsKept_settleTask s _
  · exact .of_tasks rfl

theorem settleCore_mem (s : State) (core : Nat) : (settleCore s core).mem = s.mem := by
  unfold settleCore
  split
  · exact (WaitEnds.idles_settleTask s _).mem
  · rfl

/-- R378: an error in a register file or in the instruction memory ends the core's task in error with class 3. -/
theorem eccCore_ends {core u cls : Nat} {k : Machine.Task} (hu : (getCore s core).task = some u) (hk : tabFind s.tasks u = some k)
    (hnone : k.error = none) : (eccCore s core cls).mem = s.mem ∧
    ∃ k', tabFind (eccCore s core cls).tasks u = some k' ∧ k'.error.map (fun e => e.cls) = some 3 := by
  let s1 := post s (eccReport (dieOf core) 0 cls core)
  let s2 := endInError s1 u 3 0 (coreUnit core 3) 0 0
  have heq : eccCore s core cls = settleCore s2 core := by
    unfold eccCore
    dsimp only
    rw [hu] <;> rfl
  have herr := TrapReturn.tabFind_endInError (s := s1) (u := u) (cls := 3) (kind := 0) (unit := coreUnit core 3) (addr := 0) (info := 0) (k := k)
    (by rw [post_tasks]; exact hk) hnone
  rw [← errorsKept_settleCore s2 core u, ← heq] at herr
  refine ⟨?_, ?_⟩
  · rw [heq, settleCore_mem, endInError_mem, post_mem]
  · cases hfind : tabFind (eccCore s core cls).tasks u with
    | none =>
      rw [hfind] at herr
      exact absurd herr nofun
    | some k' =>
      rw [hfind] at herr
      refine ⟨k', rfl, ?_⟩
      rw [show k'.error = _ from herr]
      rfl

/-- A tile of a core changes, and nothing else on any core. -/
theorem tileOf_modTileAt (s : State) (core n : Nat) (f : Tile → Tile) :
    tileOf (getCore (modTileAt s core n f) core) n = f (tileOf (getCore s core) n) ∧
    ∀ j, j ≠ core → getCore (modTileAt s core n f) j = getCore s j := by
  refine ⟨?_, fun j hj => ?_⟩
  · rw [modTileAt, getCore_modCore_self]
    exact tabGet_tabSet_self ..
  · exact getCore_modCore_ne _ _ hj

theorem eccHeld_epoch {core n : Nat} {x : Epoch} {r : HeldRow} {l : List HeldRow} (hx : (tileOf (getCore s core) n).epoch = some x)
    (hl : x.held = r :: l) : eccHeld s core n = post (modTileAt s core n fun x' => { x' with epoch := some { x with held := badRow x.held } })
      (eccReport (hearthOf core / 24) r.pa 1 (hearthOf core)) := by
  simp only [eccHeld, hx, hl]

theorem eccStore_held {core n u : Nat} {k : Machine.Task} {h : HeldStore} (hu : (getCore s core).task = some u) (hk : tabFind s.tasks u = some k)
    (hh : k.held[n]? = some h) (htile : h.tile = none) :
    eccStore s core n = post (modTask s u fun t => { t with held := modifyAt t.held n fun k => { k with rows := badRow k.rows } })
      (eccReport (hearthOf core / 24) (((h.rows.head?).map fun r => r.pa).getD 0) 1 (hearthOf core)) := by
  have htask : taskOf s core = some k := by
    rw [taskOf, hu]
    exact hk
  simp only [eccStore, hu, htask, hh, htile, Option.isSome_none, Bool.false_eq_true, if_false]

theorem getElem?_modifyAt {α : Type} {l : List α} {n : Nat} {x : α} (h : l[n]? = some x) (f : α → α) : (modifyAt l n f)[n]? = some (f x) := by
  rw [modifyAt, List.getElem?_modify, h]
  exact congrArg some (if_pos rfl)

end

/-- Settles O48. -/
theorem memoryErrors : Obligations.MemoryErrors := by
  unfold Obligations.MemoryErrors
  refine ⟨fun s cls inst => ?corrected, fun s hphase => ?uncorrected⟩
  case corrected =>
    intro k count n thresh
    have hup : count s ≠ BitVec.allOnes 32 → satInc (tabGet s.recovery.ecc (eccKey cls inst) 0) = n := fun h => if_neg h
    refine ⟨fun hinst => ?_, fun hphase hinst hlow => ⟨?_, fun h => ?_, fun h0 hle hfired hen hnamed => ?_, fun h0 hle hfired hen hnamed => ?_⟩,
      fun hphase hinst hfull => ?_, fun hbar hchosen hchain => ?_, fun hbar hchosen hchain => ?_, fun core hbar hcore hsel hchain => ?_,
      fun hbar => ⟨show execEccCounterClear s = _ from onBar_closed hbar _, show execMatrixCounterClear s = _ from onBar_closed hbar _⟩⟩
    · exact show execCorrectedEccError cls inst s = _ from congrArg Host.Outcome.next (if_pos (.inr hinst))
    · obtain ⟨t, h, hcount, hmem, hcores, htasks⟩ := correctedEccError_counts hphase hinst (hup hlow)
      exact ⟨t, show execCorrectedEccError cls inst s = _ from h, hcount, hmem, hcores, htasks⟩
    · exact ⟨_, show execCorrectedEccError cls inst s = _ from correctedEccError_below hphase hinst (hup hlow) h, rfl, rfl, rfl, rfl⟩
    · refine show execCorrectedEccError cls inst s = _ from (correctedEccError_reached hphase hinst (hup hlow) h0 hle hfired).trans ?_
      rw [freezeAvs_off]
      · rfl
      · rw [getDie_post_fired]
        exact hen
      · rw [getDie_post_fired]
        exact hnamed
    · refine ⟨_, show execCorrectedEccError cls inst s = _ from correctedEccError_reached hphase hinst (hup hlow) h0 hle hfired, ?_⟩
      have h := freezeAvs_on (s := post (fired s cls inst n) (thresholdReport s cls inst n)) (cls := cls) (inst := inst) (d := eccDie cls inst)
        (by rw [getDie_post_fired]; exact hen) (by rw [getDie_post_fired]; exact hnamed)
      rw [getDie_post_fired] at h
      exact h
    · obtain ⟨t, h, hcount, -⟩ := correctedEccError_counts hphase hinst (show satInc (tabGet s.recovery.ecc (eccKey cls inst) 0) = _ from if_pos hfull)
      exact ⟨t, show execCorrectedEccError cls inst s = _ from h, hcount.trans hfull⟩
    · refine show execEccCounterClear s = _ from (onBar_open hbar _).trans (congrArg Host.Outcome.next ?_)
      rw [clearEcc, hchosen]
      exact onDie_off hchain
    · refine ⟨cleared s cls inst, show execEccCounterClear s = _ from (onBar_open hbar _).trans (congrArg Host.Outcome.next ?_), ?_, ?_, fun j hj => ?_,
        rfl, rfl⟩
      · rw [clearEcc, hchosen]
        exact onDie_on hchain
      · exact (tabGet_tabErase ..).trans (if_pos rfl)
      · exact fun h => bne_iff_ne.1 (List.mem_filter.1 h).2 rfl
      · exact (tabGet_tabErase ..).trans (if_neg hj)
    · refine ⟨_, show execMatrixCounterClear s = _ from onBar_open hbar _, readReg_clearMatrixCounter (by rw [hsel]; exact hchain), ?_⟩
      rw [clearMatrixCounter_eq hcore hsel hchain]
      refine ⟨rfl, ?_, ?_, fun j hj => getCore_modCore_ne _ _ hj⟩
      · rw [getCore_modCore_self] <;> rfl
      · rw [getCore_modCore_self]
        exact counterClear_tiles _ _
  case uncorrected =>
    intro marks
    have hmarks : ∀ site b, execUncorrectedEccError site s = .next (markBad s b) → marks site b := fun site b h =>
      ⟨_, show execUncorrectedEccError site s = _ from h, (markBad_marks s b).1, (markBad_marks s b).2, rfl, rfl, rfl⟩
    refine ⟨fun a ha => ?_, fun a ha => ?_, fun a ha => ?_, fun d a hd hlocal hdirty => ?_, fun d a hd hdirty hclean => ?_,
      fun core e n hcore he hn => ?_, fun core n x r l hcore hn hepoch hheld => ?_, fun core n u k h r l hcore hu hk hh htile hrows => ?_,
      fun core u k site hcore hsite hu hk hnone => ?_⟩
    · refine hmarks _ _ (uncorrectedEccError_normal hphase ?_)
      have hword : codeWord a = 8 := if_pos ha
      exact (if_pos ha).trans (by rw [hword])
    · refine hmarks _ _ (uncorrectedEccError_normal hphase ?_)
      have hnot : isScratchKey a = false := by
        rw [isScratchKey, decide_eq_false (Nat.not_le.2 (Nat.lt_trans ha (by decide))), Bool.false_and]
      have hword : codeWord a = 32 := if_neg (by rw [hnot]; exact Bool.false_ne_true)
      exact (if_neg (by rw [hnot]; exact Bool.false_ne_true)).trans ((if_pos ha).trans (by rw [hword]))
    · exact hmarks _ _ (uncorrectedEccError_normal hphase (if_pos ha))
    · exact hmarks _ _ (uncorrectedEccError_normal hphase ((if_neg (Nat.not_le.2 hd)).trans (if_pos (List.contains_iff_mem.2 hdirty))))
    · refine ⟨_, show execUncorrectedEccError (.cache d a) s = _ from uncorrectedEccError_normal hphase ((if_neg (Nat.not_le.2 hd)).trans
        ((if_neg fun h => hdirty (List.contains_iff_mem.1 h)).trans (if_pos (by rw [List.contains_iff_mem.2 hclean, Bool.or_true])))), ?_, rfl, rfl, rfl⟩
      rw [getDie_modDie, if_pos rfl]
      exact List.mem_cons_self ..
    · refine ⟨_, show execUncorrectedEccError (.tile core e n) s = _ from uncorrectedEccError_normal hphase (if_neg (by omega)), ?_⟩
      obtain ⟨htile, hothers⟩ := tileOf_modTileAt s core n fun x => { x with bad := x.bad ||| BitVec.ofNat 2 (2 ^ e) }
      simp only [post_mem, Frames.getCore_congr (post_cores _ _)]
      rw [htile]
      exact ⟨rfl, rfl, rfl, rfl, hothers⟩
    · obtain ⟨htile, -⟩ := tileOf_modTileAt s core n fun x' => { x' with epoch := some { x with held := badRow x.held } }
      refine ⟨_, show execUncorrectedEccError (.held core n) s = _ from uncorrectedEccError_normal hphase ((if_neg (by omega)).trans
        (eccHeld_epoch hepoch hheld)), by rw [post_mem]; rfl, { x with held := badRow x.held }, ?_, by rw [hheld]; rfl⟩
      rw [Frames.getCore_congr (post_cores _ _), htile]
    · refine ⟨_, show execUncorrectedEccError (.store core n) s = _ from uncorrectedEccError_normal hphase ((if_neg (by omega)).trans
        (eccStore_held hu hk hh htile)), ?_, ?_, { k with held := modifyAt k.held n fun k => { k with rows := badRow k.rows } }, ?_, ?_⟩
      · rw [post_mem, modTask_mem]
      · rw [post_cores, modTask_cores]
      · rw [post_tasks, tabFind_modTask, if_pos rfl, hk]
        rfl
      · rw [getElem?_modifyAt hh, hrows]
        rfl
    · simp only [List.mem_cons, List.not_mem_nil, or_false] at hsite
      rcases hsite with rfl | rfl
      · obtain ⟨hmem, hends⟩ := eccCore_ends (s := modCore s core fun c => { c with fileBad := true }) (cls := 2)
          (by rw [getCore_modCore_self]; exact hu) hk hnone
        exact ⟨_, show execUncorrectedEccError (.file core) s = _ from uncorrectedEccError_normal hphase (if_neg (by omega)), hmem, hends⟩
      · obtain ⟨hmem, hends⟩ := eccCore_ends (cls := 4) hu hk hnone
        exact ⟨_, show execUncorrectedEccError (.imem core) s = _ from uncorrectedEccError_normal hphase (if_neg (by omega)), hmem, hends⟩

end Sys2Proof.MemErrors

/-! SUPPORT. Context commands and fencing (spec/16 R353, R354, R360 and R368): O47. -/

namespace Sys2Proof.Contexts

open Sys2Proof Sys2Proof.Machine Sys2Proof.Laws Sys2Proof.Posts Sys2Proof.Voltage

/-! ## Context commands -/

section
variable {s : State}

/-- CTXCMD keeps the command. -/
def commanded (s : State) (op : BitVec 3) (c : BitVec 6) : State := { s with ctxBlock := { s.ctxBlock with cmd := c ++ op } }

theorem onCommand_ignored (h : barOpen s = false ∨ s.ctxBlock.busy = true) (op : BitVec 3) (c : BitVec 6) (f : State → State) :
    onCommand s op c f = .next s := by
  unfold onCommand
  cases hbar : barOpen s with
  | false => exact onBar_closed hbar _
  | true => exact (onBar_open hbar _).trans (congrArg Host.Outcome.next (if_pos (h.resolve_left (by rw [hbar]; exact nofun))))

theorem onCommand_runs (hbar : barOpen s = true) (hbusy : s.ctxBlock.busy = false) (op : BitVec 3) (c : BitVec 6) (f : State → State) :
    onCommand s op c f = .next (f (commanded s op c)) :=
  (onBar_open hbar _).trans (congrArg Host.Outcome.next (if_neg (by rw [hbusy]; exact nofun)))

theorem readCtxcmd_of_cmd {t : State} {op : BitVec 3} {c : BitVec 6} (h : t.ctxBlock.cmd = c ++ op) :
    readCtxcmd t = BitVec.ofNat 64 (op.toNat + 8 * c.toNat) := by
  refine BitVec.eq_of_toNat_eq ?_
  have hop := op.isLt
  have hc := c.isLt
  rw [readCtxcmd, h, BitVec.toNat_setWidth, BitVec.toNat_append, BitVec.toNat_ofNat, Nat.shiftLeft_eq, Nat.mul_comm, ← Nat.two_pow_add_eq_or_of_lt hop]
  congr 1
  omega

theorem tlb_keepCached (s : State) (keep : Tlb → Bool) (keepWalk : WalkEntry → Bool) (h : Nat) :
    (getHearth (keepCached s keep keepWalk) h).tlb = (getHearth s h).tlb.filter keep := by
  rw [getHearth, keepCached, tabGet_tabMap _ _ _ _ rfl]
  rfl

theorem die_keepCached (s : State) (keep : Tlb → Bool) (keepWalk : WalkEntry → Bool) (d : Nat) :
    (getDie (keepCached s keep keepWalk) d).tlb2 = (getDie s d).tlb2.filter keep ∧
    (getDie (keepCached s keep keepWalk) d).walks = (getDie s d).walks.filter keepWalk := by
  rw [getDie, keepCached, tabGet_tabMap _ _ _ _ rfl]
  exact ⟨rfl, rfl⟩

/-- No hearth and no die keeps a translation or a walk-cache entry of a context. -/
def NoEntries (t : State) (n : Nat) : Prop :=
  (∀ h, ∀ e ∈ (getHearth t h).tlb, e.asid ≠ n) ∧ (∀ d, ∀ e ∈ (getDie t d).tlb2, e.asid ≠ n) ∧ (∀ d, ∀ e ∈ (getDie t d).walks, e.asid ≠ n)

theorem noEntries_invalidateAll (s : State) (n : Nat) : NoEntries (invalidateAll s n) n := by
  refine ⟨fun h e he => ?_, fun d e he => ?_, fun d e he => ?_⟩
  · rw [invalidateAll, tlb_keepCached] at he
    exact bne_iff_ne.1 (List.mem_filter.1 he).2
  · rw [invalidateAll, (die_keepCached ..).1] at he
    exact bne_iff_ne.1 (List.mem_filter.1 he).2
  · rw [invalidateAll, (die_keepCached ..).2] at he
    exact bne_iff_ne.1 (List.mem_filter.1 he).2

/-- The translations and walk-cache entries of every other context stay. -/
def KeepsOthers (s t : State) (n : Nat) : Prop :=
  (∀ h, ∀ e ∈ (getHearth s h).tlb, e.asid ≠ n → e ∈ (getHearth t h).tlb) ∧
  (∀ d, ∀ e ∈ (getDie s d).tlb2, e.asid ≠ n → e ∈ (getDie t d).tlb2) ∧ (∀ d, ∀ e ∈ (getDie s d).walks, e.asid ≠ n → e ∈ (getDie t d).walks)

theorem keepsOthers_keepCached (s : State) {n : Nat} {keep : Tlb → Bool} {keepWalk : WalkEntry → Bool} (hkeep : ∀ e, e.asid ≠ n → keep e = true)
    (hwalk : ∀ e, e.asid ≠ n → keepWalk e = true) : KeepsOthers s (keepCached s keep keepWalk) n := by
  refine ⟨fun h e he hne => ?_, fun d e he hne => ?_, fun d e he hne => ?_⟩
  · rw [tlb_keepCached]
    exact List.mem_filter.2 ⟨he, hkeep e hne⟩
  · rw [(die_keepCached ..).1]
    exact List.mem_filter.2 ⟨he, hkeep e hne⟩
  · rw [(die_keepCached ..).2]
    exact List.mem_filter.2 ⟨he, hwalk e hne⟩

theorem keepsOthers_invalidateAll (s : State) (n : Nat) : KeepsOthers s (invalidateAll s n) n :=
  keepsOthers_keepCached s (fun _ => bne_iff_ne.2) fun _ => bne_iff_ne.2

theorem keepsOthers_invalidateRange (s : State) (n page len : Nat) : KeepsOthers s (invalidateRange s n page len) n := by
  refine keepsOthers_keepCached s (fun e hne => ?_) fun e hne => ?_ <;>
    rw [beq_false_of_ne hne, Bool.false_and, Bool.false_and] <;> rfl

/-- A page of the range lies in no kept entry: an entry that covers it overlaps the range. -/
theorem page_of_cover {va page len bits base : Nat} (hbits : 12 ≤ bits) (hlow : page ≤ va / 4096) (hhigh : va / 4096 < page + len)
    (hbase : va / 2 ^ bits = base) : base * 2 ^ (bits - 12) < page + len ∧ page < (base + 1) * 2 ^ (bits - 12) := by
  have hsplit : va / 2 ^ bits = va / 4096 / 2 ^ (bits - 12) := by
    rw [Nat.div_div_eq_div_mul, show (4096 : Nat) = 2 ^ 12 from rfl, ← Nat.pow_add, Nat.add_sub_cancel' hbits]
  rw [hsplit] at hbase
  subst hbase
  exact ⟨Nat.lt_of_le_of_lt (Nat.div_mul_le_self ..) hhigh,
    Nat.lt_of_le_of_lt hlow (by rw [Nat.mul_comm]; exact Nat.lt_mul_div_succ _ (Nat.two_pow_pos _))⟩

theorem not_kept {n m a b page len : Nat} (h : (!(m == n && decide (a < page + len) && decide (page < b))) = true) (hm : m = n)
    (hcover : a < page + len ∧ page < b) : False := by
  rw [hm, beq_self_eq_true, decide_eq_true hcover.1, decide_eq_true hcover.2] at h
  exact Bool.noConfusion h

/-- R360: an invalidation of pages leaves no entry that translates one of them. -/
theorem invalidateRange_covers (s : State) {n page len va : Nat} (hlow : page ≤ va / 4096) (hhigh : va / 4096 < page + len) :
    (∀ h, ∀ e ∈ (getHearth (invalidateRange s n page len) h).tlb, e.asid = n → 12 ≤ e.bits → va / 2 ^ e.bits ≠ e.base) ∧
    (∀ d, ∀ e ∈ (getDie (invalidateRange s n page len) d).tlb2, e.asid = n → 12 ≤ e.bits → va / 2 ^ e.bits ≠ e.base) ∧
    (∀ d, ∀ e ∈ (getDie (invalidateRange s n page len) d).walks, e.asid = n → va / 2 ^ (12 + 9 * e.level) ≠ e.base) := by
  refine ⟨fun h e he hn hbits hbase => ?_, fun d e he hn hbits hbase => ?_, fun d e he hn hbase => ?_⟩
  · rw [invalidateRange, tlb_keepCached] at he
    exact not_kept (List.mem_filter.1 he).2 hn (page_of_cover hbits hlow hhigh hbase)
  · rw [invalidateRange, (die_keepCached ..).1] at he
    exact not_kept (List.mem_filter.1 he).2 hn (page_of_cover hbits hlow hhigh hbase)
  · rw [invalidateRange, (die_keepCached ..).2] at he
    have hcover := page_of_cover (Nat.le_add_right 12 (9 * e.level)) hlow hhigh hbase
    rw [Nat.add_sub_cancel_left] at hcover
    exact not_kept (List.mem_filter.1 he).2 hn hcover

/-- Freeing an allocation writes its leaves and takes its translations away: the context block stays. -/
theorem release_ctxBlock (s : State) (die ctx base : Nat) : (release s die ctx base).ctxBlock = s.ctxBlock := by
  unfold release
  split
  · rfl
  next n _ _ =>
    exact foldl_keeps (P := fun t => t.ctxBlock = s.ctxBlock) (fun t k ht => by unfold writeLeaf; split <;> exact ht) (List.range n) rfl

/-- A command that ended with a result. -/
def Ended (s t : State) (res : BitVec 2) : Prop :=
  t.ctxBlock.busy = false ∧ t.ctxBlock.res = res ∧ t.ctxBlock.donecnt = s.ctxBlock.donecnt + 1

theorem ended_endCommand {s t : State} (h : t.ctxBlock.donecnt = s.ctxBlock.donecnt) (res : BitVec 2) : Ended s (endCommand t res) res :=
  ⟨rfl, rfl, by rw [← h]; rfl⟩

/-- The state without the entries of the pages that CTXARG names. -/
def ranged (s : State) (n : Nat) : State := invalidateRange s n s.ctxBlock.vpn.toNat (s.ctxBlock.npg.toNat + 1)

/-- What CREATE and DESTROY leave as it is, whatever they answer. -/
structure CommandKept (s t : State) : Prop where
  mem : t.mem = s.mem
  cores : t.cores = s.cores
  ctxs : t.ctxs = s.ctxs
  cmd : t.ctxBlock.cmd = s.ctxBlock.cmd
  donecnt : t.ctxBlock.donecnt = s.ctxBlock.donecnt

theorem commandKept_postRange (s : State) (die ctx pa n : Nat) : CommandKept s (postRange s die ctx pa n) := by
  refine foldl_keeps (P := CommandKept s) (fun t b h => ?_) _ ⟨rfl, rfl, rfl, rfl, rfl⟩
  obtain ⟨m, a, g, l, hpost⟩ := postEcc_postOnly t 2 (BitVec.ofNat 14 die) ctx (pa + (b.key - memKey t pa))
  rw [hpost]
  exact ⟨h.mem, h.cores, h.ctxs, h.cmd, h.donecnt⟩

theorem createCtx_live {n : Nat} (h : (getCtx s n).live = true) : createCtx s n = endCommand s 1 := if_pos h

theorem createCtx_unreadable {n : Nat} (h : (getCtx s n).live = false) (hd : readDescriptor s n = none) :
    ∃ t, CommandKept s t ∧ createCtx s n = endCommand t 2 := by
  refine ⟨if tableOk s (leadDie s) (descriptorPa s n) then postRange s (leadDie s) n (descriptorPa s n) 128 else s, ?_, ?_⟩
  · split
    · exact commandKept_postRange ..
    · exact ⟨rfl, rfl, rfl, rfl, rfl⟩
  · rw [createCtx, if_neg (by rw [h]; exact Bool.false_ne_true), hd]

theorem createCtx_bad {n : Nat} {d : Tab W64} (h : (getCtx s n).live = false) (hd : readDescriptor s n = some d) (hok : descriptorOk s d = false) :
    createCtx s n = endCommand s 2 := by
  rw [createCtx, if_neg (by rw [h]; exact Bool.false_ne_true), hd]
  exact if_pos hok

/-- A context that is live with a descriptor. -/
def created (s : State) (n : Nat) (d : Tab W64) : State :=
  { invalidateAll s n with ctxs := tabSet s.ctxs n { live := true, desc := d } }

theorem createCtx_good {n : Nat} {d : Tab W64} (h : (getCtx s n).live = false) (hd : readDescriptor s n = some d) (hok : descriptorOk s d = true) :
    createCtx s n = endCommand (created s n d) 0 := by
  rw [createCtx, if_neg (by rw [h]; exact Bool.false_ne_true), hd]
  exact if_neg (by rw [hok]; exact Bool.false_ne_true.symm)

/-- Whatever CREATE answers, it keeps memory, the cores, the other contexts and the command. -/
theorem createCtx_keeps (s : State) (n : Nat) : (createCtx s n).mem = s.mem ∧ (createCtx s n).cores = s.cores ∧
    (∀ k, k ≠ n → getCtx (createCtx s n) k = getCtx s k) ∧ (createCtx s n).ctxBlock.cmd = s.ctxBlock.cmd := by
  cases hlive : (getCtx s n).live with
  | true =>
    rw [createCtx_live hlive]
    exact ⟨rfl, rfl, fun _ _ => rfl, rfl⟩
  | false =>
    cases hd : readDescriptor s n with
    | none =>
      obtain ⟨t, ht, heq⟩ := createCtx_unreadable hlive hd
      rw [heq]
      refine ⟨ht.mem, ht.cores, fun k _ => ?_, ht.cmd⟩
      rw [getCtx, getCtx, show (endCommand t 2).ctxs = s.ctxs from ht.ctxs]
    | some d =>
      cases hok : descriptorOk s d with
      | false =>
        rw [createCtx_bad hlive hd hok]
        exact ⟨rfl, rfl, fun _ _ => rfl, rfl⟩
      | true =>
        rw [createCtx_good hlive hd hok]
        exact ⟨rfl, rfl, fun k hk => (tabGet_tabSet ..).trans (if_neg hk), rfl⟩

/-- The state in which DESTROY has freed what its context held. -/
def released (s : State) (n : Nat) : State := (getCtx s n).allocs.foldl (fun s a => release s ((hostPort s).getD 0) n a.1) s

theorem released_ctxBlock (s : State) (n : Nat) : (released s n).ctxBlock = s.ctxBlock :=
  foldl_keeps (P := fun t => t.ctxBlock = s.ctxBlock) (fun t _ ht => (release_ctxBlock t ..).trans ht) _ rfl

/-- The state without a context. -/
def destroyed (s : State) (n : Nat) : State :=
  { invalidateAll (released s n) n with
    ctxs := tabErase (released s n).ctxs n, colls := (released s n).colls.filter (fun x => x.ctx != n) }

theorem destroyCtx_busy {n : Nat} (h : ctxBusy s n = true) : destroyCtx s n = endCommand s 1 := if_pos h

theorem destroyCtx_idle {n : Nat} (h : ctxBusy s n = false) : destroyCtx s n = endCommand (destroyed s n) 0 :=
  if_neg (by rw [h]; exact Bool.false_ne_true)

theorem destroyCtx_cmd (s : State) (n : Nat) : (destroyCtx s n).ctxBlock.cmd = s.ctxBlock.cmd := by
  cases h : ctxBusy s n with
  | true => rw [destroyCtx_busy h]; rfl
  | false => rw [destroyCtx_idle h]; exact congrArg (fun b => b.cmd) (released_ctxBlock s n)

theorem endInvalidation_idle {n : Nat} (h : accessesOf s n = []) : endInvalidation s n = endCommand s 0 := by rw [endInvalidation, h]

/-- An invalidation that waits. -/
def waiting (s : State) (n : Nat) : State := { s with ctxBlock := { s.ctxBlock with busy := true, waits := accessesOf s n } }

theorem endInvalidation_waits {n : Nat} (h : accessesOf s n ≠ []) : endInvalidation s n = waiting s n := by
  unfold endInvalidation waiting
  split
  · next he => exact absurd he h
  · rfl

/-- Whether it waits or ends, an invalidation keeps the command and everything outside the context block. -/
theorem endInvalidation_keeps (s : State) (n : Nat) : ∃ b, endInvalidation s n = { s with ctxBlock := b } ∧ b.cmd = s.ctxBlock.cmd := by
  by_cases h : accessesOf s n = []
  · exact ⟨_, endInvalidation_idle h, rfl⟩
  · exact ⟨_, endInvalidation_waits h, rfl⟩

/-- R360: it ends at once where no access is under way, and waits otherwise. -/
theorem endInvalidation_ends (s : State) (n : Nat) : (accessesOf s n = [] → Ended s (endInvalidation s n) 0) ∧
    (accessesOf s n ≠ [] → (endInvalidation s n).ctxBlock.busy = true ∧ (endInvalidation s n).ctxBlock.donecnt = s.ctxBlock.donecnt) :=
  ⟨fun h => by rw [endInvalidation_idle h]; exact ended_endCommand rfl 0, fun h => by rw [endInvalidation_waits h]; exact ⟨rfl, rfl⟩⟩

end

/-! ## Fencing -/

section
variable {s t w : State}

/-- What the first steps of a fencing leave as it is. -/
structure Fencing (s t : State) : Prop where
  mem : t.mem = s.mem
  cores : t.cores = s.cores
  dies : t.dies = s.dies
  colls : t.colls = s.colls
  hostUp : t.hostUp = s.hostUp
  recovery : t.recovery = s.recovery
  queues : t.queues = s.queues

theorem Fencing.refl (s : State) : Fencing s s := ⟨rfl, rfl, rfl, rfl, rfl, rfl, rfl⟩

theorem Fencing.trans (h : Fencing s t) (h' : Fencing t w) : Fencing s w :=
  ⟨h'.mem.trans h.mem, h'.cores.trans h.cores, h'.dies.trans h.dies, h'.colls.trans h.colls, h'.hostUp.trans h.hostUp,
    h'.recovery.trans h.recovery, h'.queues.trans h.queues⟩

theorem fencing_of_post (h : PostOnly s t) : Fencing s t := by
  obtain ⟨m, a, g, l, rfl⟩ := h
  exact ⟨rfl, rfl, rfl, rfl, rfl, rfl, rfl⟩

theorem fencing_foldl {α : Type} {f : State → α → State} (hf : ∀ s a, Fencing s (f s a)) (l : List α) (s : State) : Fencing s (l.foldl f s) :=
  foldl_keeps (P := Fencing s) (fun t a h => h.trans (hf t a)) l (.refl s)

theorem dropLanes_post (s : State) (p : Nat) : PostOnly (modPort s p fun x => { x with before := [] }) (dropLanes s p) :=
  Fabric.postLanes_post s p _

theorem fencing_dropLanes (s : State) (p : Nat) : Fencing s (dropLanes s p) := by
  have hmod : Fencing s (modPort s p fun x => { x with before := [] }) := ⟨rfl, rfl, rfl, rfl, rfl, rfl, rfl⟩
  exact hmod.trans (fencing_of_post (dropLanes_post s p))

theorem fencing_noteError (s : State) (u : Nat) (e : ErrInfo) : Fencing s (noteError s u e) := by
  constructor <;> simp

theorem fencing_fenceTask (s : State) (d u : Nat) : Fencing s (fenceTask s d u) := by
  unfold fenceTask
  split
  · exact .refl s
  · split
    · constructor <;> simp
    · constructor <;> simp [leaveTurns]

theorem fencing_dropLaunch (s : State) (u : Nat) (e : ErrInfo) : Fencing s (dropLaunch s u e) := by
  constructor <;> simp [dropLaunch, leaveTurns]

theorem fencing_fenceShape (s : State) (d : Nat) : Fencing s (fenceShape s d) :=
  (fencing_foldl (fun s r => fencing_dropLaunch s _ _) _ s).trans ⟨rfl, rfl, rfl, rfl, rfl, rfl, rfl⟩

/-! The tasks of the die end. -/

/-- Every task that has ended stays ended. -/
def EndedStay (s t : State) : Prop := ∀ u, (∃ k, tabFind s.tasks u = some k ∧ k.st = 5) → ∃ k, tabFind t.tasks u = some k ∧ k.st = 5

theorem EndedStay.of_tasks (h : t.tasks = s.tasks) : EndedStay s t := fun u hu => by rw [h]; exact hu

theorem tabFind_noteError (s : State) (u v : Nat) (e : ErrInfo) :
    (tabFind (noteError s u e).tasks v).isSome = (tabFind s.tasks v).isSome ∧ (v ≠ u → tabFind (noteError s u e).tasks v = tabFind s.tasks v) := by
  unfold noteError
  split
  next k hk =>
    split
    · rw [tabFind_modTask]
      by_cases hv : v = u
      · rw [if_pos hv, hv, hk]
        exact ⟨rfl, fun h => absurd rfl h⟩
      · rw [if_neg hv]
        exact ⟨rfl, fun _ => rfl⟩
    · rw [launchError, modLaunch_tasks]
      exact ⟨rfl, fun _ => rfl⟩
  next => exact ⟨rfl, fun _ => rfl⟩

/-- What a task of the fenced die becomes. -/
def fencedTask (t : Machine.Task) : Machine.Task := { t with st := 5, saved := [], held := [], frees := [], preempt := false }

theorem fenceTask_tasks (s : State) (d u : Nat) {k : Machine.Task} (hk : tabFind s.tasks u = some k) (hst : k.st ≠ 5) :
    (fenceTask s d u).tasks = (Machine.modTask (noteError s u (fenceError d)) u fencedTask).tasks := by
  rw [fenceTask, hk]
  exact (congrArg State.tasks (if_neg hst)).trans rfl

theorem fenceTask_ends (s : State) (d u : Nat) {k : Machine.Task} (hk : tabFind s.tasks u = some k) :
    ∃ k', tabFind (fenceTask s d u).tasks u = some k' ∧ k'.st = 5 := by
  by_cases h : k.st = 5
  · have heq : fenceTask s d u = modTask s u fun t => { t with saved := [] } := by
      rw [fenceTask, hk]
      exact if_pos h
    exact ⟨{ k with saved := [] }, by rw [heq, tabFind_modTask, if_pos rfl, hk]; rfl, h⟩
  · rw [fenceTask_tasks s d u hk h, tabFind_modTask, if_pos rfl]
    have hsome := (tabFind_noteError s u u (fenceError d)).1
    rw [hk] at hsome
    obtain ⟨k', hk'⟩ := Option.isSome_iff_exists.1 hsome
    exact ⟨fencedTask k', by rw [hk']; rfl, rfl⟩

theorem fenceTask_other (s : State) (d : Nat) {u v : Nat} (hv : v ≠ u) : tabFind (fenceTask s d u).tasks v = tabFind s.tasks v := by
  cases hk : tabFind s.tasks u with
  | none => rw [fenceTask, hk]
  | some k =>
    by_cases h : k.st = 5
    · have heq : fenceTask s d u = modTask s u fun t => { t with saved := [] } := by
        rw [fenceTask, hk]
        exact if_pos h
      rw [heq, tabFind_modTask, if_neg hv]
    · rw [fenceTask_tasks s d u hk h, tabFind_modTask, if_neg hv, (tabFind_noteError s u v (fenceError d)).2 hv]

theorem endedStay_fenceTask (s : State) (d u : Nat) : EndedStay s (fenceTask s d u) := fun v ⟨k, hk, hst⟩ => by
  by_cases hv : v = u
  · subst hv
    exact fenceTask_ends s d v hk
  · exact ⟨k, by rw [fenceTask_other s d hv, hk], hst⟩

theorem fenceShape_tasks (s : State) (d : Nat) : (fenceShape s d).tasks = s.tasks :=
  foldl_keeps (P := fun t => t.tasks = s.tasks) (fun t r ht => by simpa [dropLaunch, leaveTurns] using ht) s.shape.regs rfl

/-- Each task of a list that is there ends, and the ended ones stay ended. -/
theorem fenceTasks_end (d : Nat) (l : List (Nat × Machine.Task)) (s : State) : EndedStay s (l.foldl (fun s e => fenceTask s d e.1) s) ∧
    ∀ e ∈ l, (tabFind s.tasks e.1).isSome → ∃ k, tabFind (l.foldl (fun s e => fenceTask s d e.1) s).tasks e.1 = some k ∧ k.st = 5 := by
  induction l generalizing s with
  | nil => exact ⟨.of_tasks rfl, fun _ h => absurd h List.not_mem_nil⟩
  | cons a r ih =>
    obtain ⟨hstay, hall⟩ := ih (fenceTask s d a.1)
    refine ⟨fun u hu => hstay u (endedStay_fenceTask s d a.1 u hu), fun e he hsome => ?_⟩
    obtain ⟨k, hk⟩ := Option.isSome_iff_exists.1 hsome
    by_cases hea : e.1 = a.1
    · rw [hea] at hk ⊢
      exact hstay a.1 (fenceTask_ends s d a.1 hk)
    · rcases List.mem_cons.1 he with rfl | hr
      · exact absurd rfl hea
      · exact hall e hr (by rw [fenceTask_other s d hea]; exact hsome)

/-! The device without a die. -/

/-- What a die, its cores, queues, ports and tests hold is gone, but for the lines. -/
def clearDie (s : State) (d : Nat) : State :=
  let s3 := modDie s d fun x => { x with state := 3, port := [] }
  { s3 with
    cores := tabMap s3.cores (fun i c => if dieOf i = d then fenceCore c else c)
    oreqs := s3.oreqs.filter (fun r => dieOf r.core != d)
    shape := { s3.shape with asked := s3.shape.asked.filter (fun a => dieOf a.core != d) }
    queues := tabMap s3.queues (fun _ q => if q.en && q.die.toNat == d then { q with cfg := true } else q)
    ports := (fabricPorts d).foldl (fun t p => tabSet t p { tabGet t p {} with state := 0, training := false, replay := [], later := [], sent := [], resend := [], before := [] }) s3.ports
    hostUp := if d < 2 then s3.hostUp &&& ~~~(BitVec.ofNat 2 (2 ^ d)) else s3.hostUp
    recovery := if s3.recovery.iftBusy && s3.recovery.iftHearth / 24 == d then { s3.recovery with iftBusy := false, iftRes := 3 } else s3.recovery }

/-- The lines that a die keeps: none, where it is fenced, and else those whose home is reached. -/
def keepLines (s : State) (d i : Nat) (x : Die) : Die :=
  let gone := fun (k : Nat) => k < 2 ^ 38 && (homeDie (32 * k) == d || cutOff s i (homeDie (32 * k)))
  if i = d then { x with rdc := [], rdcBad := [], clean := [], dirty := [] }
  else { x with clean := x.clean.filter (fun k => !gone k), dirty := x.dirty.filter (fun k => !gone k), rdcBad := x.rdcBad.filter (fun k => !gone k) }

theorem loseLines_post (s : State) (d : Nat) : PostOnly { s with dies := tabMap s.dies (keepLines s d) } (loseLines s d) := by
  unfold loseLines
  exact foldl_keeps (P := PostOnly { s with dies := tabMap s.dies (keepLines s d) }) (fun t l h => h.trans (post_postOnly ..)) _ (.refl _)

/-- R368: what fencing a die leaves, up to its reports: `w` is the state with the die's tasks ended and its lanes dropped. -/
theorem fenceDie_eq {d : Nat} (hfence : fenced s d = false) (hcolls : s.colls = []) : ∃ w, Fencing s w ∧
    (∀ u k, tabFind s.tasks u = some k → k.hearth / 24 = d → ∃ k', tabFind w.tasks u = some k' ∧ k'.st = 5) ∧
    PostOnly { clearDie w d with dies := tabMap (clearDie w d).dies (keepLines (clearDie w d) d) } (fenceDie s d) := by
  let s0 := (fabricPorts d).foldl dropLanes s
  let s1 := (s0.tasks.filter (fun e => e.2.hearth / 24 == d)).foldl (fun s e => fenceTask s d e.1) s0
  let s2 := if leadDie s = d then fenceShape s1 d else s1
  have h0 : Fencing s s0 := fencing_foldl fencing_dropLanes _ s
  have h1 : Fencing s0 s1 := fencing_foldl (fun s (e : Nat × Machine.Task) => fencing_fenceTask s d e.1) _ s0
  have h2 : Fencing s1 s2 := by
    show Fencing s1 (if leadDie s = d then fenceShape s1 d else s1)
    split
    · exact fencing_fenceShape s1 d
    · exact .refl s1
  have hw := (h0.trans h1).trans h2
  refine ⟨s2, hw, fun u k hk hdie => ?_, ?_⟩
  · have htasks0 : s0.tasks = s.tasks :=
      foldl_keeps (P := fun t => t.tasks = s.tasks) (fun t p ht => (dropLanes_post t p).tasks.trans ht) _ rfl
    have hmem : (u, k) ∈ s0.tasks.filter (fun e => e.2.hearth / 24 == d) :=
      List.mem_filter.2 ⟨by rw [htasks0]; exact tabFind_mem hk, beq_iff_eq.2 hdie⟩
    have htasks2 : s2.tasks = s1.tasks := by
      show (if leadDie s = d then fenceShape s1 d else s1).tasks = s1.tasks
      split
      · exact fenceShape_tasks s1 d
      · rfl
    rw [htasks2]
    exact (fenceTasks_end d _ s0).2 (u, k) hmem (by rw [htasks0, hk]; rfl)
  · have hnone : fenceColls (modDie s2 d fun x => { x with state := 3, port := [] }) d = modDie s2 d fun x => { x with state := 3, port := [] } := by
      rw [fenceColls, modDie_colls, hw.colls, hcolls]
      rfl
    have heq : fenceDie s d = post (loseLines (clearDie s2 d) d) (mkReport 8 6 2 (BitVec.ofNat 14 d) 0 0 d 0 0 0) := by
      rw [fenceDie, if_neg (by rw [hfence]; exact Bool.false_ne_true)]
      show post (loseLines _ d) _ = _
      dsimp only
      rw [hnone]
      rfl
    rw [heq]
    exact (loseLines_post ..).trans (post_postOnly ..)

theorem tabGet_foldl_tabSet {α : Type} (l : List Nat) (f : α → α) {P : α → Prop} (hf : ∀ x, P (f x)) (dflt : α) (t : Tab α) {p : Nat}
    (h : p ∈ l ∨ P (tabGet t p dflt)) : P (tabGet (l.foldl (fun t p => tabSet t p (f (tabGet t p dflt))) t) p dflt) := by
  induction l generalizing t with
  | nil => exact h.resolve_left List.not_mem_nil
  | cons a r ih =>
    refine ih _ ?_
    rw [tabGet_tabSet]
    by_cases hp : p = a
    · rw [if_pos hp]
      exact .inr (hf _)
    · rw [if_neg hp]
      exact h.imp (fun hmem => (List.mem_cons.1 hmem).resolve_left hp) id

theorem mem_fabricPorts {p d : Nat} (hp : p < 18) (hd : portDie p = d) : p ∈ fabricPorts d := by
  subst hd
  interval_cases p <;> decide

theorem cutOff_congr (h : ∀ e, (getDie t e).state = (getDie s e).state) : cutOff t = cutOff s := by
  have hfenced : fenced t = fenced s := by
    funext e
    rw [fenced, fenced, h]
  funext a b
  rw [cutOff, cutOff, hfenced]

/-- What a core of a fenced die holds: nothing. -/
def Cleared (c : Machine.Core) : Prop := c.task = none ∧ c.acc = [] ∧ c.chan = [] ∧ c.mu.run = none

/-- R368: a fenced die and what is on it, and what is not. -/
structure FencedDie (s : State) (d : Nat) (t : State) : Prop where
  mem : t.mem = s.mem
  colls : t.colls = []
  die : ∀ e, getDie t e = keepLines t d e (if e = d then { getDie s d with state := 3, port := [] } else getDie s e)
  cleared : ∀ i, i / 96 = d → Cleared (getCore t i)
  cores : ∀ i, i / 96 ≠ d → getCore t i = getCore s i
  hostUp : t.hostUp = if d < 2 then s.hostUp &&& ~~~(BitVec.ofNat 2 (2 ^ d)) else s.hostUp
  tasks : ∀ u k, tabFind s.tasks u = some k → k.hearth / 24 = d → ∃ k', tabFind t.tasks u = some k' ∧ k'.st = 5
  ports : ∀ p, p < 18 → portDie p = d → (getPort t p).state = 0 ∧ (getPort t p).replay = []
  queues : ∀ q, (getQueue s q).en = true → (getQueue s q).die.toNat = d → (getQueue t q).cfg = true
  test : s.recovery.iftBusy = true → s.recovery.iftHearth / 24 = d → t.recovery.iftBusy = false ∧ t.recovery.iftRes = 3

theorem getDie_clearDie (hw : Fencing s w) (d e : Nat) :
    getDie (clearDie w d) e = if e = d then { getDie s d with state := 3, port := [] } else getDie s e := by
  have hsame : ∀ e, getDie w e = getDie s e := fun e => by rw [getDie, getDie, hw.dies]
  refine show getDie (modDie w d fun x => { x with state := 3, port := [] }) e = _ from ?_
  rw [getDie_modDie, hsame, hsame]

theorem keepLines_state (s : State) (d i : Nat) (x : Die) : (keepLines s d i x).state = x.state := by
  unfold keepLines
  dsimp only
  split <;> rfl

theorem keepLines_congr (h : cutOff t = cutOff s) : keepLines t = keepLines s := by
  funext d i x
  rw [keepLines, keepLines, h]

theorem fenceDie_fences {d : Nat} (hfence : fenced s d = false) (hcolls : s.colls = []) : FencedDie s d (fenceDie s d) := by
  obtain ⟨w, hw, htasks, hpost⟩ := fenceDie_eq hfence hcolls
  obtain ⟨m, a, g, l, ht⟩ := hpost
  have hdie : ∀ e, getDie (fenceDie s d) e = keepLines (clearDie w d) d e (getDie (clearDie w d) e) := fun e => by
    rw [ht]
    refine (tabGet_tabMap _ _ _ _ ?_).trans rfl
    unfold keepLines
    dsimp only
    split <;> rfl
  have hcut : cutOff (fenceDie s d) = cutOff (clearDie w d) := cutOff_congr fun e => by rw [hdie, keepLines_state]
  have hcores : (fenceDie s d).cores = tabMap s.cores fun i c => if dieOf i = d then fenceCore c else c := by
    rw [ht, ← hw.cores]
    rfl
  refine ⟨by rw [ht]; exact hw.mem, by rw [ht]; exact hw.colls.trans hcolls, fun e => ?_, fun i hi => ?_, fun i hi => ?_, ?_,
    fun u k hk hd => ?_, fun p hp hd => ?_, fun q hen hd => ?_, fun hbusy hhearth => ?_⟩
  · rw [hdie, getDie_clearDie hw, keepLines_congr hcut]
  · rw [getCore, hcores, tabGet, tabFind_tabMap]
    cases tabFind s.cores i with
    | none => exact ⟨rfl, rfl, rfl, rfl⟩
    | some c =>
      show Cleared (if dieOf i = d then fenceCore c else c)
      rw [if_pos (show dieOf i = d from hi)]
      exact ⟨rfl, rfl, rfl, rfl⟩
  · exact (congrArg (fun l => tabGet l i {}) hcores).trans ((tabGet_tabMap s.cores _ i {} (if_neg hi)).trans (if_neg hi))
  · rw [ht, ← hw.hostUp]
    rfl
  · rw [ht]
    exact htasks u k hk hd
  · rw [ht]
    exact tabGet_foldl_tabSet (fabricPorts d) (fun x : Port => { x with state := 0, training := false, replay := [], later := [], sent := [], resend := [], before := [] })
      (P := fun x => x.state = 0 ∧ x.replay = []) (fun _ => ⟨rfl, rfl⟩) {} w.ports (.inl (mem_fabricPorts hp hd))
  · have hqueues : (fenceDie s d).queues = tabMap s.queues fun _ q => if q.en && q.die.toNat == d then { q with cfg := true } else q := by
      rw [ht, ← hw.queues]
      rfl
    have hqueue : getQueue (fenceDie s d) q = if (getQueue s q).en && (getQueue s q).die.toNat == d then { getQueue s q with cfg := true } else getQueue s q :=
      (congrArg (fun l => tabGet l q ({} : Machine.Queue)) hqueues).trans (tabGet_tabMap s.queues _ q {} rfl)
    rw [hqueue, hen, hd, beq_self_eq_true, Bool.and_self, if_pos rfl]
  · have hrec : (fenceDie s d).recovery = if s.recovery.iftBusy && s.recovery.iftHearth / 24 == d then
        { s.recovery with iftBusy := false, iftRes := 3 } else s.recovery := by
      rw [ht, ← hw.recovery]
      rfl
    rw [hrec, hbusy, hhearth, beq_self_eq_true, Bool.and_self, if_pos rfl]
    exact ⟨rfl, rfl⟩

theorem FencedDie.state {d : Nat} (h : FencedDie s d t) (e : Nat) : (getDie t e).state = if e = d then 3 else (getDie s e).state := by
  rw [h.die, keepLines_state]
  split <;> rfl

/-- The lines that another die keeps. -/
theorem FencedDie.lines {d : Nat} (h : FencedDie s d t) {e : Nat} (he : e ≠ d) :
    let keeps := fun (l : List Nat) => (l.filter fun k => !(decide (k < 2 ^ 38) && cutOff t e (homeDie (32 * k)))).filter
      fun k => !(decide (k < 2 ^ 38) && homeDie (32 * k) == d)
    getDie t e = { getDie s e with
      dirty := keeps (getDie s e).dirty, clean := keeps (getDie s e).clean, rdcBad := keeps (getDie s e).rdcBad } := by
  intro keeps
  have hkeeps : ∀ l : List Nat, l.filter (fun k => !(decide (k < 2 ^ 38) && (homeDie (32 * k) == d || cutOff t e (homeDie (32 * k))))) = keeps l := by
    intro l
    refine Eq.trans (List.filter_congr fun k _ => ?_) (List.filter_filter ..).symm
    cases decide (k < 2 ^ 38) <;> cases homeDie (32 * k) == d <;> cases cutOff t e (homeDie (32 * k)) <;> rfl
  rw [h.die, if_neg he, keepLines]
  dsimp only
  rw [if_neg he, hkeeps, hkeeps, hkeeps]

theorem fenceDie_fenced {d : Nat} (h : fenced s d = true) : fenceDie s d = s := if_pos h

/-! Several dies. -/

/-- A die and its cores stay as they are, and its host port that is down stays down. -/
structure DieStays (d : Nat) (s t : State) : Prop where
  state : (getDie t d).state = (getDie s d).state
  cores : ∀ i, i / 96 = d → getCore t i = getCore s i
  down : s.hostUp.getLsbD d = false → t.hostUp.getLsbD d = false

theorem DieStays.trans {d : Nat} (h : DieStays d s t) (h' : DieStays d t w) : DieStays d s w :=
  ⟨h'.state.trans h.state, fun i hi => (h'.cores i hi).trans (h.cores i hi), fun hd => h'.down (h.down hd)⟩

/-- A die that is fenced, with its host port down and nothing on its cores. -/
def DieGone (d : Nat) (t : State) : Prop := (getDie t d).state = 3 ∧ (d < 2 → t.hostUp.getLsbD d = false) ∧ ∀ i, i / 96 = d → Cleared (getCore t i)

theorem DieGone.stays {d : Nat} (h : DieGone d s) (h' : DieStays d s t) : DieGone d t := by
  obtain ⟨hstate, hdown, hcores⟩ := h
  exact ⟨h'.state.trans hstate, fun hd => h'.down (hdown hd), fun i hi => by rw [h'.cores i hi]; exact hcores i hi⟩

theorem FencedDie.gone {d : Nat} (h : FencedDie s d t) : DieGone d t := by
  refine ⟨by rw [h.state, if_pos rfl], fun hd => ?_, h.cleared⟩
  rw [h.hostUp, if_pos hd, Removals.hostUp_without _ hd hd, decide_eq_true rfl, Bool.not_true, Bool.and_false]

theorem FencedDie.stays {d e : Nat} (h : FencedDie s d t) (he : e ≠ d) : DieStays e s t := by
  refine ⟨by rw [h.state, if_neg he], fun i hi => h.cores i fun hd => he (hi.symm.trans hd), fun hdown => ?_⟩
  rw [h.hostUp]
  split
  · rw [BitVec.getLsbD_and, hdown, Bool.false_and]
  · exact hdown

/-- R354, R368: the dies of a list are fenced that were not; the others stay. -/
theorem fenceDies (l : List Nat) (hcolls : s.colls = []) : (l.foldl fenceDie s).mem = s.mem ∧
    ∀ d, (d ∉ l ∨ fenced s d = true → DieStays d s (l.foldl fenceDie s)) ∧ (d ∈ l → fenced s d = false → DieGone d (l.foldl fenceDie s)) := by
  induction l generalizing s with
  | nil => exact ⟨rfl, fun d => ⟨fun _ => ⟨rfl, fun _ _ => rfl, id⟩, fun h => absurd h List.not_mem_nil⟩⟩
  | cons a r ih =>
    cases hfence : fenced s a with
    | true =>
      rw [List.foldl_cons, fenceDie_fenced hfence]
      obtain ⟨hmem, hall⟩ := ih hcolls
      refine ⟨hmem, fun d => ⟨fun h => (hall d).1 (h.imp_left fun hd hr => hd (List.mem_cons_of_mem _ hr)), fun h hd => (hall d).2 ?_ hd⟩⟩
      exact (List.mem_cons.1 h).resolve_left fun hda => Bool.false_ne_true (hd.symm.trans (hda ▸ hfence))
    | false =>
      have hone := fenceDie_fences hfence hcolls
      obtain ⟨hmem, hall⟩ := ih hone.colls
      refine ⟨hmem.trans hone.mem, fun d => ?_⟩
      by_cases hda : d = a
      · subst hda
        refine ⟨fun h => h.elim (fun hd => absurd List.mem_cons_self hd) fun hf => absurd (hfence.symm.trans hf) Bool.false_ne_true, fun _ _ => ?_⟩
        have hgone := hone.gone
        exact hgone.stays ((hall d).1 (.inr (bne_iff_ne.2 (by rw [hgone.1]; decide))))
      · have hstay := hone.stays hda
        have hsame : fenced (fenceDie s a) d = fenced s d := by rw [fenced, fenced, hstay.state]
        refine ⟨fun h => hstay.trans ((hall d).1 (h.imp (fun hd hr => hd (List.mem_cons_of_mem _ hr)) fun hf => hsame.trans hf)),
          fun h hf => (hall d).2 ((List.mem_cons.1 h).resolve_left hda) (hsame.trans hf)⟩

/-- The dies that a write names. -/
theorem mem_diesOf {v : W64} {d : Nat} (hd : d < 4) : d ∈ [0, 1, 2, 3].filter (fun d => v.getLsbD d) ↔ v.getLsbD d = true := by
  rw [List.mem_filter]
  refine and_iff_right ?_
  interval_cases d <;> decide

theorem getLsbD_low (v : W64) {d : Nat} (hd : d < 4) : (v.extractLsb' 0 4).getLsbD d = v.getLsbD d := by
  rw [BitVec.getLsbD_extractLsb', decide_eq_true hd, Bool.true_and, Nat.zero_add]

/-- A write that names no die. -/
theorem diesOf_none {v : W64} (h : v.extractLsb' 0 4 = 0) : [0, 1, 2, 3].filter (fun d => v.getLsbD d) = [] := by
  refine List.filter_eq_nil_iff.2 fun d hd => ?_
  have hlt : d < 4 := by
    simp only [List.mem_cons, List.not_mem_nil, or_false] at hd
    omega
  rw [← getLsbD_low v hlt, h, show BitVec.getLsbD (0 : BitVec 4) d = false from BitVec.getLsbD_zero]
  exact Bool.false_ne_true

/-- A write that names one die. -/
theorem diesOf_one {v : W64} {d : Nat} (hd : d < 4) (h : v.extractLsb' 0 4 = BitVec.ofNat 4 (2 ^ d)) :
    [0, 1, 2, 3].filter (fun d => v.getLsbD d) = [d] := by
  have hbit : ∀ e, e < 4 → v.getLsbD e = (BitVec.ofNat 4 (2 ^ d)).getLsbD e := fun e he => by rw [← getLsbD_low v he, h]
  have heq : [0, 1, 2, 3].filter (fun e => v.getLsbD e) = [0, 1, 2, 3].filter (fun e => (BitVec.ofNat 4 (2 ^ d)).getLsbD e) := by
    refine List.filter_congr fun e he => hbit e ?_
    simp only [List.mem_cons, List.not_mem_nil, or_false] at he
    omega
  rw [heq]
  interval_cases d <;> rfl

end

/-- Settles O47. -/
theorem contextCommandsAndFencing : Obligations.ContextCommandsAndFencing := by
  unfold Obligations.ContextCommandsAndFencing
  refine ⟨fun s c op => ?commands, fun s v => ?fencing⟩
  case commands =>
    intro n is ended noEntries keepsOthers
    have hread : ∀ (x : Instr) (t : State) (o : BitVec 3), exec x s = .next t → t.ctxBlock.cmd = c ++ o →
        ∃ t, exec x s = .next t ∧ readCtxcmd t = BitVec.ofNat 64 (o.toNat + 8 * c.toNat) := fun x t o h hcmd => ⟨t, h, readCtxcmd_of_cmd hcmd⟩
    refine ⟨fun hclosed i hi => ?_, fun hbar hbusy => ?_⟩
    · simp only [is, List.mem_cons, List.not_mem_nil, or_false] at hi
      rcases hi with rfl | rfl | rfl | rfl | rfl
      · exact show execCreate c s = _ from onCommand_ignored hclosed ..
      · exact show execDestroy c s = _ from onCommand_ignored hclosed ..
      · exact show execInvasid c s = _ from onCommand_ignored hclosed ..
      · exact show execInvrange c s = _ from onCommand_ignored hclosed ..
      · exact show execCtxcmdBadCommand op c s = _ from onCommand_ignored hclosed ..
    · have hcreate := onCommand_runs hbar hbusy 1 c fun s => createCtx s c.toNat
      have hdestroy := onCommand_runs hbar hbusy 2 c fun s => destroyCtx s c.toNat
      have hasid := onCommand_runs hbar hbusy 3 c fun s => endInvalidation (invalidateAll s c.toNat) c.toNat
      have hrange := onCommand_runs hbar hbusy 4 c fun s => endInvalidation (ranged s c.toNat) c.toNat
      have hbad := onCommand_runs hbar hbusy op c fun s => if 5 ≤ op then endCommand s 3 else s
      refine ⟨⟨_, show execCreate c s = _ from hcreate, ?_⟩, ⟨_, show execDestroy c s = _ from hdestroy, ?_⟩,
        ⟨_, show execInvasid c s = _ from hasid, ?_⟩, ⟨_, show execInvrange c s = _ from hrange, ?_⟩,
        fun hop => ⟨_, show execCtxcmdBadCommand op c s = _ from hbad.trans (congrArg Host.Outcome.next (if_pos hop)),
          ended_endCommand (s := s) (t := commanded s op c) rfl 3, rfl, rfl, rfl⟩,
        fun hop => show execCtxcmdBadCommand op c s = _ from hbad.trans (congrArg Host.Outcome.next (if_neg (BitVec.not_le.2 hop))),
        fun x hx => ?_⟩
      · obtain ⟨hmem, hcores, hothers, -⟩ := createCtx_keeps (commanded s 1 c) n
        refine ⟨hmem, hcores, hothers, fun hlive => ?_, fun hlive hd => ?_, fun d hlive hd hok => ?_, fun d hlive hd hok => ?_⟩
        · rw [createCtx_live (s := commanded s 1 c) hlive]
          exact ⟨ended_endCommand (s := s) rfl 1, rfl⟩
        · obtain ⟨t, ht, heq⟩ := createCtx_unreadable (s := commanded s 1 c) hlive hd
          rw [heq]
          exact ⟨ended_endCommand (s := s) ht.donecnt 2, ht.ctxs⟩
        · rw [createCtx_bad (s := commanded s 1 c) hlive hd hok]
          exact ⟨ended_endCommand (s := s) rfl 2, rfl⟩
        · rw [createCtx_good (s := commanded s 1 c) hlive hd hok]
          have hctx : getCtx (endCommand (created (commanded s 1 c) n d) 0) n = { live := true, desc := d } := tabGet_tabSet_self ..
          rw [hctx]
          exact ⟨ended_endCommand (s := s) rfl 0, rfl, rfl, noEntries_invalidateAll _ n⟩
      · refine ⟨fun hb => ?_, fun hidle => ?_⟩
        · rw [destroyCtx_busy (s := commanded s 2 c) hb]
          exact ⟨ended_endCommand (s := s) rfl 1, rfl, rfl⟩
        · rw [destroyCtx_idle (s := commanded s 2 c) hidle]
          have hctx : getCtx (endCommand (destroyed (commanded s 2 c) n) 0) n = {} := (tabGet_tabErase ..).trans (if_pos rfl)
          rw [hctx]
          have hdone : (destroyed (commanded s 2 c) n).ctxBlock.donecnt = s.ctxBlock.donecnt :=
            congrArg (fun b => b.donecnt) (released_ctxBlock (commanded s 2 c) n)
          exact ⟨ended_endCommand hdone 0, rfl, rfl, rfl, noEntries_invalidateAll _ n⟩
      · obtain ⟨b, heq, -⟩ := endInvalidation_keeps (invalidateAll (commanded s 3 c) n) n
        obtain ⟨hnone, hsome⟩ := endInvalidation_ends (invalidateAll (commanded s 3 c) n) n
        refine ⟨?_, ?_, ?_, ?_, hnone, hsome⟩ <;> rw [heq]
        · exact noEntries_invalidateAll (commanded s 3 c) n
        · exact keepsOthers_invalidateAll (commanded s 3 c) n
        · rfl
        · rfl
      · obtain ⟨b, heq, -⟩ := endInvalidation_keeps (ranged (commanded s 4 c) n) n
        obtain ⟨hnone, hsome⟩ := endInvalidation_ends (ranged (commanded s 4 c) n) n
        refine ⟨?_, ?_, ?_, fun va hlow hhigh => ?_, hnone, fun h => (hsome h).1⟩
        · rw [heq]
          exact keepsOthers_invalidateRange (commanded s 4 c) n _ _
        · rw [heq]
          rfl
        · rw [heq]
          rfl
        · rw [heq]
          exact invalidateRange_covers (commanded s 4 c) hlow (Nat.lt_succ_of_le hhigh)
      · simp only [List.mem_cons, List.not_mem_nil, or_false] at hx
        rcases hx with rfl | rfl | rfl | rfl | rfl
        · exact hread (.create c) _ 1 (show execCreate c s = _ from hcreate) (createCtx_keeps (commanded s 1 c) n).2.2.2
        · exact hread (.destroy c) _ 2 (show execDestroy c s = _ from hdestroy) (destroyCtx_cmd (commanded s 2 c) n)
        · obtain ⟨b, heq, hcmd⟩ := endInvalidation_keeps (invalidateAll (commanded s 3 c) n) n
          exact hread (.invasid c) _ 3 (show execInvasid c s = _ from hasid.trans (congrArg Host.Outcome.next heq)) hcmd
        · obtain ⟨b, heq, hcmd⟩ := endInvalidation_keeps (ranged (commanded s 4 c) n) n
          exact hread (.invrange c) _ 4 (show execInvrange c s = _ from hrange.trans (congrArg Host.Outcome.next heq)) hcmd
        · refine hread (.ctxcmdBadCommand op c) _ op (show execCtxcmdBadCommand op c s = _ from hbad) ?_
          split <;> rfl
  case fencing =>
    have hopen : barOpen s = true → exec (.dieFence v) s = .next (([0, 1, 2, 3].filter (fun d => v.getLsbD d)).foldl fenceDie s) := fun h =>
      show execDieFence v s = _ from onBar_open h _
    have hone : ∀ d, barOpen s = true → d < 4 → v.extractLsb' 0 4 = BitVec.ofNat 4 (2 ^ d) → exec (.dieFence v) s = .next (fenceDie s d) :=
      fun d hbar hd hv => by
        rw [hopen hbar, diesOf_one hd hv]
        rfl
    refine ⟨fun h => show execDieFence v s = _ from onBar_closed h _, fun h => ?_, fun d hbar hd hv hfence => ?_,
      fun d hbar hd hv hfence _ hcolls => ?_, fun hbar hcolls => ?_⟩
    · cases hbar : barOpen s with
      | false => exact show execDieFence v s = _ from onBar_closed hbar _
      | true =>
        rw [hopen hbar, diesOf_none h]
        rfl
    · rw [hone d hbar hd hv, fenceDie_fenced hfence]
    · have h := fenceDie_fences hfence hcolls
      refine ⟨_, hone d hbar hd hv, h.gone.1, fun e he => h.lines he, h.cleared, h.cores, fun p hp => ?_, h.tasks, h.ports, h.queues, h.test, h.mem⟩
      rw [h.hostUp]
      split
      · next hlt => rw [Removals.hostUp_without _ hlt hp]; rfl
      · next hge => rw [bne_iff_ne.2 (by omega), Bool.and_true]
    · obtain ⟨hmem, hall⟩ := fenceDies ([0, 1, 2, 3].filter (fun d => v.getLsbD d)) hcolls
      refine ⟨_, hopen hbar, hmem, fun d hd => ⟨fun hv => ((hall d).1 (.inl fun h => ?_)).state, fun _ hf => ((hall d).1 (.inr hf)).state,
        fun hv hf => (hall d).2 ((mem_diesOf hd).2 hv) hf⟩⟩
      exact Bool.false_ne_true (hv.symm.trans ((mem_diesOf hd).1 h))

end Sys2Proof.Contexts

/-! SUPPORT. What an access of a matrix unit, a runner or a stoker leaves of the cores and of the tasks (spec/13 R304, R305; spec/17 R432). -/

namespace Sys2Proof.Engines

open Sys2Proof Sys2Proof.Machine Sys2Proof.Laws Sys2Proof.Frames Sys2Proof.Posts Sys2Proof.Images

/-- A task but for its claims, what its image lost and the errors noted for later. -/
def bare (k : Machine.Task) : Machine.Task :=
  { k with lost := none, claimedBlocks := [], claimedTiles := [], claimedBanks := [], laterErrs := [], laterReports := [] }

/-- What waits for the assay path of a hearth. -/
def assayOf (s : State) (h : Nat) : List (Nat × Nat × Nat) := (getHearth s h).assay

theorem assayOf_congr {s t : State} (h : t.hearths = s.hearths) : assayOf t = assayOf s := by
  unfold assayOf getHearth
  rw [h]

/-- A change of a hearth that keeps what waits there. -/
theorem assayOf_modHearth (s : State) (i : Nat) {f : Hearth → Hearth} (hf : ∀ x, (f x).assay = x.assay) : assayOf (modHearth s i f) = assayOf s := by
  funext h
  unfold assayOf getHearth modHearth
  dsimp only
  rw [tabGet_tabSet]
  split
  next he => rw [hf, he]; rfl
  next => rfl

/-- What the cores share: collectives being joined, and the ordered atomics under way with the numbers that their homes expect. -/
def sharedOf (s : State) : List Coll × List OReq × Tab (BitVec 16) := (s.colls, s.oreqs, s.expect)

/-- `t` keeps of `s` the cores, what they share, what waits for the assay paths, and of each task everything but its claims, its losses and what was noted for later. -/
structure EngineOnly (s t : State) : Prop where
  cores : t.cores = s.cores
  cur : t.cur = s.cur
  assays : assayOf t = assayOf s
  shared : sharedOf t = sharedOf s
  tasks : ∀ v, (tabFind t.tasks v).map bare = (tabFind s.tasks v).map bare

namespace EngineOnly
variable {s t u : State}

theorem refl (s : State) : EngineOnly s s := ⟨rfl, rfl, rfl, rfl, fun _ => rfl⟩

theorem trans (h : EngineOnly s t) (k : EngineOnly t u) : EngineOnly s u :=
  ⟨k.cores.trans h.cores, k.cur.trans h.cur, k.assays.trans h.assays, k.shared.trans h.shared, fun v => (k.tasks v).trans (h.tasks v)⟩

theorem of_same (hcores : t.cores = s.cores) (hcur : t.cur = s.cur) (hhearths : t.hearths = s.hearths) (hshared : sharedOf t = sharedOf s)
    (htasks : t.tasks = s.tasks) : EngineOnly s t :=
  ⟨hcores, hcur, assayOf_congr hhearths, hshared, fun _ => by rw [htasks]⟩

theorem of_writeOnly (h : WriteOnly s t) : EngineOnly s t := by
  obtain ⟨m, h, e, a, d, p, rfl⟩ := h
  exact of_same rfl rfl rfl rfl rfl

theorem of_cacheOnly (h : CacheOnly s t) : EngineOnly s t := of_writeOnly (.of_cacheOnly h)

theorem of_postOnly (h : PostOnly s t) : EngineOnly s t := by
  obtain ⟨m, a, g, l, rfl⟩ := h
  exact of_same rfl rfl rfl rfl rfl

theorem modTask (s : State) (v : Nat) {f : Machine.Task → Machine.Task} (hf : ∀ k, bare (f k) = bare k) : EngineOnly s (modTask s v f) where
  cores := by simp
  cur := by simp
  assays := assayOf_congr (by simp)
  shared := by simp [sharedOf]
  tasks w := by
    rw [tabFind_modTask]
    split
    next h =>
      rw [Option.map_map, h]
      exact congrArg (fun g => (tabFind s.tasks v).map g) (funext hf)
    next => rfl

theorem foldl {α : Type} (l : List α) {f : State → α → State} (hf : ∀ s a, EngineOnly s (f s a)) (s : State) : EngineOnly s (l.foldl f s) :=
  foldl_keeps (P := EngineOnly s) (fun t a h => h.trans (hf t a)) l (.refl s)

theorem getCore (h : EngineOnly s t) (i : Nat) : getCore t i = getCore s i := getCore_congr h.cores i

theorem me (h : EngineOnly s t) : me t = me s := me_congr h.cores h.cur

/-- A task is still there. -/
theorem task_some (h : EngineOnly s t) {v : Nat} {k : Machine.Task} (hk : tabFind s.tasks v = some k) :
    ∃ k', tabFind t.tasks v = some k' ∧ bare k' = bare k := by
  have htasks := h.tasks v
  rw [hk, Option.map_some, Option.map_eq_some_iff] at htasks
  exact htasks

end EngineOnly

/-- A block of the scratchpad is zero. -/
theorem engineOnly_zeroBlock (s : State) (hearth block : Nat) : EngineOnly s (zeroBlock s hearth block) := .of_same rfl rfl rfl rfl rfl

/-- A hearth changes but for what waits for its assay path. -/
theorem engineOnly_modHearth (s : State) (i : Nat) {f : Hearth → Hearth} (hf : ∀ x, (f x).assay = x.assay) : EngineOnly s (modHearth s i f) :=
  ⟨rfl, rfl, assayOf_modHearth s i hf, rfl, fun _ => rfl⟩

theorem engineOnly_touchBlock (s : State) (u hearth block : Nat) : EngineOnly s (touchBlock s u hearth block) := by
  unfold touchBlock
  split
  · exact .refl s
  · exact (engineOnly_zeroBlock s hearth block).trans (engineOnly_modHearth _ hearth fun _ => rfl)

/-- A part of an image that could not be saved. -/
theorem engineOnly_fail (s : State) (u core ctx cls va : Nat) (addr : Option Nat) : EngineOnly s
    (let s1 := modTask s u fun t => if t.lost.isSome then t else { t with lost := some (BitVec.ofNat 8 cls, BitVec.ofNat 64 va) }
     match addr with
     | some p => postAccess s1 0 (coreUnit core 3) ctx cls p 1 0 0
     | none => post s1 (mkReport 0 cls 0 (coreUnit core 3) ctx 0 1 0 0 0)) := by
  have hlost : EngineOnly s (modTask s u fun t => if t.lost.isSome then t else { t with lost := some (BitVec.ofNat 8 cls, BitVec.ofNat 64 va) }) := by
    refine EngineOnly.modTask s u fun k => ?_
    split <;> rfl
  cases addr with
  | none => exact hlost.trans (.of_postOnly (post_postOnly ..))
  | some p => exact hlost.trans (.of_postOnly (postAccess_postOnly ..))

theorem engineOnly_saveImage (s : State) (u core off : Nat) (b : List Byte) (readErr : Option (Nat × Option Nat)) :
    EngineOnly s (saveImage s u core off b readErr) := by
  unfold saveImage
  cases tabFind s.tasks u with
  | none => exact .refl s
  | some t =>
    cases readErr with
    | some e => exact engineOnly_fail ..
    | none =>
      dsimp only
      cases placeFor s { (whoTask u t false) with part := 0 } { w := true } (parts ((imageBase s t + off) % 2 ^ 57) b.length) with
      | error a => exact engineOnly_fail s u core t.ctx 4 a (some a)
      | ok l =>
        have hwrite : EngineOnly s _ := .of_writeOnly ((writeOnly_noteHosts s { (whoTask u t false) with part := 0 } l).trans
          (writeOnly_writeParts (noteHosts s { (whoTask u t false) with part := 0 } l) (t.hearth / 24) none b l none))
        dsimp only
        split
        next h => rw [h] at hwrite; exact hwrite
        next c pa h => rw [h] at hwrite; exact hwrite.trans (engineOnly_fail _ u core t.ctx c _ (some pa))

theorem engineOnly_claimBlock (s : State) (hearth block : Nat) : EngineOnly s (claimBlock s hearth block) := by
  unfold claimBlock
  split
  · exact .refl s
  · split
    · exact .refl s
    next o _ _ t _ =>
      have hsave := engineOnly_saveImage s o (t.hearth * 4 + t.first) (0x800000 + blockOffset t block)
        (cellsGet s.mem (scratchOff hearth (block * 4096)) 4096)
        ((eccHits s (scratchOff hearth (block * 4096)) 4096).head?.map fun b => (3, some (localPa s (max (scratchOff hearth (block * 4096)) b.key))))
      have hzero := hsave.trans (engineOnly_zeroBlock _ hearth block)
      have hclaim := hzero.trans (EngineOnly.modTask _ o (f := fun t => { t with claimedBlocks := t.claimedBlocks ++ [block] }) fun _ => rfl)
      exact hclaim.trans (engineOnly_modHearth _ hearth fun _ => rfl)

theorem engineOnly_claimTile (s : State) (u core tile : Nat) : EngineOnly s (claimTile s u core tile) := by
  unfold claimTile
  refine EngineOnly.foldl _ (fun s e => ?_) s
  dsimp only
  split
  · split
    · exact .refl s
    · exact ((engineOnly_saveImage ..).trans ((engineOnly_saveImage ..).trans (engineOnly_saveImage ..))).trans
        (EngineOnly.modTask _ e.1 (f := fun t => { t with claimedTiles := t.claimedTiles ++ [(core, tile)] }) fun _ => rfl)
  · exact .refl s

theorem engineOnly_noteHost (s : State) (h c va : Nat) : EngineOnly s (noteHost s h c va) := .of_writeOnly (writeOnly_noteHost s h c va)

theorem engineOnly_touchFor (s : State) (w : Who) (l : List Placed) : EngineOnly s (touchFor s w l) := by
  unfold touchFor
  split
  · refine EngineOnly.foldl _ (fun s p => ?_) s
    split
    · exact engineOnly_noteHost ..
    · exact .refl s
  · refine EngineOnly.foldl _ (fun s p => ?_) s
    split
    · refine EngineOnly.trans ?_ (engineOnly_touchBlock ..)
      split
      · exact engineOnly_claimBlock ..
      · exact .refl s
    · split
      · exact engineOnly_noteHost ..
      · exact .refl s

/-- A pre-empted task's block has moved to its image: zeros are written there first for one it never held. -/
def movedTo (s : State) (u : Nat) (t : Machine.Task) (p : Placed) : State :=
  if t.claimedBlocks.contains (blockOf p.pa).2 then s else
    modTask (saveImage s u (t.hearth * 4 + t.first) (0x800000 + blockOffset t (blockOf p.pa).2) (List.replicate 4096 0) none) u
      fun t => { t with claimedBlocks := t.claimedBlocks ++ [(blockOf p.pa).2] }

theorem engineOnly_movedTo (s : State) (u : Nat) (t : Machine.Task) (p : Placed) : EngineOnly s (movedTo s u t p) := by
  unfold movedTo
  split
  · exact .refl s
  · exact (engineOnly_saveImage ..).trans (EngineOnly.modTask _ u (f := fun t => { t with claimedBlocks := t.claimedBlocks ++ [(blockOf p.pa).2] })
      fun _ => rfl)

theorem engineOnly_rehome (s : State) (u : Nat) (p : Placed) : EngineOnly s (rehome s u p).1 := by
  unfold rehome
  split
  · exact .refl s
  next t ht =>
    dsimp only
    split
    · exact .refl s
    · have hmoved := engineOnly_movedTo s u t p
      split <;> split
      · exact engineOnly_touchBlock s u _ _
      · split
        · dsimp only
          split
          · exact hmoved.trans (engineOnly_noteHost ..)
          · exact hmoved
        · exact hmoved.trans (.of_postOnly (postWalk_postOnly ..))
      · exact engineOnly_touchBlock s u _ _
      · split
        · dsimp only
          split
          · exact hmoved.trans (engineOnly_noteHost ..)
          · exact hmoved
        · exact hmoved.trans (.of_postOnly (postWalk_postOnly ..))

theorem engineOnly_rehomeAll (s : State) (u : Nat) (l : List Placed) : EngineOnly s (rehomeAll s u l).1 := by
  induction l generalizing s with
  | nil => exact .refl s
  | cons p r ih =>
    have hone := engineOnly_rehome s u p
    rw [rehomeAll]
    split
    next s1 h => rw [h] at hone; exact hone
    next s1 q h => rw [h] at hone; exact hone.trans (ih s1)

theorem engineOnly_reach (s : State) (w : Who) (u : Nat) (l : List Placed) : EngineOnly s (reach s w u l).1 := by
  unfold reach
  split
  · exact engineOnly_rehomeAll ..
  · split
    · exact .refl s
    · exact engineOnly_touchFor ..

theorem engineOnly_reachFor (s : State) (w : Who) (l : List Placed) : EngineOnly s (reachFor s w l).1 := by
  unfold reachFor
  split
  · exact engineOnly_reach ..
  · exact engineOnly_touchFor ..

theorem engineOnly_askParts (s : State) (die : Nat) (l : List Placed) : EngineOnly s (askParts s die l) := by
  refine EngineOnly.foldl _ (fun s p => ?_) s
  split
  · exact .refl s
  · exact .of_cacheOnly ((cacheOnly_sendRequest ..).trans (cacheOnly_shareLine ..))

theorem engineOnly_engRead (s : State) (w : Who) (need : Need) (va n : Nat) : EngineOnly s (engRead s w need va n).2 := by
  unfold engRead
  split
  · exact .refl s
  next l _ =>
    have hreach := engineOnly_reachFor s w l
    split
    next s0 h => rw [h] at hreach; exact hreach
    next s0 q h => rw [h] at hreach; exact hreach.trans (engineOnly_askParts ..)

theorem engineOnly_engWrite (s : State) (w : Who) (va : Nat) (b : List Byte) : EngineOnly s (engWrite s w va b).1 := by
  unfold engWrite
  split
  · exact .refl s
  next l _ =>
    split
    · exact .refl s
    · have hreach := engineOnly_reachFor s w l
      split
      next s1 h => rw [h] at hreach; exact hreach
      next s1 q h => rw [h] at hreach; exact hreach.trans (.of_writeOnly (writeOnly_writeParts ..))

theorem engineOnly_noteSent (s0 s1 : State) (core : Nat) (task : Option Nat) (mt pa : Nat) (kind : SentKind) (pos : Nat) :
    EngineOnly s1 (noteSent s0 s1 core task mt pa kind pos) := by
  unfold noteSent
  split <;> exact .of_same rfl rfl rfl rfl rfl

theorem engineOnly_noteRecord (s0 s1 : State) (core : Nat) (w : Who) (tok addr n : Nat) : EngineOnly s1 (noteRecord s0 s1 core w tok addr n) := by
  unfold noteRecord
  split
  · exact engineOnly_noteSent ..
  · exact .refl s1

theorem engineOnly_launchError (s : State) (l : Nat) (e : ErrInfo) : EngineOnly s (launchError s l e) := .of_same (by simp) (by simp) (by simp) (by simp [sharedOf]) (by simp)

theorem engineOnly_noteError (s : State) (u : Nat) (e : ErrInfo) : EngineOnly s (noteError s u e) := by
  unfold noteError
  split
  · split
    · exact EngineOnly.modTask s u fun _ => rfl
    · exact engineOnly_launchError ..
  · exact .refl s

theorem engineOnly_noteAccess (s : State) (u : Nat) (e : ErrInfo) : EngineOnly s (noteAccess s u e) := by
  unfold noteAccess
  split
  · exact engineOnly_launchError ..
  · exact .refl s

theorem engineOnly_postFor (s : State) (u : Nat) (r : Report) : EngineOnly s (postFor s u r) := by
  unfold postFor
  split
  · split
    · exact EngineOnly.modTask s u fun _ => rfl
    · exact .of_postOnly (post_postOnly ..)
  · exact .of_postOnly (post_postOnly ..)

/-- The error of a token: the token is done-error, and what else is noted leaves cores and tasks. -/
theorem engineOnly_tokenError (s : State) (core tok code cls addr dir word tile : Nat) :
    EngineOnly (setTok s core tok (.err (BitVec.ofNat 3 code))) (tokenError s core tok code cls addr dir word tile) := by
  unfold tokenError
  dsimp only
  split
  · exact .refl _
  · split
    · exact .refl _
    · split
      · exact (engineOnly_noteError ..).trans (engineOnly_postFor ..)
      · split
        · exact engineOnly_noteAccess ..
        · exact (engineOnly_noteAccess ..).trans (.of_postOnly (postAccess_postOnly ..))

end Sys2Proof.Engines

/-! SUPPORT. The queue of the matrix unit: entries, aborts and starts (spec/07 R138 to R147, R162, R163): O32. -/

namespace Sys2Proof.MatrixUnit

open Sys2Proof Sys2Proof.Machine Sys2Proof.Laws Sys2Proof.Engines Sys2Proof.Quiet

/-! ## Tokens -/

section
variable {s : State}

theorem setTok_zero (s : State) (core : Nat) (k : Tok) : setTok s core 0 k = s := if_pos rfl

theorem setTok_pos (s : State) (core : Nat) {n : Nat} (hn : n ≠ 0) (k : Tok) :
    setTok s core n k = modCore s core fun c => { c with tok := tabSet c.tok n k } := if_neg hn

theorem tokOf_pos (c : Core) {n : Nat} (hn : n ≠ 0) : tokOf c n = tabGet c.tok n .ok := if_neg hn

theorem tokOf_setTok_self (s : State) (core : Nat) {n : Nat} (hn : n ≠ 0) (k : Tok) : tokOf (getCore (setTok s core n k) core) n = k := by
  rw [setTok_pos s core hn, getCore_modCore_self, tokOf_pos _ hn, tabGet_tabSet_self]

theorem tokOf_setTok_ne (s : State) (core : Nat) {n m : Nat} (h : m ≠ n) (k : Tok) :
    tokOf (getCore (setTok s core n k) core) m = tokOf (getCore s core) m := by
  by_cases hn : n = 0
  · rw [hn, setTok_zero]
  · rw [setTok_pos s core hn, getCore_modCore_self]
    by_cases hm : m = 0
    · rw [hm]
      rfl
    · rw [tokOf_pos _ hm, tokOf_pos _ hm, tabGet_tabSet, if_neg h]

/-- A token set changes nothing but tokens of its core. -/
theorem getCore_setTok (s : State) (core n : Nat) (k : Tok) (i : Nat) :
    ∃ l, getCore (setTok s core n k) i = { getCore s i with tok := l } ∧ (i ≠ core → l = (getCore s i).tok) := by
  by_cases hn : n = 0
  · rw [hn, setTok_zero]
    exact ⟨_, rfl, fun _ => rfl⟩
  · rw [setTok_pos s core hn, getCore_modCore]
    by_cases hi : i = core
    · rw [if_pos hi, hi]
      exact ⟨_, rfl, fun h => absurd rfl h⟩
    · rw [if_neg hi]
      exact ⟨_, rfl, fun _ => rfl⟩

@[simp] theorem setTok_mem (s : State) (core n : Nat) (k : Tok) : (setTok s core n k).mem = s.mem := by unfold setTok; split <;> rfl
@[simp] theorem setTok_tasks (s : State) (core n : Nat) (k : Tok) : (setTok s core n k).tasks = s.tasks := by unfold setTok; split <;> rfl
@[simp] theorem setTok_cur (s : State) (core n : Nat) (k : Tok) : (setTok s core n k).cur = s.cur := by unfold setTok; split <;> rfl

end

/-! ## Entries -/

section
variable {s : State} {u : BitVec 4} {kind : MKind} {tok : BitVec 6} {list : W64}

/-- The entry of an M operation: its snapshot. -/
def entryFor (s : State) (kind : MKind) (tok : BitVec 6) (list : W64) : MEntry :=
  let c := me s
  { kind := kind, tok := tok.toNat, list := list, fmt := c.sys.fmt, p := (List.range 8).map (fun r => (r, seeP s c r)),
    g := (List.range 8).map (fun r => (r, seeG s c r)), no := c.bundleNo, priv := c.sys.priv, stamp := s.tick }

/-- The state with the entry queued and its token pending. -/
def queued (s : State) (kind : MKind) (tok : BitVec 6) (list : W64) : State :=
  modMu (setTok s s.cur tok.toNat .pending) fun m => { m with queue := m.queue ++ [entryFor s kind tok list] }

theorem mEnqueue_free (hfree : tokOf (me s) tok.toNat ≠ .pending) (hroom : queueDepth (me s).mu < 16) :
    mEnqueue u kind tok list s = queued s kind tok list := (if_neg hfree).trans (if_neg (Nat.not_le.2 hroom))

theorem mEnqueue_pending (h : tokOf (me s) tok.toNat = .pending) : mEnqueue u kind tok list s = slotTrap s u.toNat 0x10 0 (tok.setWidth 32) :=
  if_pos h

theorem mEnqueue_full (hfree : tokOf (me s) tok.toNat ≠ .pending) (hfull : 16 ≤ queueDepth (me s).mu) :
    mEnqueue u kind tok list s = slotTrap s u.toNat 0x10 0 0 := (if_neg hfree).trans (if_pos hfull)

theorem tokOf_mu (c : Core) (m : MUnit) (n : Nat) : tokOf { c with mu := m } n = tokOf c n := rfl

theorem queued_fields (s : State) (kind : MKind) (tok : BitVec 6) (list : W64) :
    (me (queued s kind tok list)).mu = { (me s).mu with queue := (me s).mu.queue ++ [entryFor s kind tok list] } ∧
    (tok ≠ 0 → tokOf (me (queued s kind tok list)) tok.toNat = .pending) ∧
    (∀ n, n ≠ tok.toNat → tokOf (me (queued s kind tok list)) n = tokOf (me s) n) ∧
    (me (queued s kind tok list)).regs = (me s).regs ∧ (queued s kind tok list).mem = s.mem ∧
    (∀ k, k ≠ s.cur → getCore (queued s kind tok list) k = getCore s k) := by
  have hme : me (queued s kind tok list) = (let c := getCore (setTok s s.cur tok.toNat .pending) s.cur
      { c with mu := { c.mu with queue := c.mu.queue ++ [entryFor s kind tok list] } }) := by
    show getCore (modCore (setTok s s.cur tok.toNat .pending) (setTok s s.cur tok.toNat .pending).cur _) (setTok s s.cur tok.toNat .pending).cur = _
    rw [getCore_modCore_self, setTok_cur]
  obtain ⟨l, hl, -⟩ := getCore_setTok s s.cur tok.toNat .pending s.cur
  refine ⟨?_, fun h => ?_, fun n hn => ?_, ?_, setTok_mem .., fun k hk => ?_⟩
  · rw [hme, hl]
    rfl
  · rw [hme]
    have hne : tok.toNat ≠ 0 := fun h0 => h (BitVec.eq_of_toNat_eq h0)
    exact tokOf_setTok_self s s.cur hne .pending
  · rw [hme]
    exact tokOf_setTok_ne s s.cur hn .pending
  · rw [hme, hl]
    rfl
  · show getCore (modCore (setTok s s.cur tok.toNat .pending) (setTok s s.cur tok.toNat .pending).cur _) k = _
    rw [setTok_cur, getCore_modCore_ne _ _ hk]
    obtain ⟨l, hl, hsame⟩ := getCore_setTok s s.cur tok.toNat .pending k
    rw [hl, hsame hk]

end

/-! ## A unit without work and without open epochs -/

section
variable {s t w : State}

/-- A core whose unit has no entry, no routine and no open epoch. -/
def Closed (c : Core) : Prop := c.mu.queue = [] ∧ c.mu.run = none ∧ ∀ i, i < 8 → (tileOf c i).epoch = none

theorem abandonTile_closed {m : MUnit} {tile : Nat} (h : (tabGet m.tiles tile {}).epoch = none) (g : Bool) : abandonTile m tile g = m := by
  unfold abandonTile
  split
  · rfl
  next x hx =>
    rw [tabGet, hx] at h
    split
    · rfl
    next e he => exact absurd (he.symm.trans h) nofun

theorem leaveCore_mu {c : Core} (hqueue : c.mu.queue = []) (hrun : c.mu.run = none) : (leaveCore c).mu = c.mu :=
  if_pos (by rw [unitIdle, hqueue, hrun]; rfl)

/-- A unit without work and open epochs stays so, with its tiles. -/
def UnitRests (s t : State) : Prop := ∀ i, Closed (getCore s i) → Closed (getCore t i) ∧ (getCore t i).mu.tiles = (getCore s i).mu.tiles

namespace UnitRests

theorem refl (s : State) : UnitRests s s := fun _ h => ⟨h, rfl⟩

theorem trans (h : UnitRests s t) (h' : UnitRests t w) : UnitRests s w := fun i hi =>
  have hmid := h i hi
  have hend := h' i hmid.1
  ⟨hend.1, hend.2.trans hmid.2⟩

theorem of_cores (h : t.cores = s.cores) : UnitRests s t := fun i hi => by rw [Frames.getCore_congr h]; exact ⟨hi, rfl⟩

theorem modCore (s : State) (core : Nat) {f : Core → Core}
    (hf : ∀ c, Closed c → (f c).mu.queue = [] ∧ (f c).mu.run = none ∧ (f c).mu.tiles = c.mu.tiles) : UnitRests s (modCore s core f) := fun i hi => by
  rw [getCore_modCore]
  split
  next h =>
    subst h
    obtain ⟨hqueue, hrun, htiles⟩ := hf _ hi
    exact ⟨⟨hqueue, hrun, fun n hn => by rw [tileOf, htiles]; exact hi.2.2 n hn⟩, htiles⟩
  next => exact ⟨hi, rfl⟩

end UnitRests

theorem unitRests_abandonAt (s : State) (core : Nat) {tile : Nat} (ht : tile < 8) : UnitRests s (abandonAt s core tile) :=
  UnitRests.modCore s core fun c ⟨hqueue, hrun, htiles⟩ => by
    have hmu := fun g => abandonTile_closed (htiles tile ht) g
    dsimp only
    rw [hmu]
    exact ⟨hqueue, hrun, rfl⟩

/-! What settling a task does to the cores, step by step. -/

/-- A relation between states that depends on their cores alone, and holds for each change that the end of the units of a task makes. -/
structure EndRel (R : State → State → Prop) : Prop where
  same : ∀ {s t : State}, t.cores = s.cores → R s t
  trans : ∀ {s t w : State}, R s t → R t w → R s w
  count : ∀ (s : State) (core : Nat) (m : Core → BitVec 32), R s (Machine.modCore s core fun c => { c with mu := { c.mu with abandon := m c } })
  drop : ∀ (s : State) (core : Nat) (f : Core → Regs) (b : Core → Tab (Option Nat)),
    R s (Machine.modCore s core fun c => { c with bankOwner := b c, regs := f c })

namespace EndRel
variable {R : State → State → Prop}

theorem foldl (hR : EndRel R) {α : Type} {f : State → α → State} (l : List α) (hf : ∀ s, ∀ a ∈ l, R s (f s a)) (s : State) : R s (l.foldl f s) := by
  induction l generalizing s with
  | nil => exact hR.same rfl
  | cons a r ih =>
    exact hR.trans (hf s a List.mem_cons_self) (ih (fun s b hb => hf s b (List.mem_cons_of_mem _ hb)) _)

theorem abandonSaved (hR : EndRel R) (s : State) (k : Machine.Task) : R s (abandonSaved s k) := by
  unfold Machine.abandonSaved
  refine hR.foldl _ (fun s e _ => ?_) s
  exact hR.count s e.1 _

theorem dropState (hR : EndRel R) (s : State) (u : Nat) (k : Machine.Task) : R s (dropState s u k) := by
  unfold Machine.dropState
  refine hR.trans (hR.foldl (gangOf k) (fun s i _ => ?_) s) (hR.same rfl)
  exact hR.drop s i _ _

theorem endUnits (hR : EndRel R) (s : State) (u : Nat) (k : Machine.Task) : R s (endUnits s u k) := by
  have hsaved := hR.abandonSaved s k
  unfold Machine.endUnits
  dsimp only
  split
  · exact hR.trans (hR.trans hsaved (hR.dropState _ u k)) (hR.same (by rw [leaveSlot, modCtx_cores, modTask_cores]))
  · exact hR.trans hsaved (hR.same (by rw [modTask_cores]))

/-- Settling a task: it may leave its cores, its open epochs abandoned, and its units may end. -/
theorem settleTask (hR : EndRel R) (habandon : ∀ s core tile, tile < 8 → R s (abandonAt s core tile)) (hleave : ∀ s core, R s (modCore s core leaveCore))
    (s : State) (u : Nat) : R s (settleTask s u) := by
  unfold Machine.settleTask
  split
  · exact hR.same rfl
  next k _ =>
    have habandonAll : ∀ s core, R s (abandonAll s core) := fun s core =>
      hR.foldl (List.range 8) (fun s tile ht => habandon s core tile (List.mem_range.1 ht)) s
    have hcores := hR.trans (hR.foldl (gangOf k) (fun s core _ => habandonAll s core) s) (hR.foldl (gangOf k) (fun s core _ => hleave s core) _)
    dsimp only
    split
    · exact hR.trans hcores (hR.same (by rw [leaveSlot, modCtx_cores, modTask_cores]))
    · split
      · exact hR.endUnits s u k
      · exact hR.same rfl

/-- A task that stays on its cores does not leave them. -/
theorem settleTask_stays (hR : EndRel R) {s : State} {u : Nat} (h : ∀ k, tabFind s.tasks u = some k → StaysOn s k) : R s (Machine.settleTask s u) := by
  unfold Machine.settleTask
  split
  · exact hR.same rfl
  next k hk =>
    obtain ⟨herr, i, hi, hhalt⟩ := h k hk
    dsimp only
    split
    next hleaves =>
      have hall := List.all_eq_true.1 hleaves.2 (getCore s i) (List.mem_map_of_mem hi)
      rw [hhalt, herr] at hall
      exact absurd hall (by rw [Bool.false_or, Option.isSome_none, Bool.false_and, Bool.false_and]; exact nofun)
    next =>
      split
      · exact hR.endUnits s u k
      · exact hR.same rfl

end EndRel

theorem endRel_unitRests : EndRel UnitRests where
  same := UnitRests.of_cores
  trans := UnitRests.trans
  count s core m := UnitRests.modCore s core fun _ ⟨hqueue, hrun, _⟩ => ⟨hqueue, hrun, rfl⟩
  drop s core f b := UnitRests.modCore s core fun _ ⟨hqueue, hrun, _⟩ => ⟨hqueue, hrun, rfl⟩

theorem unitRests_settleCore (s : State) (core : Nat) : UnitRests s (settleCore s core) := by
  unfold settleCore
  split
  next u _ =>
    refine endRel_unitRests.settleTask (fun s core tile => unitRests_abandonAt s core) (fun s core => UnitRests.modCore s core fun c ⟨hqueue, hrun, _⟩ => ?_) s u
    rw [leaveCore_mu hqueue hrun]
    exact ⟨hqueue, hrun, rfl⟩
  · exact .refl s

/-- The registers of the cores stay when a task settles that is not pre-empted. -/
theorem settleTask_regs {u : Nat} (h : ∀ k, tabFind s.tasks u = some k → k.st ≠ 3) (i : Nat) : (getCore (settleTask s u) i).regs = (getCore s i).regs := by
  unfold settleTask
  split
  · rfl
  next k hk =>
    have hst := h k hk
    dsimp only
    split
    · exact ((Settled.foldl _ settled_abandonAll s).trans ((settled_leaveCores ..).trans ((Settled.modTask ..).trans (Settled.leaveSlot ..)))).regs i
    · split
      · rw [endUnits, if_neg hst, if_neg hst]
        exact ((settled_abandonSaved s k).trans (Settled.modTask ..)).regs i
      · rfl

theorem settleTask_tok (s : State) (u i : Nat) : (getCore (settleTask s u) i).tok = (getCore s i).tok := ((WaitEnds.idles_settleTask s u).core i).2

theorem settleCore_tok (s : State) (core i : Nat) : (getCore (settleCore s core) i).tok = (getCore s i).tok := by
  unfold settleCore
  split
  · exact settleTask_tok ..
  · rfl

/-! ## Abort -/

/-- A tile after its open epoch is abandoned. -/
def closeTile (x : Tile) (g : Bool) : Tile :=
  match x.epoch with
  | none => x
  | some e => { x with epoch := none, inflight := g, last := { cope := signature e.held, drag := signature e.drag, assay := 0, outcome := 5 } }

theorem closeTile_epoch (x : Tile) (g : Bool) : (closeTile x g).epoch = none := by
  unfold closeTile
  split
  · assumption
  · rfl

theorem closeTile_last {x : Tile} {e : Epoch} (h : x.epoch = some e) (g : Bool) :
    (closeTile x g).last = { cope := signature e.held, drag := signature e.drag, assay := 0, outcome := 5 } := by
  rw [closeTile, h]

theorem closeTile_closed {x : Tile} (h : x.epoch = none) (g : Bool) : closeTile x g = x := by rw [closeTile, h]

/-- Abandoning a tile closes it, and leaves the other tiles, the queue and the routine. -/
theorem abandonTile_fields (m : MUnit) (tile : Nat) (g : Bool) : tabGet (abandonTile m tile g).tiles tile {} = closeTile (tabGet m.tiles tile {}) g ∧
    (∀ i, i ≠ tile → tabGet (abandonTile m tile g).tiles i {} = tabGet m.tiles i {}) ∧ (abandonTile m tile g).queue = m.queue ∧
    (abandonTile m tile g).run = m.run := by
  unfold abandonTile
  split
  next hx =>
    refine ⟨?_, fun _ _ => rfl, rfl, rfl⟩
    rw [tabGet, hx]
    rfl
  next x hx =>
    have hget : tabGet m.tiles tile {} = x := by rw [tabGet, hx]; rfl
    split
    next he =>
      refine ⟨?_, fun _ _ => rfl, rfl, rfl⟩
      rw [hget, closeTile_closed he]
    next e he =>
      refine ⟨?_, fun i hi => ?_, rfl, rfl⟩
      · rw [tabGet_tabSet_self, hget, closeTile, he]
      · rw [tabGet_tabSet, if_neg hi]

/-- The tiles, the queue and the routine of a core after one of its tiles is abandoned. -/
theorem abandonAt_fields (s : State) (core tile : Nat) : ∃ g,
    tileOf (getCore (abandonAt s core tile) core) tile = closeTile (tileOf (getCore s core) tile) g ∧
    (∀ i, i ≠ tile → tileOf (getCore (abandonAt s core tile) core) i = tileOf (getCore s core) i) ∧
    (getCore (abandonAt s core tile) core).mu.queue = (getCore s core).mu.queue ∧
    (getCore (abandonAt s core tile) core).mu.run = (getCore s core).mu.run := by
  refine ⟨match taskOf s core with | some t => greenRows t core tile | none => false, ?_⟩
  rw [abandonAt, getCore_modCore_self]
  exact abandonTile_fields ..

/-- A tile of a core that was abandoned: its epoch is closed, its signatures stand. -/
def Abandoned (c d : Core) (i : Nat) : Prop :=
  (tileOf d i).epoch = none ∧
  ∀ e, (tileOf c i).epoch = some e → (tileOf d i).last = { cope := signature e.held, drag := signature e.drag, assay := 0, outcome := 5 }

theorem abandonList_closed (core : Nat) {i : Nat} (l : List Nat) (s : State) (h : (tileOf (getCore s core) i).epoch = none) :
    tileOf (getCore (l.foldl (fun s t => abandonAt s core t) s) core) i = tileOf (getCore s core) i := by
  induction l generalizing s with
  | nil => rfl
  | cons a r ih =>
    obtain ⟨g, hself, hothers, -⟩ := abandonAt_fields s core a
    have hone : tileOf (getCore (abandonAt s core a) core) i = tileOf (getCore s core) i := by
      by_cases hi : i = a
      · rw [hi, hself, closeTile_closed (hi ▸ h)]
      · exact hothers i hi
    exact (ih _ (by rw [hone]; exact h)).trans hone

theorem abandonList_abandons (core : Nat) {i : Nat} (l : List Nat) (s : State) (h : i ∈ l) :
    Abandoned (getCore s core) (getCore (l.foldl (fun s t => abandonAt s core t) s) core) i := by
  induction l generalizing s with
  | nil => exact absurd h List.not_mem_nil
  | cons a r ih =>
    obtain ⟨g, hself, hothers, -⟩ := abandonAt_fields s core a
    by_cases hi : i = a
    · subst hi
      have hepoch : (tileOf (getCore (abandonAt s core i) core) i).epoch = none := by rw [hself]; exact closeTile_epoch ..
      have hrest := abandonList_closed core r (abandonAt s core i) hepoch
      refine ⟨?_, fun e he => ?_⟩
      · rw [List.foldl_cons, hrest, hself]
        exact closeTile_epoch ..
      · rw [List.foldl_cons, hrest, hself]
        exact closeTile_last he g
    · obtain ⟨hnone, hlast⟩ := ih (abandonAt s core a) ((List.mem_cons.1 h).resolve_left hi)
      exact ⟨hnone, fun e he => hlast e (by rw [hothers i hi]; exact he)⟩

theorem abandonList_work (core : Nat) (l : List Nat) (s : State) :
    (getCore (l.foldl (fun s t => abandonAt s core t) s) core).mu.queue = (getCore s core).mu.queue ∧
    (getCore (l.foldl (fun s t => abandonAt s core t) s) core).mu.run = (getCore s core).mu.run := by
  induction l generalizing s with
  | nil => exact ⟨rfl, rfl⟩
  | cons a r ih =>
    obtain ⟨g, -, -, hqueue, hrun⟩ := abandonAt_fields s core a
    obtain ⟨hq, hr⟩ := ih (abandonAt s core a)
    exact ⟨hq.trans hqueue, hr.trans hrun⟩

/-- The tokens of a list of entries done-error with code 7. -/
theorem failTokens (core : Nat) (l : List MEntry) (s : State) : (∀ n, n ≠ 0 → tokOf (getCore s core) n = .err 7 ∨ (∃ e ∈ l, e.tok = n) →
    tokOf (getCore (l.foldl (fun s e => setTok s core e.tok (.err 7)) s) core) n = .err 7) ∧
    ∃ tok, getCore (l.foldl (fun s e => setTok s core e.tok (.err 7)) s) core = { getCore s core with tok := tok } := by
  induction l generalizing s with
  | nil => exact ⟨fun n _ h => h.resolve_right fun ⟨e, he, _⟩ => absurd he List.not_mem_nil, _, rfl⟩
  | cons a r ih =>
    obtain ⟨htok, tok, hcore⟩ := ih (setTok s core a.tok (.err 7))
    refine ⟨fun n hn h => htok n hn ?_, ?_⟩
    · by_cases hna : n = a.tok
      · exact .inl (hna ▸ tokOf_setTok_self s core (hna ▸ hn) (.err 7))
      · refine h.imp (fun h => (tokOf_setTok_ne s core hna (.err 7)).trans h) fun ⟨e, he, hen⟩ => ⟨e, ?_, hen⟩
        rcases List.mem_cons.1 he with rfl | hr
        · exact absurd hen.symm hna
        · exact hr
    · obtain ⟨l, hl, -⟩ := getCore_setTok s core a.tok (.err 7) core
      exact ⟨tok, by rw [List.foldl_cons, hcore, hl]⟩

theorem abandonAll_task (s : State) (core i : Nat) : (getCore (abandonAll s core) i).task = (getCore s i).task := by
  refine foldl_keeps (P := fun t => (getCore t i).task = (getCore s i).task) (fun t tile ht => Eq.trans ?_ ht) _ rfl
  rw [abandonAt, getCore_modCore]
  split
  next h => rw [h]
  next => rfl

/-- A core without entries: their tokens, and that of the running one, are done-error. -/
structure Emptied (c d : Core) : Prop where
  queue : d.mu.queue = []
  run : d.mu.run = none
  tiles : d.mu.tiles = c.mu.tiles
  regs : d.regs = c.regs
  task : d.task = c.task
  queued : ∀ e ∈ c.mu.queue, e.tok ≠ 0 → tokOf d e.tok = .err 7
  running : ∀ r, c.mu.run = some r → r.entry.tok ≠ 0 → tokOf d r.entry.tok = .err 7

/-- The queue emptied and its tokens failed. -/
def withoutQueue (s : State) (core : Nat) : State :=
  modCore ((getCore s core).mu.queue.foldl (fun s e => setTok s core e.tok (.err 7)) s) core fun c => { c with mu := { c.mu with queue := [] } }

/-- The running entry stopped and its token failed. -/
def withoutRun (s : State) (core : Nat) : State :=
  match (getCore s core).mu.run with
  | some r => setTok (modCore s core fun c => { c with mu := { c.mu with run := none } }) core r.entry.tok (.err 7)
  | none => s

theorem abortUnit_eq {core : Nat} (h : checkingIn (getCore s core) = false) :
    abortUnit s core = settleCore (abandonAll (withoutRun (withoutQueue s core) core) core) core :=
  (if_neg (by rw [show (getCore s core).mu.tiles.any _ = false from h]; exact Bool.false_ne_true)).trans rfl

theorem withoutQueue_core (s : State) (core : Nat) : ∃ tok, getCore (withoutQueue s core) core =
      { getCore s core with tok := tok, mu := { (getCore s core).mu with queue := [] } } ∧
    ∀ e ∈ (getCore s core).mu.queue, e.tok ≠ 0 → tokOf (getCore (withoutQueue s core) core) e.tok = .err 7 := by
  obtain ⟨htok, tok, hcore⟩ := failTokens core (getCore s core).mu.queue s
  refine ⟨tok, ?_, fun e he hn => ?_⟩
  · rw [withoutQueue, getCore_modCore_self, hcore]
  · rw [withoutQueue, getCore_modCore_self]
    exact htok e.tok hn (.inr ⟨e, he, rfl⟩)

theorem emptied_withoutRun (s : State) (core : Nat) : Emptied (getCore s core) (getCore (withoutRun (withoutQueue s core) core) core) := by
  obtain ⟨tok, hcore, hqueued⟩ := withoutQueue_core s core
  have hrun : (getCore (withoutQueue s core) core).mu.run = (getCore s core).mu.run := by rw [hcore]
  unfold withoutRun
  rw [hrun]
  cases hr : (getCore s core).mu.run with
  | none =>
    dsimp only
    refine ⟨by rw [hcore], by rw [hrun, hr], by rw [hcore], by rw [hcore], by rw [hcore], hqueued, fun r h => absurd (hr.symm.trans h) nofun⟩
  | some r =>
    dsimp only
    obtain ⟨l, hl, -⟩ := getCore_setTok (modCore (withoutQueue s core) core fun c => { c with mu := { c.mu with run := none } }) core r.entry.tok (.err 7) core
    rw [getCore_modCore_self, hcore] at hl
    refine ⟨by rw [hl], by rw [hl], by rw [hl], by rw [hl], by rw [hl], fun e he hn => ?_, fun r' h hn => ?_⟩
    · by_cases hsame : e.tok = r.entry.tok
      · rw [hsame]
        exact tokOf_setTok_self _ core (hsame ▸ hn) (.err 7)
      · rw [tokOf_setTok_ne _ core hsame, getCore_modCore_self]
        exact hqueued e he hn
    · obtain rfl := Option.some.inj (hr.symm.trans h)
      exact tokOf_setTok_self _ core hn (.err 7)

theorem withoutQueue_keeps (s : State) (core : Nat) : (withoutQueue s core).mem = s.mem ∧ (withoutQueue s core).tasks = s.tasks :=
  foldl_keeps (P := fun t => t.mem = s.mem ∧ t.tasks = s.tasks) (fun t e ⟨hmem, htasks⟩ => ⟨(setTok_mem ..).trans hmem, (setTok_tasks ..).trans htasks⟩)
    (getCore s core).mu.queue ⟨rfl, rfl⟩

theorem withoutRun_keeps (s : State) (core : Nat) : (withoutRun s core).mem = s.mem ∧ (withoutRun s core).tasks = s.tasks := by
  unfold withoutRun
  split
  · exact ⟨setTok_mem .., setTok_tasks ..⟩
  · exact ⟨rfl, rfl⟩

/-- The open epochs of an idle unit abandoned and its task settled: the epochs are closed, and the rest stays. -/
theorem abandonAll_settles {core : Nat} (hqueue : (getCore s core).mu.queue = []) (hrun : (getCore s core).mu.run = none) :
    (getCore (settleCore (abandonAll s core) core) core).mu.queue = [] ∧ (getCore (settleCore (abandonAll s core) core) core).mu.run = none ∧
    (∀ i, i < 8 → Abandoned (getCore s core) (getCore (settleCore (abandonAll s core) core) core) i) ∧
    (getCore (settleCore (abandonAll s core) core) core).tok = (getCore s core).tok ∧ (settleCore (abandonAll s core) core).mem = s.mem := by
  have habandoned : ∀ i, i < 8 → Abandoned (getCore s core) (getCore (abandonAll s core) core) i := fun i hi =>
    abandonList_abandons core (List.range 8) s (List.mem_range.2 hi)
  obtain ⟨hq4, hr4⟩ := abandonList_work core (List.range 8) s
  obtain ⟨⟨hq, hr, -⟩, htiles⟩ := unitRests_settleCore (abandonAll s core) core core
    ⟨hq4.trans hqueue, hr4.trans hrun, fun i hi => (habandoned i hi).1⟩
  refine ⟨hq, hr, fun i hi => ?_, (settleCore_tok _ core core).trans ((settled_abandonAll s core).tok core),
    (MemErrors.settleCore_mem _ core).trans (settled_abandonAll s core).mem⟩
  obtain ⟨hnone, hlast⟩ := habandoned i hi
  have htile : tileOf (getCore (settleCore (abandonAll s core) core) core) i = tileOf (getCore (abandonAll s core) core) i := by
    rw [tileOf, tileOf, htiles]
  exact ⟨by rw [htile]; exact hnone, fun e he => by rw [htile]; exact hlast e he⟩

/-- The registers stay when the task is not pre-empted. -/
theorem abandonAll_regs {core : Nat} (hst : ∀ u k, (getCore s core).task = some u → tabFind s.tasks u = some k → k.st ≠ 3) :
    (getCore (settleCore (abandonAll s core) core) core).regs = (getCore s core).regs := by
  refine Eq.trans ?_ ((settled_abandonAll s core).regs core)
  unfold settleCore
  split
  next u hu =>
    refine settleTask_regs (fun k hk => hst u k ((abandonAll_task s core core).symm.trans hu) ?_) core
    rw [← abandonAll_tasks s core]
    exact hk
  next => rfl

/-- R146: what an abort leaves of the core's unit, when no SIGCHK is in assay. -/
theorem abortUnit_aborts {core : Nat} (h : checkingIn (getCore s core) = false) :
    (getCore (abortUnit s core) core).mu.queue = [] ∧ (getCore (abortUnit s core) core).mu.run = none ∧
    (∀ i, i < 8 → Abandoned (getCore s core) (getCore (abortUnit s core) core) i) ∧
    (∀ e ∈ (getCore s core).mu.queue, e.tok ≠ 0 → tokOf (getCore (abortUnit s core) core) e.tok = .err 7) ∧
    (∀ r, (getCore s core).mu.run = some r → r.entry.tok ≠ 0 → tokOf (getCore (abortUnit s core) core) r.entry.tok = .err 7) ∧
    ((∀ u k, (getCore s core).task = some u → tabFind s.tasks u = some k → k.st ≠ 3) →
      (getCore (abortUnit s core) core).regs = (getCore s core).regs) ∧ (abortUnit s core).mem = s.mem := by
  rw [abortUnit_eq h]
  have hempty := emptied_withoutRun s core
  have hmem : (withoutRun (withoutQueue s core) core).mem = s.mem := (withoutRun_keeps ..).1.trans (withoutQueue_keeps ..).1
  have htasks : (withoutRun (withoutQueue s core) core).tasks = s.tasks := (withoutRun_keeps ..).2.trans (withoutQueue_keeps ..).2
  generalize withoutRun (withoutQueue s core) core = s3 at hempty hmem htasks ⊢
  obtain ⟨hq, hr, htiles, htok, hmem'⟩ := abandonAll_settles hempty.queue hempty.run
  have htokOf : ∀ n, tokOf (getCore (settleCore (abandonAll s3 core) core) core) n = tokOf (getCore s3 core) n := fun n => by rw [tokOf, tokOf, htok]
  refine ⟨hq, hr, fun i hi => ?_, fun e he hn => (htokOf _).trans (hempty.queued e he hn), fun r hr hn => (htokOf _).trans (hempty.running r hr hn),
    fun hst => ?_, hmem'.trans hmem⟩
  · obtain ⟨hnone, hlast⟩ := htiles i hi
    exact ⟨hnone, fun e he => hlast e (by rw [tileOf, hempty.tiles]; exact he)⟩
  · refine (abandonAll_regs fun u k hu hk => hst u k (hempty.task.symm.trans hu) ?_).trans hempty.regs
    rw [← htasks]
    exact hk

/-! ## Starts -/

/-- What the head entry leaves as it is of a core: the entries after it, its task, and whether it has halted. -/
def waitingWork (c : Core) := (c.mu.queue, c.task, c.halted)

/-- `t` keeps of `s` the waiting entries of every core and who holds it, and of every task everything but its claims and losses. -/
structure WorkKept (s t : State) : Prop where
  core : ∀ i, waitingWork (getCore t i) = waitingWork (getCore s i)
  tasks : ∀ v, (tabFind t.tasks v).map bare = (tabFind s.tasks v).map bare

namespace WorkKept

theorem refl (s : State) : WorkKept s s := ⟨fun _ => rfl, fun _ => rfl⟩

theorem trans (h : WorkKept s t) (h' : WorkKept t w) : WorkKept s w :=
  ⟨fun i => (h'.core i).trans (h.core i), fun v => (h'.tasks v).trans (h.tasks v)⟩

theorem of_engine (h : EngineOnly s t) : WorkKept s t := ⟨fun i => by rw [h.getCore], h.tasks⟩

theorem modCore (s : State) (core : Nat) {f : Core → Core} (hf : ∀ c, waitingWork (f c) = waitingWork c) : WorkKept s (modCore s core f) where
  core i := by
    rw [getCore_modCore]
    split
    next h => rw [h, hf]
    next => rfl
  tasks _ := rfl

theorem setTok (s : State) (core n : Nat) (k : Tok) : WorkKept s (setTok s core n k) := by
  unfold Machine.setTok
  split
  · exact .refl s
  · exact modCore s core fun _ => rfl

theorem foldl {α : Type} {f : State → α → State} (hf : ∀ s a, WorkKept s (f s a)) (l : List α) (s : State) : WorkKept s (l.foldl f s) :=
  foldl_keeps (P := WorkKept s) (fun t a h => h.trans (hf t a)) l (.refl s)

/-- A task that stays on its cores stays. -/
theorem stays (h : WorkKept s t) {u : Nat} {k : Machine.Task} (hk : tabFind s.tasks u = some k) (hstays : StaysOn s k) :
    ∀ k', tabFind t.tasks u = some k' → StaysOn t k' := by
  intro k' hk'
  have hbare : bare k' = bare k := by
    have htasks := h.tasks u
    rw [hk, hk'] at htasks
    exact Option.some.inj htasks
  obtain ⟨herr, i, hi, hhalt⟩ := hstays
  refine ⟨(congrArg (fun k => k.error) hbare).trans herr, i, ?_, (congrArg (fun c => c.2.2) (h.core i)).trans hhalt⟩
  have hgang : gangOf k' = gangOf k := show gangOf (bare k') = gangOf (bare k) from congrArg gangOf hbare
  rw [hgang]
  exact hi

end WorkKept

theorem workKept_tokenError (s : State) (core tok code cls addr dir word tile : Nat) : WorkKept s (tokenError s core tok code cls addr dir word tile) :=
  (WorkKept.setTok s core tok _).trans (.of_engine (engineOnly_tokenError ..))

theorem workKept_writeRecord (s : State) (core : Nat) (w : Who) (tok addr align : Nat) (b : List Byte) : WorkKept s (writeRecord s core w tok addr align b) := by
  unfold writeRecord
  split
  · exact .setTok ..
  · have hwrite : WorkKept s (engWrite s w addr b).1 := .of_engine (engineOnly_engWrite ..)
    split
    next s1 h =>
      rw [h] at hwrite
      have hnote := hwrite.trans (.of_engine (engineOnly_noteRecord s s1 core w tok addr b.length))
      dsimp only
      split
      · exact hnote
      · exact hnote.trans (.setTok ..)
    next s1 cls a h =>
      rw [h] at hwrite
      exact hwrite.trans (workKept_tokenError ..)

theorem workKept_loadWords (core : Nat) (w : Who) (tok addr first n : Nat) (s : State) (i : Nat) : WorkKept s (loadWords s core w tok addr first n i) := by
  induction n generalizing s i with
  | zero => exact .setTok ..
  | succ n ih =>
    have hread : WorkKept s (engRead s w { x := true } (addr + 8 * i) 8).2 := .of_engine (engineOnly_engRead ..)
    rw [loadWords]
    split
    next b s1 h =>
      rw [h] at hread
      exact hread.trans ((WorkKept.modCore s1 core (f := fun c => { c with mu := { c.mu with
        store := tabSet c.mu.store (first + i) (BitVec.ofNat 64 (natOfBytes b)) } }) fun _ => rfl).trans (ih _ _))
    next cls a s1 h =>
      rw [h] at hread
      exact hread.trans (workKept_tokenError ..)

theorem workKept_abandonAt (s : State) (core tile : Nat) : WorkKept s (abandonAt s core tile) := by
  unfold abandonAt
  refine WorkKept.modCore s core fun c => ?_
  have hqueue := fun g => (abandonTile_fields c.mu tile g).2.2.1
  simp only [waitingWork, hqueue]

theorem workKept_runEntry (s : State) (core u : Nat) (k : Machine.Task) (e : MEntry) : WorkKept s (runEntry s core u k e) := by
  unfold runEntry
  dsimp only
  split
  · exact WorkKept.modCore s core fun _ => rfl
  · refine WorkKept.trans (WorkKept.foldl (fun s i => ?_) _ s) (.setTok ..)
    split
    · exact (workKept_abandonAt ..).trans (WorkKept.modCore _ core fun _ => rfl)
    · exact .refl s
  · exact workKept_writeRecord ..
  · exact workKept_writeRecord ..
  · split <;> split
    · exact .setTok ..
    · exact workKept_loadWords ..
    · exact .setTok ..
    · exact workKept_loadWords ..

/-! The end of a start. -/

/-- The entries of a core and its routine. -/
def workOf (c : Core) := (c.mu.queue, c.mu.run)

theorem endRel_workOf : EndRel fun s t => ∀ i, workOf (getCore t i) = workOf (getCore s i) where
  same h i := by rw [Frames.getCore_congr h]
  trans h h' i := (h' i).trans (h i)
  count s core m i := by
    rw [getCore_modCore]
    split
    next h => rw [h]; rfl
    next => rfl
  drop s core f b i := by
    rw [getCore_modCore]
    split
    next h => rw [h]; rfl
    next => rfl

/-- A task that stays on its cores keeps their units' work. -/
theorem settleCore_work {core u : Nat} (htask : (getCore s core).task = some u) (h : ∀ k, tabFind s.tasks u = some k → StaysOn s k) (i : Nat) :
    workOf (getCore (settleCore s core) i) = workOf (getCore s i) := by
  rw [settleCore, htask]
  exact endRel_workOf.settleTask_stays h i

theorem endRel_runNone : EndRel fun s t => ∀ i, (getCore s i).mu.run = none → (getCore t i).mu.run = none where
  same h i hi := by rw [Frames.getCore_congr h]; exact hi
  trans h h' i hi := h' i (h i hi)
  count s core m i hi := by
    rw [getCore_modCore]
    split
    next h => exact h ▸ hi
    next => exact hi
  drop s core f b i hi := by
    rw [getCore_modCore]
    split
    next h => exact h ▸ hi
    next => exact hi

/-- Settling starts no routine. -/
theorem settleCore_runNone {core i : Nat} (h : (getCore s i).mu.run = none) : (getCore (settleCore s core) i).mu.run = none := by
  unfold settleCore
  split
  next u _ =>
    refine endRel_runNone.settleTask (fun s core tile _ i hi => ?_) (fun s core i hi => ?_) s u i h
    · rw [abandonAt, getCore_modCore]
      split
      next he => exact ((abandonTile_fields ..).2.2.2).trans (he ▸ hi)
      next => exact hi
    · rw [getCore_modCore]
      split
      next he =>
        unfold leaveCore
        dsimp only
        split
        · exact he ▸ hi
        · rfl
      next => exact hi
  next => exact h

/-- The head entry taken from its queue. -/
def headTaken (s : State) (core : Nat) (rest : List MEntry) : State := modCore s core fun c => { c with mu := { c.mu with queue := rest } }

theorem startHead_starts {core u : Nat} {k : Machine.Task} {e : MEntry} {rest : List MEntry} (hrun : (getCore s core).mu.run = none)
    (hqueue : (getCore s core).mu.queue = e :: rest) (htask : (getCore s core).task = some u) (hk : tabFind s.tasks u = some k)
    (hgo : ¬ (listDone (getCore s core) e.list = false ∨ engineHeld (getCore s core) (getCore s core).task 0x30 e.no = true ∨ mustStop s u k = true ∨
      entryWaits s u k e = true ∨ ackOut s core (getCore s core).task isMatrixSent = true)) :
    startHead s core = settleCore (if listFailed (getCore s core) e.list then setTok (headTaken s core rest) core e.tok (.err 7)
      else runEntry (headTaken s core rest) core u k e) core := by
  simp only [startHead, hrun, hqueue, htask, hk]
  rw [htask] at hgo
  exact if_neg hgo

end

/-- Settles O32. -/
theorem matrixQueue : Obligations.MatrixQueue := by
  unfold Obligations.MatrixQueue
  refine ⟨fun s => ?queues, fun o s hon hcheck => ?aborts, fun s core u k e rest => ?starts⟩
  case queues =>
    intro c queues
    have hqueues : ∀ {i : Instr} {g : BitVec 4} {tok : BitVec 6} {ok : Prop} {kind : MKind} {list : W64},
        (guardOn s g = true → ok → exec i s = .next (mEnqueue unitM kind tok list s)) → queues i g tok ok kind list := by
      intro i g tok ok kind list hexec hon hok
      have hrun := hexec hon hok
      refine ⟨fun hfree hroom => ?_, fun hpending => ?_, fun hfree hfull => ?_⟩
      · exact ⟨_, hrun.trans (congrArg Host.Outcome.next (mEnqueue_free hfree hroom)), queued_fields s kind tok list⟩
      · rw [hrun, mEnqueue_pending hpending, ← BitVec.ofNat_toNat]
        rfl
      · rw [hrun, mEnqueue_full hfree hfull]
        rfl
    refine ⟨fun o => hqueues fun hon hok => ?_, fun o => hqueues fun hon _ => ?_, fun o => hqueues fun hon _ => ?_, fun o => hqueues fun hon _ => ?_,
      fun o => hqueues fun hon hok => ?_, fun o hon hbad => ?_, fun o hon hpriv => ?_⟩
    · exact show execMcall o s = _ from (guarded_on hon).trans (congrArg Host.Outcome.next (if_pos hok))
    · exact show execMclr o s = _ from guarded_on hon
    · exact show execMstat o s = _ from guarded_on hon
    · exact show execMsig o s = _ from guarded_on hon
    · exact show execMload o s = _ from (guarded_on hon).trans (congrArg Host.Outcome.next (if_pos (beq_iff_eq.2 hok)))
    · exact show execMcall o s = _ from (guarded_on hon).trans (congrArg Host.Outcome.next (if_neg (by rw [hbad]; exact Bool.false_ne_true)))
    · exact show execMload o s = _ from (guarded_on hon).trans (congrArg Host.Outcome.next (if_neg fun h => hpriv (beq_iff_eq.1 h)))
  case aborts =>
    obtain ⟨hqueue, hrun, htiles, hqueued, hrunning, hregs, hmem⟩ := abortUnit_aborts (s := s) (core := s.cur) hcheck
    exact ⟨_, show execMabort o s = _ from guarded_on hon, hqueue, hrun, fun i hi => (htiles i hi).1, hqueued, hrunning,
      fun i hi => (htiles i hi).2, hregs, hmem⟩
  case starts =>
    intro c hrun hqueue htask hk hdone hheld hstop hvictim hwaits hack
    have hstart := startHead_starts (rest := rest) hrun hqueue htask hk (by
      rw [show listDone (getCore s core) e.list = true from hdone, show engineHeld (getCore s core) (getCore s core).task 0x30 e.no = false from hheld,
        hstop, hwaits, show ackOut s core (getCore s core).task isMatrixSent = false from hack]
      decide)
    refine ⟨_, show execMatrixEntryStart core s = _ from congrArg Host.Outcome.next (by rw [hvictim]), ?_⟩
    rw [hstart]
    have hhead : getCore (headTaken s core rest) core = { getCore s core with mu := { (getCore s core).mu with queue := rest } } := getCore_modCore_self ..
    have hstays : ∀ {x : State}, WorkKept (headTaken s core rest) x → StaysOn s k → workOf (getCore (settleCore x core) core) = workOf (getCore x core) := by
      intro x hx hon
      have hon' : StaysOn (headTaken s core rest) k := by
        obtain ⟨herr, i, hi, hhalt⟩ := hon
        refine ⟨herr, i, hi, ?_⟩
        rw [headTaken, getCore_modCore]
        split
        next h => rw [h] at hhalt; exact hhalt
        next => exact hhalt
      have htask' : (getCore x core).task = some u := (congrArg (fun p => p.2.1) (hx.core core)).trans (by rw [hhead]; exact htask)
      exact settleCore_work htask' (hx.stays hk hon') core
    have hkept : WorkKept (headTaken s core rest) (if listFailed (getCore s core) e.list then setTok (headTaken s core rest) core e.tok (.err 7)
        else runEntry (headTaken s core rest) core u k e) := by
      split
      · exact .setTok ..
      · exact workKept_runEntry ..
    refine ⟨fun hon => ?_, fun i hkind hlist => ?_, fun hlist htok => ?_⟩
    · refine (congrArg Prod.fst (hstays hkept hon)).trans ((congrArg Prod.fst (hkept.core core)).trans ?_)
      rw [hhead]
      rfl
    · have hcall : runEntry (headTaken s core rest) core u k e =
          modCore (headTaken s core rest) core fun c => { c with mu := { c.mu with run := some { entry := e, upc := 16 * i } } } := by
        simp only [runEntry, hkind]
      rw [if_neg (by rw [hlist]; exact Bool.false_ne_true)] at hkept ⊢
      refine ⟨fun hon => (congrArg Prod.snd (hstays hkept hon)).trans ?_, (settleCore_tok ..).trans ?_, (MemErrors.settleCore_mem ..).trans ?_⟩
      · rw [hcall, getCore_modCore_self]
        rfl
      · rw [hcall, getCore_modCore_self, hhead]
      · rw [hcall]
        rfl
    · rw [if_pos hlist]
      refine ⟨?_, settleCore_runNone ?_⟩
      · rw [tokOf, settleCore_tok]
        exact tokOf_setTok_self _ core htok (.err 7)
      · obtain ⟨l, hl, -⟩ := getCore_setTok (headTaken s core rest) core e.tok (.err 7) core
        rw [hl, hhead]
        exact hrun

end Sys2Proof.MatrixUnit

/-! SUPPORT. Micro-ops that load operands and open, step and convert tiles (spec/07 R151 to R156): O33. -/

namespace Sys2Proof.MatrixOps

open Sys2Proof Sys2Proof.Machine Sys2Proof.Laws Sys2Proof.MatrixUnit

section
variable {s : State} {r : MRun} {u : Nat} {t : Machine.Task}

/-- A micro-op of a routine that is not in assay does what its operation does. -/
theorem micro_ready (h : MicroReady s r u t) (k : MRun → Machine.Task → Nat → State → State) : micro s k = .next (k r t u s) := by
  obtain ⟨hrun, htask, hk, hcheck⟩ := h
  simp only [micro, hrun, htask, hk]
  exact congrArg Host.Outcome.next (if_neg (by rw [show (me s).mu.tiles.any _ = false from hcheck]; exact Bool.false_ne_true))

/-- The rows of a stride set. -/
def rowsOf (g : Stride) : List Nat :=
  (List.range 128).map fun (i : Nat) => (((g.base.toNat : Int) + i * g.str0.toInt) % (2 ^ 57 : Int)).toNat

theorem rows_coe (g : Stride) : ((List.range 128).map fun i => (((g.base.toNat : Int) + i * g.str0.toInt) % (2 ^ 57 : Int)).toNat) = rowsOf g := by
  rw [bind_pure_comp]
  exact List.map_map

theorem rowsOf_eq (g : Stride) : rowsOf g = (List.range 128).map (rowAddr g) := by
  unfold rowsOf
  exact List.map_congr_left fun i _ => by unfold rowAddr lAddr; rfl

/-- What a load of rows leaves: the rows in the footprints, the bytes staged, the next micro-op. -/
def loaded (s1 : State) (pas : List Nat) (f : MRun → MRun) : State := modRun (modRun (addFootprint s1 pas) f) fun r => { r with upc := r.upc + 1 }

theorem stageBytes_engineOnly {addrs : List Nat} {n align : Nat} {s1 : State} {b : List Byte} {pas : List Nat}
    (h : stageBytes s t u addrs n align = .ok s1 b pas) : Engines.EngineOnly s s1 := by
  unfold stageBytes at h
  dsimp only at h
  split at h
  · exact absurd h nofun
  · split at h
    · exact absurd h nofun
    · split at h
      · exact absurd h nofun
      next l _ =>
        have hreach := (Engines.engineOnly_reach s (whoTask u t false) u l)
        split at h
        · exact absurd h nofun
        next s2 q hq =>
          split at h
          · rw [hq] at hreach
            cases h
            exact hreach
          · exact absurd h nofun

theorem modRun_congr {f g : MRun → MRun} (hrun : (me s).mu.run = some r) (h : f r = g r) : modRun s f = modRun s g := by
  have hmap : (getCore s s.cur).mu.run.map f = (getCore s s.cur).mu.run.map g := by
    rw [show (getCore s s.cur).mu.run = some r from hrun]
    exact congrArg some h
  simp only [modRun, modMu, modMe, modCore, hmap]

theorem addFootprint_run (hrun : (me s).mu.run = some r) (pas : List Nat) : (me (addFootprint s pas)).mu.run = some r := by
  rw [addFootprint, modMu, me_modMe]
  exact hrun

/-- What the staged operand is does not depend on the routine's other fields. -/
theorem loaded_congr {addrs : List Nat} {n align : Nat} {s1 : State} {b : List Byte} {pas : List Nat} {f g : MRun → MRun}
    (hrun : (me s).mu.run = some r) (h : stageBytes s t u addrs n align = .ok s1 b pas) (hfg : f r = g r) : loaded s1 pas f = loaded s1 pas g := by
  rw [loaded, loaded, modRun_congr (addFootprint_run (((stageBytes_engineOnly h).me ▸ hrun)) pas) hfg]

theorem loadOperand_ok {g : Stride} {code : Nat} {put : Stage → MRun → MRun} {s1 : State} {b : List Byte} {pas : List Nat}
    (h : stageBytes s t u (rowsOf g) (128 * opSize code) 128 = .ok s1 b pas) :
    loadOperand s t u g code put = loaded s1 pas (put { elems := elemsOf (opSize code) 16384 b, grp := groupsOf pas, rows := pas }) := by
  rw [rowsOf_eq] at h
  simp only [loadOperand, h]
  rfl

/-- The scales that a scale load stages. -/
def stagedScale (g : Stride) (b : List Byte) (pas : List Nat) : Stage :=
  { elems := (List.range 128).map (fun k => ((elemsOf 4 128 b)[k % 8 * 16 + k / 8]?).getD 0), grp := groupsOf pas, rows := pas,
    ext0 := g.ext0.toNat, ext1 := g.ext1.toNat }

theorem loadScale_ok {g : Stride} {put : Stage → MRun → MRun} {s1 : State} {b : List Byte} {pas : List Nat} (hext : extOk g = true)
    (h : stageBytes s t u [g.base.toNat] 512 512 = .ok s1 b pas) : loadScale s t u g put = loaded s1 pas (put (stagedScale g b pas)) := by
  rw [loadScale, if_neg (by rw [hext]; exact Bool.false_ne_true.symm), h]
  rfl

theorem lda_ok {o : UOp} {s1 : State} {b : List Byte} {pas : List Nat} (h : MicroReady s r u t)
    (hb : stageBytes s t u (rowsOf (setOf r o.gA)) (128 * opSize (aCode r.entry.fmt)) 128 = .ok s1 b pas) : exec (.lda o) s =
      .next (loaded s1 pas fun r => { r with a := some { elems := elemsOf (opSize (aCode r.entry.fmt)) 16384 b, grp := groupsOf pas, rows := pas } }) :=
  show execLda o s = _ from (micro_ready h _).trans (congrArg Host.Outcome.next ((loadOperand_ok (put := fun st r => { r with a := some st }) hb).trans
    (loaded_congr h.1 hb rfl)))

theorem ldb_ok {o : UOp} {s1 : State} {b : List Byte} {pas : List Nat} (h : MicroReady s r u t)
    (hb : stageBytes s t u (rowsOf (setOf r o.gB)) (128 * opSize (bCode r.entry.fmt)) 128 = .ok s1 b pas) : exec (.ldb o) s =
      .next (loaded s1 pas fun r => { r with b := some { elems := elemsOf (opSize (bCode r.entry.fmt)) 16384 b, grp := groupsOf pas, rows := pas } }) :=
  show execLdb o s = _ from (micro_ready h _).trans (congrArg Host.Outcome.next ((loadOperand_ok (put := fun st r => { r with b := some st }) hb).trans
    (loaded_congr h.1 hb rfl)))

theorem ldsa_ok {o : UOp} {s1 : State} {b : List Byte} {pas : List Nat} (h : MicroReady s r u t) (hext : extOk (setOf r o.gA) = true)
    (hb : stageBytes s t u [(setOf r o.gA).base.toNat] 512 512 = .ok s1 b pas) : exec (.ldsa o) s =
      .next (loaded s1 pas fun r' => { r' with sa := some (stagedScale (setOf r o.gA) b pas) }) :=
  show execLdsa o s = _ from (micro_ready h _).trans (congrArg Host.Outcome.next (loadScale_ok (put := fun st r => { r with sa := some st }) hext hb))

theorem ldsb_ok {o : UOp} {s1 : State} {b : List Byte} {pas : List Nat} (h : MicroReady s r u t) (hext : extOk (setOf r o.gB) = true)
    (hb : stageBytes s t u [(setOf r o.gB).base.toNat] 512 512 = .ok s1 b pas) : exec (.ldsb o) s =
      .next (loaded s1 pas fun r' => { r' with sb := some (stagedScale (setOf r o.gB) b pas) }) :=
  show execLdsb o s = _ from (micro_ready h _).trans (congrArg Host.Outcome.next (loadScale_ok (put := fun st r => { r with sb := some st }) hext hb))

/-- Without pre-empted tasks no tile holds a victim's state. -/
theorem claimTile_noVictims (hno : NoVictims s) (u core tile : Nat) : claimTile s u core tile = s := by
  unfold claimTile
  have hstep : ∀ (l : List (Nat × Machine.Task)) (f : State → Nat × Machine.Task → State), (∀ e ∈ l, f s e = s) → l.foldl f s = s := by
    intro l f hf
    induction l with
    | nil => rfl
    | cons a r ih => rw [List.foldl_cons, hf a List.mem_cons_self, ih fun e he => hf e (List.mem_cons_of_mem _ he)]
  exact hstep _ _ fun e he => if_neg fun h => hno e he h.2.1

/-! ## What an operation on one tile leaves -/

/-- `v` differs from `s` in one tile of the executing core and in its running routine. -/
structure TileStep (s v : State) (i : Nat) (x : Tile) (r : MRun) : Prop where
  tile : tileOf (me v) i = x
  run : (me v).mu.run = some r
  others : ∀ k, k ≠ i → tileOf (me v) k = tileOf (me s) k
  regs : (me v).regs = (me s).regs
  tok : (me v).tok = (me s).tok
  mem : v.mem = s.mem

theorem tileStep_modTile {i : Nat} (f : Tile → Tile) (hrun : (me s).mu.run = some r) : TileStep s (modTile s i f) i (f (tileOf (me s) i)) r := by
  have hme : me (modTile s i f) = { me s with mu := { (me s).mu with tiles := tabSet (me s).mu.tiles i (f (tabGet (me s).mu.tiles i {})) } } := me_modMe ..
  refine ⟨?_, ?_, fun k hk => ?_, ?_, ?_, rfl⟩
  · rw [hme]
    exact tabGet_tabSet_self ..
  · rw [hme]
    exact hrun
  · rw [hme]
    exact (tabGet_tabSet ..).trans (if_neg hk)
  · rw [hme]
  · rw [hme]

theorem TileStep.modRun {v : State} {i : Nat} {x : Tile} (h : TileStep s v i x r) (f : MRun → MRun) : TileStep s (modRun v f) i x (f r) := by
  have hme : me (Machine.modRun v f) = { me v with mu := { (me v).mu with run := (me v).mu.run.map f } } := me_modMe ..
  refine ⟨?_, ?_, fun k hk => ?_, ?_, ?_, h.mem⟩
  · rw [hme]
    exact h.tile
  · rw [hme, h.run]
    rfl
  · rw [hme]
    exact h.others k hk
  · rw [hme]
    exact h.regs
  · rw [hme]
    exact h.tok

/-- The next micro-op after a tile was noted is the note of the next micro-op. -/
theorem noteMine_next (i : Nat) (r : MRun) : { noteMine i r with upc := (noteMine i r).upc + 1 } = noteMine i { r with upc := r.upc + 1 } := by
  unfold noteMine
  dsimp only
  split <;> rfl

/-! ## Opening, stepping and converting -/

theorem execZero_steps (o : UOp) (h : MicroReady s r u t) (hno : NoVictims s) : ∃ v, execZero o s = .next v ∧
    TileStep s v o.t.toNat (openTile (tileOf (me (abandonAt s s.cur o.t.toNat)) o.t.toNat) [] [] (accCode r.entry.fmt == 1) [] (.zero (accCode r.entry.fmt == 1)))
      (noteMine o.t.toNat { r with upc := r.upc + 1 }) := by
  obtain ⟨g, -, hothers, -, hrun⟩ := abandonAt_fields s s.cur o.t.toNat
  refine ⟨_, micro_ready h _, ?_⟩
  dsimp only
  rw [claimTile_noVictims hno, ← noteMine_next]
  have hstep := tileStep_modTile (s := abandonAt s s.cur o.t.toNat) (i := o.t.toNat)
    (fun t => openTile t [] [] (accCode r.entry.fmt == 1) [] (.zero (accCode r.entry.fmt == 1))) (hrun.trans h.1)
  have hnext := (hstep.modRun (noteMine o.t.toNat)).modRun fun r => { r with upc := r.upc + 1 }
  have hsettled : Quiet.Settled s (abandonAt s s.cur o.t.toNat) := by
    rw [abandonAt]
    exact Quiet.Settled.modCore s s.cur fun _ => rfl
  exact ⟨hnext.tile, hnext.run, fun k hk => (hnext.others k hk).trans (hothers k hk), hnext.regs.trans (hsettled.regs s.cur),
    hnext.tok.trans (hsettled.tok s.cur), hnext.mem⟩

theorem TileStep.next {v : State} {i : Nat} {x : Tile} (h : TileStep s v i x r) : TileStep s (microNext v) i x { r with upc := r.upc + 1 } :=
  h.modRun fun r => { r with upc := r.upc + 1 }

/-- A tile after a step of both engines from the values of `x`. -/
def stepTile (r : MRun) (a b : Stage) (x y : Tile) : Tile :=
  { logOp y (.mma r.entry.fmt a.rows b.rows (scaleRef (scalesOf r r.sa)) (scaleRef (scalesOf r r.sb))) with
    cope := (stepElems r.entry.fmt a b (scalesOf r r.sa) (scalesOf r r.sb) x.cope).1,
    drag := (stepElems r.entry.fmt a b (scalesOf r r.sa) (scalesOf r r.sb) x.drag).1,
    ovf := y.ovf || (stepElems r.entry.fmt a b (scalesOf r r.sa) (scalesOf r r.sb) x.cope).2, dirty := true }

/-- R155: one step on both engines of a tile whose engines are sound. -/
theorem execMma_steps (o : UOp) {a b : Stage} {e : Epoch} (h : MicroReady s r u t) (hno : NoVictims s) (ha : r.a = some a) (hb : r.b = some b)
    (he : (tileOf (me s) o.t.toNat).epoch = some e) (hbad : (tileOf (me s) o.t.toNat).bad = 0)
    (hint : (tileOf (me s) o.t.toNat).accint = (accCode r.entry.fmt == 1)) (hfaults : s.faults = [])
    (hgrp : a.grp.any (fun g => b.grp.contains g) = false)
    (hscale : ¬ (scaleOf r.entry.fmt = true ∧ isFp8 r.entry.fmt = true ∧ (r.sa.isNone ∨ r.sb.isNone))) :
    ∃ v, execMma o s = .next v ∧
      TileStep s v o.t.toNat (stepTile r a b (tileOf (me s) o.t.toNat) (tileOf (me s) o.t.toNat)) { r with upc := r.upc + 1 } := by
  have hout : ∀ core engine tile l, engineOut s core engine tile l = l := fun core engine tile l => by
    rw [engineOut, hfaults]
    rfl
  refine ⟨microNext (modTile s o.t.toNat (stepTile r a b (tileOf (me s) o.t.toNat))), (micro_ready h _).trans ?_, (tileStep_modTile _ h.1).next⟩
  dsimp only
  rw [claimTile_noVictims hno, he, ha, hb]
  dsimp only
  rw [if_neg hscale, if_neg (not_not.2 hint), if_neg (by rw [hgrp]; exact Bool.false_ne_true), if_neg (not_not.2 hbad), hout, hout]
  rfl

/-- A tile after its conversion from the values of `x`. -/
def convertTile (r : MRun) (o : UOp) (x y : Tile) : Tile :=
  { logOp y (.epi r.entry.fmt o.imm ((paramOf r o.p).setWidth 32)) with
    image := some ⟨outSize o.imm, epiElems r.entry.fmt o.imm ((paramOf r o.p).setWidth 32) x.accint x.cope,
      epiElems r.entry.fmt o.imm ((paramOf r o.p).setWidth 32) x.accint x.drag⟩, dirty := false }

theorem execEpi_steps (o : UOp) {e : Epoch} (h : MicroReady s r u t) (hno : NoVictims s) (he : (tileOf (me s) o.t.toNat).epoch = some e)
    (hbad : (tileOf (me s) o.t.toNat).bad = 0) (hcode : (o.imm.extractLsb' 0 4).toNat < 8)
    (hquant : ¬ (o.imm.getLsbD 4 = true ∧ (accCode r.entry.fmt = 1 ∨ 5 ≤ (o.imm.extractLsb' 0 4).toNat))) :
    ∃ v, execEpi o s = .next v ∧
      TileStep s v o.t.toNat (convertTile r o (tileOf (me s) o.t.toNat) (tileOf (me s) o.t.toNat)) { r with upc := r.upc + 1 } := by
  refine ⟨microNext (modTile s o.t.toNat (convertTile r o (tileOf (me s) o.t.toNat))), (micro_ready h _).trans ?_, (tileStep_modTile _ h.1).next⟩
  dsimp only
  rw [claimTile_noVictims hno, if_neg, if_neg (not_not.2 hbad)]
  · rfl
  · rw [he]
    rintro (hn | hc | hq)
    · exact Bool.false_ne_true hn
    · exact Nat.not_le.2 hcode hc
    · exact hquant hq

theorem outFmt_lt {c : Nat} {ty : ETy} (h : outFmt c = some ty) : c < 8 := by
  by_contra hc
  obtain ⟨d, rfl⟩ : ∃ d, c = d + 8 := ⟨c - 8, by omega⟩
  exact absurd h nofun

/-- The images of a conversion, element by element. -/
theorem convertTile_image {o : UOp} {x y : Tile} {ty : ETy} (hty : outFmt (o.imm.extractLsb' 0 4).toNat = some ty) :
    (convertTile r o x y).image = some ⟨etyBits ty / 8,
      (tileElems x.cope).map (epiElem r.entry.fmt x.accint ty (o.imm.getLsbD 4) (o.imm.getLsbD 5) ((paramOf r o.p).setWidth 32)),
      (tileElems x.drag).map (epiElem r.entry.fmt x.accint ty (o.imm.getLsbD 4) (o.imm.getLsbD 5) ((paramOf r o.p).setWidth 32))⟩ := by
  simp only [convertTile, outSize, epiElems, hty]

/-- R154: TLD opens an epoch on both engines from the rows it read; its footprint holds them. -/
theorem execTld_opens (o : UOp) {s1 : State} {b : List Byte} {pas : List Nat} (h : MicroReady s r u t) (hno : NoVictims s)
    (hstage : stageBytes s t u ((List.range 128).map (rowAddr (setOf r o.gA))) 512 128 = .ok s1 b pas) (hrun : (me s1).mu.run = some r)
    (hcur : s1.cur = s.cur) : ∃ v y, execTld o s = .next v ∧
      tileOf (me v) o.t.toNat = openTile y (elemsOf 4 16384 b) (elemsOf 4 16384 b) (accCode r.entry.fmt == 1) ((pas.map fun p => paOff p / 128).dedup)
        (.tld (accCode r.entry.fmt == 1) pas) ∧
      (me v).mu.run = some (noteMine o.t.toNat { r with upc := r.upc + 1 }) ∧ v.mem = s1.mem := by
  let s2 := addFootprint (abandonAt s1 s.cur o.t.toNat) pas
  have hrun2 : (me s2).mu.run = some r := by
    have hme : me s2 = (fun c => { c with mu := { c.mu with tiles := tabMap c.mu.tiles fun _ t => { t with
        epoch := t.epoch.map fun e => { e with foot := e.foot ++ ((pas.map fun p => paOff p / 128).filter fun r => !e.foot.contains r) } } } })
        (me (abandonAt s1 s.cur o.t.toNat)) := me_modMe ..
    rw [hme]
    obtain ⟨g, -, -, -, hr⟩ := abandonAt_fields s1 s.cur o.t.toNat
    have hme1 : me (abandonAt s1 s.cur o.t.toNat) = getCore (abandonAt s1 s.cur o.t.toNat) s.cur := congrArg (getCore _) hcur
    rw [hme1]
    refine hr.trans ?_
    rw [← hcur]
    exact hrun
  have hstep := (tileStep_modTile (s := s2) (i := o.t.toNat) (fun y => openTile y (elemsOf 4 16384 b) (elemsOf 4 16384 b) (accCode r.entry.fmt == 1)
    ((pas.map fun p => paOff p / 128).dedup) (.tld (accCode r.entry.fmt == 1) pas)) hrun2).modRun (noteMine o.t.toNat)
  have hnext := hstep.next
  rw [noteMine_next] at hnext
  refine ⟨_, tileOf (me s2) o.t.toNat, (micro_ready h _).trans ?_, hnext.tile, hnext.run, hnext.mem.trans rfl⟩
  dsimp only
  rw [claimTile_noVictims hno, hstage]

end

/-- Settles O33. -/
theorem matrixLoadsAndTiles : Obligations.MatrixLoadsAndTiles := by
  unfold Obligations.MatrixLoadsAndTiles
  refine ⟨fun o s r u t h => ?loads, fun o s r u t h hno => ?tiles⟩
  case loads =>
    intro rows next
    have hrows : ∀ g, rows g = rowsOf (setOf r g) := fun g => rows_coe (setOf r g)
    refine ⟨fun s1 b pas hb => ?_, fun s1 b pas hb => ?_, fun s1 b pas hext hb => ?_, fun s1 b pas hext hb => ?_⟩
    · rw [hrows] at hb
      exact lda_ok h hb
    · rw [hrows] at hb
      exact ldb_ok h hb
    · exact ldsa_ok h hext hb
    · exact ldsb_ok h hext hb
  case tiles =>
    intro i x fmt int on goes
    refine ⟨?zero, fun s1 b pas hb hready hno1 => ?tld, fun a b e ha hb he hbad hint hfaults hgrp => ⟨fun hscale => ?plain, fun sa sb h1 h2 hsa hsb => ?scaled⟩,
      fun e ty he hbad hty hquant => ?epi⟩
    case zero =>
      obtain ⟨v, hexec, hstep⟩ := execZero_steps o h hno
      exact ⟨v, show execZero o s = _ from hexec, by rw [hstep.tile]; exact ⟨rfl, rfl, rfl, rfl, rfl, rfl, rfl, _, rfl, rfl, rfl, rfl⟩,
        hstep.run, hstep.others, hstep.regs, hstep.tok, hstep.mem⟩
    case tld =>
      obtain ⟨v, y, hexec, htile, hrun, hmem⟩ := execTld_opens o h hno hb hready.1 (stageBytes_engineOnly hb).cur
      refine ⟨v, show execTld o s = _ from hexec, ?_, hrun, hmem⟩
      dsimp only
      rw [show tileOf (me v) i = _ from htile]
      exact ⟨rfl, rfl, rfl, rfl, rfl, rfl, _, rfl, rfl, fun q hq => List.mem_dedup.2 (List.mem_map_of_mem hq)⟩
    case plain =>
      have hoff : ¬ (scaleOf fmt = true ∧ isFp8 fmt = true) := fun ⟨h1, h2⟩ =>
        hscale.elim (fun h => Bool.false_ne_true (h.symm.trans h1)) fun h => Bool.false_ne_true (h.symm.trans h2)
      have hnone : ∀ st, scalesOf r st = none := fun st => if_neg fun h => hoff (Bool.and_eq_true_iff.1 h)
      obtain ⟨v, hexec, hstep⟩ := execMma_steps o h hno ha hb he hbad hint hfaults hgrp fun ⟨h1, h2, _⟩ => hoff ⟨h1, h2⟩
      exact ⟨v, show execMma o s = _ from hexec, by rw [hstep.tile]; simp only [stepTile, hnone]; exact ⟨rfl, rfl, trivial, rfl⟩,
        hstep.run, hstep.others, hstep.regs, hstep.tok, hstep.mem⟩
    case scaled =>
      have hsome : ∀ st, scalesOf r st = st := fun st => if_pos (Bool.and_eq_true_iff.2 ⟨h1, h2⟩)
      obtain ⟨v, hexec, hstep⟩ := execMma_steps o h hno ha hb he hbad hint hfaults hgrp fun ⟨_, _, hn⟩ => by simp [hsa, hsb] at hn
      exact ⟨v, show execMma o s = _ from hexec, by rw [hstep.tile]; simp only [stepTile, hsome, hsa, hsb]; exact ⟨rfl, rfl, trivial⟩,
        hstep.run, hstep.others, hstep.regs, hstep.tok, hstep.mem⟩
    case epi =>
      intro scale f
      have hcode : (o.imm.extractLsb' 0 4).toNat = o.imm.toNat % 16 := by rw [BitVec.extractLsb'_toNat, Nat.shiftRight_zero]
      rw [← hcode] at hty hquant
      obtain ⟨v, hexec, hstep⟩ := execEpi_steps o h hno he hbad (outFmt_lt hty) fun ⟨hq, hc⟩ => by
        obtain ⟨hint, hlt⟩ := hquant hq
        rcases hc with hc | hc
        · exact absurd hint (by simp [int, fmt, hc])
        · omega
      refine ⟨v, show execEpi o s = _ from hexec, ?_, hstep.run, hstep.others, hstep.regs, hstep.tok, hstep.mem⟩
      rw [hstep.tile]
      refine ⟨rfl, rfl, rfl, (convertTile_image hty).trans ?_⟩
      rw [BitVec.setWidth_eq_extractLsb' (by decide)]

end Sys2Proof.MatrixOps

/-! SUPPORT. Stores of a matrix unit, the checks that release them, and control within a routine (spec/06 R119 to R123, spec/07 R157 to R161): O34. -/

namespace Sys2Proof.Checks

open Sys2Proof Sys2Proof.Machine Sys2Proof.Laws Sys2Proof.Engines Sys2Proof.MatrixUnit Sys2Proof.MatrixOps

/-! ## After a tile's epoch is closed -/

/-- The epoch of a tile is closed with its record, its task goes on, and the rest stands as given. -/
structure Rests (core tile u : Nat) (l : LastSig) (a : Nat → List (Nat × Nat × Nat)) (c : Nat) (m : List Host.Cell) (s : State) : Prop where
  closed : (tileOf (getCore s core) tile).epoch = none
  last : (tileOf (getCore s core) tile).last = l
  assays : assayOf s = a
  cur : s.cur = c
  mem : s.mem = m
  task : (getCore s core).task = some u
  stays : ∃ k, tabFind s.tasks u = some k ∧ StaysOn s k

section
variable {s t : State} {core tile u : Nat} {l : LastSig} {a : Nat → List (Nat × Nat × Nat)} {c : Nat} {m : List Host.Cell}

/-- What an operation keeps of a core that a closed tile's state depends on. -/
structure CoreRests (tile : Nat) (c d : Core) : Prop where
  tile : (tileOf c tile).epoch = none → (tileOf d tile).epoch = none ∧ (tileOf d tile).last = (tileOf c tile).last
  task : d.task = c.task
  halted : d.halted = c.halted

theorem CoreRests.refl (tile : Nat) (c : Core) : CoreRests tile c c := ⟨fun h => ⟨h, rfl⟩, rfl, rfl⟩

/-- The cores keep what a closed tile depends on, and the task what keeps it going. -/
theorem Rests.congr {m' : List Host.Cell} (h : Rests core tile u l a c m s) (hcore : ∀ i, CoreRests tile (getCore s i) (getCore t i))
    (hassays : assayOf t = assayOf s) (hcur : t.cur = s.cur) (hmem : t.mem = m')
    (htasks : ∀ k, tabFind s.tasks u = some k → ∃ k', tabFind t.tasks u = some k' ∧ k'.error = k.error ∧ gangOf k' = gangOf k) :
    Rests core tile u l a c m' t := by
  obtain ⟨k, hk, herr, i, hi, hhalt⟩ := h.stays
  obtain ⟨k', hk', herr', hgang⟩ := htasks k hk
  have htile := (hcore core).tile h.closed
  exact ⟨htile.1, htile.2.trans h.last, hassays.trans h.assays, hcur.trans h.cur, hmem, (hcore core).task.trans h.task,
    k', hk', herr'.trans herr, i, hgang ▸ hi, (hcore i).halted.trans hhalt⟩

theorem Rests.engine {m' : List Host.Cell} (h : Rests core tile u l a c m s) (he : EngineOnly s t) (hmem : t.mem = m') : Rests core tile u l a c m' t :=
  h.congr (fun i => by rw [he.getCore]; exact .refl tile _) he.assays he.cur hmem fun k hk => by
    obtain ⟨k', hk', hbare⟩ := he.task_some hk
    exact ⟨k', hk', congrArg (fun k => k.error) hbare, show gangOf (bare k') = gangOf (bare k) from congrArg gangOf hbare⟩

theorem Rests.cores (h : Rests core tile u l a c m s) (htasks : t.tasks = s.tasks) (hcore : ∀ i, CoreRests tile (getCore s i) (getCore t i))
    (hhearths : t.hearths = s.hearths) (hcur : t.cur = s.cur)
    (hmem : t.mem = s.mem) : Rests core tile u l a c m t :=
  h.congr hcore (assayOf_congr hhearths) hcur (hmem.trans h.mem) fun k hk => ⟨k, htasks ▸ hk, rfl, rfl⟩

theorem Rests.modTask (h : Rests core tile u l a c m s) (v : Nat) {f : Machine.Task → Machine.Task}
    (hf : ∀ k, (f k).error = k.error ∧ gangOf (f k) = gangOf k) : Rests core tile u l a c m (modTask s v f) :=
  h.congr (fun j => by rw [Frames.getCore_congr (modTask_cores ..)]; exact .refl tile _) (assayOf_congr (modTask_hearths ..)) (modTask_cur ..) ((modTask_mem ..).trans h.mem)
    fun k hk => by
      rw [tabFind_modTask]
      split
      next he =>
        subst he
        rw [hk, Option.map_some]
        exact ⟨_, rfl, hf k⟩
      next => exact ⟨k, hk, rfl, rfl⟩

theorem Rests.modCore (h : Rests core tile u l a c m s) (j : Nat) {f : Core → Core} (hf : ∀ c, CoreRests tile c (f c)) : Rests core tile u l a c m (modCore s j f) :=
  h.cores (t := Machine.modCore s j f) rfl (fun i => by
    rw [getCore_modCore]
    split
    next he => rw [he]; exact hf _
    next => exact .refl tile _) rfl rfl rfl

theorem Rests.setTok (h : Rests core tile u l a c m s) (j n : Nat) (k : Tok) : Rests core tile u l a c m (setTok s j n k) := by
  unfold Machine.setTok
  split
  · exact h
  · exact h.modCore j fun _ => ⟨fun h => ⟨h, rfl⟩, rfl, rfl⟩

theorem noteError_mem (s : State) (u : Nat) (e : ErrInfo) : (noteError s u e).mem = s.mem := by
  unfold noteError launchError
  split
  · split <;> simp
  · rfl

theorem postFor_mem (s : State) (u : Nat) (r : Report) : (postFor s u r).mem = s.mem := by
  unfold postFor
  split
  · split
    · simp
    · exact (Posts.post_postOnly ..).mem
  · exact (Posts.post_postOnly ..).mem

theorem noteAccess_mem (s : State) (u : Nat) (e : ErrInfo) : (noteAccess s u e).mem = s.mem := by
  obtain ⟨l, hl⟩ := WaitEnds.noteAccess_eq s u e
  rw [hl]

theorem tokenError_mem (s : State) (core tok code cls addr dir word tile : Nat) : (tokenError s core tok code cls addr dir word tile).mem = s.mem := by
  unfold tokenError
  dsimp only
  split
  · exact setTok_mem ..
  · split
    · exact setTok_mem ..
    · split
      · exact (postFor_mem ..).trans ((noteError_mem ..).trans (setTok_mem ..))
      · split
        · exact (noteAccess_mem ..).trans (setTok_mem ..)
        · exact (Posts.postAccess_postOnly ..).mem.trans ((noteAccess_mem ..).trans (setTok_mem ..))

theorem Rests.tokenError (h : Rests core tile u l a c m s) (j tok code cls addr dir word i : Nat) :
    Rests core tile u l a c m (tokenError s j tok code cls addr dir word i) :=
  (h.setTok j tok _).engine (engineOnly_tokenError ..) ((tokenError_mem ..).trans h.mem)

theorem coreRests_abandonTile (c : Core) (n : Nat) (g : Bool) (tile : Nat) : CoreRests tile c { c with mu := abandonTile c.mu n g } := by
  obtain ⟨hself, hother, -, -⟩ := abandonTile_fields c.mu n g
  refine ⟨fun hnone => ?_, rfl, rfl⟩
  have htile : tileOf { c with mu := abandonTile c.mu n g } tile = tileOf c tile := by
    by_cases he : tile = n
    · subst he
      exact hself.trans (closeTile_closed hnone g)
    · exact hother tile he
  rw [htile]
  exact ⟨hnone, rfl⟩

theorem Rests.abandonAll (h : Rests core tile u l a c m s) (j : Nat) : Rests core tile u l a c m (abandonAll s j) :=
  foldl_keeps (P := Rests core tile u l a c m) (fun t n ht => by
    rw [abandonAt]
    exact ht.modCore j fun c => coreRests_abandonTile c n _ tile) (List.range 8) h

theorem Rests.abandonSaved (h : Rests core tile u l a c m s) (k : Machine.Task) : Rests core tile u l a c m (abandonSaved s k) :=
  foldl_keeps (P := Rests core tile u l a c m) (fun t e ht => by
    refine ht.modCore e.1 fun _ => ?_
    exact ⟨fun h => ⟨h, rfl⟩, rfl, rfl⟩) _ h

theorem Rests.settleCore (h : Rests core tile u l a c m s) : Rests core tile u l a c m (settleCore s core) := by
  obtain ⟨k, hk, hon⟩ := h.stays
  rw [Machine.settleCore, h.task]
  obtain ⟨herr, i, hi, hhalt⟩ := hon
  simp only [settleTask, hk]
  split
  next hleaves =>
    have hall := List.all_eq_true.1 hleaves.2 (getCore s i) (List.mem_map_of_mem hi)
    rw [hhalt, herr] at hall
    exact absurd hall (by rw [Bool.false_or, Option.isSome_none, Bool.false_and, Bool.false_and]; exact nofun)
  next =>
    split
    next hends =>
      have hst : k.st ≠ 3 := by
        rcases hends.2.2.2 with ⟨h5, -⟩ | ⟨-, he, -⟩
        · exact h5 ▸ Quiet.five_ne_three
        · exact absurd he (by rw [herr]; exact Bool.false_ne_true)
      rw [endUnits, if_neg hst, if_neg hst]
      exact (h.abandonSaved k).modTask u fun _ => ⟨rfl, rfl⟩
    next => exact h

theorem Rests.withCur (h : Rests core tile u l a c m s) (d : Nat) : Rests core tile u l a d m { s with cur := d } :=
  ⟨h.closed, h.last, h.assays, rfl, h.mem, h.task, h.stays⟩

/-- The unit without its routine. -/
theorem Rests.withoutRun (h : Rests core tile u l a c m s) (j : Nat) :
    Rests core tile u l a c m (Machine.modCore s j fun c => { c with mu := { c.mu with run := none } }) :=
  h.modCore j fun _ => ⟨fun h => ⟨h, rfl⟩, rfl, rfl⟩

theorem Rests.stopUnit (h : Rests core tile u l a c m s) : Rests core tile u l a c m (stopUnit s core) := by
  unfold Machine.stopUnit
  dsimp only
  refine Rests.settleCore (Rests.abandonAll ?_ core)
  split
  · exact (h.withoutRun core).setTok ..
  · exact h

theorem Rests.afterCheck (h : Rests core tile u l a c m s) (n : Nat) (held : Bool) : Rests core tile u l a c m (afterCheck s core n held) := by
  unfold Machine.afterCheck
  split
  · exact h
  · split
    · exact h.stopUnit
    · exact h.modCore core fun _ => ⟨fun h => ⟨h, rfl⟩, rfl, rfl⟩

theorem Rests.microFault (h : Rests core tile u l a c m s) (hcur : s.cur = core) (code cls addr dir n : Nat) :
    Rests core tile u l a c m (microFault s code cls addr dir n) := by
  unfold Machine.microFault
  split
  · exact h
  · dsimp only
    rw [hcur]
    exact Rests.settleCore (Rests.tokenError (h.withoutRun s.cur) ..)

theorem Rests.faultCheck (h : Rests core tile u l a c m s) (code cls addr dir n : Nat) :
    Rests core tile u l a c m (faultCheck s core code cls addr dir n) := by
  unfold Machine.faultCheck
  split
  · exact h
  · have hfault := ((h.withCur core).microFault rfl code cls addr dir n).withCur s.cur
    rw [h.cur] at hfault ⊢
    dsimp only
    split
    · exact (hfault.abandonAll core).settleCore
    · exact hfault

end

/-! ## The release of an image -/

section
variable {s : State} {core tile u : Nat} {k : Machine.Task}

theorem engineOnly_releaseRow (s : State) (u : Nat) (k : Machine.Task) (core : Nat) (r : HeldRow) : EngineOnly s (releaseRow s u k core r).1 := by
  unfold releaseRow
  dsimp only
  split
  · exact .refl s
  next p _ =>
    split
    · exact .refl s
    · have hreach := engineOnly_reach s (whoTask u k r.sup) u [p]
      split
      next s1 q l h =>
        rw [h] at hreach
        split
        next s2 hw => exact hreach.trans ((EngineOnly.of_writeOnly (Images.writeOnly_writePa hw)).trans (engineOnly_noteSent ..))
        next => exact hreach
      next s1 o _ h =>
        rw [h] at hreach
        exact hreach

theorem engineOnly_releaseRows (u : Nat) (k : Machine.Task) (core : Nat) (rows : List HeldRow) (s : State) (e : List (Nat × HeldRow)) :
    EngineOnly s (releaseRows s u k core rows e).1 := by
  induction rows generalizing s e with
  | nil => exact .refl s
  | cons r rest ih =>
    have hrow := engineOnly_releaseRow s u k core r
    rw [releaseRows]
    split
    next s1 h =>
      rw [h] at hrow
      exact hrow.trans (ih s1 e)
    next s1 c h =>
      rw [h] at hrow
      exact hrow.trans (ih s1 _)

theorem engineOnly_addSeal (s : State) (hearth core ctx src a : Nat) (l : List Byte) : EngineOnly s (addSeal s hearth core ctx src a l) :=
  engineOnly_modHearth s hearth fun _ => rfl

theorem engineOnly_releaseImage (s : State) (u core ctx src : Nat) (rows : List HeldRow) : EngineOnly s (releaseImage s u core ctx src rows).1 := by
  unfold releaseImage
  split
  · exact .refl s
  next k _ => exact (engineOnly_releaseRows ..).trans (.foldl _ (fun s r => engineOnly_addSeal ..) _)

/-- R120: what the end of a check leaves that releases `rows`: the tile closed, its record, and memory. -/
structure Released (s : State) (u core tile ctx src : Nat) (green : Bool) (rows : List HeldRow) (l : LastSig) (t : State) : Prop where
  closed : (tileOf (getCore t core) tile).epoch = none
  assays : assayOf t = assayOf s
  cur : t.cur = s.cur
  bad : (∃ q ∈ rows, q.bad = true) → (tileOf (getCore t core) tile).last = l ∧ t.mem = s.mem
  hit : (∀ q ∈ rows, q.bad = false) → rowHit (closeEpoch s u core tile l) u rows ≠ none →
    (tileOf (getCore t core) tile).last = { l with outcome := 6 } ∧ t.mem = s.mem
  done : (∀ q ∈ rows, q.bad = false) → rowHit (closeEpoch s u core tile l) u rows = none → green = false →
    (tileOf (getCore t core) tile).last = l ∧ t.mem = (releaseImage (closeEpoch s u core tile l) u core ctx src rows).1.mem

/-- A tile just closed. -/
theorem rests_closeEpoch (htask : (getCore s core).task = some u) (hk : tabFind s.tasks u = some k) (hon : StaysOn s k) (l : LastSig) :
    Rests core tile u l (assayOf s) s.cur s.mem (closeEpoch s u core tile l) := by
  have hcore : ∀ i, (getCore (closeEpoch s u core tile l) i).task = (getCore s i).task ∧
      (getCore (closeEpoch s u core tile l) i).halted = (getCore s i).halted := fun i => by
    unfold closeEpoch modTileAt
    dsimp only
    rw [getCore_modCore]
    split
    next h => rw [h]; exact ⟨rfl, rfl⟩
    next => exact ⟨rfl, rfl⟩
  obtain ⟨herr, i, hi, hhalt⟩ := hon
  have htile := (MemErrors.tileOf_modTileAt s core tile (fun t =>
    { t with epoch := none, inflight := (match tabFind s.tasks u with | some t => greenRows t core tile | none => false), last := l })).1
  refine ⟨?_, ?_, rfl, rfl, rfl, (hcore core).1.trans htask, k, hk, herr, i, hi, (hcore i).2.trans hhalt⟩
  · exact congrArg (fun x => x.epoch) htile
  · exact congrArg (fun x => x.last) htile

/-- The end of a release: the routine goes on, or its check faults. -/
def releaseEnd (core tile : Nat) (held : Bool) (x : State × Option (Nat × Nat)) : State :=
  match x with
  | (s3, none) => afterCheck s3 core tile held
  | (s3, some (cls, a)) => faultCheck s3 core (codeOf cls) cls a 1 tile

theorem Rests.released {t : State} {l : LastSig} {a : Nat → List (Nat × Nat × Nat)} {c : Nat} {m : List Host.Cell} (h : Rests core tile u l a c m t)
    (ctx src : Nat) (rows : List HeldRow) (held : Bool) :
    Rests core tile u l a c (releaseImage t u core ctx src rows).1.mem (releaseEnd core tile held (releaseImage t u core ctx src rows)) := by
  have hkept : Rests core tile u l a c _ (releaseImage t u core ctx src rows).1 := h.engine (engineOnly_releaseImage t u core ctx src rows) rfl
  unfold releaseEnd
  split
  next s3 he =>
    rw [he] at hkept ⊢
    exact hkept.afterCheck tile held
  next s3 cls b he =>
    rw [he] at hkept ⊢
    exact hkept.faultCheck ..

/-- The rows of a provisional task held until it is confirmed. -/
def heldLater (s : State) (u core tile src : Nat) (later : List HeldRow) : State :=
  modTileAt (modTask s u fun t => { t with held := t.held ++ [{ core := core, tile := some tile, rows := later, src := src }] })
    core tile fun t => { t with inflight := true }

theorem Rests.heldLater {t : State} {l : LastSig} {a : Nat → List (Nat × Nat × Nat)} {c : Nat} {m : List Host.Cell} (h : Rests core tile u l a c m t)
    (src : Nat) (later : List HeldRow) : Rests core tile u l a c m (heldLater t u core tile src later) := by
  have htask := h.modTask u (f := fun t => { t with held := t.held ++ [{ core := core, tile := some tile, rows := later, src := src }] })
    fun _ => ⟨rfl, rfl⟩
  unfold Checks.heldLater modTileAt
  refine htask.modCore core fun c => ⟨fun hnone => ?_, rfl, rfl⟩
  dsimp only [tileOf]
  rw [tabGet_tabSet_self]
  exact ⟨hnone, rfl⟩

/-- The tile closed, with what is held for later. -/
def setAside (s : State) (u core tile src : Nat) (k : Machine.Task) (rows : List HeldRow) (l : LastSig) : State :=
  let later := if k.green ∧ k.ended = false then rows.filter (fun r => r.va < windowBase) else []
  if later.isEmpty then closeEpoch s u core tile l else heldLater (closeEpoch s u core tile l) u core tile src later

theorem Rests.setAside {l : LastSig} {a : Nat → List (Nat × Nat × Nat)} {c : Nat} {m : List Host.Cell} (h : Rests core tile u l a c m (closeEpoch s u core tile l))
    (src : Nat) (k : Machine.Task) (rows : List HeldRow) : Rests core tile u l a c m (setAside s u core tile src k rows l) := by
  unfold Checks.setAside
  dsimp only
  split <;> split
  · exact h
  · exact h.heldLater ..
  · exact h
  · exact h.heldLater ..

theorem setAside_confirmed (hgreen : k.green = false) (src : Nat) (rows : List HeldRow) (l : LastSig) :
    setAside s u core tile src k rows l = closeEpoch s u core tile l := by
  unfold setAside
  rw [if_neg fun h : k.green = true ∧ k.ended = false => absurd (hgreen.symm.trans h.1) Bool.false_ne_true]
  rfl

/-- The rows that are released now. -/
def rowsNow (k : Machine.Task) (rows : List HeldRow) : List HeldRow := if k.green then rows.filter (fun r => windowBase ≤ r.va) else rows

theorem releaseEpoch_frees {l : LastSig} {src : Nat} {rows : List HeldRow} (hk : tabFind s.tasks u = some k) (hgood : rows.find? (fun r => r.bad) = none)
    (hmiss : rowHit (closeEpoch s u core tile l) u rows = none) : releaseEpoch s u core tile src rows l =
      releaseEnd core tile (!rows.isEmpty) (releaseImage (setAside s u core tile src k rows l) u core k.ctx src (rowsNow k rows)) := by
  simp only [releaseEpoch, hk, hgood, hmiss]
  rfl

theorem releaseEpoch_bad {l : LastSig} {src : Nat} {rows : List HeldRow} {r : HeldRow} (hk : tabFind s.tasks u = some k)
    (hbad : rows.find? (fun r => r.bad) = some r) : releaseEpoch s u core tile src rows l = faultCheck (closeEpoch s u core tile l) core 5 3 r.pa 1 tile := by
  simp only [releaseEpoch, hk, hbad]

theorem releaseEpoch_hits {l : LastSig} {src : Nat} {rows : List HeldRow} {a : Nat} (hk : tabFind s.tasks u = some k)
    (hgood : rows.find? (fun r => r.bad) = none) (hhit : rowHit (closeEpoch s u core tile l) u rows = some a) :
    releaseEpoch s u core tile src rows l = faultCheck (closeEpoch s u core tile { l with outcome := 6 }) core 6 13 a 1 tile := by
  simp only [releaseEpoch, hk, hgood, hhit]

/-- R120: the end of a check that releases rows. -/
theorem releaseEpoch_releases {l : LastSig} {src : Nat} {rows : List HeldRow} (htask : (getCore s core).task = some u)
    (hk : tabFind s.tasks u = some k) (hon : StaysOn s k) :
    Released s u core tile k.ctx src k.green rows l (releaseEpoch s u core tile src rows l) := by
  have hclosed := rests_closeEpoch (tile := tile) htask hk hon l
  cases hfind : rows.find? (fun r => r.bad) with
  | some r =>
    rw [releaseEpoch_bad hk hfind]
    have hrest := hclosed.faultCheck 5 3 r.pa 1 tile
    have hgood : ¬ ∀ q ∈ rows, q.bad = false := fun h => Bool.false_ne_true ((h r (List.mem_of_find?_eq_some hfind)).symm.trans (List.find?_some hfind))
    exact ⟨hrest.closed, hrest.assays, hrest.cur, fun _ => ⟨hrest.last, hrest.mem⟩, fun h => absurd h hgood, fun h => absurd h hgood⟩
  | none =>
    have hbad : ¬ ∃ q ∈ rows, q.bad = true := fun ⟨q, hq, hb⟩ => List.find?_eq_none.1 hfind q hq hb
    cases hhit : rowHit (closeEpoch s u core tile l) u rows with
    | some a =>
      rw [releaseEpoch_hits hk hfind hhit]
      have hrest := (rests_closeEpoch (tile := tile) htask hk hon { l with outcome := 6 }).faultCheck 6 13 a 1 tile
      exact ⟨hrest.closed, hrest.assays, hrest.cur, fun h => absurd h hbad, fun _ _ => ⟨hrest.last, hrest.mem⟩,
        fun _ h => absurd (hhit.symm.trans h) nofun⟩
    | none =>
      rw [releaseEpoch_frees hk hfind hhit]
      have hrest := (hclosed.setAside src k rows).released k.ctx src (rowsNow k rows) (!rows.isEmpty)
      refine ⟨hrest.closed, hrest.assays, hrest.cur, fun h => absurd h hbad, fun _ h => absurd hhit h, fun _ _ hgreen => ⟨hrest.last, hrest.mem.trans ?_⟩⟩
      rw [setAside_confirmed hgreen, rowsNow, if_neg (by rw [hgreen]; exact Bool.false_ne_true)]

/-! ## Disputes -/

/-- What a dispute leaves as it is. -/
structure Disputed (s t : State) : Prop where
  core : ∀ i, (getCore t i).task = (getCore s i).task ∧ (getCore t i).halted = (getCore s i).halted ∧ (getCore t i).mu.tiles = (getCore s i).mu.tiles
  assays : assayOf t = assayOf s
  tasks : t.tasks = s.tasks
  mem : t.mem = s.mem

theorem noteDispute_same (s : State) (u : Nat) (e : ErrInfo) : (noteDispute s u e).cores = s.cores ∧ (noteDispute s u e).hearths = s.hearths ∧
    (noteDispute s u e).tasks = s.tasks ∧ (noteDispute s u e).mem = s.mem := by
  unfold noteDispute
  split
  · simp
  · exact ⟨rfl, rfl, rfl, rfl⟩

theorem noteAccess_same (s : State) (u : Nat) (e : ErrInfo) : (noteAccess s u e).cores = s.cores ∧ (noteAccess s u e).hearths = s.hearths ∧
    (noteAccess s u e).tasks = s.tasks ∧ (noteAccess s u e).mem = s.mem := by
  obtain ⟨l, hl⟩ := WaitEnds.noteAccess_eq s u e
  rw [hl]
  exact ⟨rfl, rfl, rfl, rfl⟩

theorem dispute_leaves (s : State) (u core ctx tile engine addr : Nat) (c d a : W64) : Disputed s (dispute s u core ctx tile engine addr c d a) := by
  unfold dispute
  dsimp only
  generalize hs1 : modCore s core _ = s1
  have hcount : Disputed s s1 := by
    subst hs1
    refine ⟨fun i => ?_, rfl, rfl, rfl⟩
    rw [getCore_modCore]
    split
    next h => rw [h]; exact ⟨rfl, rfl, rfl⟩
    next => exact ⟨rfl, rfl, rfl⟩
  have hpost : ∀ {t : State} {r : Report}, t.cores = s1.cores ∧ t.hearths = s1.hearths ∧ t.tasks = s1.tasks ∧ t.mem = s1.mem → Disputed s (post t r) := by
    rintro t r ⟨hcores, hhearths, htasks, hmem⟩
    have hp := Posts.post_postOnly t r
    refine ⟨fun i => ?_, (assayOf_congr (hp.hearths.trans hhearths)).trans hcount.assays, (hp.tasks.trans htasks).trans hcount.tasks,
      (hp.mem.trans hmem).trans hcount.mem⟩
    rw [hp.getCore, Frames.getCore_congr hcores]
    exact hcount.core i
  split
  · exact hpost (noteAccess_same ..)
  · exact hpost (noteDispute_same ..)

theorem Disputed.stays {t : State} (h : Disputed s t) (hon : StaysOn s k) : StaysOn t k := by
  obtain ⟨herr, i, hi, hhalt⟩ := hon
  exact ⟨herr, i, hi, (h.core i).2.1.trans hhalt⟩

/-- The outcome and the memory of a dispute whose release followed. -/
theorem Released.outcomes {t w : State} {ctx src : Nat} {rows : List HeldRow} {l : LastSig} {green : Bool}
    (h : Released t u core tile ctx src green rows l w) (hmem : t.mem = s.mem) :
    ((∃ q ∈ rows, q.bad = true) → (tileOf (getCore w core) tile).last.outcome = l.outcome ∧ w.mem = s.mem) ∧
    ((∀ q ∈ rows, q.bad = false) → rowHit (closeEpoch t u core tile l) u rows ≠ none →
      (tileOf (getCore w core) tile).last.outcome = 6 ∧ w.mem = s.mem) ∧
    ((∀ q ∈ rows, q.bad = false) → rowHit (closeEpoch t u core tile l) u rows = none → green = false →
      (tileOf (getCore w core) tile).last.outcome = l.outcome ∧ w.mem = (releaseImage (closeEpoch t u core tile l) u core ctx src rows).1.mem) :=
  ⟨fun hb => ⟨congrArg (fun x => x.outcome) (h.bad hb).1, (h.bad hb).2.trans hmem⟩,
    fun hg hh => ⟨congrArg (fun x => x.outcome) (h.hit hg hh).1, (h.hit hg hh).2.trans hmem⟩,
    fun hg hm hc => ⟨congrArg (fun x => x.outcome) (h.done hg hm hc).1, (h.done hg hm hc).2⟩⟩

/-- The state of a dispute that names an engine. -/
def disputed (s : State) (u core tile engine : Nat) (k : Machine.Task) (e : Epoch) (g : W64) : State :=
  dispute s u core k.ctx tile engine (firstAddr e.held) (signature e.held) (signature e.drag) g

/-- The record of a dispute. -/
def recordOf (e : Epoch) (g : W64) (o : BitVec 8) : LastSig := { cope := signature e.held, drag := signature e.drag, assay := g, outcome := o }

/-- What a settled dispute leaves (R120, R121), by what the assay path has found. -/
structure Settles (s : State) (u core tile : Nat) (k : Machine.Task) (e : Epoch) (a : Assay) (w : State) : Prop where
  closed : (tileOf (getCore w core) tile).epoch = none
  assays : assayOf w = assayOf s
  cope : a.bad = none → signature a.rows = signature e.held →
    Released (disputed s u core tile 1 k e (signature a.rows)) u core tile k.ctx 0 k.green e.held (recordOf e (signature a.rows) 2) w
  drag : a.bad = none → signature a.rows ≠ signature e.held → signature a.rows = signature e.drag →
    Released (disputed s u core tile 0 k e (signature a.rows)) u core tile k.ctx 2 k.green a.rows (recordOf e (signature a.rows) 3) w
  neither : a.bad = none → signature a.rows ≠ signature e.held → signature a.rows ≠ signature e.drag →
    w.mem = s.mem ∧ (tileOf (getCore w core) tile).last.outcome = 4

theorem settleDispute_settles (e : Epoch) (htask : (getCore s core).task = some u) (hk : tabFind s.tasks u = some k) (hon : StaysOn s k) :
    Settles s u core tile k e (assayRun s u core tile e) (settleDispute s u core tile e) := by
  have hctx : ctxOf s core = k.ctx := by simp only [ctxOf, taskOf, htask, Option.bind_some, hk]
  have hdisputed : ∀ engine g, Disputed s (disputed s u core tile engine k e g) := fun engine g => dispute_leaves ..
  have hreleases : ∀ (engine src : Nat) (rows : List HeldRow) (l : LastSig) (g : W64), Released (disputed s u core tile engine k e g) u core tile k.ctx src
      k.green rows l (releaseEpoch (disputed s u core tile engine k e g) u core tile src rows l) := fun engine src rows l g =>
    releaseEpoch_releases (((hdisputed engine g).core core).1.trans htask) ((hdisputed engine g).tasks ▸ hk) ((hdisputed engine g).stays hon)
  unfold settleDispute
  dsimp only
  rw [hctx]
  generalize assayRun s u core tile e = a
  split
  next cls p hbad =>
    have hrest := (rests_closeEpoch (tile := tile) htask hk hon { cope := signature e.held, drag := signature e.drag, assay := 0, outcome := 4 }).faultCheck
      (codeOf cls) cls p 0 tile
    have hno : a.bad = none → ∀ {q : Prop}, q := fun h => absurd (hbad.symm.trans h) nofun
    exact ⟨hrest.closed, hrest.assays, fun h => hno h, fun h => hno h, fun h => hno h⟩
  next hgood =>
    by_cases hcope : signature a.rows = signature e.held
    · rw [if_pos hcope]
      have hr := hreleases 1 0 e.held (recordOf e (signature a.rows) 2) (signature a.rows)
      exact ⟨hr.closed, hr.assays.trans (hdisputed ..).assays, fun _ _ => hr, fun _ h => absurd hcope h, fun _ h => absurd hcope h⟩
    · rw [if_neg hcope]
      by_cases hdrag : signature a.rows = signature e.drag
      · rw [if_pos hdrag]
        have hr := hreleases 0 2 a.rows (recordOf e (signature a.rows) 3) (signature a.rows)
        exact ⟨hr.closed, hr.assays.trans (hdisputed ..).assays, fun _ h => absurd h hcope, fun _ _ _ => hr, fun _ _ h => absurd hdrag h⟩
      · rw [if_neg hdrag]
        have hd := hdisputed 2 (signature a.rows)
        have hrest := (rests_closeEpoch (tile := tile) ((hd.core core).1.trans htask) (hd.tasks ▸ hk) (hd.stays hon)
          (recordOf e (signature a.rows) 4)).faultCheck 3 2 (firstAddr e.held) 1 tile
        exact ⟨hrest.closed, hrest.assays.trans hd.assays, fun _ h => absurd h hcope, fun _ _ h => absurd h hdrag,
          fun _ _ _ => ⟨hrest.mem.trans hd.mem, congrArg (fun x => x.outcome) hrest.last⟩⟩

end

/-! ## Stores and checks of the running routine -/

section
variable {s : State} {r : MRun} {u : Nat} {k : Machine.Task} {o : UOp}

/-- The rows a store names. -/
def rowCount (o : UOp) : Nat := if o.imm.toNat % 256 = 0 then 128 else o.imm.toNat % 256

/-- A tile after a store of its image. -/
def storeTile (r : MRun) (n : Nat) (im : Image) (l : List Placed) (x : Tile) : Tile := { x with
  inflight := true
  epoch := x.epoch.map fun e => { e with
    held := e.held ++ rowsHeld (r.entry.priv == 1) l ((List.range n).flatMap (imageRow im.size im.cope))
    drag := e.drag ++ rowsHeld (r.entry.priv == 1) l ((List.range n).flatMap (imageRow im.size im.drag))
    log := e.log ++ [.stt (l.map fun p => (p.va, p.pa, p.n))] } }

theorem execStt_stores {e : Epoch} {im : Image} {l : List Placed} (h : MicroReady s r u k) (hno : NoVictims s)
    (he : (tileOf (me s) o.t.toNat).epoch = some e) (him : (tileOf (me s) o.t.toNat).image = some im) (hn : rowCount o ≤ 128) (hgreen : k.green = false)
    (halign : ∀ i, i < rowCount o → rowAddr (setOf r o.gA) i % im.size = 0)
    (hplace : placeFor s (whoTask u k (r.entry.priv == 1)) { w := true } (rowParts ((List.range (rowCount o)).map (rowAddr (setOf r o.gA))) (128 * im.size)) = .ok l)
    (hfoot : ∀ p ∈ l, footHit s p.mt p.pa p.n = none) (hroom : heldBytes (me s) + rowCount o * 128 * im.size ≤ 65536) :
    ∃ v, execStt o s = .next v ∧ TileStep s v o.t.toNat (storeTile r (rowCount o) im l (tileOf (me s) o.t.toNat))
      (noteMine o.t.toNat { r with upc := r.upc + 1 }) := by
  have hcount : (o.imm.extractLsb' 0 8).toNat = o.imm.toNat % 256 := by rw [BitVec.extractLsb'_toNat, Nat.shiftRight_zero]
  have hstep := ((tileStep_modTile (s := s) (i := o.t.toNat) (storeTile r (rowCount o) im l) h.1).modRun (noteMine o.t.toNat)).next
  rw [noteMine_next] at hstep
  refine ⟨_, (micro_ready h _).trans ?_, hstep⟩
  dsimp only
  rw [claimTile_noVictims hno, he, him, hcount]
  dsimp only
  rw [if_neg, show (if o.imm.toNat % 256 = 0 then 128 else o.imm.toNat % 256) = rowCount o from rfl, if_neg, hplace]
  · dsimp only
    rw [List.find?_eq_none.2 fun p hp => by rw [hfoot p hp]; exact Bool.false_ne_true]
    dsimp only
    rw [if_neg, if_neg]
    · rfl
    · rw [hgreen]
      exact fun h => Bool.false_ne_true h.1
    · exact fun h => absurd hroom (Nat.not_le.2 h.2)
  · intro hany
    obtain ⟨a, ha, hne⟩ := List.any_eq_true.1 hany
    obtain ⟨i, hi, rfl⟩ := List.mem_map.1 ha
    exact bne_iff_ne.1 hne (halign i (List.mem_range.1 hi))
  · unfold rowCount at hn
    split at hn <;> omega

theorem execSigchk_agrees {e : Epoch} (h : MicroReady s r u k) (hno : NoVictims s) (he : (tileOf (me s) o.t.toNat).epoch = some e)
    (hsame : signature e.held = signature e.drag) : execSigchk o s = .next (releaseEpoch s u s.cur o.t.toNat 0 e.held
      { cope := signature e.held, drag := signature e.drag, assay := 0, outcome := 1 }) := by
  refine (micro_ready h _).trans (congrArg Host.Outcome.next ?_)
  dsimp only
  rw [claimTile_noVictims hno, he]
  exact if_pos hsame

/-- A tile whose check waits for the assay path. -/
def checkTile (x : Tile) : Tile := { x with epoch := x.epoch.map fun e => { e with checking := true } }

/-- A check that waits for the assay path of the hearth. -/
def checkWaits (s : State) (u i : Nat) : State :=
  modHearth (modTile s i checkTile) (hearthOf s.cur) fun h => { h with assay := h.assay ++ [(s.cur, i, u)] }

theorem execSigchk_differs {e : Epoch} (h : MicroReady s r u k) (hno : NoVictims s) (he : (tileOf (me s) o.t.toNat).epoch = some e)
    (hdiffer : signature e.held ≠ signature e.drag) : execSigchk o s = .next (checkWaits s u o.t.toNat) := by
  refine (micro_ready h _).trans (congrArg Host.Outcome.next ?_)
  dsimp only
  rw [claimTile_noVictims hno, he]
  exact if_neg hdiffer

/-- A routine whose check held no stores goes on. -/
theorem afterCheck_goes {core : Nat} (hrun : (getCore s core).mu.run = some r) (hstop : r.stop = false) (tile : Nat) :
    afterCheck s core tile false = modCore s core fun c => { c with mu := { c.mu with run := some { r with upc := r.upc + 1 } } } := by
  unfold afterCheck
  rw [hrun]
  dsimp only
  rw [if_neg (by rw [hstop]; exact Bool.false_ne_true)]
  simp only [Bool.and_false, Bool.false_and, Bool.or_false]

/-- The check of an epoch without stores is no suspend point (R127). -/
theorem releaseEpoch_nothing {core i : Nat} {l : LastSig} (hrun : (getCore s core).mu.run = some r) (hk : tabFind s.tasks u = some k) (hstop : r.stop = false) :
    releaseEpoch s u core i 0 [] l = modCore (closeEpoch s u core i l) core fun c =>
      { c with mu := { c.mu with run := some { r with upc := r.upc + 1 } } } := by
  have hclosed : (getCore (closeEpoch s u core i l) core).mu.run = some r := by
    rw [closeEpoch, modTileAt, getCore_modCore_self]
    exact hrun
  have hmiss : rowHit (closeEpoch s u core i l) u [] = none := by
    unfold rowHit
    split <;> rfl
  have haside : setAside s u core i 0 k [] l = closeEpoch s u core i l := by
    unfold setAside
    dsimp only
    split <;> rfl
  have hnow : rowsNow k [] = [] := by
    unfold rowsNow
    split <;> rfl
  have himage : releaseImage (closeEpoch s u core i l) u core k.ctx 0 [] = (closeEpoch s u core i l, none) := by
    unfold releaseImage
    split <;> rfl
  rw [releaseEpoch_frees hk rfl hmiss, haside, hnow, himage]
  exact afterCheck_goes hclosed hstop i

/-- The tile, the routine and the suspension after such a check. -/
theorem goesOn_fields (s : State) (u i : Nat) (r : MRun) (l : LastSig) :
    let v := modCore (closeEpoch s u s.cur i l) s.cur fun c => { c with mu := { c.mu with run := some { r with upc := r.upc + 1 } } }
    (tileOf (me v) i).epoch = none ∧ (tileOf (me v) i).last.outcome = l.outcome ∧ (me v).mu.run = some { r with upc := r.upc + 1 } ∧
      (me v).mu.suspended = (me s).mu.suspended := by
  intro v
  have hme : me v = (fun c => { c with mu := { c.mu with run := some { r with upc := r.upc + 1 } } }) (getCore (closeEpoch s u s.cur i l) s.cur) :=
    getCore_modCore_self ..
  have htile : tileOf (getCore (closeEpoch s u s.cur i l) s.cur) i = _ := (MemErrors.tileOf_modTileAt s s.cur i _).1
  have hcore : (getCore (closeEpoch s u s.cur i l) s.cur).mu.suspended = (me s).mu.suspended := by
    rw [closeEpoch, modTileAt, getCore_modCore_self]
    rfl
  rw [hme]
  exact ⟨congrArg (fun x => x.epoch) htile, congrArg (fun x => x.last.outcome) htile, rfl, hcore⟩

/-! ## Control within a routine -/

/-- The working set of the routine replaced. -/
def withRun (s : State) (f : MRun) : State := modMe s fun c => { c with mu := { c.mu with run := some f } }

theorem modRun_eq (hrun : (me s).mu.run = some r) (f : MRun → MRun) : modRun s f = withRun s (f r) := by
  simp only [modRun, modMu, withRun, modMe, modCore, show (getCore s s.cur).mu.run = some r from hrun, Option.map_some]

theorem me_withRun (s : State) (f : MRun) : me (withRun s f) = { me s with mu := { (me s).mu with run := some f } } := me_modMe ..

theorem withRun_withRun (s : State) (f g : MRun) : withRun (withRun s f) g = withRun s g := Updates.modMe_modMe ..

theorem microNext_withRun (s : State) (f : MRun) : microNext (withRun s f) = withRun s { f with upc := f.upc + 1 } := by
  have hrun : (me (withRun s f)).mu.run = some f := by rw [me_withRun]
  rw [microNext, modRun_eq hrun, withRun_withRun]

theorem loop_offset (o : UOp) : (o.imm.extractLsb' 20 12).toNat = o.imm.toNat / 2 ^ 20 := by
  rw [BitVec.extractLsb'_toNat, Nat.shiftRight_eq_div_pow]
  exact Nat.mod_eq_of_lt (by have := o.imm.isLt; omega)

theorem loop_count (o : UOp) : (o.imm.extractLsb' 0 20).toNat = o.imm.toNat % 2 ^ 20 := by
  rw [BitVec.extractLsb'_toNat, Nat.shiftRight_zero]

/-- The passes that a LOOP names. -/
def passes (r : MRun) (o : UOp) : Nat := if o.imm.toNat % 2 ^ 20 = 0 then (paramOf r o.p).toNat % 2 ^ 32 else o.imm.toNat % 2 ^ 20

theorem execLoop_eq (h : MicroReady s r u k) (hoff : o.imm.toNat / 2 ^ 20 ≠ 0) (hdepth : r.loops.length ≠ 4) : execLoopMicroOp o s = .next (withRun s
    (if passes r o = 0 then { r with upc := r.upc + o.imm.toNat / 2 ^ 20 + 1 }
      else { r with loops := r.loops ++ [(passes r o, r.upc + 1)], upc := r.upc + 1 })) := by
  refine (micro_ready h _).trans (congrArg Host.Outcome.next ?_)
  dsimp only
  rw [loop_offset, loop_count, show (if o.imm.toNat % 2 ^ 20 = 0 then (paramOf r o.p).toNat % 2 ^ 32 else o.imm.toNat % 2 ^ 20) = passes r o from rfl,
    if_neg (not_or.2 ⟨hoff, hdepth⟩)]
  split
  · exact modRun_eq h.1 _
  · exact modRun_eq h.1 _

/-- The routine after the end of its innermost loop. -/
def loopEnded (r : MRun) (l : List (Nat × Nat)) (n top : Nat) : MRun :=
  if n = 1 then { r with loops := l, upc := r.upc + 1 } else { r with loops := l ++ [(n - 1, top)], upc := top }

theorem execEndl_eq {l : List (Nat × Nat)} {n top : Nat} (h : MicroReady s r u k) (hloops : r.loops = l ++ [(n, top)]) : execEndl o s = .next
    (if mustStop s u k = true ∧ routineHolds (me s) = false then modMu (withRun s (loopEnded r l n top)) fun m => { m with suspended := true }
      else withRun s (loopEnded r l n top)) := by
  have hended : (if n = 1 then modRun s fun r => { r with loops := r.loops.dropLast, upc := r.upc + 1 }
      else modRun s fun r => { r with loops := r.loops.dropLast ++ [(n - 1, top)], upc := top }) = withRun s (loopEnded r l n top) := by
    unfold loopEnded
    split <;> rw [modRun_eq h.1, hloops, List.dropLast_concat]
  refine (micro_ready h _).trans (congrArg Host.Outcome.next ?_)
  rw [hloops, List.getLast?_concat]
  dsimp only
  rw [hended]

theorem suspend_withRun (s : State) (f : MRun) : (modMu (withRun s f) fun m => { m with suspended := true }) =
    modMe s fun c => { c with mu := { c.mu with run := some f, suspended := true } } := Updates.modMe_modMe ..

theorem execGadv_eq (h : MicroReady s r u k) : execGadv o s = .next (withRun s { r with
    upc := r.upc + 1
    entry := { r.entry with g := tabSet r.entry.g o.gA.toNat { setOf r o.gA with
      base := BitVec.ofInt 57 ((setOf r o.gA).base.toNat + o.imm.toInt * (setOf r o.gA).str1.toInt) } } }) := by
  have hbase : BitVec.ofNat 57 (lAddr (setOf r o.gA).base.toNat (o.imm.toInt * (setOf r o.gA).str1.toInt)) =
      BitVec.ofInt 57 ((setOf r o.gA).base.toNat + o.imm.toInt * (setOf r o.gA).str1.toInt) := by
    refine BitVec.eq_of_toNat_eq ?_
    rw [BitVec.toNat_ofNat, BitVec.toNat_ofInt, lAddr]
    generalize ((setOf r o.gA).base.toNat : Int) + o.imm.toInt * (setOf r o.gA).str1.toInt = z
    omega
  refine (micro_ready h _).trans (congrArg Host.Outcome.next ?_)
  dsimp only
  rw [hbase, modRun_eq h.1, microNext_withRun]

theorem execSetp_eq (h : MicroReady s r u k) : execSetp o s = .next (withRun s { r with
    upc := r.upc + 1
    entry := { r.entry with p := tabSet r.entry.p o.p.toNat (BitVec.ofNat 64 ((paramOf r o.p).toNat / 2 ^ 32 * 2 ^ 32 + o.imm.toNat)) } }) := by
  have hvalue : (paramOf r o.p).extractLsb' 32 32 ++ o.imm = BitVec.ofNat 64 ((paramOf r o.p).toNat / 2 ^ 32 * 2 ^ 32 + o.imm.toNat) := by
    refine BitVec.eq_of_toNat_eq ?_
    have hlow := o.imm.isLt
    have hparam := (paramOf r o.p).isLt
    rw [BitVec.toNat_append, ← Nat.shiftLeft_add_eq_or_of_lt hlow, BitVec.extractLsb'_toNat, BitVec.toNat_ofNat, Nat.shiftLeft_eq, Nat.shiftRight_eq_div_pow]
    omega
  refine (micro_ready h _).trans (congrArg Host.Outcome.next ?_)
  dsimp only
  rw [hvalue, modRun_eq h.1, microNext_withRun]

/-- R161: the routine ends and its token is done. -/
theorem execEndR_ends (h : MicroReady s r u k) : ∃ v, execEndR o s = .next v ∧ (getCore v s.cur).mu.run = none ∧
    (r.entry.tok ≠ 0 → tokOf (getCore v s.cur) r.entry.tok = .ok) ∧ (k.st ≠ 3 → (getCore v s.cur).regs = (me s).regs) ∧ v.mem = s.mem := by
  refine ⟨_, micro_ready h _, ?_⟩
  generalize hs1 : modMu s (fun m => { m with run := none }) = s1
  have hcore : getCore s1 s.cur = { me s with mu := { (me s).mu with run := none } } := by
    subst hs1
    exact me_modMe s _
  have htasks : s1.tasks = s.tasks := by
    subst hs1
    rfl
  obtain ⟨hrun, htask, hk, -⟩ := h
  obtain ⟨l, hl, -⟩ := getCore_setTok s1 s.cur r.entry.tok .ok s.cur
  refine ⟨settleCore_runNone ?_, fun hn => ?_, fun hst => ?_, ?_⟩
  · rw [hl, hcore]
  · rw [tokOf, settleCore_tok]
    exact tokOf_setTok_self s1 s.cur hn .ok
  · have hthere : (getCore (setTok s1 s.cur r.entry.tok .ok) s.cur).task = some u := by
      rw [hl, hcore]
      exact htask
    rw [settleCore, hthere]
    dsimp only
    rw [settleTask_regs, hl, hcore]
    intro k' hk'
    rw [setTok_tasks, htasks, hk] at hk'
    exact Option.some.inj hk' ▸ hst
  · rw [MemErrors.settleCore_mem, setTok_mem, ← hs1]
    rfl

end

/-! ## One row released -/

section
variable {s : State} {u : Nat} {k : Machine.Task} {core : Nat} {r : HeldRow} {p : Placed}

theorem goneFor_elsewhere (hown : ownBlock s u p = false) : goneFor s u p = false := by
  unfold goneFor
  split
  · rfl
  · rw [hown, Bool.and_false, Bool.false_and]

/-- A part in no block of the task's own stands where its address has it. -/
theorem reach_elsewhere (hk : tabFind s.tasks u = some k) (hst : k.st ≠ 3) (hmt : p.mt ≠ 2) (hown : ownBlock s u p = false) (sup : Bool) :
    reach s (whoTask u k sup) u [p] = (s, some [p]) := by
  have hsuspended : isSuspended s u = false := by
    unfold isSuspended
    rw [hk]
    exact beq_eq_false_iff_ne.2 hst
  have htouch : touchFor s (whoTask u k sup) [p] = s := by
    simp only [touchFor, whoTask, List.foldl_cons, List.foldl_nil, hown, Bool.false_eq_true, if_false, if_neg hmt]
  rw [reach, if_neg (by rw [hsuspended]; exact Bool.false_ne_true), htouch, if_neg]
  simp [goneFor_elsewhere hown]

theorem releaseRow_lost (h : placeRow s k r = none) : releaseRow s u k core r = (s, some 4) := by
  simp only [releaseRow, h]

/-- R124: where a row meets a footprint. -/
theorem rowHit_elsewhere (hk : tabFind s.tasks u = some k) (hst : k.st ≠ 3) (hplace : placeRow s k r = some p) (hmt : p.mt ≠ 2)
    (hown : ownBlock s u p = false) : rowHit s u [r] = if footHit s p.mt p.pa p.n = none then none else some p.pa := by
  have hreach := reach_elsewhere hk hst hmt hown r.sup
  simp only [rowHit, hk, List.findSome?_cons, List.findSome?_nil, hplace, Option.bind_some, hreach]
  cases footHit s p.mt p.pa p.n <;> simp

theorem rowHit_cons (s : State) (u : Nat) (r : HeldRow) (l : List HeldRow) : rowHit s u (r :: l) = (rowHit s u [r]).or (rowHit s u l) := by
  unfold rowHit
  split
  · rfl
  · rw [List.findSome?_cons, List.findSome?_cons, List.findSome?_nil]
    split
    next => rfl
    next => rfl

theorem isRemote_write {t : State} {die mt pa : Nat} {b : List Byte} (hw : writePa s die mt pa b = .ok t) (a : Nat) : isRemote t a = isRemote s a := by
  obtain ⟨m, h, e, a, d, p, rfl⟩ := Images.writeOnly_writePa hw
  rfl

/-- R123: a row is released as one write at the place its address has now. -/
theorem releaseRow_writes {t : State} (hk : tabFind s.tasks u = some k) (hst : k.st ≠ 3) (hplace : placeRow s k r = some p) (hnear : isRemote s p.pa = false)
    (hmt : p.mt ≠ 2) (hown : ownBlock s u p = false) (hclear : mayBreach s k.ctx = false) (hw : writePa s (dieOf core) p.mt p.pa r.bytes = .ok t) :
    releaseRow s u k core r = (t, none) := by
  have hreach := reach_elsewhere hk hst hmt hown r.sup
  have hstored : storedBytes s (dieOf core) k.ctx p.mt r.va p.pa r.bytes = r.bytes := if_neg (by rw [hclear]; exact Bool.false_ne_true)
  have hsent : noteSent s t core (some u) p.mt p.pa .row 0 = t := by
    rw [noteSent, isRemote_write hw, hnear]
    rfl
  simp only [releaseRow, hplace, hnear, Bool.and_false, Bool.false_and, Bool.false_eq_true, if_false, hreach, hstored, hw, hsent]

end

/-- Settles O34. -/
theorem matrixStoresChecksAndControl : Obligations.MatrixStoresChecksAndControl := by
  unfold Obligations.MatrixStoresChecksAndControl
  refine ⟨fun o s r u k h hno => ?checks, fun o s r u k h => ?control, fun s hearth core tile u k rest e hassay htask hk he hchecking hon => ?assay,
    fun s t u k core r p hok hk hst => ?rows⟩
  case checks =>
    intro i x n
    refine ⟨fun e im l he him hn hgreen halign hplace hfoot hroom => ?_, fun e he hdiffer => ?_, fun e he hheld hdrag hstop => ?_, fun e he hon hsame => ?_⟩
    · obtain ⟨v, hexec, hstep⟩ := execStt_stores h hno he him hn hgreen halign hplace hfoot hroom
      refine ⟨v, show execStt o s = _ from hexec, hstep.mem, hstep.run, ?_⟩
      rw [show tileOf (me v) i = _ from hstep.tile, storeTile, show (tileOf (me s) o.t.toNat).epoch = some e from he]
      exact ⟨_, rfl, rfl, rfl, rfl, rfl⟩
    · have hstep := tileStep_modTile (i := i) checkTile h.1
      refine ⟨checkWaits s u i, show execSigchk o s = _ from execSigchk_differs h hno he hdiffer, rfl, ?_, ?_, hstep.run⟩
      · exact congrArg (fun x : Hearth => x.assay) (tabGet_tabSet_self ..)
      · rw [show tileOf (me (checkWaits s u i)) i = _ from hstep.tile, checkTile, show (tileOf (me s) i).epoch = some e from he]
        exact ⟨_, rfl, rfl, rfl⟩
    · have hagrees := execSigchk_agrees h hno he (by rw [hheld, hdrag])
      rw [hheld, releaseEpoch_nothing h.1 h.2.2.1 hstop] at hagrees
      exact ⟨_, show execSigchk o s = _ from hagrees, rfl, goesOn_fields s u i r _⟩
    · have hreleased := releaseEpoch_releases (tile := i) (src := 0) (rows := e.held) (l := recordOf e 0 1) h.2.1 h.2.2.1 hon
      have hme : me (releaseEpoch s u s.cur i 0 e.held (recordOf e 0 1)) = getCore _ s.cur := congrArg (getCore _) hreleased.cur
      refine ⟨releaseEpoch s u s.cur i 0 e.held (recordOf e 0 1), show execSigchk o s = _ from execSigchk_agrees h hno he hsame, ?_⟩
      rw [hme]
      exact ⟨hreleased.closed, hreleased.outcomes rfl⟩
  case control =>
    intro off n sets
    refine ⟨?_, fun hoff hdepth hn => ?_, fun hoff hdepth hn => ?_, fun l j top hj hloops => ?_, ?_, ?_⟩
    · obtain ⟨v, hexec, hends⟩ := execEndR_ends (o := o) h
      exact ⟨v, show execEndR o s = _ from hexec, hends⟩
    · refine show execLoopMicroOp o s = _ from (execLoop_eq h hoff hdepth).trans ?_
      rw [if_neg (show passes r o ≠ 0 from hn)]
      rfl
    · refine show execLoopMicroOp o s = _ from (execLoop_eq h hoff hdepth).trans ?_
      rw [if_pos (show passes r o = 0 from hn)]
      rfl
    · intro r'
      have hendl : exec (.endl o) s = _ := show execEndl o s = _ from execEndl_eq h hloops
      rw [hendl]
      refine ⟨fun hgo => ?_, fun hp hst => ?_, fun hh => ?_, fun hgo hh => ?_⟩
      · rw [if_neg fun h => Bool.false_ne_true (hgo.symm.trans h.1)]
        rfl
      · have hgo : mustStop s u k = false := by
          rw [mustStop, hp, beq_eq_false_iff_ne.2 hst]
          exact Bool.and_false _
        rw [if_neg fun h => Bool.false_ne_true (hgo.symm.trans h.1)]
        rfl
      · rw [if_neg fun h => Bool.false_ne_true (h.2.symm.trans hh)]
        rfl
      · rw [if_pos ⟨hgo, hh⟩, suspend_withRun]
        rfl
    · exact show execGadv o s = _ from execGadv_eq h
    · exact show execSetp o s = _ from execSetp_eq h
  case assay =>
    let s0 : State := { s with cur := core, hearths := tabSet s.hearths hearth { getHearth s hearth with assay := rest } }
    have hsettles := settleDispute_settles (s := s0) (tile := tile) e htask hk hon
    have hexec : execAssayComplete hearth s = .next { settleDispute s0 u core tile e with cur := s.cur } := by
      have hunit : ∀ f : State → State, onUnit (modHearth s hearth fun h => { h with assay := rest }) core u f = { f s0 with cur := s.cur } :=
        fun f => if_pos htask
      refine congrArg Host.Outcome.next ?_
      rw [hassay]
      dsimp only
      rw [hunit, show (tileOf (getCore s0 core) tile).epoch = some e from he]
      dsimp only
      rw [if_pos hchecking]
    refine ⟨_, show execAssayComplete hearth s = _ from hexec, ?_, hsettles.closed, fun hbad hcope => ?_, fun hbad hcope hdrag => ?_, hsettles.neither⟩
    · refine (congrFun hsettles.assays hearth).trans ?_
      exact congrArg (fun x : Hearth => x.assay) (tabGet_tabSet_self ..)
    · exact (hsettles.cope hbad hcope).outcomes (dispute_leaves ..).mem
    · exact (hsettles.drag hbad hcope hdrag).outcomes (dispute_leaves ..).mem
  case rows =>
    refine ⟨releaseRow_lost, fun hplace hnear hmt hown => rowHit_elsewhere hk hst hplace hmt hown, rowHit_cons s u r,
      fun hplace hnear hmt hown hclear hw => ?_⟩
    cases hwrite : writePa s (dieOf core) p.mt p.pa r.bytes with
    | error c => rw [hwrite] at hw; exact absurd hw nofun
    | ok t' =>
      rw [hwrite] at hw
      cases hw
      refine ⟨releaseRow_writes hk hst hplace hnear hmt hown hclear hwrite, fun a => ?_⟩
      rw [((writePa_mem hwrite).1 hmt).1, AccessOrder.cellGet_cellsSet hok.1]

end Sys2Proof.Checks

/-! SUPPORT. The operations of the runners: issue, start, pieces and end (spec/12 R276 to R288): O35. -/

namespace Sys2Proof.Runners

open Sys2Proof Sys2Proof.Machine Sys2Proof.Laws Sys2Proof.Engines Sys2Proof.MatrixUnit

/-! ## Channels -/

section
variable {s t : State} {core ch : Nat}

theorem chanOf_tabSet_self (c : Core) (ch : Nat) (q : Chan) : chanOf { c with chan := tabSet c.chan ch q } ch = q := tabGet_tabSet_self ..

theorem chanOf_tabSet_ne (c : Core) {ch n : Nat} (h : n ≠ ch) (q : Chan) : chanOf { c with chan := tabSet c.chan ch q } n = chanOf c n :=
  (tabGet_tabSet ..).trans (if_neg h)

theorem getCore_modChan (s : State) (core ch : Nat) (f : Chan → Chan) :
    getCore (modChan s core ch f) core = { getCore s core with chan := tabSet (getCore s core).chan ch (f (chanOf (getCore s core) ch)) } :=
  getCore_modCore_self ..

theorem chanOf_modChan (s : State) (core ch : Nat) (f : Chan → Chan) : chanOf (getCore (modChan s core ch f) core) ch = f (chanOf (getCore s core) ch) := by
  rw [getCore_modChan, chanOf_tabSet_self]

/-! ## Issue -/

/-- The entry of a C operation: its snapshots. -/
def entryOf (s : State) (o : COp) (op : ROp) (ctx u : Nat) : REntry :=
  let c := me s
  { op := op, set := seeH s c o.h.toNat, tok := o.tok.toNat, list := seeS s (isY o.u) o.list, aux := o.aux, ctx := ctx, task := u, priv := c.sys.priv,
    no := c.bundleNo, stamp := s.tick }

/-- The state with the entry queued and its token pending. -/
def queuedEntry (s : State) (o : COp) (ch : Nat) (e : REntry) : State :=
  modChan (setTok s s.cur o.tok.toNat .pending) s.cur ch fun c => { c with queue := c.queue ++ [e] }

theorem queuedEntry_fields (s : State) (o : COp) (ch : Nat) (e : REntry) :
    chanOf (me (queuedEntry s o ch e)) ch = { chanOf (me s) ch with queue := (chanOf (me s) ch).queue ++ [e] } ∧
    (∀ n, n ≠ ch → chanOf (me (queuedEntry s o ch e)) n = chanOf (me s) n) ∧ (o.tok ≠ 0 → tokOf (me (queuedEntry s o ch e)) o.tok.toNat = .pending) ∧
    (∀ n, n ≠ o.tok.toNat → tokOf (me (queuedEntry s o ch e)) n = tokOf (me s) n) ∧ (me (queuedEntry s o ch e)).regs = (me s).regs ∧
    (queuedEntry s o ch e).mem = s.mem ∧ (∀ k, k ≠ s.cur → getCore (queuedEntry s o ch e) k = getCore s k) := by
  have hcur : (queuedEntry s o ch e).cur = s.cur := setTok_cur ..
  have hme : me (queuedEntry s o ch e) = _ := (congrArg (getCore _) hcur).trans (getCore_modChan (setTok s s.cur o.tok.toNat .pending) s.cur ch _)
  obtain ⟨l, hl, -⟩ := getCore_setTok s s.cur o.tok.toNat .pending s.cur
  have hchan : ∀ n, chanOf (getCore (setTok s s.cur o.tok.toNat .pending) s.cur) n = chanOf (me s) n := fun n => by
    rw [hl]
    rfl
  refine ⟨?_, fun n hn => ?_, fun h => ?_, fun n hn => ?_, ?_, setTok_mem .., fun k hk => ?_⟩
  · rw [hme, chanOf_tabSet_self, hchan]
  · rw [hme, chanOf_tabSet_ne _ hn, hchan]
  · rw [hme]
    exact tokOf_setTok_self s s.cur (fun h0 => h (BitVec.eq_of_toNat_eq h0)) .pending
  · rw [hme]
    exact tokOf_setTok_ne s s.cur hn .pending
  · rw [hme, hl]
    rfl
  · obtain ⟨l, hl, hsame⟩ := getCore_setTok s s.cur o.tok.toNat .pending k
    rw [queuedEntry, modChan, getCore_modCore_ne _ _ hk, hl, hsame hk]

section
variable {o : COp} {op : ROp} {ch : Nat} (hon : guardOn s o.g = true)
include hon

theorem cIssue_pending (h : tokOf (me s) o.tok.toNat = .pending) : cIssue o op s = .next (slotTrap s o.u.toNat 0x10 0 (o.tok.setWidth 32)) :=
  (guarded_on hon).trans (congrArg Host.Outcome.next (if_pos h))

variable (hch : (isY o.u).toNat = ch) (hfree : tokOf (me s) o.tok.toNat ≠ .pending)
include hch hfree

theorem cIssue_full (hfull : 16 ≤ (chanOf (me s) ch).queue.length + (if (chanOf (me s) ch).run.isSome then 1 else 0)) :
    cIssue o op s = .next (slotTrap s o.u.toNat 0x10 0 0) := by
  subst hch
  exact (guarded_on hon).trans (congrArg Host.Outcome.next ((if_neg hfree).trans (if_pos hfull)))

variable (hroom : (chanOf (me s) ch).queue.length + (if (chanOf (me s) ch).run.isSome then 1 else 0) < 16)
include hroom

theorem cIssue_blocked {k : Machine.Task} (hk : taskOf s s.cur = some k) (hgreen : k.green = true)
    (hwaits : greenWaits k (ownDev s) op (seeH s (me s) o.h.toNat) o.aux = true) : cIssue o op s = .next (blockFor s .green) := by
  subst hch
  refine (guarded_on hon).trans (congrArg Host.Outcome.next ((if_neg hfree).trans ((if_neg (Nat.not_le.2 hroom)).trans ?_)))
  dsimp only
  rw [hk]
  exact if_pos ((congrArg₂ and hgreen hwaits).trans rfl)

theorem cIssue_queues {u : Nat} {k : Machine.Task} (hu : (me s).task = some u) (hk : tabFind s.tasks u = some k)
    (hgo : k.green = false ∨ greenWaits k (ownDev s) op (seeH s (me s) o.h.toNat) o.aux = false) :
    cIssue o op s = .next (queuedEntry s o ch (entryOf s o op k.ctx u)) := by
  subst hch
  have htask : taskOf s s.cur = some k := by
    rw [taskOf, show (getCore s s.cur).task = some u from hu]
    exact hk
  have hctx : ctxOf s s.cur = k.ctx := by rw [ctxOf, htask]
  have hblocks : (k.green && greenWaits k (ownDev s) op (seeH s (me s) o.h.toNat) o.aux) = false := by
    rcases hgo with h | h
    · rw [h, Bool.false_and]
    · rw [h, Bool.and_false]
  refine (guarded_on hon).trans (congrArg Host.Outcome.next ((if_neg hfree).trans ((if_neg (Nat.not_le.2 hroom)).trans ?_)))
  dsimp only
  rw [htask]
  dsimp only
  refine (if_neg (by rw [hblocks]; exact Bool.false_ne_true)).trans ?_
  rw [hctx, hu]
  rfl

end

/-! ## The end of an operation -/

/-- What an operation leaves that ends: its channel free, its token as given, memory as it was. -/
structure Ended (s t : State) (core ch tok : Nat) (k : Tok) : Prop where
  run : (chanOf (getCore t core) ch).run = none
  tok : tok ≠ 0 → tokOf (getCore t core) tok = k
  mem : t.mem = s.mem

theorem Ended.of_mem {s' : State} {tok : Nat} {k : Tok} (h : Ended s t core ch tok k) (hmem : s.mem = s'.mem) : Ended s' t core ch tok k :=
  ⟨h.run, h.tok, h.mem.trans hmem⟩

/-- Settling the task that held the channel. -/
theorem Ended.settleTask {tok : Nat} {k : Tok} (h : Ended s t core ch tok k) (u : Nat) : Ended s (settleTask t u) core ch tok k := by
  have hidle := WaitEnds.idles_settleTask t u
  obtain ⟨hchan, htok⟩ := hidle.core core
  refine ⟨?_, fun hn => ?_, hidle.mem.trans h.mem⟩
  · rw [chanOf, hchan]
    exact h.run
  · rw [tokOf, htok]
    exact h.tok hn

theorem Ended.engine {t' : State} {tok : Nat} {k : Tok} (h : Ended s t core ch tok k) (he : EngineOnly t t') (hmem : t'.mem = t.mem) :
    Ended s t' core ch tok k := ⟨by rw [he.getCore]; exact h.run, by rw [he.getCore]; exact h.tok, hmem.trans h.mem⟩

/-- The channel freed and the token of the task that holds the core told. -/
theorem ended_ownerTok {u tok : Nat} (hu : (getCore s core).task = some u) (k : Tok) :
    Ended s (ownerTok (modChan s core ch fun c => { c with run := none }) core u tok k) core ch tok k := by
  have hu' : (getCore (modChan s core ch fun c => { c with run := none }) core).task = some u := by
    rw [getCore_modChan]
    exact hu
  have hrun : (chanOf (getCore (modChan s core ch fun c => { c with run := none }) core) ch).run = none := by rw [chanOf_modChan]
  by_cases hn : tok = 0
  · subst hn
    exact ⟨hrun, fun h => absurd rfl h, rfl⟩
  · rw [WaitEnds.ownerTok_held hu' hn]
    refine ⟨?_, fun _ => ?_, rfl⟩
    · rw [getCore_modCore_self]
      exact hrun
    · rw [getCore_modCore_self, tokOf_pos _ hn, tabGet_tabSet_self]

theorem finishRunner_ends {e : REntry} (hu : (getCore s core).task = some e.task) : Ended s (finishRunner s core ch e) core ch e.tok .ok :=
  (ended_ownerTok hu .ok).settleTask e.task

theorem failRunner_ends {r : RRun} (hu : (getCore s core).task = some r.e.task) (code cls addr dir : Nat) :
    Ended s (failRunner s core ch r code cls addr dir) core ch r.e.tok (.err (BitVec.ofNat 3 code)) := by
  have hu' : (getCore (forgetSent s core ch) core).task = some r.e.task := hu
  unfold failRunner
  dsimp only
  rw [WaitEnds.modCount_held hu']
  refine Ended.settleTask ?_ _
  generalize hs1 : modCore (forgetSent s core ch) core _ = s1
  have hs1u : (getCore s1 core).task = some r.e.task := by
    rw [← hs1, getCore_modCore_self]
    exact hu
  have hended := (ended_ownerTok (ch := ch) (tok := r.e.tok) hs1u (.err (BitVec.ofNat 3 code))).of_mem (s' := s) (by rw [← hs1]; rfl)
  split
  · exact hended
  · split
    · exact hended.engine (engineOnly_noteError ..) (Checks.noteError_mem ..)
    · exact hended.engine ((engineOnly_noteAccess ..).trans (.of_postOnly (Posts.postAccess_postOnly ..)))
        ((Posts.postAccess_postOnly ..).mem.trans (Checks.noteAccess_mem ..))

theorem failSeal_ends {r : RRun} (hu : (getCore s core).task = some r.e.task) (kind : BitVec 2) (unit : BitVec 14) (x c far : W64) :
    Ended s (failSeal s core ch r kind unit x c far) core ch r.e.tok (.err 3) := by
  unfold failSeal
  dsimp only
  have hnote : EngineOnly s (noteError s r.e.task ⟨2, kind, unit, BitVec.ofNat 64 r.e.set.src.toNat, 0⟩) := engineOnly_noteError ..
  have hended := (failRunner_ends (ch := ch) (r := r) (by rw [hnote.getCore]; exact hu) 3 2 r.e.set.src.toNat 0).of_mem (Checks.noteError_mem s r.e.task _)
  exact hended.engine (engineOnly_postFor ..) (Checks.postFor_mem ..)

end

/-! ## Start -/

section
variable {s : State} {core ch : Nat} {e : REntry}

/-- The head of a channel's queue taken. -/
def headTaken (s : State) (core ch : Nat) (rest : List REntry) : State := modChan s core ch fun c => { c with queue := rest }

/-- The head of a channel's queue taken and running. -/
theorem headTaken_runs (s : State) (core ch : Nat) (e : REntry) (rest : List REntry) :
    (modChan (headTaken s core ch rest) core ch fun c => { c with run := some { e := e } }) = modCore s core fun c => { c with
      chan := tabSet (tabSet c.chan ch { chanOf (getCore s core) ch with queue := rest }) ch
        { chanOf (getCore s core) ch with queue := rest, run := some { e := e } } } := by
  rw [modChan, headTaken, modChan, Updates.modCore_modCore]
  simp only [chanOf_tabSet_self, modCore, getCore]

theorem execStart_starts {rest : List REntry} (hrun : (chanOf (getCore s core) ch).run = none) (hqueue : (chanOf (getCore s core) ch).queue = e :: rest)
    (hu : (getCore s core).task = some e.task) (hdone : listDone (getCore s core) e.list = true) (hlist : listFailed (getCore s core) e.list = false)
    (hheld : engineHeld (getCore s core) (some e.task) 0x0C e.no = false)
    (hseal : e.op = .scopy → readWaits s core e false (parts e.set.src.toNat e.set.len.toNat) = false) (hgroup : e.op = .coll → groupWaits s e = false) :
    execRunnerOperationStart core ch s = .next (startEntry (headTaken s core ch rest) core ch e) := by
  have howner : ownerCore s core e.task = getCore s core := if_pos hu
  have hgo : ¬ (listDone (getCore s core) e.list = false ∨ engineHeld (getCore s core) (some e.task) 0x0C e.no = true ∨
      (e.op == .scopy && readWaits s core e false (parts e.set.src.toNat e.set.len.toNat)) = true ∨ (e.op == .coll && groupWaits s e) = true) := by
    rintro (h | h | h | h)
    · exact Bool.false_ne_true (h.symm.trans hdone)
    · exact Bool.false_ne_true (hheld.symm.trans h)
    · obtain ⟨hop, hw⟩ := Bool.and_eq_true_iff.1 h
      exact Bool.false_ne_true ((hseal (eq_of_beq hop)).symm.trans hw)
    · obtain ⟨hop, hw⟩ := Bool.and_eq_true_iff.1 h
      exact Bool.false_ne_true ((hgroup (eq_of_beq hop)).symm.trans hw)
  refine congrArg Host.Outcome.next ?_
  dsimp only
  rw [hrun, hqueue]
  dsimp only
  rw [howner, if_neg hgo, if_neg (by rw [hlist]; exact Bool.false_ne_true)]
  rfl

/-- The device that an operation names does not exist. -/
theorem startEntry_noDevice (hop : e.op ∈ [.send, .fetch] ∨ (e.op = .scopy ∧ e.aux.getLsbD 0 = true)) (hdev : 432 ≤ e.set.dev.toNat) :
    startEntry s core ch e = failRunner s core ch { e := e } 5 5 (e.set.dev.toNat * 2 ^ 43) (if e.op = .fetch then 0 else 1) := by
  refine if_pos ⟨?_, hdev⟩
  rcases hop with h | ⟨h, ha⟩
  · rcases List.mem_pair.1 h with h | h <;> rw [h] <;> rfl
  · rw [h, ha]
    rfl

theorem startEntry_plain (hop : e.op ∈ [.copy, .copy2, .czero, .cflush] ∨ (e.op ∈ [.send, .fetch] ∧ e.set.dev.toNat < 432)) :
    startEntry s core ch e = modChan s core ch fun c => { c with run := some { e := e } } := by
  unfold startEntry
  dsimp only
  rcases hop with h | ⟨h, hdev⟩
  · simp only [List.mem_cons, List.not_mem_nil, or_false] at h
    rcases h with h | h | h | h <;> rw [h] <;> rfl
  · rw [if_neg fun h => absurd h.2 (Nat.not_le.2 hdev)]
    rcases List.mem_pair.1 h with h | h <;> rw [h]

theorem startEntry_scopy (hop : e.op = .scopy) (hdev : e.aux.getLsbD 0 = true → e.set.dev.toNat < 432) : startEntry s core ch e = startScopy s core ch e := by
  unfold startEntry
  dsimp only
  rw [if_neg, hop]
  rintro ⟨huses, h⟩
  rw [hop] at huses
  exact absurd h (Nat.not_le.2 (hdev huses))

theorem startEntry_coll (hop : e.op = .coll) : startEntry s core ch e = startColl s core ch e := by
  unfold startEntry
  dsimp only
  rw [hop]
  rfl

/-! Sealed copies and collectives. -/

theorem startScopy_noSeal (h : findSeal (getHearth s (hearthOf core)) e = none) :
    startScopy s core ch e = failSeal s core ch { e := e, port := portFor s core e } 0 (coreUnit core 3) 0 0 0 := by
  simp only [startScopy, h]

theorem startScopy_read {x : Seal} {s2 : State} {b : List Byte} (h : findSeal (getHearth s (hearthOf core)) e = some x)
    (hread : readRange (freshFor s core (some e.task) e.no) core e false (parts e.set.src.toNat e.set.len.toNat) = (s2, b, none)) :
    startScopy s core ch e = if crc64 b ≠ x.crc then failSeal s2 core ch { e := e, port := portFor s core e } 0 (coreUnit core 3) x.crc (crc64 b) 0
      else modChan s2 core ch fun c => { c with run := some { e := e, port := portFor s core e, bytes := b, crc := x.crc } } := by
  simp only [startScopy, h, hread]

theorem startColl_group {l : List W64} {s2 : State} (h : groupOf s e = (.ok l, s2))
    (hwords : ∀ w ∈ l, w.toNat % 512 < 432 ∧ w.toNat / 512 % 512 < 384) : startColl s core ch e =
      match rankOf s2 core ch l with
      | some rank => joinColl (modChan s2 core ch fun c => { c with run := some { e := e } }) core ch rank e.ctx e.set.group.toNat l
      | none => failRunner s2 core ch { e := e } 7 0 0 0 := by
  have hfind : l.find? (fun w => decide (432 ≤ w.toNat % 512) || decide (384 ≤ w.toNat / 512 % 512)) = none := by
    refine List.find?_eq_none.2 fun w hw hbad => ?_
    obtain ⟨hdev, hcore⟩ := hwords w hw
    simp at hbad
    omega
  simp only [startColl, h, hfind] <;> rfl

/-- The collective that a member joins, as it stands. -/
def collOf (s : State) (ctx group : Nat) : Coll := (s.colls.find? (fun x => x.ctx == ctx && x.group == group)).getD { ctx := ctx, group := group }

/-- The collective with the member. -/
def withMember (x : Coll) (m : Nat × Nat × Nat) : Coll := { x with joined := x.joined ++ [m] }

theorem joinColl_alive {rank ctx group : Nat} {l : List W64} (hdead : (collOf s ctx group).dead = false)
    (hlost : lostMember s (withMember (collOf s ctx group) (rank, core, ch)) l = none) : joinColl s core ch rank ctx group l =
      { dropColl s (collOf s ctx group) with
        colls := (dropColl s (collOf s ctx group)).colls ++ [withMember (collOf s ctx group) (rank, core, ch)] } := by
  unfold joinColl
  dsimp only
  split
  next cls a h => exact absurd (hlost.symm.trans h) nofun
  next => exact if_neg (by rw [show ((s.colls.find? (fun x => x.ctx == ctx && x.group == group)).getD { ctx := ctx, group := group }).dead = false from hdead]; exact Bool.false_ne_true)

/-! ## Completion -/

theorem execComplete_moved {r : RRun} (hrun : (chanOf (getCore s core) ch).run = some r) (hop : r.e.op ≠ .cflush) (hready : isStaged r.e = true → r.ready = true)
    (hdone : runnerTotal r ≤ r.done) (hacked : unackedOf s core ch = []) : execRunnerOperationComplete core ch s = .next (finishRunner s core ch r.e) := by
  refine congrArg Host.Outcome.next ?_
  rw [hrun]
  dsimp only
  rw [if_neg hop, if_neg]
  rw [hacked]
  simp only [Bool.or_eq_true, Bool.and_eq_true, Bool.not_eq_true', decide_eq_true_eq, List.isEmpty_nil]
  rintro ((⟨hstaged, hr⟩ | h) | h)
  · exact Bool.false_ne_true (hr.symm.trans (hready hstaged))
  · omega
  · exact absurd h (by decide)

theorem execComplete_waits {r : RRun} (hrun : (chanOf (getCore s core) ch).run = some r) (hop : r.e.op ≠ .cflush)
    (hwaits : (isStaged r.e = true ∧ r.ready = false) ∨ r.done < runnerTotal r ∨ unackedOf s core ch ≠ []) :
    execRunnerOperationComplete core ch s = .next s := by
  refine congrArg Host.Outcome.next ?_
  rw [hrun]
  dsimp only
  rw [if_neg hop, if_pos]
  simp only [Bool.or_eq_true, Bool.and_eq_true, Bool.not_eq_true', decide_eq_true_eq]
  rcases hwaits with h | h | h
  · exact .inl (.inl h)
  · exact .inl (.inr h)
  · exact .inr (List.isEmpty_eq_false_iff.2 h)

theorem execComplete_flushed {r : RRun} {s1 : State} (hrun : (chanOf (getCore s core) ch).run = some r) (hop : r.e.op = .cflush)
    (h : flushRange s r.e (dieOf core) (parts r.e.set.src.toNat r.e.set.len.toNat) = (s1, none)) :
    execRunnerOperationComplete core ch s = .next (finishRunner s1 core ch r.e) := by
  refine congrArg Host.Outcome.next ?_
  rw [hrun]
  dsimp only
  rw [if_pos hop, h]

/-- A finished operation leaves the registers of its core, unless its task is pre-empted. -/
theorem finishRunner_regs (hu : (getCore s core).task = some e.task) (hst : ∀ k, tabFind s.tasks e.task = some k → k.st ≠ 3) :
    (getCore (finishRunner s core ch e) core).regs = (getCore s core).regs := by
  have hu' : (getCore (modChan s core ch fun c => { c with run := none }) core).task = some e.task := by
    rw [getCore_modChan]
    exact hu
  have hold : ∀ {t : State}, t.tasks = s.tasks → (getCore t core).regs = (getCore s core).regs →
      (getCore (settleTask t e.task) core).regs = (getCore s core).regs := fun htasks hregs =>
    (settleTask_regs (fun k hk => hst k (htasks ▸ hk)) core).trans hregs
  unfold finishRunner
  by_cases hn : e.tok = 0
  · rw [ownerTok, if_pos hn]
    exact hold rfl (by rw [getCore_modChan])
  · rw [WaitEnds.ownerTok_held hu' hn]
    exact hold rfl (by rw [getCore_modCore_self, getCore_modChan])

/-! ## Pieces -/

/-- The bytes that a channel's write pointer counts: up to the first that is not acknowledged. -/
def acknowledged (s : State) (core ch done : Nat) : Nat := (unackedOf s core ch).foldl (fun v x => min v x.pos) done

/-- The running operation of a channel after its write pointer was brought up. -/
structure Counted (s t : State) (core ch : Nat) (r : RRun) : Prop where
  unacked : unackedOf t core ch = unackedOf s core ch
  run : (chanOf (getCore t core) ch).run = some { r with counted := max r.counted (acknowledged s core ch r.done) }
  count : (chanOf (getCore t core) ch).count =
    (chanOf (getCore s core) ch).count + BitVec.ofNat 48 (max r.counted (acknowledged s core ch r.done) - r.counted)
  mem : t.mem = s.mem

theorem settleCount_counts {r : RRun} (hu : (getCore s core).task = some r.e.task) (hrun : (chanOf (getCore s core) ch).run = some r) :
    Counted s (settleCount s core ch) core ch r := by
  unfold settleCount
  rw [hrun]
  dsimp only
  rw [show (unackedOf s core ch).foldl (fun v x => min v x.pos) r.done = acknowledged s core ch r.done from rfl]
  split
  next hle =>
    refine ⟨rfl, ?_, ?_, rfl⟩
    · rw [max_eq_left hle]
      exact hrun
    · rw [max_eq_left hle, Nat.sub_self]
      exact (BitVec.add_zero _).symm
  next hlt =>
    have hu' : (getCore (modChan s core ch fun c => { c with run := some { r with counted := acknowledged s core ch r.done } }) core).task = some r.e.task := by
      rw [getCore_modChan]
      exact hu
    have hmax : max r.counted (acknowledged s core ch r.done) = acknowledged s core ch r.done := max_eq_right (Nat.le_of_lt (Nat.not_le.1 hlt))
    rw [WaitEnds.modCount_held hu']
    refine ⟨rfl, ?_, ?_, rfl⟩ <;> rw [hmax]
    · rw [getCore_modCore_self, chanOf_tabSet_self, chanOf_modChan]
    · rw [getCore_modCore_self, chanOf_tabSet_self, chanOf_modChan]

/-- The bytes of the next piece of an operation from a place on. -/
def pieceLen (r : RRun) : Nat :=
  let len := if isStaged r.e then r.bytes.length else r.e.set.len.toNat
  min (32 - destAddr r.e r.done % 32) (len - (if isStaged r.e then r.done else r.done % len))

/-- What a piece that is written needs of the state that it is written from. -/
structure Writes (s1 s2 s3 : State) (core : Nat) (e : REntry) (va : Nat) (data : List Byte) (p : Placed) : Prop where
  task : (getCore s2 core).task = some e.task
  place : placeRun s1 e (farDest s1 e) true va data.length = .ok s2 p
  room : linkRoom s2 (dieOf core) p.mt p.pa = true
  foot : footHit s2 p.mt p.pa data.length = none
  clear : mayBreach s2 e.ctx = false
  write : writePa s2 (dieOf core) p.mt p.pa data = .ok s3

/-- The operation after a piece of `n` bytes, with what was read ahead. -/
def pieceDone (r : RRun) (n : Nat) (ahead : List ReadAhead) : RRun := { r with done := r.done + n, ahead := ahead }

theorem runnerPiece_writes {r : RRun} {s1 s2 s3 : State} {had : List Byte} {p : Placed}
    (hwaits : (!isStaged r.e && r.e.op != .czero && readWaits s core r.e (farSource s r.e) (parts (sourceAddr r.e r.done) (pieceLen r))) = false)
    (hbytes : pieceBytes s core r (pieceLen r) = (s1, had, none))
    (hw : Writes s1 s2 s3 core r.e (destAddr r.e r.done) (had.take (pieceLen r)) p) : ∃ ahead, runnerPiece s core ch r =
      settleCount (modChan (noteSent s2 s3 core (some r.e.task) p.mt p.pa (.runner ch) r.done) core ch fun c =>
        { c with run := some (pieceDone r (had.take (pieceLen r)).length ahead) }) core ch := by
  obtain ⟨htask, hplace, hroom, hfoot, hclear, hwrite⟩ := hw
  have hstored : ∀ va, storedBytes s2 (dieOf core) r.e.ctx p.mt va p.pa (had.take (pieceLen r)) = had.take (pieceLen r) :=
    fun va => if_neg (by rw [hclear]; exact Bool.false_ne_true)
  have hn : pieceLen r = min (32 - destAddr r.e r.done % 32) ((if isStaged r.e then r.bytes.length else r.e.set.len.toNat) -
      (if isStaged r.e then r.done else r.done % (if isStaged r.e then r.bytes.length else r.e.set.len.toNat))) := rfl
  unfold runnerPiece
  dsimp only
  rw [← hn, if_neg (by rw [hwaits]; exact Bool.false_ne_true), hbytes]
  cases had <;> simp only [hplace, hroom, hfoot, hstored, hwrite] <;> exact ⟨_, rfl⟩

theorem runnerMove_one {r : RRun} (hrun : (chanOf (getCore s core) ch).run = some r) (hlt : r.done < runnerTotal r)
    (hready : isStaged r.e = true → r.ready = true) : runnerMove core ch 1 s = runnerPiece s core ch r := by
  simp only [runnerMove, hrun]
  refine if_neg ?_
  simp only [Bool.or_eq_true, Bool.and_eq_true, Bool.not_eq_true', decide_eq_true_eq]
  rintro (⟨hstaged, hr⟩ | h)
  · exact Bool.false_ne_true (hr.symm.trans (hready hstaged))
  · omega

/-- What a channel and memory hold after a piece of `data` is written for an operation (R288). -/
structure PieceWritten (s2 s3 t : State) (core ch : Nat) (r : RRun) (data : List Byte) (p : Placed) : Prop where
  mem : t.mem = s3.mem
  cells : p.mt ≠ 2 → ∀ a, cellGet t.mem a =
    if memKey s2 p.pa ≤ a ∧ a < memKey s2 p.pa + data.length then data.getD (a - memKey s2 p.pa) 0 else cellGet s2.mem a
  run : ∃ q, (chanOf (getCore t core) ch).run = some q ∧ q.e = r.e ∧ q.done = r.done + data.length ∧ q.bytes = r.bytes ∧
    q.counted = max r.counted (acknowledged t core ch q.done) ∧
    (chanOf (getCore t core) ch).count = (chanOf (getCore s2 core) ch).count + BitVec.ofNat 48 (max r.counted (acknowledged t core ch q.done) - r.counted)

theorem runnerPiece_written {r : RRun} {s1 s2 s3 : State} {had : List Byte} {p : Placed}
    (hwaits : (!isStaged r.e && r.e.op != .czero && readWaits s core r.e (farSource s r.e) (parts (sourceAddr r.e r.done) (pieceLen r))) = false)
    (hbytes : pieceBytes s core r (pieceLen r) = (s1, had, none))
    (hw : Writes s1 s2 s3 core r.e (destAddr r.e r.done) (had.take (pieceLen r)) p) (hok : MemOk s2) :
    PieceWritten s2 s3 (runnerPiece s core ch r) core ch r (had.take (pieceLen r)) p := by
  obtain ⟨ahead, hpiece⟩ := runnerPiece_writes (ch := ch) hwaits hbytes hw
  rw [hpiece]
  generalize had.take (pieceLen r) = data at hw hpiece ⊢
  clear hpiece hbytes
  have hcores : (noteSent s2 s3 core (some r.e.task) p.mt p.pa (.runner ch) r.done).cores = s2.cores :=
    (Claims.noteSent_cores ..).trans (AtHome.writePa_cores hw.write).1
  have hmem : (noteSent s2 s3 core (some r.e.task) p.mt p.pa (.runner ch) r.done).mem = s3.mem := (Claims.noteSent_mem ..).1
  generalize noteSent s2 s3 core (some r.e.task) p.mt p.pa (.runner ch) r.done = s4 at hcores hmem ⊢
  have hcore : getCore s4 core = getCore s2 core := Frames.getCore_congr hcores core
  obtain ⟨hunacked, hrun, hcount, hsame⟩ := settleCount_counts (s := modChan s4 core ch fun c => { c with run := some (pieceDone r data.length ahead) })
    (core := core) (ch := ch) (r := pieceDone r data.length ahead) (by rw [getCore_modChan, hcore]; exact hw.task) (by rw [chanOf_modChan])
  have hack : ∀ n, acknowledged (settleCount (modChan s4 core ch fun c => { c with run := some (pieceDone r data.length ahead) }) core ch) core ch n =
      acknowledged (modChan s4 core ch fun c => { c with run := some (pieceDone r data.length ahead) }) core ch n := fun n => by
    rw [acknowledged, hunacked]
    rfl
  refine ⟨hsame.trans hmem, fun hmt a => ?_, _, hrun, rfl, rfl, rfl, ?_, ?_⟩
  · rw [hsame, show (modChan s4 core ch _).mem = s4.mem from rfl, hmem, ((writePa_mem hw.write).1 hmt).1, AccessOrder.cellGet_cellsSet hok.1]
  · rw [hack]
    rfl
  · rw [hack, hcount, chanOf_modChan, hcore]
    rfl

/-! The bytes of a piece. -/

theorem pieceBytes_zero {r : RRun} (hop : r.e.op = .czero) (n : Nat) : pieceBytes s core r n = (s, List.replicate n 0, none) := by
  have hstaged : isStaged r.e = false := by
    rw [isStaged, hop]
    rfl
  unfold pieceBytes
  dsimp only
  rw [if_neg (by rw [hstaged]; exact Bool.false_ne_true), if_pos hop]

theorem pieceBytes_staged {r : RRun} (h : isStaged r.e = true) (n : Nat) : pieceBytes s core r n = (s, (r.bytes.drop r.done).take n, none) := if_pos h

theorem mergeAhead_nil (b : List Byte) (pos : Nat) : mergeAhead [] b pos b.length = b := by
  induction b generalizing pos with
  | nil => rfl
  | cons x l ih =>
    simp only [List.length_cons, mergeAhead, List.find?_nil, Option.map_none, ih]

theorem pieceBytes_read {r : RRun} {s1 : State} {b : List Byte} {n : Nat} (hstaged : isStaged r.e = false) (hop : r.e.op ≠ .czero) (hahead : r.ahead = [])
    (hread : readRange (freshFor s core (some r.e.task) r.e.no) core r.e (farSource s r.e) (parts (sourceAddr r.e r.done) (wholePieces r.e r.done n)) =
      (s1, b, none)) (hlen : b.length = wholePieces r.e r.done n) : pieceBytes s core r n = (s1, b, none) := by
  unfold pieceBytes
  dsimp only
  rw [if_neg (by rw [hstaged]; exact Bool.false_ne_true), if_neg hop, hread, hahead, ← hlen, mergeAhead_nil]

/-- A piece near by is read where it stands. -/
theorem readRange_near {s1 s2 : State} {p : Placed} {b : List Byte} {va k : Nat} (hplace : placeRun s1 e (farSource s1 e) false va k = .ok s2 p)
    (hnear : isRemote s2 p.pa = false) (hmt : p.mt ≠ 2) (hread : readPa s2 (dieOf core) p.mt p.pa k = .ok b) :
    (readRange s1 core e (farSource s1 e) [(va, 0, k)]).2 = (b, none) ∧ b = cellsGet s2.mem (memKey s2 p.pa) k := by
  have hcached : (readCached s2 (dieOf core) p.mt p.pa k).1 = .ok b := by
    rw [readCached, if_neg fun h => Bool.false_ne_true (hnear.symm.trans h.2.1)]
    exact hread
  refine ⟨?_, ?_⟩
  · rw [readRange, hplace]
    dsimp only
    generalize readCached s2 (dieOf core) p.mt p.pa k = x at hcached ⊢
    obtain ⟨x1, x2⟩ := x
    cases hcached
    simp only [readRange, List.append_nil]
  · unfold readPa at hread
    rw [if_neg hmt] at hread
    dsimp only at hread
    split at hread
    · exact absurd hread nofun
    · split at hread
      · exact absurd hread nofun
      · exact (Except.ok.inj hread).symm

/-! Addresses. -/

theorem sourceAddr_eq {e : REntry} (h : isStaged e = false) (pos : Nat) : sourceAddr e pos =
    (((e.set.src.toNat : Int) + ((if isStaged e || e.op == .copy then 0 else ((pos / e.set.len.toNat : Nat) : Int)) * e.set.sstr.toInt +
      ((if isStaged e || e.op == .copy then pos else pos % e.set.len.toNat : Nat) : Int))) % (2 ^ 57 : Int)).toNat := by
  by_cases hop : e.op = .copy
  · rw [sourceAddr, lAddr]
    simp only [h, hop, beq_self_eq_true, Bool.false_or, if_true, Nat.cast_zero]
  · rw [sourceAddr, lAddr]
    simp only [h, beq_eq_false_iff_ne.2 hop, Bool.false_or, Bool.false_eq_true, if_false, if_neg hop]

theorem destAddr_eq (e : REntry) (pos : Nat) : destAddr e pos =
    (((e.set.dst.toNat : Int) + ((if isStaged e || e.op == .copy then 0 else ((pos / e.set.len.toNat : Nat) : Int)) * e.set.dstr.toInt +
      ((if isStaged e || e.op == .copy then pos else pos % e.set.len.toNat : Nat) : Int))) % (2 ^ 57 : Int)).toNat := by
  rw [destAddr, lAddr]
  cases isStaged e || e.op == .copy
  · simp only [Bool.false_eq_true, if_false]
  · simp only [if_true, Nat.cast_zero]

end

/-- Settles O35. -/
theorem runnerOperations : Obligations.RunnerOperations := by
  unfold Obligations.RunnerOperations
  refine ⟨fun o s hon => ?issue, fun s core ch => ⟨fun e rest => ?start, fun r hrun hop hdone hacked hu => ?moved, fun r hrun hop hwaits => ?waits,
    fun r hrun hop hu => ?staged, fun r s1 hrun hop hu hcores hflush => ?flushed⟩, fun s core ch r hok hrun hlt hready => ?pieces⟩
  case issue =>
    intro c ch q h depth io hio
    have hexec : ∀ io ∈ [(Instr.copy o, ROp.copy), (.copy2 o, .copy2), (.send o, .send), (.fetch o, .fetch), (.scopy o, .scopy), (.coll o, .coll),
        (.czero o, .czero), (.cflush o, .cflush)], exec io.1 s = cIssue o io.2 s := by
      simp only [List.forall_mem_cons, List.not_mem_nil, false_imp_iff, implies_true, and_true]
      exact ⟨rfl, rfl, rfl, rfl, rfl, rfl, rfl, rfl⟩
    have hch : (isY o.u).toNat = ch := by
      dsimp only [ch]
      cases isY o.u <;> rfl
    rw [hexec io hio]
    refine ⟨fun hpending => ?_, cIssue_full hon hch, fun k hfree hroom => cIssue_blocked hon hch hfree hroom,
      fun u k hfree hroom hu hk hgo => ⟨_, cIssue_queues hon hch hfree hroom hu hk hgo, ?_⟩⟩
    · rw [cIssue_pending hon hpending, ← BitVec.ofNat_toNat]
    · obtain ⟨hself, hother, htok, htoks, hregs, hmem, hcores⟩ := queuedEntry_fields s o ch (entryOf s o io.2 k.ctx u)
      refine ⟨hself, hother _ ?_, htok, htoks, hregs, hmem, hcores⟩
      dsimp only [ch]
      split <;> decide
  case start =>
    intro hrun hqueue hu hdone hlist hheld s1 starts ends
    have hs1 : s1 = headTaken s core ch rest := rfl
    have hu1 : (getCore (headTaken s core ch rest) core).task = some e.task := by
      rw [headTaken, getCore_modChan]
      exact hu
    have hstart := execStart_starts hrun hqueue hu hdone hlist hheld
    have hends : ∀ {code : BitVec 3} {t t' : State}, execRunnerOperationStart core ch s = .next t → Ended t' t core ch e.tok (.err code) → ends code :=
      fun hexec h => ⟨_, show execRunnerOperationStart core ch s = _ from hexec, h.run, h.tok⟩
    refine ⟨fun hop => ?_, fun hop hdev => ?_, fun hop hdev hreads => ⟨fun hseal => ?_, fun x s2 b hseal hu2 hread => ⟨fun hcrc => ?_, fun hcrc => ?_⟩⟩,
      fun hop hgroup l s2 hgroupOf hu2 hwords => ⟨fun hrank => ?_, fun rank hrank => ?_⟩⟩
    · refine show execRunnerOperationStart core ch s = _ from (hstart (fun h => ?_) fun h => ?_).trans (congrArg Host.Outcome.next ?_)
      · simp [h] at hop
      · simp [h] at hop
      · rw [startEntry_plain hop]
        exact headTaken_runs s core ch e rest
    · refine hends (t' := headTaken s core ch rest) (hstart (fun h => ?_) fun h => ?_) ?_
      · rcases hop with hop | ⟨-, -, hreads⟩
        · simp [h] at hop
        · exact hreads
      · simp [h] at hop
      · rw [startEntry_noDevice (hop.imp_right fun h => ⟨h.1, h.2.1⟩) hdev]
        exact failRunner_ends (r := { e := e }) hu1 5 5 _ _
    · refine hends (t' := headTaken s core ch rest) (hstart (fun _ => hreads) fun h => absurd (hop.symm.trans h) nofun) ?_
      rw [startEntry_scopy hop hdev, startScopy_noSeal (show findSeal (getHearth (headTaken s core ch rest) (hearthOf core)) e = none from hseal)]
      exact failSeal_ends (r := { e := e, port := portFor (headTaken s core ch rest) core e }) hu1 0 (coreUnit core 3) 0 0 0
    · have hexec := hstart (fun _ => hreads) fun h => absurd (hop.symm.trans h) nofun
      rw [startEntry_scopy hop hdev, startScopy_read (show findSeal (getHearth (headTaken s core ch rest) (hearthOf core)) e = some x from hseal) hread,
        if_neg (not_not.2 hcrc)] at hexec
      refine ⟨_, show execRunnerOperationStart core ch s = _ from hexec, rfl,
        { e := e, port := portFor (headTaken s core ch rest) core e, bytes := b, crc := x.crc }, ?_, rfl, rfl, rfl, rfl, rfl⟩
      rw [chanOf_modChan]
    · have hexec := hstart (fun _ => hreads) fun h => absurd (hop.symm.trans h) nofun
      rw [startEntry_scopy hop hdev, startScopy_read (show findSeal (getHearth (headTaken s core ch rest) (hearthOf core)) e = some x from hseal) hread,
        if_pos hcrc] at hexec
      exact hends hexec (failSeal_ends (r := { e := e, port := portFor (headTaken s core ch rest) core e }) (hu2.trans hu) ..)
    · have hexec := hstart (fun h => absurd (hop.symm.trans h) nofun) fun _ => hgroup
      rw [startEntry_coll hop, startColl_group (show groupOf (headTaken s core ch rest) e = _ from hgroupOf) hwords, hrank] at hexec
      exact hends hexec (failRunner_ends (r := { e := e }) (hu2.trans hu) 7 0 0 0)
    · intro x hdead hlost
      have hexec := hstart (fun h => absurd (hop.symm.trans h) nofun) fun _ => hgroup
      rw [startEntry_coll hop, startColl_group (show groupOf (headTaken s core ch rest) e = _ from hgroupOf) hwords, hrank] at hexec
      refine ⟨_, show execRunnerOperationStart core ch s = _ from hexec, ?_⟩
      dsimp only
      rw [joinColl_alive (s := modChan s2 core ch fun c => { c with run := some { e := e } }) hdead hlost]
      refine ⟨?_, rfl, List.mem_append_right _ (List.mem_singleton_self _)⟩
      exact congrArg Chan.run (chanOf_modChan s2 core ch fun c => { c with run := some { e := e } })
  case moved =>
    have hplain : isStaged r.e = false ∧ r.e.op ≠ .cflush := by
      simp only [List.mem_cons, List.not_mem_nil, or_false] at hop
      rcases hop with h | h | h | h | h <;> rw [isStaged, h] <;> exact ⟨rfl, nofun⟩
    have hended := finishRunner_ends (ch := ch) (e := r.e) hu
    exact ⟨_, show execRunnerOperationComplete core ch s = _ from execComplete_moved hrun hplain.2 (fun h => absurd (hplain.1.symm.trans h) nofun) hdone hacked,
      hended.run, hended.tok, hended.mem, finishRunner_regs hu⟩
  case waits => exact show execRunnerOperationComplete core ch s = _ from execComplete_waits hrun hop (.inr hwaits)
  case staged =>
    have hplain : isStaged r.e = true ∧ r.e.op ≠ .cflush := by
      rcases List.mem_pair.1 hop with h | h <;> rw [isStaged, h] <;> exact ⟨rfl, nofun⟩
    have hended := finishRunner_ends (ch := ch) (e := r.e) hu
    exact ⟨fun hready hdone hacked => ⟨_, show execRunnerOperationComplete core ch s = _ from execComplete_moved hrun hplain.2 (fun _ => hready) hdone hacked,
      hended.run, hended.tok, hended.mem⟩,
      fun hready => show execRunnerOperationComplete core ch s = _ from execComplete_waits hrun hplain.2 (.inl ⟨hplain.1, hready⟩)⟩
  case flushed =>
    have hended := finishRunner_ends (ch := ch) (e := r.e) (s := s1) (core := core) (by rw [Frames.getCore_congr hcores]; exact hu)
    exact ⟨_, show execRunnerOperationComplete core ch s = _ from execComplete_flushed hrun hop hflush, hended.run, hended.tok, hended.mem⟩
  case pieces =>
    intro e flat len row col dst src n m puts
    have hdst : destAddr r.e r.done = dst := destAddr_eq r.e r.done
    have hn : pieceLen r = n := by
      unfold pieceLen
      rw [hdst]
    have hputs : ∀ {s1 : State} {had : List Byte},
        (!isStaged r.e && r.e.op != .czero && readWaits s core r.e (farSource s r.e) (parts (sourceAddr r.e r.done) (pieceLen r))) = false →
        pieceBytes s core r (pieceLen r) = (s1, had, none) → puts s1 (had.take n) := by
      intro s1 had hwaits hbytes s2 p s3 hlen htask hplace hroom hfoot hclear hwrite hok2
      have hw : writePa s2 (dieOf core) p.mt p.pa (had.take n) = .ok s3 := by
        cases hres : writePa s2 (dieOf core) p.mt p.pa (had.take n) with
        | error c => rw [hres] at hwrite; exact absurd hwrite nofun
        | ok s3' =>
          rw [hres] at hwrite
          exact congrArg Except.ok (Option.some.inj hwrite)
      have hwritten := runnerPiece_written (ch := ch) hwaits hbytes (hn.symm ▸ ⟨htask, by rw [hlen, hdst]; exact hplace, hroom, by rw [hlen]; exact hfoot,
        hclear, hw⟩ : Writes s1 s2 s3 core r.e (destAddr r.e r.done) (had.take (pieceLen r)) p) hok2
      rw [hn] at hwritten
      obtain ⟨hmem, hcells, q, hq, hqe, hqdone, hqbytes, hqcounted, hqcount⟩ := hwritten
      rw [hlen] at hcells hqdone
      intro t
      have ht : t = runnerPiece s core ch r := runnerMove_one hrun hlt hready
      rw [ht]
      exact ⟨hmem, hcells, q, hq, hqe, hqdone, hqbytes, hqcounted, hqcount⟩
    refine ⟨fun hop => ?zero, fun hstaged => ?staged, fun hop hahead hreads s1 b hread hlen => ?copied,
      fun s1 s2 p b va k hplace hnear hmt hread => ?near⟩
    case zero =>
      have h := hputs (by rw [show r.e.op = .czero from hop]; simp) (pieceBytes_zero hop _)
      rw [hn, List.take_replicate, Nat.min_self] at h
      exact h
    case staged =>
      have h := hputs (by rw [show isStaged r.e = true from hstaged]; rfl) (pieceBytes_staged hstaged _)
      rw [hn, List.take_take, Nat.min_self] at h
      exact h
    case copied =>
      have hplain : isStaged r.e = false ∧ r.e.op ≠ .czero := by
        simp only [List.mem_cons, List.not_mem_nil, or_false] at hop
        rcases hop with h | h | h | h <;> rw [isStaged, show r.e.op = _ from h] <;> exact ⟨rfl, nofun⟩
      have hsrc : sourceAddr r.e r.done = src := sourceAddr_eq hplain.1 r.done
      refine hputs ?_ (pieceBytes_read hplain.1 hplain.2 hahead ?_ ?_)
      · rw [hn, hsrc]
        exact Bool.and_eq_false_iff.2 (.inr hreads)
      · rw [hn, hsrc]
        exact hread
      · rw [hn]
        exact hlen
    case near =>
      cases hres : readPa s2 (dieOf core) p.mt p.pa k with
      | error c => rw [hres] at hread; exact absurd hread nofun
      | ok b' =>
        rw [hres] at hread
        cases hread
        exact readRange_near hplace hnear hmt hres

end Sys2Proof.Runners

/-! SUPPORT. Sealed copies, collectives and ordered atomics at their far end (spec/12 R267 to R271, R282, R285, R286): O36. -/

namespace Sys2Proof.FarEnds

open Sys2Proof Sys2Proof.Machine Sys2Proof.Laws Sys2Proof.Engines Sys2Proof.Runners

/-! ## What the cores share stays -/

section
variable {s t : State}

theorem sharedOf_modCore (s : State) (core : Nat) (f : Core → Core) : sharedOf (modCore s core f) = sharedOf s := rfl

theorem sharedOf_modTask (s : State) (u : Nat) (f : Machine.Task → Machine.Task) : sharedOf (modTask s u f) = sharedOf s := by simp [sharedOf]

theorem sharedOf_foldl {α : Type} (l : List α) {f : State → α → State} (hf : ∀ s a, sharedOf (f s a) = sharedOf s) (s : State) :
    sharedOf (l.foldl f s) = sharedOf s :=
  foldl_keeps (P := fun t => sharedOf t = sharedOf s) (fun t a h => (hf t a).trans h) l rfl

theorem sharedOf_abandonAll (s : State) (core : Nat) : sharedOf (abandonAll s core) = sharedOf s := by
  unfold abandonAll
  exact sharedOf_foldl _ (fun s i => by
    unfold abandonAt
    rfl) s

theorem sharedOf_settleTask (s : State) (u : Nat) : sharedOf (settleTask s u) = sharedOf s := by
  have hsaved : ∀ t k, sharedOf (abandonSaved t k) = sharedOf t := fun t k => by
    unfold abandonSaved
    exact sharedOf_foldl _ (fun s e => sharedOf_modCore ..) t
  have hdrop : ∀ t k, sharedOf (dropState t u k) = sharedOf t := fun t k => by
    unfold dropState
    exact sharedOf_foldl _ (fun s i => sharedOf_modCore ..) t
  unfold settleTask
  split
  · rfl
  next k _ =>
    dsimp only
    split
    · refine (sharedOf_modTask ..).trans ((sharedOf_foldl _ (fun s c => sharedOf_modCore ..) _).trans (sharedOf_foldl _ sharedOf_abandonAll _))
    · split
      · unfold endUnits
        dsimp only
        split
        · exact (sharedOf_modTask ..).trans ((hdrop ..).trans (hsaved ..))
        · exact (sharedOf_modTask ..).trans (hsaved ..)
      · rfl

theorem sharedOf_modTaskCore (s : State) (core : Nat) (task : Option Nat) (f : Core → Core) : sharedOf (modTaskCore s core task f) = sharedOf s := by
  unfold modTaskCore
  split
  · rfl
  · split
    · exact sharedOf_modTask ..
    · rfl

theorem sharedOf_keepImage (s : State) (core u off : Nat) (b : List Byte) : sharedOf (keepImage s core u off b) = sharedOf s := by
  unfold keepImage
  split
  · rfl
  · split
    · split
      · exact (engineOnly_saveImage ..).shared
      · rfl
    · rfl

theorem sharedOf_ownerTok (s : State) (core u tok : Nat) (k : Tok) : sharedOf (ownerTok s core u tok k) = sharedOf s := by
  unfold ownerTok
  split
  · rfl
  · exact (sharedOf_keepImage ..).trans (sharedOf_modTaskCore ..)

theorem sharedOf_postAccess (s : State) (k : BitVec 2) (n : BitVec 14) (ctx cls a d0 d1 d2 : Nat) :
    sharedOf (postAccess s k n ctx cls a d0 d1 d2) = sharedOf s := (EngineOnly.of_postOnly (Posts.postAccess_postOnly ..)).shared

theorem sharedOf_failRunner (s : State) (core ch : Nat) (r : RRun) (code cls addr dir : Nat) :
    sharedOf (failRunner s core ch r code cls addr dir) = sharedOf s := by
  unfold failRunner
  dsimp only
  have hcount : sharedOf (modChan (modCount (forgetSent s core ch) core ch r.e.task fun c => { c with
      count := c.count + BitVec.ofNat 48 (bytesDue s r.e - r.counted), err := true }) core ch fun c => { c with run := none }) = sharedOf s := by
    refine (sharedOf_modCore ..).trans ?_
    unfold modCount
    exact (sharedOf_keepImage ..).trans (sharedOf_modTaskCore ..)
  refine (sharedOf_settleTask ..).trans ?_
  split
  · exact (sharedOf_ownerTok ..).trans hcount
  · split
    · exact (engineOnly_noteError ..).shared.trans ((sharedOf_ownerTok ..).trans hcount)
    · exact (sharedOf_postAccess ..).trans ((engineOnly_noteAccess ..).shared.trans ((sharedOf_ownerTok ..).trans hcount))

theorem sharedOf_accessError (s : State) (core : Nat) (task : Option Nat) (load : Bool) (cls pa d0 d2 : Nat) :
    sharedOf (accessError s core task load cls pa d0 d2) = sharedOf s := by
  unfold accessError
  refine (sharedOf_postAccess ..).trans ?_
  cases task with
  | none => exact sharedOf_modTaskCore ..
  | some u => exact (engineOnly_noteAccess ..).shared.trans ((sharedOf_keepImage ..).trans (sharedOf_modTaskCore ..))

theorem sharedOf_settleDebts (s : State) : sharedOf (settleDebts s) = sharedOf s := by
  unfold settleDebts
  split <;> rfl

theorem sharedOf_oweFor (s : State) (core : Nat) (e : Acc) : sharedOf (oweFor s core e) = sharedOf s := by
  unfold oweFor
  split <;> rfl

theorem sharedOf_finishAcc (s : State) (core n : Nat) (e : Acc) (ro : Bool) (r : Except Nat (List Byte)) (d2 : Nat) :
    sharedOf (finishAcc s core n e ro r d2) = sharedOf s := by
  unfold finishAcc
  cases r with
  | ok b =>
    refine (sharedOf_settleDebts ..).trans ((sharedOf_modCore ..).trans ?_)
    split
    · exact sharedOf_oweFor ..
    · rfl
  | error cls => exact (sharedOf_settleDebts ..).trans ((sharedOf_accessError ..).trans (sharedOf_modCore ..))

theorem sharedOf_refuseAcc (s : State) (core n : Nat) (e : Acc) (ro : Bool) (i d2 : Nat) : sharedOf (refuseAcc s core n e ro i d2) = sharedOf s := by
  unfold refuseAcc
  dsimp only
  split <;> split
  · exact sharedOf_finishAcc ..
  · exact (sharedOf_settleDebts ..).trans ((sharedOf_modTaskCore ..).trans (sharedOf_modCore ..))
  · exact sharedOf_finishAcc ..
  · exact (sharedOf_settleDebts ..).trans ((sharedOf_modTaskCore ..).trans (sharedOf_modCore ..))

theorem sharedOf_rehomeAcc (s : State) (core n : Nat) (e : Acc) : sharedOf (rehomeAcc s core n e).1 = sharedOf s := by
  unfold rehomeAcc
  split
  · rfl
  next u _ =>
    have hrehome := (engineOnly_rehome s u (placedAcc e)).shared
    split
    · rfl
    · split
      next s1 p h => rw [h] at hrehome; exact hrehome
      next s1 h => rw [h] at hrehome; exact hrehome

theorem atomicAt_writes {s t : State} {die : Nat} {e : Acc} {op : AtomOp} {v new : W64} {fmt : W32} {old : Nat}
    (h : atomicAt s die e op v new fmt = .ok (old, t)) : Images.WriteOnly s t := by
  unfold atomicAt at h
  split at h
  · exact absurd h nofun
  · dsimp only at h
    split at h
    next s1 hw =>
      cases h
      exact Images.writeOnly_writePa hw
    · exact absurd h nofun

end

/-! ## Ordered atomics -/

section
variable {s : State} {r : OReq}

/-- The requests but those of one position. -/
def without (r : OReq) (l : List OReq) : List OReq := l.filter fun x => !(x.core == r.core && x.id == r.id && x.flow == r.flow)

/-- The home expects the next number and the request is off the list. -/
def numbered (s : State) (r : OReq) : State := { s with expect := tabSet s.expect (flowKey r) (r.seq + 1), oreqs := without r s.oreqs }

/-- Its flow has one request less under way. -/
def counted (s : State) (r : OReq) : State := modCore (numbered s r) r.core fun c =>
  { c with flow := tabSet c.flow r.flow { (tabGet c.flow r.flow {}) with outstanding := (tabGet c.flow r.flow {}).outstanding - 1 } }

theorem sharedOf_performOrdered (s : State) (r : OReq) : sharedOf (performOrdered s r) = sharedOf (numbered s r) := by
  unfold performOrdered
  dsimp only
  generalize hs2 : modCore _ r.core _ = s2
  have hcounted : sharedOf s2 = sharedOf (numbered s r) := by
    rw [← hs2]
    rfl
  clear hs2
  split
  · exact hcounted
  next n e0 _ =>
    split
    · exact hcounted
    · have hrehome := (sharedOf_rehomeAcc s2 r.core n e0).trans hcounted
      generalize rehomeAcc s2 r.core n e0 = x at hrehome ⊢
      split
      · split
        · exact (sharedOf_finishAcc ..).trans hrehome
        · split
          · exact (sharedOf_refuseAcc ..).trans hrehome
          · split
            next old s4 hat =>
              have hwrite := (EngineOnly.of_writeOnly (atomicAt_writes hat)).shared
              exact (sharedOf_finishAcc ..).trans (Eq.trans hwrite hrehome)
            · exact (sharedOf_finishAcc ..).trans hrehome
      · exact hrehome

theorem performOrdered_oreqs (s : State) (r : OReq) : (performOrdered s r).oreqs = without r s.oreqs :=
  congrArg (fun p => p.2.1) (sharedOf_performOrdered s r)

theorem performOrdered_expect (s : State) (r : OReq) : (performOrdered s r).expect = tabSet s.expect (flowKey r) (r.seq + 1) :=
  congrArg (fun p => p.2.2) (sharedOf_performOrdered s r)

/-- Whether the turn of a kept request has come. -/
def due (s : State) (x : OReq) : Bool := x.buffered && tabGet s.expect (flowKey x) 0 == x.seq

theorem performBuffered_due (h : s.oreqs.find? (due s) = some r) (n : Nat) : performBuffered (n + 1) s = performBuffered n (performOrdered s r) := by
  rw [performBuffered, show s.oreqs.find? (fun r => r.buffered && tabGet s.expect (flowKey r) 0 == r.seq) = some r from h]

theorem performBuffered_none (h : s.oreqs.find? (due s) = none) (n : Nat) : performBuffered n s = s := by
  cases n with
  | zero => rfl
  | succ n => rw [performBuffered, show s.oreqs.find? (fun r => r.buffered && tabGet s.expect (flowKey r) 0 == r.seq) = none from h]

/-- A kept request that performs leaves fewer kept ones. -/
theorem length_buffered_without {l : List OReq} (hr : r ∈ l) (hb : r.buffered = true) :
    ((without r l).filter (fun x => x.buffered)).length < (l.filter (fun x => x.buffered)).length := by
  have hlist : (without r l).filter (fun x => x.buffered) =
      (l.filter (fun x => x.buffered)).filter fun x => !(x.core == r.core && x.id == r.id && x.flow == r.flow) := by
    rw [without, List.filter_filter, List.filter_filter]
    exact List.filter_congr fun x _ => Bool.and_comm ..
  rw [hlist]
  exact List.length_filter_lt_length_iff_exists.2 ⟨r, List.mem_filter.2 ⟨hr, hb⟩, by simp⟩

/-- With no more kept requests than passes, none is left whose turn has come. -/
theorem performBuffered_quiet (n : Nat) (s : State) (h : (s.oreqs.filter (fun x => x.buffered)).length ≤ n) :
    ∀ x ∈ (performBuffered n s).oreqs, due (performBuffered n s) x = false := by
  induction n generalizing s with
  | zero =>
    intro x hx
    have hnone : x.buffered = false := by
      by_contra hb
      have hmem : x ∈ s.oreqs.filter (fun x => x.buffered) := List.mem_filter.2 ⟨hx, Bool.not_eq_false _ ▸ hb⟩
      exact absurd (List.length_pos_of_mem hmem) (by omega)
    rw [due, hnone, Bool.false_and]
  | succ n ih =>
    cases hfind : s.oreqs.find? (due s) with
    | none =>
      rw [performBuffered_none hfind]
      exact fun x hx => Bool.eq_false_iff.2 (List.find?_eq_none.1 hfind x hx)
    | some r =>
      rw [performBuffered_due hfind]
      refine ih _ ?_
      rw [performOrdered_oreqs]
      have hdue : due s r = true := List.find?_some hfind
      have hb : r.buffered = true := (Bool.and_eq_true_iff.1 hdue).1
      have := length_buffered_without (List.mem_of_find?_eq_some hfind) hb
      omega

/-! Arrival. -/

/-- The home as it knows the run that a request starts. -/
def told (s : State) (r : OReq) : State := { s with expect := if r.start then tabSet s.expect (flowKey r) r.seq else s.expect }

theorem told_eq (s : State) (r : OReq) : (if r.start then { s with expect := tabSet s.expect (flowKey r) r.seq } else s) = told s r := by
  unfold told
  split <;> rfl

theorem orderedArrive_performs (h : r.start = true ∨ tabGet s.expect (flowKey r) 0 = r.seq) :
    orderedArrive s r = performBuffered 32 (performOrdered (told s r) r) := by
  unfold orderedArrive
  dsimp only
  rw [told_eq]
  refine if_pos ?_
  unfold told
  dsimp only
  split
  next => exact tabGet_tabSet_self ..
  next hstart => exact h.resolve_left hstart

theorem orderedArrive_waits (hstart : r.start = false) (h : tabGet s.expect (flowKey r) 0 ≠ r.seq) : orderedArrive s r =
    { s with oreqs := s.oreqs.map fun x => if x.core = r.core ∧ x.id = r.id ∧ x.flow = r.flow then
        (if (s.oreqs.filter (fun x => x.buffered && x.slice == r.slice)).length < 32 then { x with buffered := true, backoff := false }
          else { x with refusals := x.refusals + 1, backoff := true }) else x } := by
  unfold orderedArrive
  simp only [hstart, Bool.false_eq_true, if_false, if_neg h]

theorem execOrderedAtomicRequest_arrives {n : Nat} (hr : s.oreqs[n]? = some r) (hback : r.backoff = false) (hbuf : r.buffered = false) :
    execOrderedAtomicRequest n s = .next (orderedArrive s r) := by
  refine congrArg Host.Outcome.next ?_
  rw [hr]
  dsimp only
  rw [if_neg (by rw [hback]; exact Bool.false_ne_true), if_neg (by rw [hbuf]; exact Bool.false_ne_true)]

/-! The atomic itself. -/

theorem findIdxFrom_first {α : Type} {p : α → Bool} {x : α} (l : List α) (m i : Nat) (hx : l[m]? = some x) (hp : p x = true)
    (hbefore : ∀ k y, k < m → l[k]? = some y → p y = false) : findIdxFrom p l i = some (i + m, x) := by
  induction l generalizing m i with
  | nil => exact absurd hx nofun
  | cons y l ih =>
    rw [findIdxFrom]
    cases m with
    | zero =>
      cases hx
      rw [if_pos hp]
      rfl
    | succ m =>
      rw [if_neg (by rw [hbefore 0 y (Nat.succ_pos m) rfl]; exact Bool.false_ne_true),
        ih m (i + 1) hx fun k z hk hz => hbefore (k + 1) z (Nat.succ_lt_succ hk) hz]
      exact congrArg (fun k => some (k, x)) (by omega)

theorem oreqIdx_first {c : Core} {m : Nat} {e : Acc} {op : AtomOp} {v new : W64} (he : c.acc[m]? = some e) (hid : e.id = r.id)
    (hkind : e.kind = .ordered op v new r.flow r.seq true) (hbefore : ∀ k e', k < m → c.acc[k]? = some e' → e'.id ≠ r.id) : oreqIdx c r = some m := by
  unfold oreqIdx
  rw [findIdxFrom_first c.acc m 0 he]
  · exact congrArg some (Nat.zero_add m)
  · rw [hid, hkind]
    simp
  · intro k e' hk he'
    rw [beq_eq_false_iff_ne.2 (hbefore k e' hk he'), Bool.false_and]

theorem getCore_counted (s : State) (r : OReq) : getCore (counted s r) r.core = { getCore s r.core with
    flow := tabSet (getCore s r.core).flow r.flow { (tabGet (getCore s r.core).flow r.flow {}) with
      outstanding := (tabGet (getCore s r.core).flow r.flow {}).outstanding - 1 } } := getCore_modCore_self ..

theorem performOrdered_performs {m : Nat} {e : Acc} {op : AtomOp} {v new : W64} {old : Nat} {s3 : State} (he : (getCore s r.core).acc[m]? = some e)
    (hid : e.id = r.id) (hkind : e.kind = .ordered op v new r.flow r.seq true)
    (hbefore : ∀ k e', k < m → (getCore s r.core).acc[k]? = some e' → e'.id ≠ r.id) (hgone : accGone (counted s r) e = false)
    (hheld : ∀ u, e.task = some u → isSuspended (counted s r) u = false) (hat : atomicAt (counted s r) (dieOf r.core) e op v new 0 = .ok (old, s3))
    (hfoot : footHit (counted s r) e.mt e.pa e.n = none) : performOrdered s r =
      finishAcc { s3 with ports := (counted s r).ports } r.core m e true (.ok (bytesOf old e.n)) (r.flow + 65536 * r.seq.toNat) := by
  have hacc : (getCore (counted s r) r.core).acc[m]? = some e := by
    rw [getCore_counted]
    exact he
  have hidx : oreqIdx (getCore (counted s r) r.core) r = some m := by
    refine oreqIdx_first hacc hid hkind ?_
    rw [getCore_counted]
    exact hbefore
  have hrehome : rehomeAcc (counted s r) r.core m e = (counted s r, true) := by
    unfold rehomeAcc
    split
    · rfl
    next u hu => exact if_pos (.inr (hheld u hu))
  unfold performOrdered
  dsimp only
  generalize hs2 : modCore _ r.core _ = s2
  have hcounted : s2 = counted s r := hs2.symm
  rw [hcounted]
  clear hs2 hcounted
  rw [hidx, Option.bind_some, hacc, Option.map_some]
  dsimp only
  rw [hgone, if_neg Bool.false_ne_true, hrehome]
  dsimp only
  rw [hacc, Option.getD_some, hkind]
  dsimp only
  rw [if_neg Bool.false_ne_true.symm, hfoot]
  dsimp only
  rw [hat]

/-- An access that performed is off the list, its result filled in; nothing else of its core changes but what it still owes. -/
theorem finishAcc_fields (s : State) (core n : Nat) (e : Acc) (b : List Byte) (d2 : Nat) :
    let t := finishAcc s core n e true (.ok b) d2
    t.mem = s.mem ∧ t.hostMem = s.hostMem ∧ ∃ l, getCore t core = { dropAcc (fillFlight (getCore s core) e.id e.off (.ok b)) n with debts := l } := by
  intro t
  have howe : ∀ x : State, (x = s ∨ x = oweFor s core e) → x.mem = s.mem ∧ x.hostMem = s.hostMem ∧ ∃ l, getCore x core = { getCore s core with debts := l } := by
    rintro x (rfl | rfl)
    · exact ⟨rfl, rfl, _, rfl⟩
    · have hleaves := AtHome.leaves_oweFor s core e
      refine ⟨hleaves.mem, hleaves.hostMem, ?_⟩
      unfold oweFor
      split
      · exact ⟨_, rfl⟩
      · rw [getCore_modCore_self]
        exact ⟨_, rfl⟩
  have hsettle : ∀ x : State, ∃ l, getCore (settleDebts x) core = { getCore x core with debts := l } := by
    intro x
    unfold settleDebts
    split
    · exact ⟨_, rfl⟩
    · rw [getCore, tabGet_tabMap _ _ _ _ rfl]
      exact ⟨_, rfl⟩
  have hchoice : (if writesAcc e.kind then oweFor s core e else s) = s ∨ (if writesAcc e.kind then oweFor s core e else s) = oweFor s core e := by
    split
    · exact .inr rfl
    · exact .inl rfl
  obtain ⟨hmem, hhost, l, hl⟩ := howe _ hchoice
  have hdebts := AtHome.leaves_settleDebts (modCore (if writesAcc e.kind then oweFor s core e else s) core fun c => dropAcc (fillFlight c e.id e.off (.ok b)) n)
  obtain ⟨l', hl'⟩ := hsettle (modCore (if writesAcc e.kind then oweFor s core e else s) core fun c => dropAcc (fillFlight c e.id e.off (.ok b)) n)
  refine ⟨hdebts.mem.trans hmem, hdebts.hostMem.trans hhost, l', hl'.trans ?_⟩
  rw [getCore_modCore_self, hl]
  rfl

/-- R267, R270: what an ordered atomic leaves that performs. -/
theorem performOrdered_leaves {m : Nat} {e : Acc} {op : AtomOp} {v new : W64} {old : Nat} {s3 : State} (he : (getCore s r.core).acc[m]? = some e)
    (hid : e.id = r.id) (hkind : e.kind = .ordered op v new r.flow r.seq true)
    (hbefore : ∀ k e', k < m → (getCore s r.core).acc[k]? = some e' → e'.id ≠ r.id) (hgone : accGone (counted s r) e = false)
    (hheld : ∀ u, e.task = some u → isSuspended (counted s r) u = false) (hat : atomicAt (counted s r) (dieOf r.core) e op v new 0 = .ok (old, s3))
    (hfoot : footHit (counted s r) e.mt e.pa e.n = none) : (performOrdered s r).mem = s3.mem ∧ (performOrdered s r).hostMem = s3.hostMem ∧
      (getCore (performOrdered s r) r.core).flight = (fillFlight (getCore s r.core) e.id e.off (.ok (bytesOf old e.n))).flight ∧
      (getCore (performOrdered s r) r.core).acc = (getCore s r.core).acc.eraseIdx m ∧
      (tabGet (getCore (performOrdered s r) r.core).flow r.flow {}).outstanding = (tabGet (getCore s r.core).flow r.flow {}).outstanding - 1 := by
  obtain ⟨hmem, hhost, l, hcore⟩ := finishAcc_fields { s3 with ports := (counted s r).ports } r.core m e (bytesOf old e.n) (r.flow + 65536 * r.seq.toNat)
  have hcores : getCore { s3 with ports := (counted s r).ports } r.core = getCore (counted s r) r.core := Frames.getCore_congr (atomicAt_writes hat).cores r.core
  rw [hcores, getCore_counted] at hcore
  rw [performOrdered_performs he hid hkind hbefore hgone hheld hat hfoot, hcore]
  refine ⟨hmem, hhost, rfl, rfl, ?_⟩
  exact congrArg Flow.outstanding (tabGet_tabSet_self ..)

end

/-! ## Sealed copies at their far end -/

section
variable {s : State} {core ch : Nat} {flip : W64} {r : RRun}

theorem execScopyFarWrite_good (hrun : (chanOf (getCore s core) ch).run = some r) (hop : r.e.op = .scopy) (hready : r.ready = false)
    (hgood : crc64 r.bytes ^^^ flip = r.crc) :
    ∃ t, execScopyFarWrite core ch flip s = .next t ∧ (chanOf (getCore t core) ch).run = some { r with ready := true } := by
  refine ⟨_, rfl, ?_⟩
  rw [hrun]
  dsimp only
  rw [if_neg (not_or.2 ⟨not_not.2 hop, by rw [hready]; exact Bool.false_ne_true⟩), if_pos hgood]
  split
  · rw [sealReport, (engineOnly_postFor ..).getCore, chanOf_modChan]
  · rw [chanOf_modChan]

theorem execScopyFarWrite_bad (hrun : (chanOf (getCore s core) ch).run = some r) (hop : r.e.op = .scopy) (hready : r.ready = false)
    (hbad : crc64 r.bytes ^^^ flip ≠ r.crc) : ∃ kind unit, execScopyFarWrite core ch flip s = .next
      (if r.tries = 0 then modChan s core ch fun q => { q with run := some { r with tries := 1 } }
        else failSeal s core ch r kind unit r.crc (crc64 r.bytes) (crc64 r.bytes ^^^ flip)) := by
  refine ⟨(farUnit s core r).1, (farUnit s core r).2, congrArg Host.Outcome.next ?_⟩
  rw [hrun]
  dsimp only
  rw [if_neg (not_or.2 ⟨not_not.2 hop, by rw [hready]; exact Bool.false_ne_true⟩), if_neg hbad]

end

/-! ## Collectives -/

section
variable {s : State} {x : Coll}

/-- A collective is not among those being joined. -/
def NotJoining (x : Coll) (s : State) : Prop := ∀ y ∈ s.colls, ¬ (y.ctx = x.ctx ∧ y.group = x.group)

theorem notJoining_dropColl (s : State) (x : Coll) : NotJoining x (dropColl s x) := by
  intro y hy ⟨hctx, hgroup⟩
  have hkept := (List.mem_filter.1 hy).2
  rw [hctx, hgroup] at hkept
  simp at hkept

theorem NotJoining.congr {t : State} (h : NotJoining x s) (hshared : sharedOf t = sharedOf s) : NotJoining x t := by
  have hcolls : t.colls = s.colls := congrArg Prod.fst hshared
  intro y hy
  exact h y (hcolls ▸ hy)

theorem sharedOf_failAll (s : State) (joined : List (Nat × Nat × Nat)) (code cls addr : Nat) : sharedOf (failAll s joined code cls addr) = sharedOf s :=
  sharedOf_foldl _ (fun s j => by
    split
    · exact sharedOf_failRunner ..
    · rfl) s

theorem notJoining_failAll (t : State) (code cls addr : Nat) : NotJoining x (failAll (dropColl t x) x.joined code cls addr) :=
  (notJoining_dropColl t x).congr (sharedOf_failAll ..)

theorem notJoining_killColl (t : State) {l : List W64} (h : l.length ≤ x.joined.length) (cls addr : Nat) : NotJoining x (killColl t x l cls addr) := by
  unfold killColl
  dsimp only
  rw [if_pos ((List.length_filter_le ..).trans h)]
  exact notJoining_failAll (x := x) t 5 cls addr

/-- The running operations of those that have joined. -/
def joinedRuns (s : State) (x : Coll) : List ((Nat × Nat × Nat) × RRun) :=
  x.joined.filterMap fun j => ((chanOf (getCore s j.2.1) j.2.2).run).map fun r => (j, r)

theorem mem_joinedRuns {q : (Nat × Nat × Nat) × RRun} (h : q ∈ joinedRuns s x) : q.1 ∈ x.joined ∧ (chanOf (getCore s q.1.2.1) q.1.2.2).run = some q.2 := by
  obtain ⟨j, hj, hq⟩ := List.mem_filterMap.1 h
  obtain ⟨r, hr, rfl⟩ := Option.map_eq_some_iff.1 hq
  exact ⟨hj, hr⟩

theorem length_joinedRuns (h : ∀ j ∈ x.joined, ((chanOf (getCore s j.2.1) j.2.2).run).isSome = true) : (joinedRuns s x).length = x.joined.length :=
  List.filterMap_length_eq_length.2 fun j hj => by rw [Option.isSome_map]; exact h j hj

/-- The member whose fields lead: that of rank 0, else the first. -/
def leadOf (s : State) (x : Coll) (r0 : RRun) : REntry := (((joinedRuns s x).find? (fun q => q.1.1 == 0)).map (fun q => q.2.e)).getD r0.e

/-- The results given to those that have joined. -/
def givenResults (t : State) (x : Coll) (lead : REntry) (ty : ETy) (cs : List (List Byte)) : State :=
  x.joined.foldl (fun s j => modChan s j.2.1 j.2.2 fun c => { c with
    run := c.run.map (fun r => { r with bytes := collResult lead ty j.1 cs, ready := true }) }) (dropColl t x)

/-- How a collective ends that every member of this device has joined. -/
structure CollEnds (s s1 : State) (x : Coll) (r0 : RRun) (l : List W64) (v : State) : Prop where
  gone : NotJoining x v
  done : ∀ s2 ty cs, lostMember s x l = none → collType (leadOf s x r0) = some ty → collLenOk (leadOf s x r0) ty l.length = true →
    ((joinedRuns s x).all fun q => sameColl q.2.e (leadOf s x r0)) = true →
    contributions s1 x.joined (leadOf s x r0).set.len.toNat (givingRanks (leadOf s x r0) l.length) = (.ok cs, s2) →
    v = givenResults s2 x (leadOf s x r0) ty cs

theorem endColl_ends {s1 : State} {r0 : RRun} {l : List W64} {q : (Nat × Nat × Nat) × RRun} {rest : List ((Nat × Nat × Nat) × RRun)}
    (hruns : joinedRuns s x = q :: rest) (hq : q.2 = r0) (hjoined : (joinedRuns s x).length = x.joined.length) (hgroup : groupOf s r0.e = (.ok l, s1))
    (hlen : l.length ≤ x.joined.length)
    (hreads : ∀ q ∈ joinedRuns s x, ∀ n, readWaits s1 q.1.2.1 q.2.e false (parts q.2.e.set.src.toNat n) = false) :
    CollEnds s s1 x r0 l (endColl s x) := by
  unfold endColl
  dsimp only
  rw [show (x.joined.filterMap fun j => ((chanOf (getCore s j.2.1) j.2.2).run).map fun r => (j, r)) = q :: rest from hruns]
  dsimp only
  rw [hq, hgroup]
  dsimp only
  have hlead : (((q :: rest).find? (fun q => q.1.1 == 0)).map (fun q => q.2.e)).getD r0.e = leadOf s x r0 := by rw [leadOf, hruns]
  have hall : (q :: rest) = joinedRuns s x := hruns.symm
  have hfew : ¬ (joinedRuns s x).length < (l.filter (fun w => w.toNat % 512 == ownDev s)).length := by
    rw [hjoined]
    exact Nat.not_lt.2 ((List.length_filter_le ..).trans hlen)
  rw [hlead, hall]
  have hready : (joinedRuns s x).any (fun q => readWaits s1 q.1.2.1 q.2.e false (parts q.2.e.set.src.toNat (leadOf s x r0).set.len.toNat)) = false :=
    List.any_eq_false.2 fun q hq => by rw [hreads q hq]; exact Bool.false_ne_true
  cases hlost : lostMember s x l with
  | some p =>
    obtain ⟨cls, a⟩ := p
    exact ⟨notJoining_killColl s1 hlen cls a, fun s2 ty cs h => absurd (hlost.symm.trans h) nofun⟩
  | none =>
    dsimp only
    rw [if_neg hfew]
    cases hty : collType (leadOf s x r0) with
    | none => exact ⟨notJoining_failAll s1 7 0 0, fun s2 ty cs _ h => absurd (hty.symm.trans h) nofun⟩
    | some ty =>
      dsimp only
      rw [hready, if_neg Bool.false_ne_true]
      by_cases hbad : ((joinedRuns s x).all fun q => sameColl q.2.e (leadOf s x r0)) = false ∨ collLenOk (leadOf s x r0) ty l.length = false
      · rw [if_pos hbad]
        refine ⟨notJoining_failAll s1 7 0 0, fun s2 ty' cs _ hty' hlenOk hsame _ => ?_⟩
        cases Option.some.inj (hty.symm.trans hty')
        exact hbad.elim (fun h => absurd (h.symm.trans hsame) nofun) fun h => absurd (h.symm.trans hlenOk) nofun
      · rw [if_neg hbad]
        cases hgive : contributions s1 x.joined (leadOf s x r0).set.len.toNat (givingRanks (leadOf s x r0) l.length) with
        | mk res s2 =>
          cases res with
          | error e =>
            obtain ⟨k, code, cls, a⟩ := e
            refine ⟨(notJoining_dropColl s2 x).congr (sharedOf_foldl _ (fun s j => ?_) _), fun s2 ty cs _ _ _ _ h => absurd (hgive.symm.trans h) nofun⟩
            split
            · split
              · exact sharedOf_failRunner ..
              · exact sharedOf_failRunner ..
            · rfl
          | ok cs =>
            refine ⟨(notJoining_dropColl s2 x).congr (sharedOf_foldl _ (fun s j => sharedOf_modCore ..) _), fun s2' ty' cs' _ hty' _ _ h => ?_⟩
            cases Option.some.inj (hty.symm.trans hty')
            cases hgive.symm.trans h
            rfl

/-! Results given. -/

theorem chanOf_modChan_ne (s : State) {core ch i n : Nat} (h : (i, n) ≠ (core, ch)) (f : Chan → Chan) :
    chanOf (getCore (modChan s core ch f) i) n = chanOf (getCore s i) n := by
  by_cases hi : i = core
  · subst hi
    rw [getCore_modChan]
    exact chanOf_tabSet_ne _ (fun hn => h (by rw [hn])) _
  · rw [modChan, getCore_modCore_ne _ _ hi]

/-- Channels changed one by one: those that are named, each once. -/
theorem chanOf_foldl_modChan (f : Nat × Nat × Nat → Chan → Chan) (l : List (Nat × Nat × Nat)) (hl : (l.map fun j => (j.2.1, j.2.2)).Nodup) (s : State) :
    (∀ j ∈ l, chanOf (getCore (l.foldl (fun s j => modChan s j.2.1 j.2.2 (f j)) s) j.2.1) j.2.2 = f j (chanOf (getCore s j.2.1) j.2.2)) ∧
    (∀ i n, (i, n) ∉ l.map (fun j => (j.2.1, j.2.2)) →
      chanOf (getCore (l.foldl (fun s j => modChan s j.2.1 j.2.2 (f j)) s) i) n = chanOf (getCore s i) n) := by
  induction l generalizing s with
  | nil => exact ⟨fun j hj => absurd hj List.not_mem_nil, fun i n _ => rfl⟩
  | cons a r ih =>
    rw [List.map_cons, List.nodup_cons] at hl
    obtain ⟨hin, hout⟩ := ih hl.2 (modChan s a.2.1 a.2.2 (f a))
    rw [List.foldl_cons]
    refine ⟨fun j hj => ?_, fun i n hn => ?_⟩
    · rcases List.mem_cons.1 hj with rfl | hj
      · rw [hout _ _ hl.1, chanOf_modChan]
      · rw [hin j hj, chanOf_modChan_ne]
        exact fun h => hl.1 (h ▸ List.mem_map_of_mem hj)
    · rw [List.map_cons, List.mem_cons, not_or] at hn
      rw [hout _ _ hn.2, chanOf_modChan_ne _ hn.1]

theorem givenResults_run {t : State} {lead : REntry} {ty : ETy} {cs : List (List Byte)} (hcores : t.cores = s.cores)
    (hl : (x.joined.map fun j => (j.2.1, j.2.2)).Nodup) {j : Nat × Nat × Nat} (hj : j ∈ x.joined) {q : RRun}
    (hq : (chanOf (getCore s j.2.1) j.2.2).run = some q) :
    (chanOf (getCore (givenResults t x lead ty cs) j.2.1) j.2.2).run = some { q with bytes := collResult lead ty j.1 cs, ready := true } := by
  have hgiven := (chanOf_foldl_modChan (fun j c => { c with run := c.run.map (fun r => { r with bytes := collResult lead ty j.1 cs, ready := true }) })
    x.joined hl (dropColl t x)).1 j hj
  rw [givenResults, hgiven, Frames.getCore_congr (s := s) (t := dropColl t x) hcores, hq]
  rfl

theorem execCollectiveComplete_ends (h : (s.colls.filter (fun y => y.ctx == x.ctx && y.group == x.group)) = [x]) :
    execCollectiveComplete x.ctx x.group s = .next (endColl s x) := by
  refine congrArg Host.Outcome.next ?_
  rw [← List.head?_filter, h]
  rfl

/-! Two members. -/

/-- An element of a contribution. -/
def elementOf (t : ETy) (l : List Byte) (i : Nat) : Nat := natOfBytes ((l.drop (i * (etyBits t / 8))).take (etyBits t / 8))

theorem collTree_pair (e : REntry) (t : ETy) (a b : List Byte) {f : Nat → Nat → Nat}
    (hf : (match collOp e with | 0 => vSum2 t (collFmt e) | 1 => vPick t false | _ => vPick t true) = f) :
    collTree e t [a, b] = (List.range (e.set.len.toNat / (etyBits t / 8))).flatMap fun i =>
      bytesOf (f (elementOf t a i) (elementOf t b i)) (etyBits t / 8) := by
  have hlevel : ((List.range 64).find? (fun k => decide ([a, b].length ≤ 2 ^ k))).getD 0 = 1 := by
    show ((List.range 64).find? (fun k => decide (2 ≤ 2 ^ k))).getD 0 = 1
    decide
  subst hf
  unfold collTree
  dsimp only
  rw [hlevel]
  rfl

end

/-- Settles O36. -/
theorem farWritesCollectivesAndOrderedAtomics : Obligations.FarWritesCollectivesAndOrderedAtomics := by
  unfold Obligations.FarWritesCollectivesAndOrderedAtomics
  refine ⟨fun s core ch flip r => ?sealed, ⟨fun s s1 x l r0 t hx hone hjoined hne hr0 hgroup hcolls hcores hlen hreads => ?collective,
    fun e t rank a b => ?pair⟩, fun s n r hr => ?ordered⟩
  case sealed =>
    intro c hrun hop hready good
    refine ⟨fun hgood => ?_, fun hbad htries => ?_, fun hbad htries hu htok => ?_⟩
    · obtain ⟨t, hexec, ht⟩ := execScopyFarWrite_good hrun hop hready hgood
      exact ⟨t, show execScopyFarWrite core ch flip s = _ from hexec, ht⟩
    · obtain ⟨kind, unit, hexec⟩ := execScopyFarWrite_bad hrun hop hready hbad
      rw [if_pos htries] at hexec
      exact show execScopyFarWrite core ch flip s = _ from hexec
    · obtain ⟨kind, unit, hexec⟩ := execScopyFarWrite_bad hrun hop hready hbad
      rw [if_neg htries] at hexec
      have hended := failSeal_ends (ch := ch) hu kind unit r.crc (crc64 r.bytes) (crc64 r.bytes ^^^ flip)
      exact ⟨_, show execScopyFarWrite core ch flip s = _ from hexec, hended.run, hended.tok htok, hended.mem⟩
  case collective =>
    obtain ⟨j, rest, hlist⟩ := List.exists_cons_of_ne_nil hne
    have hrun0 : (chanOf (getCore s j.2.1) j.2.2).run = some r0 := by
      rw [hlist] at hr0
      exact hr0
    have hruns : joinedRuns s x = (j, r0) :: rest.filterMap fun j => ((chanOf (getCore s j.2.1) j.2.2).run).map fun r => (j, r) := by
      rw [joinedRuns, hlist, List.filterMap_cons, hrun0]
      rfl
    have hends := endColl_ends hruns rfl (length_joinedRuns hjoined) hgroup hlen fun q hq n => hreads q.1 (mem_joinedRuns hq).1 q.2 n (mem_joinedRuns hq).2
    refine ⟨_, show execCollectiveComplete x.ctx x.group s = _ from execCollectiveComplete_ends hone, hends.gone,
      fun s2 lead cs hlost hlead hty hlenOk hsame hgive hcores2 hcolls2 hnodup j' hj' q hq => ?_⟩
    have hleadOf : leadOf s x r0 = lead := by
      rw [hlead, leadOf, joinedRuns]
      generalize List.find? _ _ = first
      cases first <;> rfl
    rw [← hleadOf] at hty hlenOk hgive hsame ⊢
    rw [hends.done s2 t cs hlost hty hlenOk (List.all_eq_true.2 fun q hq => hsame q.1 (mem_joinedRuns hq).1 q.2 (mem_joinedRuns hq).2) hgive]
    exact givenResults_run hcores2 hnodup hj' hq
  case pair =>
    intro sz x each
    refine ⟨fun hkind hop => ?_, fun hkind hop => ?_, fun hkind hop => ?_, fun hkind => ?_, fun hkind => ?_⟩
    · rw [collResult, hkind]
      exact collTree_pair e t a b (by rw [hop] <;> rfl)
    · rw [collResult, hkind]
      exact collTree_pair e t a b (by rw [hop] <;> rfl)
    · rw [collResult, hkind]
      exact collTree_pair e t a b (by rw [hop] <;> rfl)
    · rw [collResult, hkind]
      exact congrArg (a ++ ·) (List.append_nil b)
    · rw [collResult, hkind]
      rfl
  case ordered =>
    intro key due mark used told
    have hrequest : ∀ {v : State}, r.backoff = false → r.buffered = false → orderedArrive s r = v → exec (.orderedAtomicRequest n) s = .next v :=
      fun hback hbuf h => show execOrderedAtomicRequest n s = _ from (execOrderedAtomicRequest_arrives hr hback hbuf).trans (congrArg _ h)
    refine ⟨fun hback hbuf hturn => hrequest hback hbuf (orderedArrive_performs hturn), fun hback hbuf => ?_, fun k h => performBuffered_due h k,
      fun k h => performBuffered_none h k, performBuffered_quiet 32 s, ?_, fun hbuf hback hstart hturn hused => ?_, fun hbuf hback hstart hturn hused => ?_,
      fun hback => ?_, fun hback => ?_, fun hback => ?_⟩
    · refine show execOrderedAtomicRequest n s = _ from congrArg Host.Outcome.next ?_
      rw [hr]
      dsimp only
      rw [if_neg (by rw [hback]; exact Bool.false_ne_true), if_pos hbuf]
    · intro t
      refine ⟨?_, fun k hk => ?_, performOrdered_oreqs s r, fun m e op v new he hid hkind hbefore => ?_⟩
      · exact (congrArg (fun x => tabGet x (key r) 0) (performOrdered_expect s r)).trans (tabGet_tabSet_self ..)
      · exact (congrArg (fun x => tabGet x k 0) (performOrdered_expect s r)).trans ((tabGet_tabSet ..).trans (if_neg hk))
      · intro w s2 hgone hheld old s3 hat hfoot
        have hs2 : s2 = counted s r := by
          show modCore { s with expect := (performOrdered s r).expect, oreqs := (performOrdered s r).oreqs } r.core _ = _
          rw [performOrdered_oreqs, performOrdered_expect]
          rfl
        rw [hs2] at hgone hheld hat hfoot
        cases hres : atomicAt (counted s r) (dieOf r.core) e op v new 0 with
        | error c => rw [hres] at hat; exact absurd hat nofun
        | ok p =>
          rw [hres] at hat
          cases hat
          exact performOrdered_leaves he hid hkind hbefore hgone hheld hres hfoot
    · refine hrequest hback hbuf ((orderedArrive_waits hstart hturn).trans ?_)
      simp only [if_pos (show (s.oreqs.filter (fun x => x.buffered && x.slice == r.slice)).length < 32 from hused)]
    · refine hrequest hback hbuf ((orderedArrive_waits hstart hturn).trans ?_)
      simp only [if_neg (show ¬ (s.oreqs.filter (fun x => x.buffered && x.slice == r.slice)).length < 32 from Nat.not_lt.2 hused)]
    · refine show execOrderedAtomicResend n s = _ from congrArg Host.Outcome.next ?_
      rw [hr]
      exact if_pos hback
    · refine show execOrderedAtomicResend n s = _ from congrArg Host.Outcome.next ?_
      rw [hr]
      exact if_neg (by rw [hback]; exact Bool.false_ne_true)
    · refine show execOrderedAtomicRequest n s = _ from congrArg Host.Outcome.next ?_
      rw [hr]
      exact if_pos hback

end Sys2Proof.FarEnds

/-! SUPPORT. A held store outside the gang of its task. Used for O45. -/
namespace Sys2Proof.Stoker

open Sys2Proof Sys2Proof.Machine Sys2Proof.Laws

/-- A task whose gang is core 0 alone, which holds rows for tile 0 of core 1. -/
def strayTask : Task :=
  { launch := 0, idx := 0, ctx := 0, hearth := 0, size := 1, first := 0, part := 0, qstart := 0, banks := 0, slot := 0
    held := [{ core := 1, tile := some 0, rows := [] }] }

/-- A device on which core 1, outside that gang, stands under the task too, with a tile in flight. -/
def strayState : State :=
  { tasks := [(0, strayTask)]
    cores := [(0, { task := some 0, halted := false }), (1, { task := some 0, mu := { tiles := [(0, { inflight := true })] } })] }

/-- Whether tile 0 of core 1 is in flight. -/
def strayInflight (s : State) : Bool := (getCore s 1).mu.tiles.any (fun x => x.2.inflight)

/-- Fettling discards the held rows and so takes tile 0 of core 1 out of flight. -/
theorem fettleTask_clears_strayInflight : strayInflight (fettleTask strayState 0) = false := by decide

/-- Refutes O45, in the last clause of (4) on fettling: a held store need not name a core of its task's gang, and fettling takes the tile it names out
of flight, so a core outside the gang changes. -/
theorem not_stokerFramesAndAging : ¬ Obligations.StokerFramesAndAging := by
  unfold Obligations.StokerFramesAndAging
  rintro ⟨-, -, -, -, -, -, -, -, -, -, -, -, fettle, -, -⟩
  obtain ⟨-, -, others, -, -⟩ := fettle strayState 0 0 strayTask rfl rfl rfl rfl rfl rfl rfl (by decide)
  have kept : strayInflight (fettleTask strayState 0) = strayInflight strayState :=
    congrArg (fun c : Core => c.mu.tiles.any (fun x => x.2.inflight)) (others 1 (by decide))
  rw [fettleTask_clears_strayInflight] at kept
  exact absurd kept (by decide)

end Sys2Proof.Stoker

/-! SUPPORT. The forms in which the model builds states. Used for O59. -/
namespace Sys2Proof.Canonical
open Sys2Proof Sys2Proof.Machine Sys2Proof.Laws
variable {s : State}

theorem memOk_foldl {α : Type} {f : State → α → State} (hf : ∀ s a, MemOk s → MemOk (f s a)) (l : List α) (h : MemOk s) : MemOk (l.foldl f s) :=
  foldl_keeps (P := MemOk) hf l h

theorem memOk_ite {p : Prop} {_ : Decidable p} {t : State} (ht : MemOk t) (h : MemOk s) : MemOk (if p then t else s) := by
  split
  · exact ht
  · exact h

theorem memOk_mk (h : MemOk s) (agenda : List Move) (cur tick : Nat) (cores : Tab Core) (hearths : Tab Hearth) (dies : Tab Die) (eccBad : List BadWord)
    (ats : List (Nat × Nat × Nat)) (ctxs : Tab Ctx) (ctxBlock : CtxBlock) (queues : Tab Queue) (launches : Tab Launch) (tasks : Tab Task) (nextUid : Nat)
    (turns : List (Nat × Nat)) (shape : ShapeHome) (oreqs : List OReq) (expect : Tab (BitVec 16)) (colls : List Coll) (ports : Tab Port)
    (cxlCap : Tab Nat) (cxlRemoved : List Nat) (hostUp : BitVec 2) (ring : Ring) (reports : List Report) (recovery : Recovery) (boot : Boot) (spdm : Spdm)
    (unreachable : List Nat) (faults : List EngineFault) :
    MemOk { agenda, cur, tick, cores, hearths, dies, mem := s.mem, hostMem := s.hostMem, eccBad, ats, ctxs, ctxBlock, queues, launches, tasks, nextUid
            turns, shape, oreqs, expect, colls, ports, cxlCap, cxlRemoved, hostUp, ring, reports, recovery, boot, spdm, unreachable, faults } := h

/-- An outcome whose state, if it has one, has canonical memories. -/
structure OutOk (o : Out) : Prop where
  memOk : ∀ t, o = .next t → MemOk t

theorem outOk_next (h : MemOk s) : OutOk (.next s) where
  memOk t ht := by
    cases ht
    exact h

end Sys2Proof.Canonical

/-! SUPPORT. Canonical memories under operations on the state, on memory and on operands. Used for O59. -/
namespace Sys2Proof.Canonical

open Sys2Proof Sys2Proof.Machine Sys2Proof.Laws

variable {s : State}

/-! ## Ops -/

theorem memOk_setCore (h : MemOk s) (c : Nat) (x : Core) : MemOk (setCore s c x) := h

theorem memOk_modCore (h : MemOk s) (c : Nat) (f : Core → Core) : MemOk (modCore s c f) := h

theorem memOk_modMe (h : MemOk s) (f : Core → Core) : MemOk (modMe s f) := h

theorem memOk_modHearth (h : MemOk s) (hx : Nat) (f : Hearth → Hearth) : MemOk (modHearth s hx f) := h

theorem memOk_modDie (h : MemOk s) (d : Nat) (f : Die → Die) : MemOk (modDie s d f) := h

theorem memOk_modCtx (h : MemOk s) (c : Nat) (f : Ctx → Ctx) : MemOk (modCtx s c f) := h

theorem memOk_modLaunch (h : MemOk s) (u : Nat) (f : Launch → Launch) : MemOk (modLaunch s u f) := by
  unfold modLaunch
  grind [memOk_mk]

theorem memOk_emit (h : MemOk s) (bound : Nat) (l : List Land) : MemOk (emit s bound l) := h

theorem memOk_emit1 (h : MemOk s) (bound : Nat) (l : Land) : MemOk (emit1 s bound l) := h

theorem outOk_guarded (h : MemOk s) (g : BitVec 4) (f : State → State) (hf : ∀ s, MemOk s → MemOk (f s)) : OutOk (guarded s g f) := by
  unfold guarded
  grind [outOk_next]

theorem memOk_launchError (h : MemOk s) (l : Nat) (e : ErrInfo) : MemOk (launchError s l e) := by
  unfold launchError
  grind [memOk_modLaunch]

theorem memOk_noteAccess (h : MemOk s) (u : Nat) (e : ErrInfo) : MemOk (noteAccess s u e) := by
  unfold noteAccess
  grind [memOk_launchError]

theorem memOk_noteDispute (h : MemOk s) (u : Nat) (e : ErrInfo) : MemOk (noteDispute s u e) := by
  unfold noteDispute
  grind [memOk_modLaunch]

theorem memOk_postFor (h : MemOk s) (u : Nat) (r : Report) : MemOk (postFor s u r) := by
  unfold postFor
  grind [memOk_modTask, memOk_post]

theorem memOk_finishReturn (h : MemOk s) (core : Nat) (skip : Bool) : MemOk (finishReturn s core skip) := h

theorem memOk_tryReturn (h : MemOk s) (core : Nat) : MemOk (tryReturn s core) := by
  unfold tryReturn
  grind [memOk_finishReturn]


/-! ## Memory -/

theorem memOk_packetOut (h : MemOk s) (d pa : Nat) (w : List (Nat × Byte)) : MemOk (packetOut s d pa w) := by
  unfold packetOut
  grind [memOk_mk]

theorem memOk_sendPacket (h : MemOk s) (d pa : Nat) (b : List Byte) : MemOk (sendPacket s d pa b) := by
  unfold sendPacket
  grind [memOk_packetOut]

theorem memOk_sendRequest (h : MemOk s) (d mt pa : Nat) : MemOk (sendRequest s d mt pa) := by
  unfold sendRequest
  grind [memOk_packetOut]

theorem memOk_takeLine (h : MemOk s) (die mt pa : Nat) : MemOk (takeLine s die mt pa) := by
  unfold takeLine
  grind [memOk_mk, memOk_modDie]

theorem memOk_shareLine (h : MemOk s) (die mt pa : Nat) : MemOk (shareLine s die mt pa) := by
  unfold shareLine
  grind [memOk_mk, memOk_modDie]

theorem memOk_readCached (h : MemOk s) (die mt pa n : Nat) : MemOk (readCached s die mt pa n).2 := by
  unfold readCached
  grind [memOk_modDie, memOk_sendRequest, memOk_shareLine]

theorem memOk_readLine (h : MemOk s) (die mt pa : Nat) : MemOk (readLine s die mt pa).2 := by
  unfold readLine
  have h1 : ∀ (l : List Nat) (a : Except Nat (List Byte) × State), MemOk a.2 → MemOk (l.foldl (fun a o => match a.1 with
      | .error c => (.error c, a.2)
      | .ok l =>
        match readCached a.2 die mt (pa + o) 32 with
        | (.ok b, t) => (.ok (l ++ b), t)
        | (.error c, t) => (.error c, t)) a).2 := by
    intro l
    induction l with
    | nil => exact fun _ ha => ha
    | cons o l ih =>
      intro a ha
      refine ih _ ?_
      grind [memOk_readCached]
  exact h1 _ _ h

theorem memOk_dropCopies (h : MemOk s) (die : Nat) : MemOk (dropCopies s die) := h

theorem memOk_noteWalk (h : MemOk s) (hearth ctx va : Nat) (w : W64) (bits : Nat) : MemOk (noteWalk s hearth ctx va w bits) := h

theorem memOk_noteHost (h : MemOk s) (hearth ctx va : Nat) : MemOk (noteHost s hearth ctx va) := by
  unfold noteHost
  grind [memOk_keepAts]

theorem memOk_modTaskCore (h : MemOk s) (core : Nat) (task : Option Nat) (f : Core → Core) : MemOk (modTaskCore s core task f) := by
  unfold modTaskCore
  grind [memOk_modCore, memOk_modTask]

theorem memOk_accessError (h : MemOk s) (core : Nat) (task : Option Nat) (load : Bool) (cls pa d0 d2 : Nat) :
    MemOk (accessError s core task load cls pa d0 d2) := by
  unfold accessError
  grind [memOk_keepImage, memOk_modTaskCore, memOk_noteAccess, memOk_postAccess]

theorem memOk_readSeen (h : MemOk s) (core mt pa n : Nat) : MemOk (readSeen s core mt pa n).2.2 := by
  unfold readSeen
  grind [memOk_readCached]

theorem memOk_noteSent (h : MemOk s) (s1 : State) (core : Nat) (task : Option Nat) (mt pa : Nat) (kind : SentKind) (pos : Nat) (hs1 : MemOk s1) :
    MemOk (noteSent s s1 core task mt pa kind pos) := by
  unfold noteSent
  grind [memOk_mk]

theorem memOk_oweFor (h : MemOk s) (core : Nat) (e : Acc) : MemOk (oweFor s core e) := by
  unfold oweFor
  grind [memOk_modCore]

theorem memOk_showStore (h : MemOk s) (core n : Nat) : MemOk (showStore s core n) := by
  unfold showStore
  grind [memOk_oweFor, memOk_modCore]

theorem memOk_freshFor (h : MemOk s) (core : Nat) (task : Option Nat) (no : Nat) : MemOk (freshFor s core task no) := by
  unfold freshFor
  grind [memOk_dropCopies]

theorem memOk_settleDebts (h : MemOk s) : MemOk (settleDebts s) := by
  unfold settleDebts
  grind [memOk_mk]


/-! ## Operands -/

theorem memOk_holdFor (h : MemOk s) (hx : Hold) : MemOk (holdFor s hx) := h

theorem outOk_needBanks (h : MemOk s) (files : List Nat) (k : State → Out) (hk : ∀ s, MemOk s → OutOk (k s)) : OutOk (needBanks s files k) := by
  unfold needBanks
  grind [outOk_next, memOk_holdFor]

theorem outOk_typeTrap (h : MemOk s) (u : BitVec 4) (code : Nat) : OutOk (typeTrap s u code) := by
  unfold typeTrap
  grind [outOk_next, memOk_slotTrap]

theorem outOk_vOp (h : MemOk s) (u : BitVec 4) (extra : List Nat) (ok : ETy → Bool) (k : ETy → State → State) (hk : ∀ a s, MemOk s → MemOk (k a s)) :
    OutOk (vOp u extra ok s k) := by
  unfold vOp
  grind [outOk_next, outOk_needBanks, outOk_typeTrap]

end Sys2Proof.Canonical

/-! SUPPORT. Canonical memories under scalar, vector, special and L-slot instructions. Used for O59. -/
namespace Sys2Proof.Canonical

open Sys2Proof Sys2Proof.Machine Sys2Proof.Laws

variable {s : State}

/-! ## Scalar -/

theorem outOk_sBinary (h : MemOk s) (o : SROp) (bound : Nat) (f : W64 → W64 → W64) : OutOk (sBinary o bound f s) := by
  unfold sBinary
  grind [outOk_next, memOk_emit1, outOk_guarded]

theorem outOk_sUnary (h : MemOk s) (o : SROp) (f : W64 → W64) : OutOk (sUnary o f s) := by
  unfold sUnary
  grind [outOk_next, memOk_emit1, outOk_guarded]

theorem outOk_sImm (h : MemOk s) (o : SIOp) (bound : Nat) (f : W64 → W64 → W64) : OutOk (sImm o bound f s) := by
  unfold sImm
  grind [outOk_next, memOk_emit1, outOk_guarded]

theorem outOk_sCompare (h : MemOk s) (o : SROp) (p : W64 → W64 → Bool) : OutOk (sCompare o p s) := by
  unfold sCompare
  grind [outOk_next, memOk_emit, outOk_guarded]

theorem outOk_sCompareI (h : MemOk s) (o : SIOp) (p : W64 → W64 → Bool) : OutOk (sCompareI o p s) := by
  unfold sCompareI
  grind [outOk_next, memOk_emit, outOk_guarded]

theorem outOk_sPred (h : MemOk s) (o : SROp) (p : Bool → Bool → Bool) : OutOk (sPred o p s) := by
  unfold sPred
  grind [outOk_next, memOk_emit, outOk_guarded]

theorem outOk_execAddc (h : MemOk s) (o : SROp) : OutOk (execAddc o s) := by
  unfold execAddc
  grind [outOk_next, memOk_emit]

theorem outOk_execSubb (h : MemOk s) (o : SROp) : OutOk (execSubb o s) := by
  unfold execSubb
  grind [outOk_next, memOk_emit]

theorem outOk_execMovx (h : MemOk s) (o : SROp) : OutOk (execMovx o s) := by
  unfold execMovx
  grind [outOk_next, memOk_emit1, outOk_needBanks]

theorem outOk_execGuard (h : MemOk s) (o : SROp) : OutOk (execGuard o s) := by
  unfold execGuard
  grind [outOk_next, outOk_guarded, memOk_slotTrap]


/-! ## Vector -/

theorem outOk_vMap (h : MemOk s) (o : VOp) (bound : ETy → Nat) (ok : ETy → Bool) (f : ETy → W32 → Nat → Nat → Nat → Nat) :
    OutOk (vMap o bound ok f s) := by
  unfold vMap
  grind [outOk_next, memOk_emit1, outOk_vOp]

theorem outOk_vFused (h : MemOk s) (o : VOp) (fl : BitVec 2 → Ex → Ex → Ex → Ex) (ig : Int → Int → Int → Int) : OutOk (vFused o fl ig s) := by
  unfold vFused
  grind [outOk_next, outOk_vMap]

theorem outOk_vCompare (h : MemOk s) (o : VOp) (ok : ETy → Bool) (c : ETy → Nat → Nat → Bool) : OutOk (vCompare o ok c s) := by
  unfold vCompare
  grind [outOk_next, memOk_emit, outOk_vOp]

theorem outOk_vShiftOp (h : MemOk s) (o : VOp) (kind : Nat) (imm : Bool) : OutOk (vShiftOp o kind imm s) := by
  unfold vShiftOp
  grind [outOk_next, outOk_vMap]

theorem outOk_vCarry (h : MemOk s) (o : VOp) (f : Nat → Nat → Nat → Nat → Nat × Bool) : OutOk (vCarry o f s) := by
  unfold vCarry
  grind [outOk_next, memOk_emit, outOk_vOp]

theorem outOk_vReduce (h : MemOk s) (o : VOp) (kind : Nat) (comb : ETy → W32 → Nat → Nat → Nat) : OutOk (vReduce o kind comb s) := by
  unfold vReduce
  grind [outOk_next, memOk_emit1, outOk_vOp]

theorem outOk_kOp (h : MemOk s) (o : VOp) (f : W128 → W128 → W128) : OutOk (kOp o f s) := by
  unfold kOp
  grind [outOk_next, memOk_emit1, outOk_vOp]

theorem outOk_kCount (h : MemOk s) (o : VOp) (f : Nat → Nat → Nat) : OutOk (kCount o f s) := by
  unfold kCount
  grind [outOk_next, memOk_emit1, outOk_vOp]

theorem outOk_execVext (h : MemOk s) (o : VOp) : OutOk (execVext o s) := by
  unfold execVext
  grind [outOk_vOp, memOk_emit1]


/-! ## Special -/

theorem outOk_fTrans (h : MemOk s) (o : FOp) (fn : Fn) : OutOk (fTrans o fn s) := by
  unfold fTrans
  grind [outOk_next, memOk_emit1, outOk_guarded, memOk_slotTrap]

theorem outOk_execFmovx (h : MemOk s) (o : FOp) : OutOk (execFmovx o s) := by
  unfold execFmovx
  grind [outOk_next, memOk_emit1, outOk_needBanks]

theorem outOk_dOp (h : MemOk s) (o : FOp) (bound : Nat) (f : State → Core → BitVec 2 → Bool → Land) : OutOk (dOp o bound f s) := by
  unfold dOp
  grind [outOk_next, memOk_emit1, outOk_guarded]

theorem outOk_dBinary (h : MemOk s) (o : FOp) (op : BitVec 2 → Ex → Ex → Ex) : OutOk (dBinary o op s) := by
  unfold dBinary
  grind [outOk_next, outOk_dOp]

theorem outOk_dUnary (h : MemOk s) (o : FOp) (bound : Nat) (f : State →   Core → BitVec 2 → Bool → Nat → List Point → List Point) :
    OutOk (dUnary o bound f s) := by
  unfold dUnary
  grind [outOk_next, outOk_dOp]

theorem outOk_dRead (h : MemOk s) (o : FOp) (off : Nat) (f : State → Core → BitVec 2 → Bool → Nat → List Point → Nat) : OutOk (dRead o off f s) := by
  unfold dRead
  grind [outOk_next, outOk_dOp]


/-! ## LoadStore -/

theorem memOk_touchAll (h : MemOk s) (l : List Placed) : MemOk (touchAll s l) := by
  unfold touchAll
  grind [memOk_foldl, memOk_noteHost, memOk_touchBlock]

theorem memOk_noteHit (h : MemOk s) (l : List (Nat × Nat × Nat)) : MemOk (noteHit s l) := by
  unfold noteHit
  grind [memOk_modMe]

theorem memOk_withAccess (h : MemOk s) (u : BitVec 4) (need : Need) (l : List (Nat × Nat × Nat)) {k : State → List Placed → State}
    (hk : ∀ s p, MemOk s → MemOk (k s p)) : MemOk (withAccess s u need l k) := by
  unfold withAccess
  grind [memOk_holdFor, memOk_noteHit, memOk_slotTrap, memOk_touchAll]

theorem memOk_blockFor (h : MemOk s) (w : Wait) : MemOk (blockFor s w) := h

theorem memOk_issueLoad (h : MemOk s) (bound : Nat) (dest : LoadDest) (acq : Option Nat) (l : List Placed) : MemOk (issueLoad s bound dest acq l) := h

theorem memOk_invalidateAt (h : MemOk s) (l : List Placed) : MemOk (invalidateAt s l) := by
  unfold invalidateAt
  grind [memOk_foldl, memOk_modDie]

theorem memOk_issueStore (h : MemOk s) (rel : Option Nat) (data : List Byte) (l : List Placed) : MemOk (issueStore s rel data l) := by
  unfold issueStore
  grind [memOk_blockFor, memOk_invalidateAt, memOk_modMe, memOk_modTask]

theorem outOk_lLoad (h : MemOk s) (o : LOp) (size : Nat) (ea : State → Nat) (dest : Core → LoadDest) (acq : Option Nat) :
    OutOk (lLoad o size ea dest acq s) := by
  unfold lLoad
  grind [outOk_next, memOk_issueLoad, outOk_needBanks, memOk_withAccess]

theorem outOk_lScalar (h : MemOk s) (o : LOp) (size : Nat) (signed : Bool) (ea : State → Nat) : OutOk (lScalar o size signed ea s) := by
  unfold lScalar
  grind [outOk_next, outOk_lLoad]

theorem outOk_lStore (h : MemOk s) (o : LOp) (size : Nat) (ea src : State → Nat) (rel : Option Nat) : OutOk (lStore o size ea src rel s) := by
  unfold lStore
  grind [outOk_next, memOk_issueStore, outOk_needBanks, memOk_withAccess]

theorem outOk_aligned (h : MemOk s) (u : BitVec 4) (ea size : Nat) (k : State → Out) (hk : ∀ s, MemOk s → OutOk (k s)) :
    OutOk (aligned s u ea size k) := by
  unfold aligned
  grind [outOk_next, memOk_slotTrap]

theorem outOk_gatherOp (h : MemOk s) (o : LOp) (k : Nat → List (Nat × Nat) → State → State) (hk : ∀ a b s, MemOk s → MemOk (k a b s)) :
    OutOk (gatherOp o s k) := by
  unfold gatherOp
  grind [outOk_next, outOk_needBanks, memOk_slotTrap]

theorem outOk_execVgather (h : MemOk s) (o : LOp) : OutOk (execVgather o s) := by
  unfold execVgather
  grind [outOk_next, outOk_gatherOp, memOk_issueLoad, memOk_withAccess]

theorem outOk_execVscatter (h : MemOk s) (o : LOp) : OutOk (execVscatter o s) := by
  unfold execVscatter
  grind [outOk_next, outOk_gatherOp, memOk_issueStore, memOk_withAccess]

theorem outOk_lAcquire (h : MemOk s) (o : LOp) (size : Nat) (signed : Bool) : OutOk (lAcquire o size signed s) := by
  unfold lAcquire
  grind [outOk_next, outOk_aligned, outOk_lLoad]

theorem outOk_lRelease (h : MemOk s) (o : LOp) (size : Nat) : OutOk (lRelease o size s) := by
  unfold lRelease
  grind [outOk_next, outOk_aligned, outOk_lStore]

theorem memOk_issueMarker (h : MemOk s) (k : AccKind) : MemOk (issueMarker s k) := h

theorem outOk_execFence (h : MemOk s) (o : FenceOp) : OutOk (execFence o s) := by
  unfold execFence
  grind [outOk_next, memOk_blockFor, outOk_guarded, memOk_issueMarker]

theorem outOk_execDrain (h : MemOk s) (o : LOp) : OutOk (execDrain o s) := by
  unfold execDrain
  grind [outOk_next, memOk_blockFor, outOk_guarded, memOk_issueMarker]

theorem outOk_execPref (h : MemOk s) (o : LOp) : OutOk (execPref o s) := by
  unfold execPref
  grind [outOk_next, outOk_guarded, memOk_readLine]

theorem memOk_issueAtomic (h : MemOk s) (o : LOp) (size : Nat) (ro : Bool) (kind : AccKind) (scope : Option Nat) (l : List Placed) :
    MemOk (issueAtomic s o size ro kind scope l) := by
  unfold issueAtomic
  grind [memOk_invalidateAt, memOk_modMe]

theorem outOk_lAtomic (h : MemOk s) (o : LOp) (size : Nat) (op : AtomOp) : OutOk (lAtomic o size op s) := by
  unfold lAtomic
  grind [outOk_next, outOk_aligned, memOk_blockFor, memOk_issueAtomic, memOk_withAccess]

theorem outOk_lOrdered (h : MemOk s) (o : LOp) (op : AtomOp) : OutOk (lOrdered o op s) := by
  unfold lOrdered
  grind [outOk_next, outOk_aligned, memOk_blockFor, memOk_issueAtomic, memOk_modMe, memOk_withAccess]

theorem memOk_atomicAt (h : MemOk s) {die : Nat} {e : Acc} {op : AtomOp} {v new : W64} {fmt : W32} {old : Nat} {t : State}
    (hr : atomicAt s die e op v new fmt = .ok (old, t)) : MemOk t := by
  unfold atomicAt at hr
  split at hr
  · cases hr
  · dsimp only at hr
    split at hr
    · cases hr
      exact memOk_writePa h ‹_›
    · cases hr

theorem memOk_finishAcc (h : MemOk s) (core n : Nat) (e : Acc) (ro : Bool) (r : Except Nat (List Byte)) (d2 : Nat) :
    MemOk (finishAcc s core n e ro r d2) := by
  unfold finishAcc
  grind [memOk_accessError, memOk_modCore, memOk_oweFor, memOk_settleDebts]

theorem memOk_refuseAcc (h : MemOk s) (core n : Nat) (e : Acc) (ro : Bool) (i d2 : Nat) : MemOk (refuseAcc s core n e ro i d2) := by
  unfold refuseAcc
  grind [memOk_finishAcc, memOk_modCore, memOk_modTaskCore, memOk_settleDebts]

theorem memOk_performLoad (h : MemOk s) (core n : Nat) (e : Acc) : MemOk (performLoad s core n e) := by
  unfold performLoad
  grind [memOk_finishAcc, memOk_modCore, memOk_readSeen]

theorem memOk_performAcc (h : MemOk s) (core n : Nat) : MemOk (performAcc s core n) := by
  unfold performAcc
  grind [memOk_mk, → memOk_atomicAt, memOk_dropCopies, memOk_finishAcc, memOk_modCore, memOk_noteSent, memOk_performLoad, memOk_refuseAcc,
    memOk_sendRequest, → memOk_writePa]

end Sys2Proof.Canonical

/-! SUPPORT. Canonical memories under the engines, the matrix units and the runners. Used for O59. -/
namespace Sys2Proof.Canonical

open Sys2Proof Sys2Proof.Machine Sys2Proof.Laws

variable {s : State}

/-! ## Engine -/

theorem memOk_askParts (h : MemOk s) (die : Nat) (l : List Placed) : MemOk (askParts s die l) := by
  unfold askParts
  grind [memOk_foldl, memOk_sendRequest, memOk_shareLine]

theorem memOk_noteImage (h : MemOk s) (t : Task) (off n : Nat) : MemOk (noteImage s t off n) := by
  unfold noteImage
  grind [memOk_askParts, memOk_noteHosts]

theorem memOk_claimBlock (h : MemOk s) (hearth block : Nat) : MemOk (claimBlock s hearth block) := by
  unfold claimBlock
  grind [memOk_modHearth, memOk_modTask, memOk_saveImage, memOk_zeroBlock]

theorem memOk_claimBank (h : MemOk s) (core key : Nat) : MemOk (claimBank s core key) := by
  unfold claimBank
  grind [memOk_modCore, memOk_modTask, memOk_saveImage]

theorem memOk_claimTile (h : MemOk s) (u core tile : Nat) : MemOk (claimTile s u core tile) := by
  unfold claimTile
  grind [memOk_foldl, memOk_modTask, memOk_saveImage]

theorem memOk_touchFor (h : MemOk s) (w : Who) (l : List Placed) : MemOk (touchFor s w l) := by
  unfold touchFor
  grind [memOk_foldl, memOk_claimBlock, memOk_noteHost, memOk_touchBlock]

theorem memOk_rehome (h : MemOk s) (u : Nat) (p : Placed) : MemOk (rehome s u p).1 := by
  unfold rehome
  split
  · exact h
  split
  · exact h
  dsimp only
  split
  all_goals
    split
    · exact memOk_touchBlock h _ _ _
    · split
      · refine memOk_ite (memOk_noteHost ?_ _ _ _) ?_ <;> exact memOk_ite h (memOk_modTask (memOk_saveImage h _ _ _ _ _) _ _)
      · exact memOk_postWalk (memOk_ite h (memOk_modTask (memOk_saveImage h _ _ _ _ _) _ _)) _ _ _ _

theorem memOk_rehomeAcc (h : MemOk s) (core n : Nat) (e : Acc) : MemOk (rehomeAcc s core n e).1 := by
  unfold rehomeAcc
  grind [memOk_modCore, memOk_rehome]

theorem memOk_rehomeAll (h : MemOk s) (u : Nat) (l : List Placed) : MemOk (rehomeAll s u l).1 := by
  induction l generalizing s with
  | nil => exact h
  | cons p r ih =>
    unfold rehomeAll
    grind [memOk_rehome]

theorem memOk_reach (h : MemOk s) (w : Who) (u : Nat) (l : List Placed) : MemOk (reach s w u l).1 := by
  unfold reach
  grind [memOk_rehomeAll, memOk_touchFor]

theorem memOk_reachFor (h : MemOk s) (w : Who) (l : List Placed) : MemOk (reachFor s w l).1 := by
  unfold reachFor
  grind [memOk_reach, memOk_touchFor]

theorem memOk_engRead (h : MemOk s) (w : Who) (need : Need) (va n : Nat) : MemOk (engRead s w need va n).2 := by
  unfold engRead
  grind [memOk_askParts, memOk_reachFor]

theorem memOk_engWrite (h : MemOk s) (w : Who) (va : Nat) (b : List Byte) : MemOk (engWrite s w va b).1 := by
  unfold engWrite
  grind [memOk_reachFor, memOk_writeParts]

theorem memOk_setTok (h : MemOk s) (core n : Nat) (k : Tok) : MemOk (setTok s core n k) := by
  unfold setTok
  grind [memOk_modCore]

theorem memOk_abandonAt (h : MemOk s) (core tile : Nat) : MemOk (abandonAt s core tile) := h

theorem memOk_abandonAll (h : MemOk s) (core : Nat) : MemOk (abandonAll s core) := by
  unfold abandonAll
  grind [memOk_foldl, memOk_abandonAt]

theorem memOk_dropState (h : MemOk s) (u : Nat) (t : Task) : MemOk (dropState s u t) := by
  unfold dropState
  grind [memOk_foldl, memOk_modCore, memOk_modHearth]

theorem memOk_abandonSaved (h : MemOk s) (t : Task) : MemOk (abandonSaved s t) := by
  unfold abandonSaved
  grind [memOk_foldl, memOk_modCore]

theorem memOk_leaveSlot (h : MemOk s) (t : Task) : MemOk (leaveSlot s t) := h

theorem memOk_endUnits (h : MemOk s) (u : Nat) (t : Task) : MemOk (endUnits s u t) := by
  unfold endUnits
  grind [memOk_abandonSaved, memOk_dropState, memOk_leaveSlot, memOk_modTask]

theorem memOk_settleTask (h : MemOk s) (u : Nat) : MemOk (settleTask s u) := by
  unfold settleTask
  grind [memOk_foldl, memOk_abandonAll, memOk_endUnits, memOk_leaveSlot, memOk_modCore, memOk_modTask]

theorem memOk_settleCore (h : MemOk s) (core : Nat) : MemOk (settleCore s core) := by
  unfold settleCore
  grind [memOk_settleTask]

theorem memOk_tokenError (h : MemOk s) (core tok code cls addr dir word tile : Nat) : MemOk (tokenError s core tok code cls addr dir word tile) := by
  unfold tokenError
  grind [memOk_noteAccess, memOk_noteError, memOk_postAccess, memOk_postFor, memOk_setTok]


/-! ## Matrix -/

theorem memOk_modMu (h : MemOk s) (f : MUnit → MUnit) : MemOk (modMu s f) := h

theorem memOk_modTileAt (h : MemOk s) (core t : Nat) (f : Tile → Tile) : MemOk (modTileAt s core t f) := h

theorem memOk_modTile (h : MemOk s) (t : Nat) (f : Tile → Tile) : MemOk (modTile s t f) := h

theorem memOk_modRun (h : MemOk s) (f : MRun → MRun) : MemOk (modRun s f) := h

theorem memOk_microNext (h : MemOk s) : MemOk (microNext s) := h

theorem memOk_microFault (h : MemOk s) (code cls addr dir tile : Nat) : MemOk (microFault s code cls addr dir tile) := by
  unfold microFault
  grind [memOk_modMu, memOk_settleCore, memOk_tokenError]

theorem memOk_microAbort (h : MemOk s) : MemOk (microAbort s) := by
  unfold microAbort
  grind [memOk_microFault]

theorem outOk_micro (h : MemOk s) (k : MRun → Task → Nat → State → State) (hk : ∀ a b c s, MemOk s → MemOk (k a b c s)) : OutOk (micro s k) := by
  unfold micro
  grind [outOk_next]

theorem memOk_onUnit (h : MemOk s) (core u : Nat) (f : State → State) (hf : ∀ s, MemOk s → MemOk (f s)) : MemOk (onUnit s core u f) := by
  unfold onUnit
  grind [memOk_mk, memOk_foldl, memOk_keepImage, memOk_modCore, memOk_modTask, memOk_settleTask]

theorem memOk_mEnqueue (h : MemOk s) (u : BitVec 4) (kind : MKind) (tok : BitVec 6) (list : W64) : MemOk (mEnqueue u kind tok list s) := by
  unfold mEnqueue
  grind [memOk_modMu, memOk_setTok, memOk_slotTrap]

theorem outOk_execMcall (h : MemOk s) (o : MCallOp) : OutOk (execMcall o s) := by
  unfold execMcall
  grind [outOk_next, outOk_guarded, memOk_mEnqueue, memOk_slotTrap]

theorem outOk_execMclr (h : MemOk s) (o : MClrOp) : OutOk (execMclr o s) := by
  unfold execMclr
  grind [outOk_next, outOk_guarded, memOk_mEnqueue]

theorem outOk_execMstat (h : MemOk s) (o : MStatOp) : OutOk (execMstat o s) := by
  unfold execMstat
  grind [outOk_next, outOk_guarded, memOk_mEnqueue]

theorem outOk_execMsig (h : MemOk s) (o : MSigOp) : OutOk (execMsig o s) := by
  unfold execMsig
  grind [outOk_next, outOk_guarded, memOk_mEnqueue]

theorem outOk_execMload (h : MemOk s) (o : MLoadOp) : OutOk (execMload o s) := by
  unfold execMload
  grind [outOk_next, outOk_guarded, memOk_mEnqueue, memOk_slotTrap]

theorem memOk_stopUnit (h : MemOk s) (core : Nat) : MemOk (stopUnit s core) := by
  unfold stopUnit
  grind [memOk_abandonAll, memOk_modCore, memOk_setTok, memOk_settleCore]

theorem memOk_abortUnit (h : MemOk s) (core : Nat) : MemOk (abortUnit s core) := by
  unfold abortUnit
  grind [memOk_foldl, memOk_modCore, memOk_setTok, memOk_stopUnit]

theorem outOk_execMabort (h : MemOk s) (o : MAbortOp) : OutOk (execMabort o s) := by
  unfold execMabort
  grind [outOk_next, memOk_abortUnit, outOk_guarded]

theorem memOk_noteRecord (h : MemOk s) (s1 : State) (core : Nat) (w : Who) (tok addr n : Nat) (hs1 : MemOk s1) :
    MemOk (noteRecord s s1 core w tok addr n) := by
  unfold noteRecord
  grind [memOk_noteSent]

theorem memOk_writeRecord (h : MemOk s) (core : Nat) (w : Who) (tok addr align : Nat) (b : List Byte) :
    MemOk (writeRecord s core w tok addr align b) := by
  unfold writeRecord
  grind [memOk_engWrite, memOk_noteRecord, memOk_setTok, memOk_tokenError]

theorem memOk_loadWords (h : MemOk s) (core : Nat) (w : Who) (tok addr first n n2 : Nat) : MemOk (loadWords s core w tok addr first n n2) := by
  induction n generalizing s n2 with
  | zero => exact memOk_setTok h _ _ _
  | succ n ih =>
    unfold loadWords
    grind [memOk_engRead, memOk_modCore, memOk_tokenError]

theorem memOk_runEntry (h : MemOk s) (core u : Nat) (t : Task) (e : MEntry) : MemOk (runEntry s core u t e) := by
  unfold runEntry
  grind [memOk_foldl, memOk_abandonAt, memOk_loadWords, memOk_modCore, memOk_modTileAt, memOk_setTok, memOk_writeRecord]

theorem memOk_startHead (h : MemOk s) (core : Nat) : MemOk (startHead s core) := by
  unfold startHead
  grind [memOk_modCore, memOk_runEntry, memOk_setTok, memOk_settleCore]

theorem outOk_execMatrixEntryStart (h : MemOk s) (core : Nat) : OutOk (execMatrixEntryStart core s) := by
  unfold execMatrixEntryStart
  grind [outOk_next, memOk_onUnit, memOk_startHead]

theorem memOk_addFootprint (h : MemOk s) (pas : List Nat) : MemOk (addFootprint s pas) := h

/-- The state in which the staging of a routine's operand leaves the device. -/
def stagedState : Staged → State
  | .ok s _ _ => s
  | .fault s _ _ _ => s

theorem memOk_stageBytes (h : MemOk s) (t : Machine.Task) (u : Nat) (addrs : List Nat) (n align : Nat) :
    MemOk (stagedState (stageBytes s t u addrs n align)) := by
  unfold stageBytes
  extract_lets scale pcs w
  split
  · exact h
  split
  · exact h
  split
  · exact h
  rename_i l _
  have hr := memOk_reach h w u l
  split
  · grind [stagedState]
  · split <;> grind [stagedState]

theorem memOk_loadOperand (h : MemOk s) (t : Task) (u : Nat) (g : Stride) (code : Nat) (put : Stage → MRun → MRun) :
    MemOk (loadOperand s t u g code put) := by
  have hb := memOk_stageBytes h t u ((List.range 128).map (rowAddr g)) (128 * opSize code) 128
  unfold loadOperand
  grind [stagedState, memOk_addFootprint, memOk_microFault, memOk_microNext, memOk_modRun]

theorem memOk_loadScale (h : MemOk s) (t : Task) (u : Nat) (g : Stride) (put : Stage → MRun → MRun) : MemOk (loadScale s t u g put) := by
  have hb := memOk_stageBytes h t u [g.base.toNat] 512 512
  unfold loadScale
  grind [stagedState, memOk_addFootprint, memOk_microFault, memOk_microNext, memOk_modRun]

theorem outOk_execLda (h : MemOk s) (o : UOp) : OutOk (execLda o s) := by
  unfold execLda
  grind [outOk_next, memOk_loadOperand, outOk_micro]

theorem outOk_execLdb (h : MemOk s) (o : UOp) : OutOk (execLdb o s) := by
  unfold execLdb
  grind [outOk_next, memOk_loadOperand, outOk_micro]

theorem outOk_execLdsa (h : MemOk s) (o : UOp) : OutOk (execLdsa o s) := by
  unfold execLdsa
  grind [outOk_next, memOk_loadScale, outOk_micro]

theorem outOk_execLdsb (h : MemOk s) (o : UOp) : OutOk (execLdsb o s) := by
  unfold execLdsb
  grind [outOk_next, memOk_loadScale, outOk_micro]

theorem outOk_execZero (h : MemOk s) (o : UOp) : OutOk (execZero o s) := by
  unfold execZero
  grind [outOk_next, memOk_abandonAt, memOk_claimTile, outOk_micro, memOk_microNext, memOk_modRun, memOk_modTile]

theorem outOk_execTld (h : MemOk s) (o : UOp) : OutOk (execTld o s) := by
  refine outOk_micro h _ fun r t u s hs => ?_
  have hb := memOk_stageBytes (memOk_claimTile hs u s.cur o.t.toNat) t u ((List.range 128).map (rowAddr (setOf r o.gA))) 512 128
  grind [stagedState, memOk_abandonAt, memOk_addFootprint, memOk_microFault, memOk_microNext, memOk_modRun, memOk_modTile]

theorem outOk_execMma (h : MemOk s) (o : UOp) : OutOk (execMma o s) := by
  unfold execMma
  grind [outOk_next, memOk_claimTile, outOk_micro, memOk_microAbort, memOk_microFault, memOk_microNext, memOk_modTile]

theorem outOk_execEpi (h : MemOk s) (o : UOp) : OutOk (execEpi o s) := by
  unfold execEpi
  grind [outOk_next, memOk_claimTile, outOk_micro, memOk_microAbort, memOk_microFault, memOk_microNext, memOk_modTile]

theorem outOk_execStt (h : MemOk s) (o : UOp) : OutOk (execStt o s) := by
  unfold execStt
  grind [outOk_next, memOk_claimTile, outOk_micro, memOk_microAbort, memOk_microFault, memOk_microNext, memOk_modRun, memOk_modTile]

theorem memOk_addSeal (h : MemOk s) (hearth core ctx src a : Nat) (l : List Byte) : MemOk (addSeal s hearth core ctx src a l) := h

theorem memOk_releaseRow (h : MemOk s) (u : Nat) (t : Task) (core : Nat) (r : HeldRow) : MemOk (releaseRow s u t core r).1 := by
  unfold releaseRow
  grind [memOk_noteSent, memOk_reach, memOk_writePa]

theorem memOk_releaseRows (h : MemOk s) (u : Nat) (t : Task) (core : Nat) (l : List HeldRow) (l2 : List (Nat × HeldRow)) :
    MemOk (releaseRows s u t core l l2).1 := by
  induction l generalizing s l2 with
  | nil => exact h
  | cons r rest ih =>
    unfold releaseRows
    grind [memOk_releaseRow]

theorem memOk_releaseImage (h : MemOk s) (u core ctx src : Nat) (rows : List HeldRow) : MemOk (releaseImage s u core ctx src rows).1 := by
  unfold releaseImage
  grind [memOk_foldl, memOk_addSeal, memOk_releaseRows]

theorem memOk_dispute (h : MemOk s) (u core ctx tile engine addr : Nat) (c d a : W64) : MemOk (dispute s u core ctx tile engine addr c d a) := by
  unfold dispute
  grind [memOk_modCore, memOk_noteAccess, memOk_noteDispute, memOk_post]

theorem memOk_afterCheck (h : MemOk s) (core tile : Nat) (held : Bool) : MemOk (afterCheck s core tile held) := by
  unfold afterCheck
  grind [memOk_modCore, memOk_stopUnit]

theorem memOk_faultCheck (h : MemOk s) (core code cls addr dir tile : Nat) : MemOk (faultCheck s core code cls addr dir tile) := by
  unfold faultCheck
  grind [memOk_mk, memOk_abandonAll, memOk_microFault, memOk_settleCore]

theorem memOk_closeEpoch (h : MemOk s) (u core tile : Nat) (l : LastSig) : MemOk (closeEpoch s u core tile l) := h

theorem memOk_releaseEpoch (h : MemOk s) (u core tile src : Nat) (rows : List HeldRow) (l : LastSig) :
    MemOk (releaseEpoch s u core tile src rows l) := by
  unfold releaseEpoch
  grind [memOk_afterCheck, memOk_closeEpoch, memOk_faultCheck, memOk_modTask, memOk_modTileAt, memOk_releaseImage]

theorem outOk_execSigchk (h : MemOk s) (o : UOp) : OutOk (execSigchk o s) := by
  unfold execSigchk
  grind [outOk_next, memOk_claimTile, outOk_micro, memOk_microAbort, memOk_modHearth, memOk_modTile, memOk_releaseEpoch]

theorem memOk_settleDispute (h : MemOk s) (u core tile : Nat) (e : Epoch) : MemOk (settleDispute s u core tile e) := by
  unfold settleDispute
  grind [memOk_closeEpoch, memOk_dispute, memOk_faultCheck, memOk_releaseEpoch]

theorem outOk_execAssayComplete (h : MemOk s) (hearth : Nat) : OutOk (execAssayComplete hearth s) := by
  unfold execAssayComplete
  grind [outOk_next, memOk_modHearth, memOk_onUnit, memOk_settleDispute]

theorem outOk_execEndR (h : MemOk s) (_o : UOp) : OutOk (execEndR _o s) := by
  unfold execEndR
  grind [outOk_next, outOk_micro, memOk_modMu, memOk_setTok, memOk_settleCore]

theorem outOk_execLoopMicroOp (h : MemOk s) (o : UOp) : OutOk (execLoopMicroOp o s) := by
  unfold execLoopMicroOp
  grind [outOk_next, outOk_micro, memOk_microAbort, memOk_modRun]

theorem outOk_execEndl (h : MemOk s) (_o : UOp) : OutOk (execEndl _o s) := by
  unfold execEndl
  grind [outOk_next, outOk_micro, memOk_microAbort, memOk_modMu, memOk_modRun]

theorem outOk_execGadv (h : MemOk s) (o : UOp) : OutOk (execGadv o s) := by
  unfold execGadv
  grind [outOk_next, outOk_micro, memOk_microNext, memOk_modRun]

theorem outOk_execSetp (h : MemOk s) (o : UOp) : OutOk (execSetp o s) := by
  unfold execSetp
  grind [outOk_next, outOk_micro, memOk_microNext, memOk_modRun]


/-! ## Runner -/

theorem memOk_modChan (h : MemOk s) (core ch : Nat) (f : Chan → Chan) : MemOk (modChan s core ch f) := h

theorem memOk_modCount (h : MemOk s) (core ch task : Nat) (f : Chan → Chan) : MemOk (modCount s core ch task f) := by
  unfold modCount
  grind [memOk_keepImage, memOk_modTaskCore]

theorem memOk_ownerTok (h : MemOk s) (core task tok : Nat) (k : Tok) : MemOk (ownerTok s core task tok k) := by
  unfold ownerTok
  grind [memOk_keepImage, memOk_modTaskCore]

theorem memOk_groupOf (h : MemOk s) (e : REntry) : MemOk (groupOf s e).2 := by
  unfold groupOf
  grind [memOk_engRead]

theorem memOk_forgetSent (h : MemOk s) (core ch : Nat) : MemOk (forgetSent s core ch) := h

theorem memOk_settleCount (h : MemOk s) (core ch : Nat) : MemOk (settleCount s core ch) := by
  unfold settleCount
  grind [memOk_foldl, memOk_modChan, memOk_modCount]

theorem memOk_failRunner (h : MemOk s) (core ch : Nat) (r : RRun) (code cls addr dir : Nat) : MemOk (failRunner s core ch r code cls addr dir) := by
  unfold failRunner
  grind [memOk_forgetSent, memOk_modChan, memOk_modCount, memOk_noteAccess, memOk_noteError, memOk_ownerTok, memOk_postAccess, memOk_settleTask]

theorem memOk_finishRunner (h : MemOk s) (core ch : Nat) (e : REntry) : MemOk (finishRunner s core ch e) := by
  unfold finishRunner
  grind [memOk_modChan, memOk_ownerTok, memOk_settleTask]

theorem outOk_cIssue (h : MemOk s) (o : COp) (op : ROp) : OutOk (cIssue o op s) := by
  unfold cIssue
  grind [outOk_next, memOk_blockFor, outOk_guarded, memOk_modChan, memOk_setTok, memOk_slotTrap]

/-- The state in which the placement of a runner's piece leaves the device. -/
def farState : Far → State
  | .ok s _ => s
  | .fault s _ _ _ => s

theorem memOk_placeNear (h : MemOk s) (e : REntry) (write : Bool) (va n : Nat) : MemOk (farState (placeNear s e write va n)) := by
  unfold placeNear
  grind [farState, memOk_reach]

theorem memOk_placeFar (h : MemOk s) (e : REntry) (write : Bool) (va n : Nat) : MemOk (farState (placeFar s e write va n)) := by
  unfold placeFar
  grind [farState]

theorem memOk_placeRun (h : MemOk s) (e : REntry) (far write : Bool) (va n : Nat) : MemOk (farState (placeRun s e far write va n)) := by
  unfold placeRun
  grind [memOk_placeNear, memOk_placeFar]

theorem memOk_readRange (h : MemOk s) (core : Nat) (e : REntry) (far : Bool) (l : List (Nat × Nat × Nat)) : MemOk (readRange s core e far l).1 := by
  induction l generalizing s with
  | nil => exact h
  | cons p r ih =>
    unfold readRange
    grind [farState, memOk_placeRun, memOk_readCached]

theorem memOk_pieceBytes (h : MemOk s) (core : Nat) (r : RRun) (n : Nat) : MemOk (pieceBytes s core r n).1 := by
  unfold pieceBytes
  grind [memOk_freshFor, memOk_readRange]

theorem memOk_runnerPiece (h : MemOk s) (core ch : Nat) (r : RRun) : MemOk (runnerPiece s core ch r) := by
  unfold runnerPiece
  extract_lets e die staged len b va n
  refine memOk_ite h ?_
  have hb := memOk_pieceBytes h core r n
  split
  · exact memOk_failRunner (by grind) _ _ _ _ _ _ _
  rename_i s1 had _ _ hp
  have h1 : MemOk s1 := by grind
  extract_lets data
  have hr := memOk_placeRun h1 e (farDest s1 e) true va data.length
  grind [farState, memOk_failRunner, memOk_settleCount, memOk_modChan, memOk_noteSent, → memOk_writePa]

theorem memOk_runnerAhead (h : MemOk s) (core ch off n : Nat) : MemOk (runnerAhead core ch off n s) := by
  unfold runnerAhead
  grind [memOk_freshFor, memOk_readRange, memOk_modChan]

theorem memOk_runnerMove (h : MemOk s) (core ch n : Nat) : MemOk (runnerMove core ch n s) := by
  induction n generalizing s with
  | zero => exact h
  | succ n ih =>
    unfold runnerMove
    grind [memOk_runnerPiece]

theorem memOk_flushRange (h : MemOk s) (e : REntry) (die : Nat) (l : List (Nat × Nat × Nat)) : MemOk (flushRange s e die l).1 := by
  induction l generalizing s with
  | nil => exact h
  | cons p r ih =>
    have hp := memOk_placeNear h e false p.1 p.2.2
    unfold flushRange
    grind [farState, memOk_modDie]

theorem memOk_sealReport (h : MemOk s) (e : REntry) (cls : Nat) (kind : BitVec 2) (unit : BitVec 14) (sealCrc c far : W64) (fixed : Bool) :
    MemOk (sealReport s e cls kind unit sealCrc c far fixed) := by
  unfold sealReport
  grind [memOk_postFor]

theorem memOk_failSeal (h : MemOk s) (core ch : Nat) (r : RRun) (kind : BitVec 2) (unit : BitVec 14) (sealCrc c far : W64) :
    MemOk (failSeal s core ch r kind unit sealCrc c far) := by
  unfold failSeal
  grind [memOk_failRunner, memOk_noteError, memOk_sealReport]

theorem memOk_startScopy (h : MemOk s) (core ch : Nat) (e : REntry) : MemOk (startScopy s core ch e) := by
  unfold startScopy
  grind [memOk_failRunner, memOk_failSeal, memOk_freshFor, memOk_modChan, memOk_readRange]

theorem outOk_execScopyFarWrite (h : MemOk s) (core ch : Nat) (flip : BitVec 64) : OutOk (execScopyFarWrite core ch flip s) := by
  unfold execScopyFarWrite
  grind [outOk_next, memOk_failSeal, memOk_modChan, memOk_sealReport]

theorem memOk_failAll (h : MemOk s) (joined : List (Nat × Nat × Nat)) (code cls addr : Nat) : MemOk (failAll s joined code cls addr) := by
  unfold failAll
  grind [memOk_foldl, memOk_failRunner]

theorem memOk_modColl (h : MemOk s) (x : Coll) (f : Coll → Coll) : MemOk (modColl s x f) := h

theorem memOk_dropColl (h : MemOk s) (x : Coll) : MemOk (dropColl s x) := h

theorem memOk_killColl (h : MemOk s) (x : Coll) (l : List W64) (cls addr : Nat) : MemOk (killColl s x l cls addr) := by
  unfold killColl
  grind [memOk_dropColl, memOk_failAll, memOk_modColl]

theorem memOk_joinColl (h : MemOk s) (core ch rank ctx group : Nat) (l : List W64) : MemOk (joinColl s core ch rank ctx group l) := by
  unfold joinColl
  grind [memOk_mk, memOk_dropColl, memOk_killColl]

theorem memOk_startColl (h : MemOk s) (core ch : Nat) (e : REntry) : MemOk (startColl s core ch e) := by
  unfold startColl
  grind [memOk_failRunner, memOk_groupOf, memOk_joinColl, memOk_modChan]

theorem memOk_contribution (h : MemOk s) (joined : List (Nat × Nat × Nat)) (k n : Nat) : MemOk (contribution s joined k n).2 := by
  unfold contribution
  grind [memOk_freshFor, memOk_readRange]

theorem memOk_contributions (h : MemOk s) (joined : List (Nat × Nat × Nat)) (n : Nat) (l : List Nat) : MemOk (contributions s joined n l).2 := by
  induction l generalizing s with
  | nil => exact h
  | cons k r ih =>
    unfold contributions
    grind [memOk_contribution]

theorem memOk_endColl (h : MemOk s) (x : Coll) : MemOk (endColl s x) := by
  unfold endColl
  extract_lets runs
  clear_value runs
  split
  · exact memOk_ite h (memOk_dropColl h _)
  split
  · grind [memOk_groupOf, memOk_failAll, memOk_dropColl]
  rename_i l s1 hg
  have h1 : MemOk s1 := by grind [memOk_groupOf]
  split
  · exact memOk_killColl h1 _ _ _ _
  extract_lets mine lead
  refine memOk_ite h ?_
  split
  · exact memOk_failAll (memOk_dropColl h1 _) _ _ _ _
  refine memOk_ite (memOk_failAll (memOk_dropColl h1 _) _ _ _ _) (memOk_ite h ?_)
  split
  · rename_i s2 hc
    have h2 : MemOk s2 := by grind [memOk_contributions]
    exact memOk_foldl (fun s j hs => by grind [memOk_failRunner]) _ (memOk_dropColl h2 _)
  · rename_i s2 hc
    have h2 : MemOk s2 := by grind [memOk_contributions]
    exact memOk_foldl (fun s j hs => memOk_modChan hs _ _ _) _ (memOk_dropColl h2 _)

theorem outOk_execCollectiveComplete (h : MemOk s) (ctx group : Nat) : OutOk (execCollectiveComplete ctx group s) := by
  unfold execCollectiveComplete
  grind [outOk_next, memOk_endColl]

theorem memOk_startEntry (h : MemOk s) (core ch : Nat) (e : REntry) : MemOk (startEntry s core ch e) := by
  unfold startEntry
  grind [memOk_failRunner, memOk_modChan, memOk_startColl, memOk_startScopy]

theorem outOk_execRunnerOperationStart (h : MemOk s) (core ch : Nat) : OutOk (execRunnerOperationStart core ch s) := by
  unfold execRunnerOperationStart
  grind [outOk_next, memOk_failRunner, memOk_modChan, memOk_startEntry]

theorem outOk_execRunnerOperationComplete (h : MemOk s) (core ch : Nat) : OutOk (execRunnerOperationComplete core ch s) := by
  unfold execRunnerOperationComplete
  grind [outOk_next, memOk_failRunner, memOk_finishRunner, memOk_flushRange]

theorem memOk_dropRunner (h : MemOk s) (core ch task : Nat) : MemOk (dropRunner s core ch task) := by
  unfold dropRunner
  grind [memOk_foldl, memOk_failRunner, memOk_modChan, memOk_ownerTok]

theorem memOk_performOrdered (h : MemOk s) (r : OReq) : MemOk (performOrdered s r) := by
  unfold performOrdered
  extract_lets s1 s2
  have h2 : MemOk s2 := h
  split
  · exact h2
  refine memOk_ite h2 ?_
  extract_lets s3 e
  have h3 : MemOk s3 := memOk_rehomeAcc h2 _ _ _
  grind [memOk_mk, → memOk_atomicAt, memOk_finishAcc, memOk_refuseAcc]

theorem memOk_performBuffered (h : MemOk s) (n : Nat) : MemOk (performBuffered n s) := by
  induction n generalizing s with
  | zero => exact h
  | succ n ih =>
    unfold performBuffered
    split
    · exact ih (memOk_performOrdered h _)
    · exact h

theorem memOk_orderedArrive (h : MemOk s) (r : OReq) : MemOk (orderedArrive s r) := by
  unfold orderedArrive
  grind [memOk_mk, memOk_performBuffered, memOk_performOrdered]

theorem outOk_execOrderedAtomicRequest (h : MemOk s) (n : Nat) : OutOk (execOrderedAtomicRequest n s) := by
  unfold execOrderedAtomicRequest
  grind [outOk_next, memOk_orderedArrive, memOk_performBuffered]

theorem outOk_execOrderedAtomicResend (h : MemOk s) (n : Nat) : OutOk (execOrderedAtomicResend n s) := by
  unfold execOrderedAtomicResend
  grind [outOk_next, memOk_mk]

end Sys2Proof.Canonical

/-! SUPPORT. Canonical memories under control, launches, what happens between bundles, and the stokers. Used for O59. -/
namespace Sys2Proof.Canonical

open Sys2Proof Sys2Proof.Machine Sys2Proof.Laws

variable {s : State}

/-! ## Control -/

theorem memOk_arm (h : MemOk s) (e : Nat) (t : Target) : MemOk (arm s e t) := h

theorem outOk_execBprep (h : MemOk s) (o : PrepOp) : OutOk (execBprep o s) := by
  unfold execBprep
  grind [outOk_next, memOk_arm]

theorem outOk_execBcall (h : MemOk s) (o : PrepOp) : OutOk (execBcall o s) := by
  unfold execBcall
  grind [outOk_next, memOk_arm]

theorem outOk_execBprepx (h : MemOk s) (o : PrepXOp) : OutOk (execBprepx o s) := by
  unfold execBprepx
  grind [outOk_next, memOk_arm]

theorem outOk_execBcallx (h : MemOk s) (o : PrepXOp) : OutOk (execBcallx o s) := by
  unfold execBcallx
  grind [outOk_next, memOk_arm]

theorem outOk_execRet (h : MemOk s) (o : RetOp) : OutOk (execRet o s) := by
  unfold execRet
  grind [outOk_next, memOk_arm, outOk_guarded]

theorem memOk_openLoop (h : MemOk s) (n : BitVec 32) (off : Nat) : MemOk (openLoop s n off) := by
  unfold openLoop
  grind [memOk_modMe, memOk_takeTrap]

theorem outOk_execLoop (h : MemOk s) (o : LoopOp) : OutOk (execLoop o s) := by
  unfold execLoop
  grind [outOk_next, outOk_guarded, memOk_openLoop]

theorem outOk_execLoopi (h : MemOk s) (o : LoopIOp) : OutOk (execLoopi o s) := by
  unfold execLoopi
  grind [outOk_next, outOk_guarded, memOk_openLoop]

theorem outOk_execTrap (h : MemOk s) (o : CodeOp) : OutOk (execTrap o s) := by
  unfold execTrap
  grind [outOk_next, outOk_guarded, memOk_slotTrap]

theorem outOk_execSyscall (h : MemOk s) (o : CodeOp) : OutOk (execSyscall o s) := by
  unfold execSyscall
  grind [outOk_next, outOk_guarded, memOk_slotTrap]

theorem outOk_eretOp (h : MemOk s) (g : BitVec 4) (skip : Nat) : OutOk (eretOp g skip s) := by
  unfold eretOp
  grind [outOk_next, outOk_guarded, memOk_modMe, memOk_slotTrap, memOk_tryReturn]

theorem outOk_execTwait (h : MemOk s) (o : TWaitOp) : OutOk (execTwait o s) := by
  unfold execTwait
  grind [outOk_next, outOk_guarded, memOk_modMe]

theorem outOk_execTpoll (h : MemOk s) (o : TPollOp) : OutOk (execTpoll o s) := by
  unfold execTpoll
  grind [outOk_next, memOk_emit, outOk_guarded]

theorem outOk_execWaitwp (h : MemOk s) (o : WaitWpOp) : OutOk (execWaitwp o s) := by
  unfold execWaitwp
  grind [outOk_next, outOk_guarded, memOk_modMe]

theorem memOk_writeFmt (h : MemOk s) (v : W32) : MemOk (writeFmt s v) := h

theorem outOk_execSetfmt (h : MemOk s) (o : RegOp) : OutOk (execSetfmt o s) := by
  unfold execSetfmt
  grind [outOk_next, outOk_guarded, memOk_writeFmt]

theorem outOk_execSetbank (h : MemOk s) (o : SetBankOp) : OutOk (execSetbank o s) := by
  unfold execSetbank
  grind [outOk_next, memOk_emit1, outOk_guarded, memOk_holdFor, memOk_modMe, memOk_slotTrap, memOk_withAccess]

theorem memOk_unhold (h : MemOk s) (core : Nat) : MemOk (unhold s core) := h

theorem memOk_refuseNow (h : MemOk s) (core : Nat) (p : Placed) : MemOk (refuseNow s core p) := h

theorem memOk_spillBank (h : MemOk s) (core f : Nat) : MemOk (spillBank s core f) := by
  unfold spillBank
  grind [memOk_accessError, memOk_modCore, memOk_noteSent, memOk_refuseNow, memOk_touchFor, memOk_unhold, memOk_writeParts]

theorem memOk_refillBank (h : MemOk s) (core f : Nat) : MemOk (refillBank s core f) := by
  unfold refillBank
  grind [memOk_accessError, memOk_askParts, memOk_modCore, memOk_touchFor, memOk_unhold]

theorem outOk_execSpillRefillComplete (h : MemOk s) (core : Nat) : OutOk (execSpillRefillComplete core s) := by
  unfold execSpillRefillComplete
  grind [outOk_next, memOk_refillBank, memOk_spillBank]

theorem outOk_execMfs (h : MemOk s) (o : SysOp) : OutOk (execMfs o s) := by
  unfold execMfs
  grind [outOk_next, memOk_emit1, outOk_guarded, memOk_slotTrap]

theorem memOk_writeLc (h : MemOk s) (n : Nat) (v : W64) : MemOk (writeLc s n v) := h

theorem memOk_clearEvent (h : MemOk s) (i : Nat) : MemOk (clearEvent s i) := by
  unfold clearEvent
  grind [memOk_blockFor, memOk_issueMarker]

theorem outOk_execMts (h : MemOk s) (o : SysOp) : OutOk (execMts o s) := by
  unfold execMts
  grind [outOk_next, memOk_clearEvent, memOk_emit1, outOk_guarded, memOk_slotTrap, memOk_writeFmt, memOk_writeLc]

theorem outOk_execIfence (h : MemOk s) (o : PlainOp) : OutOk (execIfence o s) := by
  unfold execIfence
  grind [outOk_next, outOk_guarded, memOk_issueMarker]

theorem memOk_fetchBytes (h : MemOk s) (core src len : Nat) : MemOk (fetchBytes s core src len).2 := by
  unfold fetchBytes
  grind [memOk_engRead]

theorem outOk_execOvl (h : MemOk s) (o : OvlOp) : OutOk (execOvl o s) := by
  unfold execOvl
  grind [outOk_next, memOk_fetchBytes, outOk_guarded, memOk_modMe, memOk_slotTrap]

theorem memOk_postFetch (h : MemOk s) (core : Nat) (e : EngErr) : MemOk (postFetch s core e) := by
  unfold postFetch
  grind [memOk_postEcc, memOk_postWalk]

theorem outOk_execOverlayFetchComplete (h : MemOk s) (core bank : Nat) : OutOk (execOverlayFetchComplete core bank s) := by
  unfold execOverlayFetchComplete
  grind [outOk_next, memOk_fetchBytes, memOk_modCore, memOk_postFetch]

theorem memOk_timeoutFetch (h : MemOk s) (core bank : Nat) : MemOk (timeoutFetch s core bank) := by
  unfold timeoutFetch
  grind [memOk_modCore]


/-! ## Place -/

theorem memOk_toTail (h : MemOk s) (l : List (Nat × Nat)) : MemOk (toTail s l) := h

theorem memOk_leaveTurns (h : MemOk s) (m : Nat × Nat) : MemOk (leaveTurns s m) := h


/-! ## Launch -/

theorem memOk_setEvent (h : MemOk s) (ctx i : Nat) (on : Bool) : MemOk (setEvent s ctx i on) := by
  unfold setEvent
  grind [memOk_modCtx]

theorem memOk_keepCached (h : MemOk s) (keep : Tlb → Bool) (keepWalk : WalkEntry → Bool) : MemOk (keepCached s keep keepWalk) := h

theorem memOk_invalidateRange (h : MemOk s) (ctx page n : Nat) : MemOk (invalidateRange s ctx page n) := h

theorem memOk_invalidateAll (h : MemOk s) (ctx : Nat) : MemOk (invalidateAll s ctx) := h

theorem memOk_performAlloc (h : MemOk s) (core n : Nat) (e : Acc) (size : W64) : MemOk (performAlloc s core n e size) := by
  unfold performAlloc
  grind [memOk_allocate, memOk_finishAcc, memOk_noteSent, memOk_refuseAcc, memOk_writePa]

theorem memOk_performLaunch (h : MemOk s) (core n : Nat) (e : Acc) (key : Option (BitVec 8)) : MemOk (performLaunch s core n e key) := by
  unfold performLaunch
  grind [memOk_accessError, memOk_dropCopies, memOk_modCore, memOk_modDie, memOk_readLine]

theorem memOk_passBarrier (h : MemOk s) (task : Option Nat) (before : List (Nat × Nat)) : MemOk (passBarrier s task before) := by
  unfold passBarrier
  grind [memOk_foldl, memOk_modCore]

theorem memOk_performSignal (h : MemOk s) (core n : Nat) (e : Acc) (g : Signal) : MemOk (performSignal s core n e g) := by
  unfold performSignal
  grind [memOk_modCore, memOk_passBarrier, memOk_performAlloc, memOk_performLaunch, memOk_release, memOk_setEvent]

theorem memOk_issueRange (h : MemOk s) (g : Signal) (l : List Placed) (n : Nat) : MemOk (issueRange s g l n) := by
  unfold issueRange
  grind [memOk_modMe]

theorem outOk_execSync (h : MemOk s) (o : PlainOp) : OutOk (execSync o s) := by
  unfold execSync
  grind [outOk_next, outOk_guarded, memOk_issueMarker, memOk_modMe, memOk_slotTrap]

theorem outOk_launchOp (h : MemOk s) (g : BitVec 4) (a : BitVec 5) (key : Option (BitVec 8)) : OutOk (launchOp g a key s) := by
  unfold launchOp
  grind [outOk_next, memOk_blockFor, outOk_guarded, memOk_issueRange, memOk_slotTrap, memOk_withAccess]

theorem memOk_askShape (h : MemOk s) (key : BitVec 8) (n : BitVec 32) : MemOk (askShape s key n) := by
  unfold askShape
  grind [memOk_mk, memOk_blockFor]

theorem outOk_execShape (h : MemOk s) (o : KeyOp) : OutOk (execShape o s) := by
  unfold execShape
  grind [outOk_next, memOk_askShape, outOk_guarded, memOk_slotTrap]

theorem outOk_execPredict (h : MemOk s) (o : PredictOp) : OutOk (execPredict o s) := by
  unfold execPredict
  grind [outOk_next, outOk_guarded, memOk_modDie]

theorem outOk_execAlloc (h : MemOk s) (o : AllocOp) : OutOk (execAlloc o s) := by
  unfold execAlloc
  grind [outOk_next, outOk_guarded, memOk_issueRange, memOk_slotTrap, memOk_withAccess]

theorem outOk_execFree (h : MemOk s) (o : RegOp) : OutOk (execFree o s) := by
  unfold execFree
  grind [outOk_next, outOk_guarded, memOk_issueMarker, memOk_modTask]

theorem outOk_execYield (h : MemOk s) (o : PlainOp) : OutOk (execYield o s) := by
  unfold execYield
  grind [outOk_next, outOk_guarded, memOk_modTask, memOk_slotTrap]

theorem outOk_execHalt (h : MemOk s) (o : PlainOp) : OutOk (execHalt o s) := by
  unfold execHalt
  grind [outOk_next, memOk_endInError, outOk_guarded, memOk_modMe]

theorem outOk_eventOp (h : MemOk s) (o : EventOp) (on : Bool) : OutOk (eventOp o on s) := by
  unfold eventOp
  grind [outOk_next, memOk_blockFor, outOk_guarded, memOk_issueMarker]

theorem outOk_execEvwait (h : MemOk s) (o : EventOp) : OutOk (execEvwait o s) := by
  unfold execEvwait
  grind [outOk_next, outOk_guarded, memOk_modMe]


/-! ## Events -/

theorem memOk_endWait (h : MemOk s) (core : Nat) : MemOk (endWait s core) := h

theorem memOk_addAcc (h : MemOk s) (core : Nat) (a : Acc) : MemOk (addAcc s core a) := h

theorem memOk_releaseStore (h : MemOk s) (u : Nat) (t : Task) (hx : HeldStore) : MemOk (releaseStore s u t hx) := by
  unfold releaseStore
  grind [memOk_foldl, memOk_accessError, memOk_addAcc]

theorem memOk_releaseTile (h : MemOk s) (u : Nat) (t : Task) (hx : HeldStore) : MemOk (releaseTile s u t hx) := by
  unfold releaseTile
  grind [memOk_noteAccess, memOk_postAccess, memOk_releaseImage]

theorem memOk_clearInflight (h : MemOk s) (hx : HeldStore) (u : Nat) : MemOk (clearInflight s hx u) := by
  unfold clearInflight
  grind [memOk_modTaskCore]

theorem memOk_pumpHeld (h : MemOk s) (u n : Nat) : MemOk (pumpHeld u n s) := by
  induction n generalizing s with
  | zero => exact h
  | succ n ih =>
    unfold pumpHeld
    grind [memOk_addAcc, memOk_clearInflight, memOk_modTask, memOk_releaseStore, memOk_releaseTile]

theorem memOk_pump (h : MemOk s) (u : Nat) : MemOk (pump s u) := by
  unfold pump
  grind [memOk_pumpHeld]

theorem memOk_clearGreenImage (h : MemOk s) (u core : Nat) : MemOk (clearGreenImage s u core) := by
  unfold clearGreenImage
  split
  · exact h
  split
  · exact h
  extract_lets off at_
  split
  · exact memOk_saveImage (memOk_noteImage h _ _ _) _ _ _ _ _
  · exact memOk_saveImage h _ _ _ _ _

theorem memOk_confirmTask (h : MemOk s) (u count : Nat) : MemOk (confirmTask s u count) := by
  unfold confirmTask
  grind [memOk_foldl, memOk_clearGreenImage, memOk_endWait, memOk_launchError, memOk_modCtx, memOk_modTask, memOk_post, memOk_publishError,
    memOk_pump, memOk_settleTask]

theorem memOk_retract (h : MemOk s) (u : Nat) (t : Task) : MemOk (retract s u t) := by
  unfold retract
  grind [memOk_foldl, memOk_release]

theorem memOk_freeEnded (h : MemOk s) (u : Nat) : MemOk (freeEnded s u) := by
  unfold freeEnded
  grind [memOk_foldl, memOk_dropState, memOk_leaveSlot, memOk_modCore, memOk_modTask, memOk_retract]

theorem memOk_fettleTask (h : MemOk s) (u : Nat) : MemOk (fettleTask s u) := by
  unfold fettleTask
  grind [memOk_mk, memOk_foldl, memOk_abortUnit, memOk_clearInflight, memOk_dropRunner, memOk_freeEnded, memOk_modCore, memOk_modTask, memOk_onUnit]

theorem memOk_applyVerdict (h : MemOk s) (u : Nat) : MemOk (applyVerdict s u) := by
  unfold applyVerdict
  grind [memOk_confirmTask, memOk_fettleTask]

theorem outOk_execVirtualCycleAdvance (h : MemOk s) (task : Nat) : OutOk (execVirtualCycleAdvance task s) := by
  unfold execVirtualCycleAdvance
  grind [outOk_next, memOk_foldl, memOk_applyVerdict, memOk_modCore, memOk_modTask]

theorem outOk_execResultLanding (h : MemOk s) (core : Nat) : OutOk (execResultLanding core s) := by
  unfold execResultLanding
  grind [outOk_next, memOk_modCore, memOk_settleCore, memOk_tryReturn]

theorem outOk_execFmtWriteEffect (h : MemOk s) (core : Nat) : OutOk (execFmtWriteEffect core s) := by
  unfold execFmtWriteEffect
  grind [outOk_next, memOk_modCore, memOk_tryReturn]

theorem outOk_execHandlerCountAdvance (h : MemOk s) (core : Nat) : OutOk (execHandlerCountAdvance core s) := by
  unfold execHandlerCountAdvance
  grind [outOk_next, memOk_modCore, memOk_tryReturn]

theorem outOk_execPreparedTransferTrigger (h : MemOk s) (core : Nat) : OutOk (execPreparedTransferTrigger core s) := by
  unfold execPreparedTransferTrigger
  grind [outOk_next, memOk_modCore]

theorem outOk_execLoopEndTest (h : MemOk s) (core : Nat) : OutOk (execLoopEndTest core s) := by
  unfold execLoopEndTest
  grind [outOk_next, memOk_modCore, memOk_settleCore]

theorem memOk_accDone (h : MemOk s) (task : Option Nat) : MemOk (accDone s task) := by
  unfold accDone
  grind [memOk_freeEnded, memOk_pump, memOk_settleTask]

theorem memOk_completeAcc (h : MemOk s) (core n : Nat) (e : Acc) : MemOk (completeAcc s core n e) := by
  unfold completeAcc
  grind [memOk_accDone, memOk_finishAcc, memOk_modCore, memOk_performAcc, memOk_performSignal, memOk_rehomeAcc]

theorem memOk_homeShownN (h : MemOk s) (n : Nat) : MemOk (homeShownN n s) := by
  induction n generalizing s with
  | zero => exact h
  | succ n ih =>
    unfold homeShownN
    grind [memOk_completeAcc]

theorem memOk_homeShown (h : MemOk s) : MemOk (homeShown s) := by
  unfold homeShown
  grind [memOk_homeShownN]

theorem outOk_execAccessComplete (h : MemOk s) (core n : Nat) : OutOk (execAccessComplete core n s) := by
  unfold execAccessComplete
  grind [outOk_next, memOk_completeAcc, memOk_homeShown]

theorem memOk_dropOrdered (h : MemOk s) (core : Nat) (e : Acc) : MemOk (dropOrdered s core e) := by
  unfold dropOrdered
  grind [memOk_mk, memOk_modCore]

theorem memOk_loseRecord (h : MemOk s) (core u tok pa : Nat) : MemOk (loseRecord s core u tok pa) := by
  unfold loseRecord
  grind [memOk_noteAccess, memOk_ownerTok, memOk_postAccess, memOk_settleTask]

theorem memOk_loseWrite (h : MemOk s) (x : Sent) : MemOk (loseWrite s x) := by
  unfold loseWrite
  grind [memOk_accDone, memOk_accessError, memOk_loseRecord]

theorem memOk_dropSent (h : MemOk s) (x : Sent) : MemOk (dropSent s x) := h

theorem outOk_execRemoteAccessTimeout (h : MemOk s) (core : Nat) (w : TimeoutWho) : OutOk (execRemoteAccessTimeout core w s) := by
  refine outOk_next ?_
  cases w with
  | access n => grind [memOk_accDone, memOk_dropOrdered, memOk_finishAcc, memOk_homeShown]
  | fetch bank => exact memOk_timeoutFetch h _ _
  | sent n => grind [memOk_dropSent, memOk_loseWrite]
  | runner ch => grind [memOk_failRunner, memOk_killColl]

theorem outOk_execPageWalkComplete (h : MemOk s) (core : Nat) : OutOk (execPageWalkComplete core s) := by
  unfold execPageWalkComplete
  grind [outOk_next, memOk_modCore, memOk_noteWalk, memOk_postEcc]

theorem outOk_execLazyClaim (h : MemOk s) (core : Nat) : OutOk (execLazyClaim core s) := by
  unfold execLazyClaim
  grind [outOk_next, memOk_claimBank, memOk_claimBlock, memOk_modCore]

theorem outOk_execTokenWaitEnd (h : MemOk s) (core : Nat) : OutOk (execTokenWaitEnd core s) := by
  unfold execTokenWaitEnd
  grind [outOk_next, memOk_endWait]

theorem outOk_execWritePointerWaitEnd (h : MemOk s) (core : Nat) : OutOk (execWritePointerWaitEnd core s) := by
  unfold execWritePointerWaitEnd
  grind [outOk_next, memOk_endWait]

theorem outOk_execEventWaitEnd (h : MemOk s) (core : Nat) : OutOk (execEventWaitEnd core s) := by
  unfold execEventWaitEnd
  grind [outOk_next, memOk_endWait]

theorem outOk_execBarrierComplete (h : MemOk s) (task : Nat) : OutOk (execBarrierComplete task s) := by
  unfold execBarrierComplete
  grind [outOk_next, memOk_foldl, memOk_modCore]

theorem outOk_execGreenShareSpaceAvailable (h : MemOk s) (core : Nat) : OutOk (execGreenShareSpaceAvailable core s) := by
  unfold execGreenShareSpaceAvailable
  grind [outOk_next, memOk_endWait]


/-! ## Sched -/

theorem memOk_noteRange (h : MemOk s) (w : Who) (need : Need) (l : List (Nat × Nat × Nat)) : MemOk (noteRange s w need l) := by
  unfold noteRange
  grind [memOk_askParts, memOk_noteHosts]

theorem memOk_noteLoads (h : MemOk s) (u : Nat) (t : Task) (r : Rec) : MemOk (noteLoads s u t r) := by
  unfold noteLoads
  grind [memOk_noteRange]

theorem memOk_failStart (h : MemOk s) (u : Nat) (t : Task) (cls va pa : Nat) : MemOk (failStart s u t cls va pa) := by
  unfold failStart
  grind [memOk_foldl, memOk_endInError, memOk_modCore, memOk_modTask, memOk_postAccess, memOk_postWalk, memOk_settleTask]

theorem outOk_execTaskStart (h : MemOk s) (task : Nat) : OutOk (execTaskStart task s) := by
  unfold execTaskStart
  grind [outOk_next, memOk_foldl, memOk_failStart, memOk_modCore, memOk_modTask, memOk_noteLoads]

theorem outOk_execPreemption (h : MemOk s) (task : Nat) : OutOk (execPreemption task s) := by
  unfold execPreemption
  grind [outOk_next, memOk_mk, memOk_foldl, memOk_modCore, memOk_modTask, memOk_saveImage]

theorem memOk_endSaved (h : MemOk s) (u : Nat) (t : Task) (cls va : Nat) : MemOk (endSaved s u t cls va) := by
  unfold endSaved
  grind [memOk_leaveTurns, memOk_modTask, memOk_postWalk, memOk_publishError, memOk_settleTask]

theorem memOk_claimAll (h : MemOk s) (u : Nat) (t : Task) : MemOk (claimAll s u t) := by
  unfold claimAll
  extract_lets s1
  have h1 : MemOk s1 :=
    memOk_foldl (fun s i hs => memOk_foldl (fun _ _ hs => memOk_claimTile hs _ _ _) _
      (memOk_foldl (fun s b hs => memOk_foldl (fun s f hs => by grind [memOk_claimBank]) _ hs) _ hs)) _ h
  exact memOk_foldl (fun s b hs => memOk_ite (memOk_claimBlock hs _ _) hs) _ h1

/-- How the bytes of an image are read. -/
abbrev Reader := State → Machine.Task → Nat → Nat → Except (Nat × Nat) (List Byte)

/-- `reloadBanks` over any reader: the equations of the model's own would have the kernel evaluate the read. -/
def reloadBanksBy (load : Reader) (s : State) (t : Machine.Task) : List (Nat × Nat) → Except (Nat × Nat) State
  | [] => .ok s
  | (core, key) :: r =>
    match load s t (coreImage t core + 0x10000 + key * 4096) 4096 with
    | .error e => .error e
    | .ok b => reloadBanksBy load (modCore s core fun c => bankFrom c key b) t r

theorem reloadBanks_eq (s : State) (t : Machine.Task) (l : List (Nat × Nat)) : reloadBanks s t l = reloadBanksBy loadImage s t l := by
  delta reloadBanks reloadBanksBy
  rfl

theorem memOk_reloadBanksBy (h : MemOk s) {load : Reader} {t : Machine.Task} {l : List (Nat × Nat)} {z : State}
    (hr : reloadBanksBy load s t l = .ok z) : MemOk z := by
  induction l generalizing s with
  | nil =>
    cases hr
    exact h
  | cons p r ih =>
    obtain ⟨core, key⟩ := p
    unfold reloadBanksBy at hr
    split at hr
    · cases hr
    · exact ih (s := modCore s _ _) h hr

theorem memOk_reloadBanks (h : MemOk s) {t : Machine.Task} {l : List (Nat × Nat)} {z : State} (hr : reloadBanks s t l = .ok z) : MemOk z :=
  memOk_reloadBanksBy h (reloadBanks_eq s t l ▸ hr)

/-- `reloadBlocks` over any reader. -/
def reloadBlocksBy (load : Reader) (s : State) (u : Nat) (t : Machine.Task) : List Nat → Except (Nat × Nat) State
  | [] => .ok s
  | b :: r =>
    match load s t (0x800000 + blockOffset t b) 4096 with
    | .error e => .error e
    | .ok d =>
      let z := zeroBlock s t.hearth b
      let s1 := { z with mem := cellsSet z.mem (scratchOff t.hearth (b * 4096)) d }
      reloadBlocksBy load (modHearth s1 t.hearth fun h => { h with blockOwner := tabSet h.blockOwner b (some u) }) u t r

theorem reloadBlocks_eq (s : State) (u : Nat) (t : Machine.Task) (l : List Nat) : reloadBlocks s u t l = reloadBlocksBy loadImage s u t l := by
  delta reloadBlocks reloadBlocksBy
  rfl

theorem memOk_reloadBlocksBy (h : MemOk s) {load : Reader} {u : Nat} {t : Machine.Task} {l : List Nat} {z : State}
    (hr : reloadBlocksBy load s u t l = .ok z) : MemOk z := by
  induction l generalizing s with
  | nil =>
    cases hr
    exact h
  | cons b r ih =>
    unfold reloadBlocksBy at hr
    split at hr
    · cases hr
    · refine ih ?_ hr
      have hz := memOk_zeroBlock h t.hearth b
      exact ⟨wf_cellsSet _ _ _ hz.1, hz.2⟩

theorem memOk_reloadBlocks (h : MemOk s) {u : Nat} {t : Machine.Task} {l : List Nat} {z : State} (hr : reloadBlocks s u t l = .ok z) : MemOk z :=
  memOk_reloadBlocksBy h (reloadBlocks_eq s u t l ▸ hr)

theorem memOk_refetchReports (h : MemOk s) (u : Nat) (t : Task) (r : Rec) (core : Nat) (saved : Core) :
    MemOk (refetchReports s u t r core saved) := by
  unfold refetchReports
  grind [memOk_foldl, memOk_postFetch]

theorem memOk_noteResume (h : MemOk s) (u : Nat) (t : Task) (r : Rec) : MemOk (noteResume s u t r) := by
  unfold noteResume
  grind [memOk_foldl, memOk_noteImage, memOk_noteRange]

theorem memOk_resumeTask (h : MemOk s) (u : Nat) : MemOk (resumeTask s u) := by
  unfold resumeTask
  split
  · exact h
  split
  · exact memOk_endSaved h _ _ _ _
  extract_lets r s1
  split
  · exact memOk_endSaved h _ _ _ _
  have h1 : MemOk s1 := memOk_claimAll h _ _
  split
  · exact memOk_endSaved h1 _ _ _ _
  have h2 := memOk_reloadBanks h1 ‹_›
  split
  · exact memOk_endSaved h2 _ _ _ _
  have h3 := memOk_reloadBlocks h2 ‹_›
  split
  · exact memOk_endSaved h3 _ _ _ _
  split
  · exact memOk_endSaved h3 _ _ _ _
  extract_lets words s4 s5
  have h4 : MemOk s4 := memOk_foldl (fun _ _ hs => memOk_refetchReports (memOk_modCore hs _ _) _ _ _ _ _) _ (memOk_noteResume h3 _ _ _)
  exact memOk_modTask h4 _ _


/-! ## Frame -/

theorem memOk_entryPort (h : MemOk s) (ctx : Nat) : MemOk (entryPort s ctx) := by
  unfold entryPort
  grind [memOk_modCtx]

theorem memOk_writeEntry (h : MemOk s) (die ctx cea setev : Nat) (e : Entry) : MemOk (writeEntry s die ctx cea setev e) := by
  unfold writeEntry
  grind [memOk_mk, memOk_engWrite, memOk_entryPort, memOk_postAccess, memOk_setEvent]

theorem memOk_addLaunch (h : MemOk s) (l : Launch) : MemOk (addLaunch s l) := h

theorem memOk_finishEmpty (h : MemOk s) (die : Nat) (l : Launch) : MemOk (finishEmpty s die l) := by
  unfold finishEmpty
  grind [memOk_writeEntry]

theorem memOk_takeGreen (h : MemOk s) (die : Nat) (r : Rec) (key : Nat) : MemOk (takeGreen s die r key) := by
  unfold takeGreen
  grind [memOk_mk, memOk_addLaunch, memOk_finishEmpty]

theorem memOk_takePlain (h : MemOk s) (die : Nat) (r : Rec) : MemOk (takePlain s die r) := by
  unfold takePlain
  grind [memOk_addLaunch, memOk_finishEmpty]

theorem memOk_takeRecord (h : MemOk s) (die ctx : Nat) (b : List Byte) (host : Bool) (key : Option (BitVec 8)) :
    MemOk (takeRecord s die ctx b host key) := by
  unfold takeRecord
  grind [memOk_takeGreen, memOk_takePlain, memOk_writeEntry]

theorem memOk_reportRecord (h : MemOk s) (die ctx cls a va : Nat) : MemOk (reportRecord s die ctx cls a va) := by
  unfold reportRecord
  grind [memOk_post, memOk_postEcc, memOk_postWalk]

theorem memOk_readRecord (h : MemOk s) (q die ctx va : Nat) : MemOk (readRecord s q die ctx va).2 := by
  unfold readRecord
  grind [memOk_mk, memOk_engRead, memOk_reportRecord]

theorem memOk_modQueue (h : MemOk s) (q : Nat) (f : Queue → Queue) : MemOk (modQueue s q f) := h

theorem memOk_takeRecords (h : MemOk s) (q n : Nat) : MemOk (takeRecords q n s) := by
  induction n generalizing s with
  | zero => exact h
  | succ n ih =>
    unfold takeRecords
    grind [memOk_modQueue, memOk_readRecord, memOk_takeRecord]

theorem memOk_takeNodes (h : MemOk s) (q n : Nat) : MemOk (takeNodes q n s) := by
  induction n generalizing s with
  | zero => exact h
  | succ n ih =>
    unfold takeNodes
    grind [memOk_modQueue, memOk_takeRecord]

theorem memOk_readGraph (h : MemOk s) (q va n : Nat) : MemOk (readGraph s q va n).2 := by
  unfold readGraph
  grind [memOk_engRead]

theorem memOk_unreadNode (h : MemOk s) (q va cls a : Nat) : MemOk (unreadNode s q va cls a) := by
  unfold unreadNode
  grind [memOk_modQueue, memOk_reportRecord]

theorem memOk_snapshot (h : MemOk s) (q graph : Nat) : MemOk (snapshot s q graph) := by
  unfold snapshot
  grind [memOk_foldl, memOk_modQueue, memOk_post, memOk_readGraph, memOk_unreadNode]

theorem memOk_serveQueue (h : MemOk s) (q : Nat) : MemOk (serveQueue s q) := by
  unfold serveQueue
  grind [memOk_foldl, memOk_modQueue, memOk_snapshot, memOk_takeNodes, memOk_takeRecords]

theorem memOk_takePort (h : MemOk s) (die n : Nat) : MemOk (takePort die n s) := by
  induction n generalizing s with
  | zero => exact h
  | succ n ih =>
    unfold takePort
    grind [memOk_modDie, memOk_takeRecord]

theorem memOk_markEligible (h : MemOk s) (die : Nat) : MemOk (markEligible s die) := by
  unfold markEligible
  grind [memOk_mk, memOk_foldl, memOk_modLaunch]

theorem memOk_resolveLaunch (h : MemOk s) (u c : Nat) : MemOk (resolveLaunch s u c) := by
  unfold resolveLaunch
  grind [memOk_mk, memOk_addLaunch, memOk_leaveTurns, memOk_modLaunch]

theorem memOk_dropLaunch (h : MemOk s) (u : Nat) (e : ErrInfo) : MemOk (dropLaunch s u e) := by
  unfold dropLaunch
  grind [memOk_mk, memOk_launchError, memOk_leaveTurns, memOk_modLaunch]

theorem memOk_answerShape (h : MemOk s) (core : Nat) (refused : Option (BitVec 1)) : MemOk (answerShape s core refused) := h

theorem memOk_serveAsk (h : MemOk s) (held : List Asked) (a : Asked) {t : State} (hr : serveAsk s held a = some t) : MemOk t := by
  unfold serveAsk at hr
  grind [memOk_mk, memOk_answerShape, memOk_dropLaunch, memOk_endWait, memOk_resolveLaunch]

theorem memOk_serveAsks (h : MemOk s) (l l2 : List Asked) : MemOk (serveAsks s l l2) := by
  induction l generalizing s l2 with
  | nil => exact h
  | cons a r ih =>
    unfold serveAsks
    split
    · exact ih (memOk_serveAsk h _ _ ‹_›) _
    · exact ih h _

theorem memOk_updatePredictors (h : MemOk s) (die : Nat) : MemOk (updatePredictors s die) := by
  unfold updatePredictors
  grind [memOk_mk, memOk_foldl, memOk_modDie, memOk_modLaunch]

theorem memOk_giveVerdicts (h : MemOk s) (die : Nat) : MemOk (giveVerdicts s die) := by
  unfold giveVerdicts
  grind [memOk_foldl, memOk_applyVerdict, memOk_modTask]

theorem memOk_spawnTask (h : MemOk s) (u : Nat) (l : Launch) (p : Place) : MemOk (spawnTask s u l p) := by
  unfold spawnTask
  grind [memOk_mk, memOk_leaveTurns, memOk_modCtx, memOk_modLaunch, memOk_toTail]

theorem memOk_placeMember (h : MemOk s) (k u : Nat) (p : Place) (passed : List (Nat × Nat)) : MemOk (placeMember s k u p passed) := by
  unfold placeMember
  grind [memOk_leaveTurns, memOk_resumeTask, memOk_spawnTask, memOk_toTail]

theorem memOk_dispatch (h : MemOk s) (die n : Nat) : MemOk (dispatch die n s) := by
  induction n generalizing s with
  | zero => exact h
  | succ n ih =>
    unfold dispatch
    grind [memOk_placeMember]

theorem memOk_dropHomeless (h : MemOk s) (die : Nat) : MemOk (dropHomeless s die) := by
  unfold dropHomeless
  grind [memOk_foldl, memOk_launchError, memOk_leaveTurns, memOk_modLaunch]

theorem memOk_askPreemption (h : MemOk s) (die : Nat) (long : List Nat) : MemOk (askPreemption s die long) := by
  unfold askPreemption
  grind [memOk_foldl, memOk_modLaunch, memOk_modTask]

theorem memOk_completeLaunches (h : MemOk s) (die : Nat) : MemOk (completeLaunches s die) := by
  unfold completeLaunches
  grind [memOk_mk, memOk_foldl, memOk_modLaunch, memOk_writeEntry]

theorem memOk_endCommand (h : MemOk s) (res : BitVec 2) : MemOk (endCommand s res) := h

theorem memOk_finishCommand (h : MemOk s) : MemOk (finishCommand s) := by
  unfold finishCommand
  grind [memOk_endCommand]

theorem memOk_postFreeze (h : MemOk s) (die : Nat) : MemOk (postFreeze s die) := by
  unfold postFreeze
  grind [memOk_modDie, memOk_post]

theorem outOk_execStokerFrame (h : MemOk s) (die : Nat) (longRunning : List Nat) : OutOk (execStokerFrame die longRunning s) := by
  unfold execStokerFrame
  grind [outOk_next, memOk_foldl, memOk_accDone, memOk_askPreemption, memOk_completeLaunches, memOk_dispatch, memOk_dropHomeless,
    memOk_finishCommand, memOk_giveVerdicts, memOk_markEligible, memOk_postFreeze, memOk_serveAsks, memOk_serveQueue, memOk_takePort,
    memOk_updatePredictors]

theorem outOk_execPriorityAging (h : MemOk s) (who : AgingWho) : OutOk (execPriorityAging who s) := by
  unfold execPriorityAging
  grind [outOk_next, memOk_modLaunch, memOk_modTask, memOk_toTail]

end Sys2Proof.Canonical

/-! SUPPORT. Canonical memories under the host and recovery. Used for O59. -/
namespace Sys2Proof.Canonical

open Sys2Proof Sys2Proof.Machine Sys2Proof.Laws

variable {s : State}

/-! ## Host -/

theorem outOk_onBar (h : MemOk s) (f : State → State) (hf : ∀ s, MemOk s → MemOk (f s)) : OutOk (onBar s f) := by
  unfold onBar
  grind [outOk_next]

theorem memOk_onDie (h : MemOk s) (d : Nat) (f : State → State) (hf : ∀ s, MemOk s → MemOk (f s)) : MemOk (onDie s d f) := by
  unfold onDie
  grind []

theorem memOk_writeQctl (h : MemOk s) (q : BitVec 6) (v : W64) : MemOk (writeQctl s q v) := h

theorem memOk_writeAvs (h : MemOk s) (d : Nat) (v : W64) : MemOk (writeAvs s d v) := by
  unfold writeAvs
  grind [memOk_modDie, memOk_onDie, memOk_postFreeze]

theorem memOk_clearEcc (h : MemOk s) : MemOk (clearEcc s) := by
  unfold clearEcc
  grind [memOk_mk, memOk_onDie]

theorem memOk_clearMatrixCounter (h : MemOk s) : MemOk (clearMatrixCounter s) := by
  unfold clearMatrixCounter
  grind [memOk_modCore, memOk_onDie]

theorem memOk_writeReg (h : MemOk s) (r : HostReg) (v : W64) : MemOk (writeReg s r v) := by
  unfold writeReg
  grind [memOk_mk, memOk_clearEcc, memOk_clearMatrixCounter, memOk_modDie, memOk_modQueue, memOk_onDie, memOk_writeAvs, memOk_writeQctl]

theorem outOk_execRegisterWrite (h : MemOk s) (r : HostReg) (v : W64) : OutOk (execRegisterWrite r v s) := by
  unfold execRegisterWrite
  grind [outOk_next, outOk_onBar, memOk_writeReg]

theorem outOk_execQtailWrite (h : MemOk s) (q : BitVec 6) (v : W64) : OutOk (execQtailWrite q v s) := by
  unfold execQtailWrite
  grind [outOk_next, memOk_modQueue, outOk_onBar]

theorem outOk_execQueueEnable (h : MemOk s) (q : BitVec 6) (v : W64) : OutOk (execQueueEnable q v s) := by
  unfold execQueueEnable
  grind [outOk_next, outOk_onBar, memOk_writeQctl]

theorem outOk_execQueueDisable (h : MemOk s) (q : BitVec 6) (v : W64) : OutOk (execQueueDisable q v s) := by
  unfold execQueueDisable
  grind [outOk_next, outOk_onBar, memOk_writeQctl]

theorem outOk_execGdoorWrite (h : MemOk s) (q : BitVec 6) (v : W64) : OutOk (execGdoorWrite q v s) := by
  unfold execGdoorWrite
  grind [outOk_next, memOk_modQueue, outOk_onBar]

theorem outOk_execGpatchWrite (h : MemOk s) (q : BitVec 6) (v : W64) : OutOk (execGpatchWrite q v s) := by
  unfold execGpatchWrite
  grind [outOk_next, memOk_modQueue, outOk_onBar]

theorem outOk_onCommand (h : MemOk s) (op : BitVec 3) (c : BitVec 6) (f : State → State) (hf : ∀ s, MemOk s → MemOk (f s)) :
    OutOk (onCommand s op c f) := by
  unfold onCommand
  grind [outOk_next, memOk_mk, outOk_onBar]

theorem memOk_postRange (h : MemOk s) (die ctx pa n : Nat) : MemOk (postRange s die ctx pa n) := by
  unfold postRange
  grind [memOk_foldl, memOk_postEcc]

theorem memOk_createCtx (h : MemOk s) (c : Nat) : MemOk (createCtx s c) := by
  unfold createCtx
  grind [memOk_mk, memOk_endCommand, memOk_invalidateAll, memOk_postRange]

theorem outOk_execCreate (h : MemOk s) (c : BitVec 6) : OutOk (execCreate c s) := by
  unfold execCreate
  grind [outOk_next, memOk_createCtx, outOk_onCommand]

theorem memOk_destroyCtx (h : MemOk s) (c : Nat) : MemOk (destroyCtx s c) := by
  unfold destroyCtx
  grind [memOk_mk, memOk_foldl, memOk_endCommand, memOk_invalidateAll, memOk_release]

theorem outOk_execDestroy (h : MemOk s) (c : BitVec 6) : OutOk (execDestroy c s) := by
  unfold execDestroy
  grind [outOk_next, memOk_destroyCtx, outOk_onCommand]

theorem memOk_endInvalidation (h : MemOk s) (c : Nat) : MemOk (endInvalidation s c) := by
  unfold endInvalidation
  grind [memOk_mk, memOk_endCommand]

theorem outOk_execInvasid (h : MemOk s) (c : BitVec 6) : OutOk (execInvasid c s) := by
  unfold execInvasid
  grind [outOk_next, memOk_endInvalidation, memOk_invalidateAll, outOk_onCommand]

theorem outOk_execInvrange (h : MemOk s) (c : BitVec 6) : OutOk (execInvrange c s) := by
  unfold execInvrange
  grind [outOk_next, memOk_endInvalidation, memOk_invalidateRange, outOk_onCommand]

theorem outOk_execCtxcmdBadCommand (h : MemOk s) (op : BitVec 3) (c : BitVec 6) : OutOk (execCtxcmdBadCommand op c s) := by
  unfold execCtxcmdBadCommand
  grind [outOk_next, memOk_endCommand, outOk_onCommand]

theorem memOk_fenceTask (h : MemOk s) (d u : Nat) : MemOk (fenceTask s d u) := by
  unfold fenceTask
  grind [memOk_leaveTurns, memOk_modCtx, memOk_modTask, memOk_noteError]

theorem memOk_fenceColls (h : MemOk s) (d : Nat) : MemOk (fenceColls s d) := by
  unfold fenceColls
  grind [memOk_foldl, memOk_groupOf, memOk_killColl, memOk_modColl]

theorem memOk_loseLines (h : MemOk s) (d : Nat) : MemOk (loseLines s d) := by
  unfold loseLines
  grind [memOk_mk, memOk_foldl, memOk_post]

theorem memOk_postLanes (h : MemOk s) (p stall : Nat) : MemOk (postLanes s p stall) := by
  unfold postLanes
  grind [memOk_mk, memOk_foldl, memOk_post]

theorem memOk_dropLanes (h : MemOk s) (p : Nat) : MemOk (dropLanes s p) := by
  unfold dropLanes
  grind [memOk_postLanes]

theorem memOk_fenceShape (h : MemOk s) (d : Nat) : MemOk (fenceShape s d) := by
  unfold fenceShape
  grind [memOk_mk, memOk_foldl, memOk_dropLaunch]

theorem memOk_fenceDie (h : MemOk s) (d : Nat) : MemOk (fenceDie s d) := by
  unfold fenceDie
  grind [memOk_mk, memOk_foldl, memOk_dropLanes, memOk_fenceColls, memOk_fenceShape, memOk_fenceTask, memOk_loseLines, memOk_modDie, memOk_post]

theorem outOk_execDieFence (h : MemOk s) (v : W64) : OutOk (execDieFence v s) := by
  unfold execDieFence
  grind [outOk_next, memOk_foldl, memOk_fenceDie, outOk_onBar]

theorem outOk_execAtsInvalidateRequest (h : MemOk s) (port page : Nat) : OutOk (execAtsInvalidateRequest port page s) := by
  unfold execAtsInvalidateRequest
  grind [outOk_next, memOk_mk]

theorem memOk_keepOld (h : MemOk s) (key : Nat) : MemOk (keepOld s key) := by
  unfold keepOld
  grind [memOk_foldl, memOk_modQueue]

theorem memOk_outsideWrite (h : MemOk s) (die ctx mt pa : Nat) (b : List Byte) : MemOk (outsideWrite s die ctx mt pa b) := by
  unfold outsideWrite
  grind [memOk_post, memOk_postRange, memOk_writePa]

theorem outOk_execHostWritesToDeviceMemory (h : MemOk s) (addr : Nat) (bytes : List Byte) : OutOk (execHostWritesToDeviceMemory addr bytes s) := by
  unfold execHostWritesToDeviceMemory
  grind [outOk_next, memOk_foldl, memOk_keepOld, outOk_onBar, memOk_outsideWrite]


/-! ## Recovery -/

theorem outOk_execEccCounterClear (h : MemOk s) : OutOk (execEccCounterClear s) := by
  unfold execEccCounterClear
  grind [outOk_next, memOk_clearEcc, outOk_onBar]

theorem outOk_execMatrixCounterClear (h : MemOk s) : OutOk (execMatrixCounterClear s) := by
  unfold execMatrixCounterClear
  grind [outOk_next, memOk_clearMatrixCounter, outOk_onBar]

theorem memOk_freezeAvs (h : MemOk s) (die cls inst : Nat) : MemOk (freezeAvs s die cls inst) := by
  unfold freezeAvs
  grind [memOk_modDie]

theorem outOk_execCorrectedEccError (h : MemOk s) (cls inst : Nat) : OutOk (execCorrectedEccError cls inst s) := by
  unfold execCorrectedEccError
  grind [outOk_next, memOk_mk, memOk_freezeAvs, memOk_post]

theorem memOk_markBad (h : MemOk s) (b : BadWord) : MemOk (markBad s b) := h

theorem memOk_eccMem (h : MemOk s) (addr : Nat) : MemOk (eccMem s addr) := by
  unfold eccMem
  grind [memOk_markBad]

theorem memOk_eccSlice (h : MemOk s) (addr : Nat) : MemOk (eccSlice s addr) := by
  unfold eccSlice
  grind [memOk_markBad]

theorem memOk_eccCache (h : MemOk s) (die addr : Nat) : MemOk (eccCache s die addr) := by
  unfold eccCache
  grind [memOk_markBad, memOk_modDie]

theorem memOk_eccHeld (h : MemOk s) (core tile : Nat) : MemOk (eccHeld s core tile) := by
  unfold eccHeld
  grind [memOk_modTask, memOk_modTileAt, memOk_post]

theorem memOk_eccStore (h : MemOk s) (core n : Nat) : MemOk (eccStore s core n) := by
  unfold eccStore
  grind [memOk_modTask, memOk_post]

theorem memOk_eccCore (h : MemOk s) (core cls : Nat) : MemOk (eccCore s core cls) := by
  unfold eccCore
  grind [memOk_endInError, memOk_post, memOk_settleCore]

theorem outOk_execUncorrectedEccError (h : MemOk s) (site : EccSite) : OutOk (execUncorrectedEccError site s) := by
  unfold execUncorrectedEccError
  grind [outOk_next, memOk_eccCache, memOk_eccCore, memOk_eccHeld, memOk_eccMem, memOk_eccSlice, memOk_eccStore, memOk_modCore, memOk_modTileAt,
    memOk_post]

theorem outOk_execAvsEnable (h : MemOk s) (die : Nat) (v : W64) : OutOk (execAvsEnable die v s) := by
  unfold execAvsEnable
  grind [outOk_next, outOk_onBar, memOk_writeAvs]

theorem outOk_execAvsDisable (h : MemOk s) (die : Nat) (v : W64) : OutOk (execAvsDisable die v s) := by
  unfold execAvsDisable
  grind [outOk_next, outOk_onBar, memOk_writeAvs]

theorem outOk_execAvsRaisePoint (h : MemOk s) (die : Nat) : OutOk (execAvsRaisePoint die s) := by
  unfold execAvsRaisePoint
  grind [outOk_next, memOk_modDie, outOk_onBar, memOk_onDie]

theorem outOk_execAvsResume (h : MemOk s) (die : Nat) : OutOk (execAvsResume die s) := by
  unfold execAvsResume
  grind [outOk_next, memOk_modDie, outOk_onBar, memOk_onDie, memOk_postFreeze]

theorem outOk_execAvsStep (h : MemOk s) (die : Nat) : OutOk (execAvsStep die s) := by
  unfold execAvsStep
  grind [outOk_next, memOk_modDie, memOk_postFreeze]

theorem outOk_execIftStart (h : MemOk s) (v : W64) : OutOk (execIftStart v s) := by
  unfold execIftStart
  grind [outOk_next, memOk_mk, outOk_onBar]

theorem outOk_execIftComplete (h : MemOk s) (failing : BitVec 7) : OutOk (execIftComplete failing s) := by
  unfold execIftComplete
  grind [outOk_next, memOk_mk, memOk_modHearth, memOk_post, memOk_zeroScratch]

theorem memOk_modPort (h : MemOk s) (p : Nat) (f : Port → Port) : MemOk (modPort s p f) := h

theorem memOk_packetNote (h : MemOk s) (die : Nat) (ctx : Option Nat) (a : Nat) : MemOk (packetNote s die ctx a) := by
  unfold packetNote
  grind [memOk_noteHost, memOk_postWalk]

theorem memOk_packetWrites (h : MemOk s) (die : Nat) (k : Packet) : MemOk (packetWrites s die k) := by
  unfold packetWrites
  grind [memOk_foldl, memOk_outsideWrite, memOk_packetNote]

theorem outOk_execFabricPacketReceive (h : MemOk s) (p : Nat) (k : Packet) : OutOk (execFabricPacketReceive p k s) := by
  unfold execFabricPacketReceive
  grind [outOk_next, memOk_modPort, memOk_packetWrites]

theorem memOk_ackWrite (h : MemOk s) (x : Sent) : MemOk (ackWrite s x) := by
  unfold ackWrite
  grind [memOk_ownerTok, memOk_settleCount, memOk_settleTask]

theorem memOk_ackPackets (h : MemOk s) (p : Nat) (seq : BitVec 16) : MemOk (ackPackets s p seq) := by
  unfold ackPackets
  grind [memOk_foldl, memOk_ackWrite, memOk_modPort]

theorem outOk_execFabricAckReceive (h : MemOk s) (p : Nat) (seq : BitVec 16) : OutOk (execFabricAckReceive p seq s) := by
  unfold execFabricAckReceive
  grind [outOk_next, memOk_ackPackets]

theorem outOk_execFabricNakReceive (h : MemOk s) (p : Nat) (seq : BitVec 16) : OutOk (execFabricNakReceive p seq s) := by
  unfold execFabricNakReceive
  grind [outOk_next, memOk_ackPackets, memOk_modPort]

theorem outOk_execAckIdleTimer (h : MemOk s) (p : Nat) : OutOk (execAckIdleTimer p s) := by
  unfold execAckIdleTimer
  grind [outOk_next, memOk_modPort]

theorem memOk_removeAcc (h : MemOk s) (core n : Nat) (e : Acc) : MemOk (removeAcc s core n e) := by
  unfold removeAcc
  grind [memOk_accDone, memOk_accessError, memOk_dropOrdered, memOk_finishAcc, memOk_modCore]

theorem memOk_removeAccs (h : MemOk s) (core : Nat) (hit : Nat → Acc → Bool) : MemOk (removeAccs s core hit) := by
  unfold removeAccs
  grind [memOk_foldl, memOk_removeAcc]

theorem memOk_removeRunner (h : MemOk s) (core ch : Nat) (hit : RRun → Bool) : MemOk (removeRunner s core ch hit) := by
  unfold removeRunner
  grind [memOk_failRunner, memOk_groupOf, memOk_killColl]

theorem memOk_loseSent (h : MemOk s) (p : Nat) : MemOk (loseSent s p) := by
  unfold loseSent
  grind [memOk_foldl, memOk_loseWrite, memOk_modPort, memOk_removeRunner]

theorem memOk_emptyPort (h : MemOk s) (p : Nat) (state : BitVec 2) : MemOk (emptyPort s p state) := by
  unfold emptyPort
  grind [memOk_loseSent, memOk_modPort]

theorem memOk_removeFabric (h : MemOk s) (p lane : Nat) (before : W64) : MemOk (removeFabric s p lane before) := by
  unfold removeFabric
  grind [memOk_foldl, memOk_dropLanes, memOk_emptyPort, memOk_post, memOk_removeAccs, memOk_removeRunner]

theorem outOk_execPartnerTimeout (h : MemOk s) (p : Nat) : OutOk (execPartnerTimeout p s) := by
  unfold execPartnerTimeout
  grind [outOk_next, memOk_removeFabric]

theorem memOk_endThrough (h : MemOk s) (hit : State → Nat → Nat → Bool) : MemOk (endThrough s hit) := by
  unfold endThrough
  grind [memOk_foldl, memOk_removeAccs, memOk_removeRunner]

theorem outOk_execCxlContainment (h : MemOk s) (p : Nat) : OutOk (execCxlContainment p s) := by
  unfold execCxlContainment
  grind [outOk_next, memOk_mk, memOk_endThrough]

theorem outOk_execHostLinkDown (h : MemOk s) (p : Nat) : OutOk (execHostLinkDown p s) := by
  unfold execHostLinkDown
  grind [outOk_next, memOk_mk, memOk_endThrough]

theorem outOk_execLaneFailure (h : MemOk s) (p lane : Nat) : OutOk (execLaneFailure p lane s) := by
  unfold execLaneFailure
  grind [outOk_next, memOk_dropLanes, memOk_modPort, memOk_removeFabric]

theorem outOk_execRetrainComplete (h : MemOk s) (p stall : Nat) : OutOk (execRetrainComplete p stall s) := by
  unfold execRetrainComplete
  grind [outOk_next, memOk_modPort, memOk_postLanes]

theorem outOk_execRetrain (h : MemOk s) (p : Nat) (bad : BitVec 17) : OutOk (execRetrain p bad s) := by
  unfold execRetrain
  grind [outOk_next, memOk_modPort, outOk_onBar]

theorem outOk_execUp (h : MemOk s) (p : Nat) : OutOk (execUp p s) := by
  unfold execUp
  grind [outOk_next, memOk_mk, memOk_modPort, outOk_onBar]

theorem outOk_execDown (h : MemOk s) (p : Nat) : OutOk (execDown p s) := by
  unfold execDown
  grind [outOk_next, memOk_dropLanes, memOk_emptyPort, outOk_onBar]

theorem memOk_beginStart (h : MemOk s) (v : StartView) : MemOk (beginStart s v) := by
  unfold beginStart
  grind [memOk_mk, memOk_cleared]

theorem memOk_enterBisque (h : MemOk s) (rom : BitVec 4) (st : Nat → BitVec 4) : MemOk (enterBisque s rom st) := by
  unfold enterBisque
  grind [memOk_mk, memOk_cleared]

theorem memOk_failBoot (h : MemOk s) (reason : BitVec 8) : MemOk (failBoot s reason) := by
  unfold failBoot
  grind [memOk_mk, memOk_cleared, memOk_enterBisque]

theorem outOk_execPowerOn (h : MemOk s) (v : StartView) : OutOk (execPowerOn v s) := by
  unfold execPowerOn
  grind [outOk_next, memOk_mk, memOk_beginStart, memOk_enterBisque]

theorem outOk_execHostReset (h : MemOk s) (v : StartView) : OutOk (execHostReset v s) := by
  unfold execHostReset
  grind [outOk_next, memOk_beginStart, memOk_failBoot]

theorem outOk_execStartComplete (h : MemOk s) (e : StartEnd) : OutOk (execStartComplete e s) := by
  unfold execStartComplete
  grind [outOk_next, memOk_mk, memOk_post]

theorem outOk_execStartTimeout (h : MemOk s) (reason : BitVec 8) : OutOk (execStartTimeout reason s) := by
  unfold execStartTimeout
  grind [outOk_next, memOk_failBoot]

theorem outOk_execRestartDelay (h : MemOk s) (v : StartView) : OutOk (execRestartDelay v s) := by
  unfold execRestartDelay
  grind [outOk_next, memOk_beginStart]

theorem outOk_execRestart (h : MemOk s) (v : StartView) : OutOk (execRestart v s) := by
  unfold execRestart
  grind [outOk_next, memOk_mk, memOk_beginStart]

theorem outOk_respond (h : MemOk s) (r : State → Spdm) : OutOk (respond s r) := by
  unfold respond
  grind [outOk_next, memOk_mk]

theorem memOk_readSensors (h : MemOk s) (die tj thbm : Nat) : MemOk (readSensors s die tj thbm) := h

theorem outOk_execThermtrip (h : MemOk s) (die tj thbm : Nat) : OutOk (execThermtrip die tj thbm s) := by
  unfold execThermtrip
  grind [outOk_next, memOk_mk, memOk_failBoot, memOk_readSensors]

theorem outOk_execThermalClockStep (h : MemOk s) (die tj thbm : Nat) : OutOk (execThermalClockStep die tj thbm s) := by
  unfold execThermalClockStep
  grind [outOk_next, memOk_modDie, memOk_readSensors]

theorem outOk_execPowerLoss (h : MemOk s) (standby : Bool) : OutOk (execPowerLoss standby s) := by
  unfold execPowerLoss
  grind [outOk_next, memOk_mk, memOk_cleared, memOk_failBoot]

end Sys2Proof.Canonical

/-! SUPPORT. Canonical memories under instructions, bundles, moves and steps. Used for O59. -/
namespace Sys2Proof.Canonical

open Sys2Proof Sys2Proof.Machine Sys2Proof.Laws

variable {s : State}

/-! ## Dispatch -/

/-- Every instruction keeps both memories canonical: each arm names the shared operation that its meaning is built on. -/
theorem outOk_exec (h : MemOk s) (i : Instr) : OutOk (exec i s) := by
  cases i with
  | add o => exact (outOk_sBinary h .. : OutOk (execAdd o s))
  | sub o => exact (outOk_sBinary h .. : OutOk (execSub o s))
  | mul o => exact (outOk_sBinary h .. : OutOk (execMul o s))
  | mulh o => exact (outOk_sBinary h .. : OutOk (execMulh o s))
  | mulhu o => exact (outOk_sBinary h .. : OutOk (execMulhu o s))
  | div o => exact (outOk_sBinary h .. : OutOk (execDiv o s))
  | divu o => exact (outOk_sBinary h .. : OutOk (execDivu o s))
  | rem o => exact (outOk_sBinary h .. : OutOk (execRem o s))
  | remu o => exact (outOk_sBinary h .. : OutOk (execRemu o s))
  | and o => exact (outOk_sBinary h .. : OutOk (execAnd o s))
  | or o => exact (outOk_sBinary h .. : OutOk (execOr o s))
  | xor o => exact (outOk_sBinary h .. : OutOk (execXor o s))
  | andn o => exact (outOk_sBinary h .. : OutOk (execAndn o s))
  | shl o => exact (outOk_sBinary h .. : OutOk (execShl o s))
  | shr o => exact (outOk_sBinary h .. : OutOk (execShr o s))
  | sar o => exact (outOk_sBinary h .. : OutOk (execSar o s))
  | ror o => exact (outOk_sBinary h .. : OutOk (execRor o s))
  | min o => exact (outOk_sBinary h .. : OutOk (execMin o s))
  | max o => exact (outOk_sBinary h .. : OutOk (execMax o s))
  | minu o => exact (outOk_sBinary h .. : OutOk (execMinu o s))
  | maxu o => exact (outOk_sBinary h .. : OutOk (execMaxu o s))
  | clz o => exact (outOk_sUnary h .. : OutOk (execClz o s))
  | ctz o => exact (outOk_sUnary h .. : OutOk (execCtz o s))
  | popc o => exact (outOk_sUnary h .. : OutOk (execPopc o s))
  | sext o => exact (outOk_sUnary h .. : OutOk (execSext o s))
  | zext o => exact (outOk_sUnary h .. : OutOk (execZext o s))
  | addc o => exact (outOk_execAddc h _ : OutOk (execAddc o s))
  | subb o => exact (outOk_execSubb h _ : OutOk (execSubb o s))
  | cmpeq o => exact (outOk_sCompare h .. : OutOk (execCmpeq o s))
  | cmplt o => exact (outOk_sCompare h .. : OutOk (execCmplt o s))
  | cmpltu o => exact (outOk_sCompare h .. : OutOk (execCmpltu o s))
  | cmple o => exact (outOk_sCompare h .. : OutOk (execCmple o s))
  | cmpleu o => exact (outOk_sCompare h .. : OutOk (execCmpleu o s))
  | pand o => exact (outOk_sPred h .. : OutOk (execPand o s))
  | por o => exact (outOk_sPred h .. : OutOk (execPor o s))
  | pxor o => exact (outOk_sPred h .. : OutOk (execPxor o s))
  | movx o => exact (outOk_execMovx h _ : OutOk (execMovx o s))
  | movp o => exact (outOk_guarded h _ _ (by exact fun _ hs => hs) : OutOk (execMovp o s))
  | movfp o => exact (outOk_guarded h _ _ (by exact fun _ hs => hs) : OutOk (execMovfp o s))
  | gset o => exact (outOk_guarded h _ _ (by exact fun _ hs => hs) : OutOk (execGset o s))
  | gget o => exact (outOk_guarded h _ _ (by exact fun _ hs => hs) : OutOk (execGget o s))
  | hset o => exact (outOk_guarded h _ _ (by exact fun _ hs => hs) : OutOk (execHset o s))
  | hget o => exact (outOk_guarded h _ _ (by exact fun _ hs => hs) : OutOk (execHget o s))
  | rdvc o => exact (outOk_guarded h _ _ (by exact fun _ hs => hs) : OutOk (execRdvc o s))
  | tokl o => exact (outOk_guarded h _ _ (by exact fun _ hs => hs) : OutOk (execTokl o s))
  | movi o => exact (outOk_guarded h _ _ (by exact fun _ hs => hs) : OutOk (execMovi o s))
  | movsh o => exact (outOk_guarded h _ _ (by exact fun _ hs => hs) : OutOk (execMovsh o s))
  | frand o => exact (outOk_guarded h _ _ (by exact fun _ hs => hs) : OutOk (execFrand o s))
  | guard o => exact (outOk_execGuard h _ : OutOk (execGuard o s))
  | addi o => exact (outOk_sImm h .. : OutOk (execAddi o s))
  | andi o => exact (outOk_sImm h .. : OutOk (execAndi o s))
  | ori o => exact (outOk_sImm h .. : OutOk (execOri o s))
  | xori o => exact (outOk_sImm h .. : OutOk (execXori o s))
  | shli o => exact (outOk_sImm h .. : OutOk (execShli o s))
  | shri o => exact (outOk_sImm h .. : OutOk (execShri o s))
  | sari o => exact (outOk_sImm h .. : OutOk (execSari o s))
  | rori o => exact (outOk_sImm h .. : OutOk (execRori o s))
  | muli o => exact (outOk_sImm h .. : OutOk (execMuli o s))
  | cmpeqi o => exact (outOk_sCompareI h .. : OutOk (execCmpeqi o s))
  | cmplti o => exact (outOk_sCompareI h .. : OutOk (execCmplti o s))
  | cmpltui o => exact (outOk_sCompareI h .. : OutOk (execCmpltui o s))
  | cmplei o => exact (outOk_sCompareI h .. : OutOk (execCmplei o s))
  | cmpleui o => exact (outOk_sCompareI h .. : OutOk (execCmpleui o s))
  | vadd o => exact (outOk_vFused h .. : OutOk (execVadd o s))
  | vsub o => exact (outOk_vFused h .. : OutOk (execVsub o s))
  | vmul o => exact (outOk_vFused h .. : OutOk (execVmul o s))
  | vfma o => exact (outOk_vFused h .. : OutOk (execVfma o s))
  | vfms o => exact (outOk_vFused h .. : OutOk (execVfms o s))
  | vfnma o => exact (outOk_vFused h .. : OutOk (execVfnma o s))
  | vmin o => exact (outOk_vMap h .. : OutOk (execVmin o s))
  | vmax o => exact (outOk_vMap h .. : OutOk (execVmax o s))
  | vabs o => exact (outOk_vMap h .. : OutOk (execVabs o s))
  | vneg o => exact (outOk_vMap h .. : OutOk (execVneg o s))
  | vdiv o => exact (outOk_vMap h .. : OutOk (execVdiv o s))
  | vsqrt o => exact (outOk_vMap h .. : OutOk (execVsqrt o s))
  | vand o => exact (outOk_vMap h .. : OutOk (execVand o s))
  | vor o => exact (outOk_vMap h .. : OutOk (execVor o s))
  | vxor o => exact (outOk_vMap h .. : OutOk (execVxor o s))
  | vandn o => exact (outOk_vMap h .. : OutOk (execVandn o s))
  | vmulhi o => exact (outOk_vMap h .. : OutOk (execVmulhi o s))
  | vmulhiu o => exact (outOk_vMap h .. : OutOk (execVmulhiu o s))
  | vclass o => exact (outOk_vMap h .. : OutOk (execVclass o s))
  | vmov o => exact (outOk_vMap h .. : OutOk (execVmov o s))
  | vclz o => exact (outOk_vMap h .. : OutOk (execVclz o s))
  | vpopc o => exact (outOk_vMap h .. : OutOk (execVpopc o s))
  | vshl o => exact (outOk_vShiftOp h .. : OutOk (execVshl o s))
  | vshr o => exact (outOk_vShiftOp h .. : OutOk (execVshr o s))
  | vsar o => exact (outOk_vShiftOp h .. : OutOk (execVsar o s))
  | vshli o => exact (outOk_vShiftOp h .. : OutOk (execVshli o s))
  | vshri o => exact (outOk_vShiftOp h .. : OutOk (execVshri o s))
  | vsari o => exact (outOk_vShiftOp h .. : OutOk (execVsari o s))
  | vadc o => exact (outOk_vCarry h .. : OutOk (execVadc o s))
  | vsbc o => exact (outOk_vCarry h .. : OutOk (execVsbc o s))
  | vmacw o => exact (outOk_vOp h _ _ _ _ (by exact fun _ _ hs => hs) : OutOk (execVmacw o s))
  | vsel o => exact (outOk_vOp h _ _ _ _ (by exact fun _ _ hs => hs) : OutOk (execVsel o s))
  | vmovx o => exact (outOk_vOp h _ _ _ _ (by exact fun _ _ hs => hs) : OutOk (execVmovx o s))
  | vbcast o => exact (outOk_vOp h _ _ _ _ (by exact fun _ _ hs => hs) : OutOk (execVbcast o s))
  | vperm o => exact (outOk_vOp h _ _ _ _ (by exact fun _ _ hs => hs) : OutOk (execVperm o s))
  | viota o => exact (outOk_vOp h _ _ _ _ (by exact fun _ _ hs => hs) : OutOk (execViota o s))
  | vcvt o => exact (outOk_vOp h _ _ _ _ (by exact fun _ _ hs => hs) : OutOk (execVcvt o s))
  | vqnt o => exact (outOk_vOp h _ _ _ _ (by exact fun _ _ hs => hs) : OutOk (execVqnt o s))
  | vdqnt o => exact (outOk_vOp h _ _ _ _ (by exact fun _ _ hs => hs) : OutOk (execVdqnt o s))
  | vpack o => exact (outOk_vOp h _ _ _ _ (by exact fun _ _ hs => hs) : OutOk (execVpack o s))
  | vunpk o => exact (outOk_vOp h _ _ _ _ (by exact fun _ _ hs => hs) : OutOk (execVunpk o s))
  | vscan o => exact (outOk_vOp h _ _ _ _ (by exact fun _ _ hs => hs) : OutOk (execVscan o s))
  | vcmpeq o => exact (outOk_vCompare h .. : OutOk (execVcmpeq o s))
  | vcmplt o => exact (outOk_vCompare h .. : OutOk (execVcmplt o s))
  | vcmple o => exact (outOk_vCompare h .. : OutOk (execVcmple o s))
  | vcmpltu o => exact (outOk_vCompare h .. : OutOk (execVcmpltu o s))
  | vcmpleu o => exact (outOk_vCompare h .. : OutOk (execVcmpleu o s))
  | vext o => exact (outOk_execVext h _ : OutOk (execVext o s))
  | vredadd o => exact (outOk_vReduce h .. : OutOk (execVredadd o s))
  | vredmax o => exact (outOk_vReduce h .. : OutOk (execVredmax o s))
  | vredmin o => exact (outOk_vReduce h .. : OutOk (execVredmin o s))
  | kand o => exact (outOk_kOp h .. : OutOk (execKand o s))
  | kor o => exact (outOk_kOp h .. : OutOk (execKor o s))
  | kxor o => exact (outOk_kOp h .. : OutOk (execKxor o s))
  | kmov o => exact (outOk_kOp h .. : OutOk (execKmov o s))
  | kpopc o => exact (outOk_kCount h .. : OutOk (execKpopc o s))
  | kfirst o => exact (outOk_kCount h .. : OutOk (execKfirst o s))
  | fexp2 o => exact (outOk_fTrans h .. : OutOk (execFexp2 o s))
  | flog2 o => exact (outOk_fTrans h .. : OutOk (execFlog2 o s))
  | frcp o => exact (outOk_fTrans h .. : OutOk (execFrcp o s))
  | frsq o => exact (outOk_fTrans h .. : OutOk (execFrsq o s))
  | fsinpi o => exact (outOk_fTrans h .. : OutOk (execFsinpi o s))
  | fcospi o => exact (outOk_fTrans h .. : OutOk (execFcospi o s))
  | ftanh o => exact (outOk_fTrans h .. : OutOk (execFtanh o s))
  | fsigm o => exact (outOk_fTrans h .. : OutOk (execFsigm o s))
  | ferf o => exact (outOk_fTrans h .. : OutOk (execFerf o s))
  | fmovx o => exact (outOk_execFmovx h _ : OutOk (execFmovx o s))
  | dpt o => exact (outOk_dOp h .. : OutOk (execDpt o s))
  | dfrom o => exact (outOk_dOp h .. : OutOk (execDfrom o s))
  | dtag o => exact (outOk_dOp h .. : OutOk (execDtag o s))
  | dtags o => exact (outOk_dOp h .. : OutOk (execDtags o s))
  | dmov o => exact (outOk_dOp h .. : OutOk (execDmov o s))
  | dsupp o => exact (outOk_dOp h .. : OutOk (execDsupp o s))
  | dadd o => exact (outOk_dBinary h .. : OutOk (execDadd o s))
  | dsub o => exact (outOk_dBinary h .. : OutOk (execDsub o s))
  | dmul o => exact (outOk_dBinary h .. : OutOk (execDmul o s))
  | dmax o => exact (outOk_dBinary h .. : OutOk (execDmax o s))
  | dmin o => exact (outOk_dBinary h .. : OutOk (execDmin o s))
  | daff o => exact (outOk_dUnary h .. : OutOk (execDaff o s))
  | dmap o => exact (outOk_dUnary h .. : OutOk (execDmap o s))
  | dcanon o => exact (outOk_dUnary h .. : OutOk (execDcanon o s))
  | dmom o => exact (outOk_dRead h .. : OutOk (execDmom o s))
  | dqnt o => exact (outOk_dRead h .. : OutOk (execDqnt o s))
  | dcdf o => exact (outOk_dRead h .. : OutOk (execDcdf o s))
  | mcall o => exact (outOk_execMcall h _ : OutOk (execMcall o s))
  | mclr o => exact (outOk_execMclr h _ : OutOk (execMclr o s))
  | mstat o => exact (outOk_execMstat h _ : OutOk (execMstat o s))
  | msig o => exact (outOk_execMsig h _ : OutOk (execMsig o s))
  | mabort o => exact (outOk_execMabort h _ : OutOk (execMabort o s))
  | mload o => exact (outOk_execMload h _ : OutOk (execMload o s))
  | ldB o => exact (outOk_lScalar h .. : OutOk (execLdB o s))
  | ldBz o => exact (outOk_lScalar h .. : OutOk (execLdBz o s))
  | ldH o => exact (outOk_lScalar h .. : OutOk (execLdH o s))
  | ldHz o => exact (outOk_lScalar h .. : OutOk (execLdHz o s))
  | ldW o => exact (outOk_lScalar h .. : OutOk (execLdW o s))
  | ldWz o => exact (outOk_lScalar h .. : OutOk (execLdWz o s))
  | ldD o => exact (outOk_lScalar h .. : OutOk (execLdD o s))
  | ldxD o => exact (outOk_lScalar h .. : OutOk (execLdxD o s))
  | ldxW o => exact (outOk_lScalar h .. : OutOk (execLdxW o s))
  | ldQ o => exact (outOk_lLoad h .. : OutOk (execLdQ o s))
  | ldv256 o => exact (outOk_lLoad h .. : OutOk (execLdv256 o s))
  | ldv512 o => exact (outOk_lLoad h .. : OutOk (execLdv512 o s))
  | ldv1024 o => exact (outOk_lLoad h .. : OutOk (execLdv1024 o s))
  | ldk o => exact (outOk_lLoad h .. : OutOk (execLdk o s))
  | ldd o => exact (outOk_lLoad h .. : OutOk (execLdd o s))
  | stB o => exact (outOk_lStore h .. : OutOk (execStB o s))
  | stH o => exact (outOk_lStore h .. : OutOk (execStH o s))
  | stW o => exact (outOk_lStore h .. : OutOk (execStW o s))
  | stD o => exact (outOk_lStore h .. : OutOk (execStD o s))
  | stQ o => exact (outOk_lStore h .. : OutOk (execStQ o s))
  | stv256 o => exact (outOk_lStore h .. : OutOk (execStv256 o s))
  | stv512 o => exact (outOk_lStore h .. : OutOk (execStv512 o s))
  | stv1024 o => exact (outOk_lStore h .. : OutOk (execStv1024 o s))
  | stk o => exact (outOk_lStore h .. : OutOk (execStk o s))
  | std o => exact (outOk_lStore h .. : OutOk (execStd o s))
  | stxD o => exact (outOk_lStore h .. : OutOk (execStxD o s))
  | stxW o => exact (outOk_lStore h .. : OutOk (execStxW o s))
  | vgather o => exact (outOk_execVgather h _ : OutOk (execVgather o s))
  | vscatter o => exact (outOk_execVscatter h _ : OutOk (execVscatter o s))
  | ldaW o => exact (outOk_lAcquire h .. : OutOk (execLdaW o s))
  | ldaD o => exact (outOk_lAcquire h .. : OutOk (execLdaD o s))
  | stlW o => exact (outOk_lRelease h .. : OutOk (execStlW o s))
  | stlD o => exact (outOk_lRelease h .. : OutOk (execStlD o s))
  | fence o => exact (outOk_execFence h _ : OutOk (execFence o s))
  | drain o => exact (outOk_execDrain h _ : OutOk (execDrain o s))
  | pref o => exact (outOk_execPref h _ : OutOk (execPref o s))
  | aaddW o => exact (outOk_lAtomic h .. : OutOk (execAaddW o s))
  | aandW o => exact (outOk_lAtomic h .. : OutOk (execAandW o s))
  | aorW o => exact (outOk_lAtomic h .. : OutOk (execAorW o s))
  | axorW o => exact (outOk_lAtomic h .. : OutOk (execAxorW o s))
  | aminW o => exact (outOk_lAtomic h .. : OutOk (execAminW o s))
  | amaxW o => exact (outOk_lAtomic h .. : OutOk (execAmaxW o s))
  | aminuW o => exact (outOk_lAtomic h .. : OutOk (execAminuW o s))
  | amaxuW o => exact (outOk_lAtomic h .. : OutOk (execAmaxuW o s))
  | aswpW o => exact (outOk_lAtomic h .. : OutOk (execAswpW o s))
  | acasW o => exact (outOk_lAtomic h .. : OutOk (execAcasW o s))
  | afaddW o => exact (outOk_lAtomic h .. : OutOk (execAfaddW o s))
  | aaddD o => exact (outOk_lAtomic h .. : OutOk (execAaddD o s))
  | aandD o => exact (outOk_lAtomic h .. : OutOk (execAandD o s))
  | aorD o => exact (outOk_lAtomic h .. : OutOk (execAorD o s))
  | axorD o => exact (outOk_lAtomic h .. : OutOk (execAxorD o s))
  | aminD o => exact (outOk_lAtomic h .. : OutOk (execAminD o s))
  | amaxD o => exact (outOk_lAtomic h .. : OutOk (execAmaxD o s))
  | aminuD o => exact (outOk_lAtomic h .. : OutOk (execAminuD o s))
  | amaxuD o => exact (outOk_lAtomic h .. : OutOk (execAmaxuD o s))
  | aswpD o => exact (outOk_lAtomic h .. : OutOk (execAswpD o s))
  | acasD o => exact (outOk_lAtomic h .. : OutOk (execAcasD o s))
  | oadd o => exact (outOk_lOrdered h .. : OutOk (execOadd o s))
  | oswp o => exact (outOk_lOrdered h .. : OutOk (execOswp o s))
  | ocas o => exact (outOk_lOrdered h .. : OutOk (execOcas o s))
  | copy o => exact (outOk_cIssue h .. : OutOk (execCopy o s))
  | copy2 o => exact (outOk_cIssue h .. : OutOk (execCopy2 o s))
  | send o => exact (outOk_cIssue h .. : OutOk (execSend o s))
  | fetch o => exact (outOk_cIssue h .. : OutOk (execFetch o s))
  | scopy o => exact (outOk_cIssue h .. : OutOk (execScopy o s))
  | coll o => exact (outOk_cIssue h .. : OutOk (execColl o s))
  | czero o => exact (outOk_cIssue h .. : OutOk (execCzero o s))
  | cflush o => exact (outOk_cIssue h .. : OutOk (execCflush o s))
  | bprep o => exact (outOk_execBprep h _ : OutOk (execBprep o s))
  | bcall o => exact (outOk_execBcall h _ : OutOk (execBcall o s))
  | bprepx o => exact (outOk_execBprepx h _ : OutOk (execBprepx o s))
  | bcallx o => exact (outOk_execBcallx h _ : OutOk (execBcallx o s))
  | ret o => exact (outOk_execRet h _ : OutOk (execRet o s))
  | loop o => exact (outOk_execLoop h _ : OutOk (execLoop o s))
  | loopi o => exact (outOk_execLoopi h _ : OutOk (execLoopi o s))
  | trap o => exact (outOk_execTrap h _ : OutOk (execTrap o s))
  | syscall o => exact (outOk_execSyscall h _ : OutOk (execSyscall o s))
  | eret o => exact (outOk_eretOp h .. : OutOk (execEret o s))
  | eretS o => exact (outOk_eretOp h .. : OutOk (execEretS o s))
  | twait o => exact (outOk_execTwait h _ : OutOk (execTwait o s))
  | tpoll o => exact (outOk_execTpoll h _ : OutOk (execTpoll o s))
  | waitwp o => exact (outOk_execWaitwp h _ : OutOk (execWaitwp o s))
  | setfmt o => exact (outOk_execSetfmt h _ : OutOk (execSetfmt o s))
  | setbank o => exact (outOk_execSetbank h _ : OutOk (execSetbank o s))
  | sync o => exact (outOk_execSync h _ : OutOk (execSync o s))
  | mfs o => exact (outOk_execMfs h _ : OutOk (execMfs o s))
  | mts o => exact (outOk_execMts h _ : OutOk (execMts o s))
  | ifence o => exact (outOk_execIfence h _ : OutOk (execIfence o s))
  | ovl o => exact (outOk_execOvl h _ : OutOk (execOvl o s))
  | launch o => exact (outOk_launchOp h .. : OutOk (execLaunch o s))
  | launchg o => exact (outOk_launchOp h .. : OutOk (execLaunchg o s))
  | shape o => exact (outOk_execShape h _ : OutOk (execShape o s))
  | predict o => exact (outOk_execPredict h _ : OutOk (execPredict o s))
  | alloc o => exact (outOk_execAlloc h _ : OutOk (execAlloc o s))
  | free o => exact (outOk_execFree h _ : OutOk (execFree o s))
  | yield o => exact (outOk_execYield h _ : OutOk (execYield o s))
  | halt o => exact (outOk_execHalt h _ : OutOk (execHalt o s))
  | evset o => exact (outOk_eventOp h .. : OutOk (execEvset o s))
  | evsetClear o => exact (outOk_eventOp h .. : OutOk (execEvsetClear o s))
  | evwait o => exact (outOk_execEvwait h _ : OutOk (execEvwait o s))
  | endR o => exact (outOk_execEndR h _ : OutOk (execEndR o s))
  | lda o => exact (outOk_execLda h _ : OutOk (execLda o s))
  | ldb o => exact (outOk_execLdb h _ : OutOk (execLdb o s))
  | ldsa o => exact (outOk_execLdsa h _ : OutOk (execLdsa o s))
  | ldsb o => exact (outOk_execLdsb h _ : OutOk (execLdsb o s))
  | mma o => exact (outOk_execMma h _ : OutOk (execMma o s))
  | zero o => exact (outOk_execZero h _ : OutOk (execZero o s))
  | tld o => exact (outOk_execTld h _ : OutOk (execTld o s))
  | epi o => exact (outOk_execEpi h _ : OutOk (execEpi o s))
  | stt o => exact (outOk_execStt h _ : OutOk (execStt o s))
  | sigchk o => exact (outOk_execSigchk h _ : OutOk (execSigchk o s))
  | loopMicroOp o => exact (outOk_execLoopMicroOp h _ : OutOk (execLoopMicroOp o s))
  | endl o => exact (outOk_execEndl h _ : OutOk (execEndl o s))
  | gadv o => exact (outOk_execGadv h _ : OutOk (execGadv o s))
  | setp o => exact (outOk_execSetp h _ : OutOk (execSetp o s))
  | powerOn v => exact (outOk_execPowerOn h _ : OutOk (execPowerOn v s))
  | hostReset v => exact (outOk_execHostReset h _ : OutOk (execHostReset v s))
  | startComplete v => exact (outOk_execStartComplete h _ : OutOk (execStartComplete v s))
  | startTimeout reason => exact (outOk_execStartTimeout h _ : OutOk (execStartTimeout reason s))
  | restartDelay v => exact (outOk_execRestartDelay h _ : OutOk (execRestartDelay v s))
  | restart v => exact (outOk_execRestart h _ : OutOk (execRestart v s))
  | getVersion => exact (outOk_respond h .. : OutOk (execGetVersion s))
  | getCapabilities => exact (outOk_respond h .. : OutOk (execGetCapabilities s))
  | negotiateAlgorithms => exact (outOk_respond h .. : OutOk (execNegotiateAlgorithms s))
  | getDigests => exact (outOk_respond h .. : OutOk (execGetDigests s))
  | getCertificate slot off len => exact (outOk_respond h .. : OutOk (execGetCertificate slot off len s))
  | challenge slot nonce => exact (outOk_respond h .. : OutOk (execChallenge slot nonce s))
  | getMeasurements block => exact (outOk_respond h .. : OutOk (execGetMeasurements block s))
  | spdmUnsupportedRequest code => exact (outOk_respond h .. : OutOk (execSpdmUnsupportedRequest code s))
  | thermtrip die tj thbm => exact (outOk_execThermtrip h _ _ _ : OutOk (execThermtrip die tj thbm s))
  | thermalClockStep die tj thbm => exact (outOk_execThermalClockStep h _ _ _ : OutOk (execThermalClockStep die tj thbm s))
  | registerWrite r v => exact (outOk_execRegisterWrite h _ _ : OutOk (execRegisterWrite r v s))
  | qtailWrite q v => exact (outOk_execQtailWrite h _ _ : OutOk (execQtailWrite q v s))
  | queueEnable q v => exact (outOk_execQueueEnable h _ _ : OutOk (execQueueEnable q v s))
  | queueDisable q v => exact (outOk_execQueueDisable h _ _ : OutOk (execQueueDisable q v s))
  | gdoorWrite q v => exact (outOk_execGdoorWrite h _ _ : OutOk (execGdoorWrite q v s))
  | gpatchWrite q v => exact (outOk_execGpatchWrite h _ _ : OutOk (execGpatchWrite q v s))
  | create c => exact (outOk_execCreate h _ : OutOk (execCreate c s))
  | destroy c => exact (outOk_execDestroy h _ : OutOk (execDestroy c s))
  | invasid c => exact (outOk_execInvasid h _ : OutOk (execInvasid c s))
  | invrange c => exact (outOk_execInvrange h _ : OutOk (execInvrange c s))
  | ctxcmdBadCommand op c => exact (outOk_execCtxcmdBadCommand h _ _ : OutOk (execCtxcmdBadCommand op c s))
  | dieFence v => exact (outOk_execDieFence h _ : OutOk (execDieFence v s))
  | eccCounterClear => exact (outOk_execEccCounterClear h : OutOk (execEccCounterClear s))
  | matrixCounterClear => exact (outOk_execMatrixCounterClear h : OutOk (execMatrixCounterClear s))
  | avsEnable die v => exact (outOk_execAvsEnable h _ _ : OutOk (execAvsEnable die v s))
  | avsDisable die v => exact (outOk_execAvsDisable h _ _ : OutOk (execAvsDisable die v s))
  | avsRaisePoint die => exact (outOk_execAvsRaisePoint h _ : OutOk (execAvsRaisePoint die s))
  | avsResume die => exact (outOk_execAvsResume h _ : OutOk (execAvsResume die s))
  | avsStep die => exact (outOk_execAvsStep h _ : OutOk (execAvsStep die s))
  | iftStart v => exact (outOk_execIftStart h _ : OutOk (execIftStart v s))
  | iftComplete failing => exact (outOk_execIftComplete h _ : OutOk (execIftComplete failing s))
  | retrain p bad => exact (outOk_execRetrain h _ _ : OutOk (execRetrain p bad s))
  | up p => exact (outOk_execUp h _ : OutOk (execUp p s))
  | down p => exact (outOk_execDown h _ : OutOk (execDown p s))
  | atsInvalidateRequest port page => exact (outOk_execAtsInvalidateRequest h _ _ : OutOk (execAtsInvalidateRequest port page s))
  | stokerFrame die longRunning => exact (outOk_execStokerFrame h _ _ : OutOk (execStokerFrame die longRunning s))
  | priorityAging who => exact (outOk_execPriorityAging h _ : OutOk (execPriorityAging who s))
  | taskStart task => exact (outOk_execTaskStart h _ : OutOk (execTaskStart task s))
  | virtualCycleAdvance task => exact (outOk_execVirtualCycleAdvance h _ : OutOk (execVirtualCycleAdvance task s))
  | resultLanding core => exact (outOk_execResultLanding h _ : OutOk (execResultLanding core s))
  | fmtWriteEffect core => exact (outOk_execFmtWriteEffect h _ : OutOk (execFmtWriteEffect core s))
  | preparedTransferTrigger core => exact (outOk_execPreparedTransferTrigger h _ : OutOk (execPreparedTransferTrigger core s))
  | loopEndTest core => exact (outOk_execLoopEndTest h _ : OutOk (execLoopEndTest core s))
  | accessComplete core n => exact (outOk_execAccessComplete h _ _ : OutOk (execAccessComplete core n s))
  | pageWalkComplete core => exact (outOk_execPageWalkComplete h _ : OutOk (execPageWalkComplete core s))
  | overlayFetchComplete core bank => exact (outOk_execOverlayFetchComplete h _ _ : OutOk (execOverlayFetchComplete core bank s))
  | spillRefillComplete core => exact (outOk_execSpillRefillComplete h _ : OutOk (execSpillRefillComplete core s))
  | remoteAccessTimeout core w => exact (outOk_execRemoteAccessTimeout h _ _ : OutOk (execRemoteAccessTimeout core w s))
  | preemption task => exact (outOk_execPreemption h _ : OutOk (execPreemption task s))
  | lazyClaim core => exact (outOk_execLazyClaim h _ : OutOk (execLazyClaim core s))
  | tokenWaitEnd core => exact (outOk_execTokenWaitEnd h _ : OutOk (execTokenWaitEnd core s))
  | writePointerWaitEnd core => exact (outOk_execWritePointerWaitEnd h _ : OutOk (execWritePointerWaitEnd core s))
  | barrierComplete task => exact (outOk_execBarrierComplete h _ : OutOk (execBarrierComplete task s))
  | eventWaitEnd core => exact (outOk_execEventWaitEnd h _ : OutOk (execEventWaitEnd core s))
  | greenShareSpaceAvailable core => exact (outOk_execGreenShareSpaceAvailable h _ : OutOk (execGreenShareSpaceAvailable core s))
  | matrixEntryStart core => exact (outOk_execMatrixEntryStart h _ : OutOk (execMatrixEntryStart core s))
  | assayComplete hearth => exact (outOk_execAssayComplete h _ : OutOk (execAssayComplete hearth s))
  | runnerOperationStart core ch => exact (outOk_execRunnerOperationStart h _ _ : OutOk (execRunnerOperationStart core ch s))
  | runnerOperationComplete core ch => exact (outOk_execRunnerOperationComplete h _ _ : OutOk (execRunnerOperationComplete core ch s))
  | scopyFarWrite core ch flip => exact (outOk_execScopyFarWrite h _ _ _ : OutOk (execScopyFarWrite core ch flip s))
  | collectiveComplete ctx group => exact (outOk_execCollectiveComplete h _ _ : OutOk (execCollectiveComplete ctx group s))
  | orderedAtomicRequest n => exact (outOk_execOrderedAtomicRequest h _ : OutOk (execOrderedAtomicRequest n s))
  | orderedAtomicResend n => exact (outOk_execOrderedAtomicResend h _ : OutOk (execOrderedAtomicResend n s))
  | fabricPacketReceive p pkt => exact (outOk_execFabricPacketReceive h _ _ : OutOk (execFabricPacketReceive p pkt s))
  | fabricAckReceive p seq => exact (outOk_execFabricAckReceive h _ _ : OutOk (execFabricAckReceive p seq s))
  | fabricNakReceive p seq => exact (outOk_execFabricNakReceive h _ _ : OutOk (execFabricNakReceive p seq s))
  | ackIdleTimer p => exact (outOk_execAckIdleTimer h _ : OutOk (execAckIdleTimer p s))
  | laneFailure p lane => exact (outOk_execLaneFailure h _ _ : OutOk (execLaneFailure p lane s))
  | retrainComplete p stall => exact (outOk_execRetrainComplete h _ _ : OutOk (execRetrainComplete p stall s))
  | partnerTimeout p => exact (outOk_execPartnerTimeout h _ : OutOk (execPartnerTimeout p s))
  | cxlContainment p => exact (outOk_execCxlContainment h _ : OutOk (execCxlContainment p s))
  | hostLinkDown p => exact (outOk_execHostLinkDown h _ : OutOk (execHostLinkDown p s))
  | correctedEccError cls inst => exact (outOk_execCorrectedEccError h _ _ : OutOk (execCorrectedEccError cls inst s))
  | uncorrectedEccError site => exact (outOk_execUncorrectedEccError h _ : OutOk (execUncorrectedEccError site s))
  | handlerCountAdvance core => exact (outOk_execHandlerCountAdvance h _ : OutOk (execHandlerCountAdvance core s))
  | powerLoss standby => exact (outOk_execPowerLoss h _ : OutOk (execPowerLoss standby s))
  | hostWritesToDeviceMemory addr bytes => exact (outOk_execHostWritesToDeviceMemory h _ _ : OutOk (execHostWritesToDeviceMemory addr bytes s))


/-! ## Bundle -/

theorem memOk_issueView (h : MemOk s) (core : Nat) : MemOk (issueView s core) := by
  unfold issueView
  grind [memOk_mk, memOk_modCore]

theorem memOk_restoreView (h : MemOk s) (t : State) (core : Nat) (ht : MemOk t) : MemOk (restoreView s t core) := by
  unfold restoreView
  grind [memOk_foldl, memOk_modCore]

theorem memOk_runSlot (h : MemOk s) (i : Instr) : MemOk (runSlot s i) := by
  unfold runSlot
  split
  · exact (outOk_exec (memOk_modMe h _) i).memOk _ ‹_›
  · exact h

theorem memOk_bankTrap (h : MemOk s) (addr : Nat) (b : IBank) : MemOk (bankTrap s addr b) := by
  unfold bankTrap
  grind [memOk_takeTrap]

theorem memOk_heldBy (h : MemOk s) (t : State) (core : Nat) (ops : List Instr) (each : List (Mark × State)) (ht : MemOk t) :
    MemOk (heldBy s t core ops each) := h

theorem memOk_blockedBy (h : MemOk s) (t : State) (core : Nat) (ops : List Instr) (v : State) (each : List (Mark × State)) (ht : MemOk t) (hv : MemOk v) :
    MemOk (blockedBy s t core ops v each) := h

theorem memOk_runSlots (h : MemOk s) (core : Nat) (l : List Instr) : MemOk (runSlots core l s).1 := by
  induction l generalizing s with
  | nil => exact h
  | cons i r ih =>
    unfold runSlots
    grind [memOk_runSlot]

theorem memOk_commitBundle (h : MemOk s) (core pc len : Nat) (old : Tab Target) (conds : Tab Bool) (t : State) (ht : MemOk t) :
    MemOk (commitBundle s core pc len old conds t) := by
  unfold commitBundle
  grind [memOk_modCore, memOk_restoreView, memOk_settleCore]

/-- The slot that decides a bundle is one of its slots. -/
theorem mem_of_decidingSlot {l : List (Mark × State)} {x : Mark × State} (hx : decidingSlot l = some x) : x ∈ l := by
  unfold decidingSlot at hx
  simp only [Option.or_eq_some_iff] at hx
  obtain hx | ⟨-, hx | ⟨-, hx | ⟨-, hx⟩⟩⟩ := hx <;> exact List.mem_of_find?_eq_some hx

/-- Each slot of a bundle, executed on its own, leaves canonical memories; so does the one that decides the bundle. -/
theorem memOk_decidingSlot {v : State} (hv : MemOk v) {core : Nat} {ops : List Instr} {m : Mark} {t : State}
    (hx : decidingSlot (ops.map fun i => let t := runSlot v i; (markOf t core, t)) = some (m, t)) : MemOk t := by
  obtain ⟨i, -, hi⟩ := List.mem_map.mp (mem_of_decidingSlot hx)
  obtain ⟨-, rfl⟩ := Prod.mk.inj hi
  exact memOk_runSlot hv i

theorem memOk_runBundle (h : MemOk s) (core : Nat) (ops : List Instr) (len : Nat) : MemOk (runBundle s core ops len) := by
  have hv := memOk_issueView h core
  unfold runBundle
  extract_lets c v each
  split
  next t ht => exact memOk_heldBy h _ _ _ _ (memOk_decidingSlot hv ht)
  next t ht => exact memOk_blockedBy h _ _ _ _ _ (memOk_decidingSlot hv ht) hv
  next t ht => exact memOk_settleCore (memOk_restoreView h _ _ (memOk_modCore (memOk_decidingSlot hv ht) _ _)) _
  next =>
    have hr := memOk_runSlots hv core (slotOrder ops)
    split
    next t ht =>
      rw [ht] at hr
      exact memOk_commitBundle h _ _ _ _ _ _ hr
    next t ht =>
      rw [ht] at hr
      exact memOk_ite (memOk_heldBy h _ _ _ _ hr) (memOk_blockedBy h _ _ _ _ _ hr hv)

theorem memOk_noteIssued (h : MemOk s) (core : Nat) (handler : Bool) : MemOk (noteIssued s core handler) := by
  unfold noteIssued
  grind [memOk_modTask]

theorem memOk_lateTrap (h : MemOk s) (core n : Nat) (row : W64 × Nat) : MemOk (lateTrap s core n row) := by
  unfold lateTrap
  grind [memOk_modCore, memOk_settleCore, memOk_takeTrap]

theorem memOk_issueNow (h : MemOk s) (core : Nat) : MemOk (issueNow s core) := by
  unfold issueNow
  grind [memOk_mk, memOk_bankTrap, memOk_lateTrap, memOk_modCore, memOk_runBundle, memOk_settleCore, memOk_takeTrap]

theorem memOk_issueBundle (h : MemOk s) (core : Nat) : MemOk (issueBundle s core) := by
  unfold issueBundle
  refine memOk_ite h (memOk_noteIssued (memOk_issueNow ?_ _) _ _)
  exact h

theorem memOk_microStep (h : MemOk s) (core : Nat) : MemOk (microStep s core) := by
  unfold microStep
  grind [memOk_microAbort, memOk_modCore, memOk_runSlot, memOk_settleCore]

theorem memOk_keepUnit (h : MemOk s) (core u : Nat) : MemOk (keepUnit s core u) := by
  unfold keepUnit
  split
  · exact memOk_ite h (memOk_saveImage h _ _ _ _ _)
  · exact h

theorem memOk_microMove (h : MemOk s) (core : Nat) : MemOk (microMove s core) := by
  unfold microMove
  split
  · exact memOk_keepUnit (memOk_onUnit h _ _ _ fun s hs => memOk_microStep hs _) _ _
  · refine memOk_microStep ?_ _
    exact h


/-! ## Moves -/

theorem memOk_engineMove (h : MemOk s) (core : Nat) (f : State → State) (hf : ∀ s, MemOk s → MemOk (f s)) : MemOk (engineMove s core f) := by
  unfold engineMove
  grind []

theorem outOk_runMove (h : MemOk s) (m : Move) : OutOk (runMove s m) := by
  unfold runMove
  extract_lets s1
  have h1 : MemOk s1 := memOk_ite h (memOk_homeShown h)
  cases m with
  | issue core => exact outOk_next (memOk_issueBundle h1 _)
  | micro core => exact outOk_next (memOk_engineMove h1 _ _ fun s hs => memOk_microMove hs _)
  | runner core ch n => exact outOk_next (memOk_engineMove h1 _ _ fun s hs => memOk_runnerMove hs _ _ _)
  | ahead core ch off n => exact outOk_next (memOk_engineMove h1 _ _ fun s hs => memOk_runnerAhead hs _ _ _ _)
  | show_ core n => exact outOk_next (memOk_showStore h1 _ _)
  | event i => exact outOk_exec h1 i

theorem memOk_closeWaits (h : MemOk s) : MemOk (closeWaits s) := by
  unfold closeWaits
  grind [memOk_foldl, memOk_modCore]

theorem memOk_noteStates (h : MemOk s) : MemOk (noteStates s) := memOk_closeWaits h

theorem outOk_noteOut {o : Out} (h : OutOk o) : OutOk (noteOut o) where
  memOk t ht := by
    cases o with
    | next s =>
      cases ht
      exact memOk_noteStates (h.memOk s rfl)
    | fault f => cases ht
    | refused r => cases ht

theorem memOk_beforeMove (h : MemOk s) : MemOk (beforeMove s) := h

theorem outOk_fault (f : Fault) : OutOk (.fault f) where
  memOk _ ht := by cases ht

theorem outOk_stepWith (h : MemOk s) (m : Option Move) : OutOk (stepWith s m) := by
  unfold stepWith
  split
  · exact outOk_next (memOk_beforeMove h)
  split
  · exact outOk_fault _
  · exact outOk_noteOut (outOk_runMove (memOk_beforeMove h) _)


/-! ## Step -/

/-- Settles O59: a step makes one move, every move runs instructions and shared operations, and each of those keeps both memories canonical. -/
theorem stepKeepsMemoryCanonical : Obligations.StepKeepsMemoryCanonical := by
  unfold Obligations.StepKeepsMemoryCanonical
  intro s t h ht
  exact (outOk_stepWith h (nextMove s)).memOk t ht

end Sys2Proof.Canonical
